-- ==== Sys2Proof/Word.lean ====
section
/-! DEFINITION. The word types of the Tirpol and their plainest arithmetic (R2, R3, R10). -/

namespace Sys2Proof

/-- A byte of memory. -/
abbrev Byte := BitVec 8
/-- A 32-bit lane value. -/
abbrev Word := BitVec 32
/-- A 64-bit value: an S register, an instruction word, a clause header. -/
abbrev DWord := BitVec 64
/-- One bit per lane of a group (R122, R125, R140). -/
abbrev Mask := BitVec 64

end Sys2Proof
end

