-- ==== Sys2Proof/Syntax.lean ====
section
/-! DEFINITION. The instructions: the operand fields of each format (R60) and one constructor for each row
of the opcode table: program instructions, copy-engine words (R83, R348) and the machine's own steps. -/

namespace Sys2Proof

/-- The fields of an R-format word (R60). -/
structure RArgs where
  la : BitVec 4 := 0
  cond : BitVec 4 := 0
  wcc : BitVec 1 := 0
  d : BitVec 9 := 0
  x : BitVec 9 := 0
  y : BitVec 9 := 0
  z : BitVec 9 := 0
  m : BitVec 9 := 0
  deriving DecidableEq, Repr, Inhabited

/-- The fields of an I-format word (R60, R62). -/
structure IArgs where
  la : BitVec 4 := 0
  cond : BitVec 4 := 0
  wcc : BitVec 1 := 0
  d : BitVec 9 := 0
  x : BitVec 9 := 0
  imm : BitVec 27 := 0
  deriving DecidableEq, Repr, Inhabited

/-- The fields of a B-format word (R60, R63); LA and WCC are zero in it. -/
structure BArgs where
  cond : BitVec 4 := 0
  hint : BitVec 9 := 0
  off : BitVec 36 := 0
  deriving DecidableEq, Repr, Inhabited

/-- The fields of an M-format word (R60, R64). -/
structure MArgs where
  la : BitVec 4 := 0
  cond : BitVec 4 := 0
  wcc : BitVec 1 := 0
  d : BitVec 9 := 0
  x : BitVec 9 := 0
  off : BitVec 10 := 0
  wid : BitVec 3 := 0
  scope : BitVec 3 := 0
  cp : BitVec 4 := 0
  rcnt : BitVec 4 := 0
  dc : BitVec 3 := 0
  deriving DecidableEq, Repr, Inhabited

/-- The fields of an E-format word (R60, R65); LA, COND and WCC are zero in it. -/
structure EArgs where
  x : BitVec 9 := 0
  y : BitVec 9 := 0
  z : BitVec 9 := 0
  q : BitVec 4 := 0
  dc : BitVec 3 := 0
  mode : BitVec 11 := 0
  deriving DecidableEq, Repr, Inhabited

/-- One constructor for each row of the opcode table. -/
inductive Instr
  /-- IADD (R92) -/
  | iadd (a : RArgs)
  /-- IADD_IMM (R92) -/
  | iaddImm (a : IArgs)
  /-- ISUB (R92) -/
  | isub (a : RArgs)
  /-- ISUB_IMM (R92) -/
  | isubImm (a : IArgs)
  /-- IADC (R92) -/
  | iadc (a : RArgs)
  /-- IADC_IMM (R92) -/
  | iadcImm (a : IArgs)
  /-- ISBC (R92) -/
  | isbc (a : RArgs)
  /-- ISBC_IMM (R92) -/
  | isbcImm (a : IArgs)
  /-- INEG (R92) -/
  | ineg (a : RArgs)
  /-- INEG_IMM (R90) -/
  | inegImm (a : IArgs)
  /-- IABS (R92) -/
  | iabs (a : RArgs)
  /-- IABS_IMM (R90) -/
  | iabsImm (a : IArgs)
  /-- IMIN (R92) -/
  | imin (a : RArgs)
  /-- IMIN_IMM (R92) -/
  | iminImm (a : IArgs)
  /-- IMAX (R92) -/
  | imax (a : RArgs)
  /-- IMAX_IMM (R92) -/
  | imaxImm (a : IArgs)
  /-- IMUL (R92) -/
  | imul (a : RArgs)
  /-- IMUL_IMM (R92) -/
  | imulImm (a : IArgs)
  /-- IMULH (R92) -/
  | imulh (a : RArgs)
  /-- IMULH_IMM (R92) -/
  | imulhImm (a : IArgs)
  /-- IMAD (R92) -/
  | imad (a : RArgs)
  /-- IMAD_IMM (R62) -/
  | imadImm (a : IArgs)
  /-- IMADW (R92) -/
  | imadw (a : RArgs)
  /-- IMADW_IMM (R62) -/
  | imadwImm (a : IArgs)
  /-- ICMP (R92) -/
  | icmp (a : RArgs)
  /-- ICMP_IMM (R92) -/
  | icmpImm (a : IArgs)
  /-- ISAT (R93) -/
  | isat (a : RArgs)
  /-- ISAT_IMM (R92) -/
  | isatImm (a : IArgs)
  /-- IADD64 (R92) -/
  | iadd64 (a : RArgs)
  /-- IADD64_IMM (R92) -/
  | iadd64Imm (a : IArgs)
  /-- ISUB64 (R92) -/
  | isub64 (a : RArgs)
  /-- ISUB64_IMM (R92) -/
  | isub64Imm (a : IArgs)
  /-- ICMP64 (R92) -/
  | icmp64 (a : RArgs)
  /-- ICMP64_IMM (R92) -/
  | icmp64Imm (a : IArgs)
  /-- LEA (R92) -/
  | lea (a : RArgs)
  /-- LEA_IMM (R92) -/
  | leaImm (a : IArgs)
  /-- LEA64 (R93) -/
  | lea64 (a : RArgs)
  /-- AND (R94) -/
  | andL (a : RArgs)
  /-- AND_IMM (R94) -/
  | andLImm (a : IArgs)
  /-- OR (R94) -/
  | orL (a : RArgs)
  /-- OR_IMM (R94) -/
  | orLImm (a : IArgs)
  /-- XOR (R94) -/
  | xorL (a : RArgs)
  /-- XOR_IMM (R94) -/
  | xorLImm (a : IArgs)
  /-- NOT (R94) -/
  | notL (a : RArgs)
  /-- NOT_IMM (R90) -/
  | notLImm (a : IArgs)
  /-- LUT3 (R95) -/
  | lut3 (a : RArgs)
  /-- LUT3_IMM (R95) -/
  | lut3Imm (a : IArgs)
  /-- SHL (R94) -/
  | shl (a : RArgs)
  /-- SHL_IMM (R94) -/
  | shlImm (a : IArgs)
  /-- SHR (R94) -/
  | shr (a : RArgs)
  /-- SHR_IMM (R94) -/
  | shrImm (a : IArgs)
  /-- SAR (R94) -/
  | sar (a : RArgs)
  /-- SAR_IMM (R94) -/
  | sarImm (a : IArgs)
  /-- ROT (R94) -/
  | rot (a : RArgs)
  /-- ROT_IMM (R94) -/
  | rotImm (a : IArgs)
  /-- FSHL (R94) -/
  | fshl (a : RArgs)
  /-- FSHL_IMM (R94) -/
  | fshlImm (a : IArgs)
  /-- FSHR (R94) -/
  | fshr (a : RArgs)
  /-- FSHR_IMM (R94) -/
  | fshrImm (a : IArgs)
  /-- POPC (R94) -/
  | popc (a : RArgs)
  /-- CLZ (R94) -/
  | clz (a : RArgs)
  /-- CTZ (R94) -/
  | ctz (a : RArgs)
  /-- BREV (R94) -/
  | brev (a : RArgs)
  /-- BFX (R96) -/
  | bfx (a : RArgs)
  /-- BFI (R96) -/
  | bfi (a : RArgs)
  /-- PRMB (R96) -/
  | prmb (a : RArgs)
  /-- SEL (R94) -/
  | sel (a : RArgs)
  /-- MOV (R97) -/
  | mov (a : RArgs)
  /-- MOVI (R97) -/
  | movi (a : IArgs)
  /-- MOVHI (R97) -/
  | movhi (a : IArgs)
  /-- SXT (R97) -/
  | sxt (a : RArgs)
  /-- ZXT (R97) -/
  | zxt (a : RArgs)
  /-- MFS (R98) -/
  | mfs (a : RArgs)
  /-- MTS (R99) -/
  | mts (a : RArgs)
  /-- CCRD (R100) -/
  | ccrd (a : RArgs)
  /-- CCWR (R100) -/
  | ccwr (a : RArgs)
  /-- FADD (R101) -/
  | fadd (a : RArgs)
  /-- FSUB (R101) -/
  | fsub (a : RArgs)
  /-- FMUL (R101) -/
  | fmul (a : RArgs)
  /-- FFMA (R101) -/
  | ffma (a : RArgs)
  /-- FMIN (R101) -/
  | fmin (a : RArgs)
  /-- FMAX (R101) -/
  | fmax (a : RArgs)
  /-- FCMP (R102) -/
  | fcmp (a : RArgs)
  /-- FCLASS (R103) -/
  | fclass (a : RArgs)
  /-- FRND (R103) -/
  | frnd (a : RArgs)
  /-- HADD2 (R104) -/
  | hadd2 (a : RArgs)
  /-- HMUL2 (R104) -/
  | hmul2 (a : RArgs)
  /-- HFMA2 (R104) -/
  | hfma2 (a : RArgs)
  /-- BADD2 (R104) -/
  | badd2 (a : RArgs)
  /-- BMUL2 (R104) -/
  | bmul2 (a : RArgs)
  /-- BFMA2 (R104) -/
  | bfma2 (a : RArgs)
  /-- FRCP (R105) -/
  | frcp (a : RArgs)
  /-- FRSQ (R105) -/
  | frsq (a : RArgs)
  /-- FSQRT (R105) -/
  | fsqrt (a : RArgs)
  /-- FEXP2 (R105) -/
  | fexp2 (a : RArgs)
  /-- FLOG2 (R105) -/
  | flog2 (a : RArgs)
  /-- FSIN (R105) -/
  | fsin (a : RArgs)
  /-- FCOS (R105) -/
  | fcos (a : RArgs)
  /-- FTANH (R105) -/
  | ftanh (a : RArgs)
  /-- FDIV (R105) -/
  | fdiv (a : RArgs)
  /-- FCVT (R107) -/
  | fcvt (a : RArgs)
  /-- ICVT (R108) -/
  | icvt (a : RArgs)
  /-- FICVT (R108) -/
  | ficvt (a : RArgs)
  /-- PACK (R109) -/
  | pack (a : RArgs)
  /-- UNPK (R109) -/
  | unpk (a : RArgs)
  /-- AMAXRD (R110) -/
  | amaxrd (a : RArgs)
  /-- AMAXCLR (R110) -/
  | amaxclr (a : RArgs)
  /-- BR (R111) -/
  | br (a : BArgs)
  /-- BRX (R112) -/
  | brx (a : RArgs)
  /-- CALL (R113) -/
  | call (a : BArgs)
  /-- CALLX (R113) -/
  | callx (a : RArgs)
  /-- RET (R113) -/
  | ret (a : RArgs)
  /-- EXIT (R114) -/
  | exitI (a : RArgs)
  /-- YIELD (R115) -/
  | yieldI (a : RArgs)
  /-- NOP (R115) -/
  | nop (a : RArgs)
  /-- REP (R76) -/
  | rep (a : IArgs)
  /-- TRAP (R116) -/
  | trapI (a : IArgs)
  /-- BKPT (R116) -/
  | bkpt (a : RArgs)
  /-- RTT (R117) -/
  | rtt (a : RArgs)
  /-- WAITDC (R118) -/
  | waitdc (a : IArgs)
  /-- SHFL (R147) -/
  | shfl (a : RArgs)
  /-- VOTE (R148) -/
  | vote (a : RArgs)
  /-- MATCH (R148) -/
  | matchI (a : RArgs)
  /-- BCAST (R148) -/
  | bcast (a : RArgs)
  /-- RED (R150) -/
  | red (a : RArgs)
  /-- SCAN (R151) -/
  | scan (a : RArgs)
  /-- XRD (R153) -/
  | xrd (a : RArgs)
  /-- LNRD (R154) -/
  | lnrd (a : RArgs)
  /-- LNWR (R155) -/
  | lnwr (a : RArgs)
  /-- BAR (R156) -/
  | bar (a : RArgs)
  /-- ARRIVE (R160) -/
  | arrive (a : RArgs)
  /-- WAITPH (R161) -/
  | waitph (a : RArgs)
  /-- CBAR (R256) -/
  | cbar (a : RArgs)
  /-- EVWAIT (R319) -/
  | evwait (a : RArgs)
  /-- EVPOST (R319) -/
  | evpost (a : RArgs)
  /-- BIND (R163) -/
  | bind (a : IArgs)
  /-- UNBIND (R163) -/
  | unbind (a : RArgs)
  /-- LADD (R165) -/
  | ladd (a : RArgs)
  /-- LADC (R165) -/
  | ladc (a : RArgs)
  /-- LSUB (R165) -/
  | lsub (a : RArgs)
  /-- LSBC (R165) -/
  | lsbc (a : RArgs)
  /-- LNEG (R165) -/
  | lneg (a : RArgs)
  /-- LCMP (R165) -/
  | lcmp (a : RArgs)
  /-- LSHL (R165) -/
  | lshl (a : RArgs)
  /-- LSHR (R165) -/
  | lshr (a : RArgs)
  /-- LSAR (R165) -/
  | lsar (a : RArgs)
  /-- LMAD (R165) -/
  | lmad (a : RArgs)
  /-- PLDI (R173) -/
  | pldi (a : RArgs)
  /-- PLDS (R173) -/
  | plds (a : RArgs)
  /-- PSTI (R174) -/
  | psti (a : RArgs)
  /-- PSTS (R174) -/
  | psts (a : RArgs)
  /-- PCOMP (R175) -/
  | pcomp (a : RArgs)
  /-- PINV (R175) -/
  | pinv (a : RArgs)
  /-- PRAND (R176) -/
  | prand (a : RArgs)
  /-- PIDN (R175) -/
  | pidn (a : RArgs)
  /-- PAPPLY (R177) -/
  | papply (a : RArgs)
  /-- PCYC (R178) -/
  | pcyc (a : RArgs)
  /-- GANG (R181) -/
  | gang (a : RArgs)
  /-- MMA (R188) -/
  | mma (a : EArgs)
  /-- ACLR (R198) -/
  | aclr (a : RArgs)
  /-- ALD (R199) -/
  | ald (a : EArgs)
  /-- AST (R200) -/
  | ast (a : EArgs)
  /-- AMOV (R201) -/
  | amov (a : RArgs)
  /-- MXRD (R203) -/
  | mxrd (a : RArgs)
  /-- MXCLR (R203) -/
  | mxclr (a : RArgs)
  /-- TFETCH (R197) -/
  | tfetch (a : EArgs)
  /-- LD (R217) -/
  | ld (a : MArgs)
  /-- ST (R217) -/
  | st (a : MArgs)
  /-- LDE (R219) -/
  | lde (a : MArgs)
  /-- STE (R219) -/
  | ste (a : MArgs)
  /-- LDL (R217) -/
  | ldl (a : MArgs)
  /-- STL (R217) -/
  | stl (a : MArgs)
  /-- LDF (R220) -/
  | ldf (a : MArgs)
  /-- STF (R220) -/
  | stf (a : MArgs)
  /-- LDW (R221) -/
  | ldw (a : MArgs)
  /-- ATOM (R223) -/
  | atom (a : MArgs)
  /-- ATOML (R223) -/
  | atoml (a : MArgs)
  /-- REDM (R223) -/
  | redm (a : MArgs)
  /-- PREF (R224) -/
  | pref (a : MArgs)
  /-- FENCE (R225) -/
  | fence (a : MArgs)
  /-- CPUB (R226) -/
  | cpub (a : MArgs)
  /-- QFENCE (R227) -/
  | qfence (a : RArgs)
  /-- PHASE (R229) -/
  | phase (a : RArgs)
  /-- OBJDECL (R228) -/
  | objdecl (a : EArgs)
  /-- OBJREL (R230) -/
  | objrel (a : RArgs)
  /-- PLACE (R231) -/
  | place (a : EArgs)
  /-- PLACEW (R232) -/
  | placew (a : EArgs)
  /-- COPY (R237) -/
  | copy (a : EArgs)
  /-- COPYG (R238) -/
  | copyg (a : EArgs)
  /-- COPYS (R238) -/
  | copys (a : EArgs)
  /-- FILL (R239) -/
  | fill (a : EArgs)
  /-- BANKCFG (R253) -/
  | bankcfg (a : RArgs)
  /-- PWRHINT (R263) -/
  | pwrhint (a : IArgs)
  /-- SLEEP (R264) -/
  | sleep (a : IArgs)
  /-- SIGNAL (R411) -/
  | signal (a : EArgs)
  /-- LAUNCH (R311) -/
  | launch (a : EArgs)
  /-- SPAWN (R316) -/
  | spawn (a : EArgs)
  /-- TLBINV (R289) -/
  | tlbinv (a : RArgs)
  /-- CFLUSH (R290) -/
  | cflush (a : MArgs)
  /-- CTXSAVE (R329) -/
  | ctxsave (a : EArgs)
  /-- CTXLOAD (R330) -/
  | ctxload (a : EArgs)
  /-- MTSP (R307) -/
  | mtsp (a : RArgs)
  /-- MFSP (R307) -/
  | mfsp (a : RArgs)
  /-- HALT (R331) -/
  | halt (a : RArgs)
  /-- XCOPY (R349) -/
  | xcopy (step : Bool) (c : BitVec 2) (cl : BitVec 3) (ra : BitVec 51)
  /-- XGATH (R349) -/
  | xgath (step : Bool) (c : BitVec 2) (cl : BitVec 3) (ra : BitVec 51) (idx : BitVec 57)
  /-- XWAIT (R350) -/
  | xwait (dec : Bool) (v : BitVec 32) (ev : BitVec 16)
  /-- XSIG (R350) -/
  | xsig (clr : Bool) (y : BitVec 32) (ev : BitVec 16)
  /-- XLOOP (R350) -/
  | xloop (c : BitVec 2) (n : BitVec 16) (off : BitVec 36)
  /-- XJMP (R350) -/
  | xjmp (off : BitVec 36)
  /-- XPLACE (R351) -/
  | xplace (pin : Bool) (tier : BitVec 2) (ra : BitVec 51)
  /-- XSTRM (R344) -/
  | xstrm (ra : BitVec 51)
  /-- XFENCE (R351) -/
  | xfence
  /-- XEND (R351) -/
  | xend (post : Bool) (ev : BitVec 16)
  /-- CLAUSE_START (R58) -/
  | clauseStart (gid wid : Nat)
  /-- RF_MERGE (R123) -/
  | rfMerge (gid wid : Nat)
  /-- LOOKAHEAD_RESULT (R73) -/
  | lookaheadResult (gid wid rid : Nat)
  /-- GROUP_ACTIVATE (R129) -/
  | groupActivate (gid : Nat)
  /-- GROUP_IDLE_TIMEOUT (R129) -/
  | groupIdleTimeout (gid : Nat)
  /-- COLLECTOR_DISPATCH (R136) -/
  | collectorDispatch (core : Nat)
  /-- UNCORRECTABLE_ERROR (R266) -/
  | uncorrectableError (kind site arg lanes : Nat)
  /-- BARRIER_ARRIVAL (R156) -/
  | barrierArrival (gid : Nat)
  /-- BARRIER_RELEASE (R157) -/
  | barrierRelease (team b : Nat)
  /-- ARRIVAL_APPLY (R160) -/
  | arrivalApply (gid : Nat)
  /-- CROOK_START (R171) -/
  | crookStart (core : Nat)
  /-- CROOK_COMPLETE (R171) -/
  | crookComplete (core : Nat)
  /-- HURDLE_RELEASE (R182) -/
  | hurdleRelease (gid : Nat)
  /-- LIMITER_STEP (R259) -/
  | limiterStep (cluster : Nat)
  /-- MMA_OCCUPANCY_START (R192) -/
  | mmaOccupancyStart (core : Nat)
  /-- MMA_COMPLETE (R192) -/
  | mmaComplete (core : Nat)
  /-- FALLING_STEPS_END (R260) -/
  | fallingStepsEnd (core : Nat)
  /-- PRERAMP_EXPIRE (R263) -/
  | prerampExpire (core : Nat)
  /-- TILE_DEFERRED_FAULT (R196) -/
  | tileDeferredFault (core : Nat)
  /-- ALD_COMPLETE (R199) -/
  | aldComplete (core : Nat)
  /-- AST_COMPLETE (R200) -/
  | astComplete (core : Nat)
  /-- TFETCH_COMPLETE (R197) -/
  | tfetchComplete (core : Nat)
  /-- STORE_COMPLETE (R215) -/
  | storeComplete (rid : Nat)
  /-- LDF_RELEASE (R220) -/
  | ldfRelease (gid wid : Nat)
  /-- STF_RELEASE (R220) -/
  | stfRelease (gid wid : Nat)
  /-- HOME_REQUEST (R273) -/
  | homeRequest (rid part : Nat)
  /-- L1_INVALIDATE (R274) -/
  | l1Invalidate (iid : Nat)
  /-- PHASE_VIEW_UPDATE (R279) -/
  | phaseViewUpdate (core die obj : Nat)
  /-- COPY_COMMAND_START (R240) -/
  | copyCommandStart (core queue : Nat)
  /-- COPY_COMMAND_COMPLETE (R240) -/
  | copyCommandComplete (core queue : Nat)
  /-- COPY_COMMAND_FAULT (R241) -/
  | copyCommandFault (core queue : Nat)
  /-- BANKCFG_CHANGE (R254) -/
  | bankcfgChange (team : Nat)
  /-- CLUSTER_WINDOW_ACCESS (R255) -/
  | clusterWindowAccess (rid : Nat)
  /-- CBAR_RELEASE (R256) -/
  | cbarRelease (cluster ctx b : Nat)
  /-- LANE_MODE_CHANGE (R250) -/
  | laneModeChange (cluster : Nat)
  /-- LANE_RELOCK_DONE (R250) -/
  | laneRelockDone (cluster : Nat)
  /-- SLEEP_WAKE (R264) -/
  | sleepWake (gid wid : Nat)
  /-- GATE_IDLE_TIMEOUT (R265) -/
  | gateIdleTimeout (cluster : Nat)
  /-- GATE_ENTER_DONE (R265) -/
  | gateEnterDone (cluster : Nat)
  /-- GATE_WAKE_DONE (R265) -/
  | gateWakeDone (cluster : Nat)
  /-- TEAM_PLACE (R312) -/
  | teamPlace (die slot core : Nat)
  /-- GROUP_START (R313) -/
  | groupStart (gid : Nat)
  /-- GROUP_END (R315) -/
  | groupEnd (gid : Nat)
  /-- SPAWN_BIN_TIMEOUT (R317) -/
  | spawnBinTimeout (die bin : Nat)
  /-- SAVE_AND_ADMIT (R321) -/
  | saveAndAdmit (die ctx : Nat)
  /-- WATCHDOG_EXPIRE (R322) -/
  | watchdogExpire (die ctx : Nat)
  /-- DRAIN_TIMEOUT (R325) -/
  | drainTimeout (team : Nat)
  /-- TEAM_SAVE (R326) -/
  | teamSave (team : Nat)
  /-- CTXSAVE_SUMMARY (R329) -/
  | ctxsaveSummary (die ctx : Nat)
  /-- DBGRES_WRITE (R399) -/
  | dbgresWrite (die value : Nat)
  /-- REGISTER_WRITE (R306) -/
  | registerWrite (index value : Nat)
  /-- RESOLVE (R287) -/
  | resolve (die record : Nat)
  /-- DENY (R287) -/
  | deny (die record : Nat)
  /-- MIGRATION_START (R339) -/
  | migrationStart (mid : Nat)
  /-- MIGRATION_SWITCH (R339) -/
  | migrationSwitch (mid : Nat)
  /-- PLACE_COMPLETE (R231) -/
  | placeComplete (rid : Nat)
  /-- CE_START (R347) -/
  | ceStart (die engine : Nat)
  /-- CE_STOP (R347) -/
  | ceStop (die engine : Nat)
  /-- CE_TRANSFER_COMPLETE (R349) -/
  | ceTransferComplete (die engine : Nat)
  /-- COMPUTE_RESET (R374) -/
  | computeReset (source : Nat)
  /-- RESET_L2_SWITCH (R374) -/
  | resetL2Switch
  /-- COMPUTE_RESET_END (R374) -/
  | computeResetEnd
  /-- BOOTLR_ENABLE (R382) -/
  | bootlrEnable
  /-- KEEP_DOMAIN_RESET (R375) -/
  | keepDomainReset (source : Nat)
  /-- HOST_MEM_REQUEST (R361) -/
  | hostMemRequest (port kind addr value : Nat)
  /-- BISNP_COMPLETE (R362) -/
  | bisnpComplete (hid : Nat)
  /-- HOST_DEADLINE (R365) -/
  | hostDeadline (hid : Nat)
  /-- FINAT_UNTRANSLATABLE (R367) -/
  | finatUntranslatable (hid : Nat)
  /-- SIGNAL_WINDOW_WRITE (R369) -/
  | signalWindowWrite (port addr value : Nat)
  /-- SIGNAL_RING_WRITE (R370) -/
  | signalRingWrite (sid : Nat)
  /-- INBOUND_POSTED_WRITE (R379) -/
  | inboundPostedWrite (port fn addr value size : Nat)
  /-- ROUTE_ACK (R379) -/
  | routeAck (port pid route : Nat)
  /-- INBOUND_READ (R372) -/
  | inboundRead (port fn addr size : Nat)
  /-- OUTBOUND_LOAD_TIMEOUT (R371) -/
  | outboundLoadTimeout (rid : Nat)
  /-- REMOTE_REQUEST (R408) -/
  | remoteRequest (src kind va tidx value : Nat)
  /-- SIGNAL_DELIVER (R412) -/
  | signalDeliver (sid : Nat)
  /-- SIGNAL_ACK (R412) -/
  | signalAck (sid : Nat)
  /-- LINK_NARROW (R406) -/
  | linkNarrow (link : Nat)
  /-- LINK_DOWN (R406) -/
  | linkDown (link : Nat)
  /-- UNREACHABLE_TIMEOUT (R406) -/
  | unreachableTimeout (rid : Nat)
  /-- SYNC_LOST (R407) -/
  | syncLost
  /-- COLLECTIVE_DOORBELL (R413) -/
  | collectiveDoorbell (die ctx value : Nat)
  /-- COLLECTIVE_DOORBELL_READ (R413) -/
  | collectiveDoorbellRead (die ctx rid : Nat)
  /-- COLLECTIVE_COMPLETE (R415) -/
  | collectiveComplete (die ctx result : Nat)
  /-- COLLECTIVE_TIMEOUT (R415) -/
  | collectiveTimeout (die ctx : Nat)
  /-- POWER_INTERVAL (R385) -/
  | powerInterval (milliwatts : Nat)
  /-- THROTTLE_ANNOUNCEMENT (R388) -/
  | throttleAnnouncement (group fcap gpwr : Nat)
  /-- ANNOUNCEMENT_APPLY (R388) -/
  | announcementApply (island : Nat)
  /-- HBM_TEMP_SAMPLE (R389) -/
  | hbmTempSample (stack temp : Nat)
  /-- SECURITY_ALARM (R397) -/
  | securityAlarm (level source ctx : Nat)
  /-- ATTESTATION_REQUEST (R396) -/
  | attestationRequest (value : Nat)
  /-- ATTESTATION_REPORT_DONE (R396) -/
  | attestationReportDone
  /-- FENCE_COMPLETE (R225) -/
  | fenceComplete (gid wid : Nat)
  /-- BAR0_READ (R368) -/
  | bar0Read (port offset : Nat)
  /-- PORT_LINK_UP (R355) -/
  | portLinkUp (port width : Nat)
  /-- PORT_LINK_DOWN (R359) -/
  | portLinkDown (port : Nat)
  /-- LINK_UP (R406) -/
  | linkUp (link : Nat)
  /-- SYNC_HELD (R407) -/
  | syncHeld
  /-- RESET_WRITE_BACK (R383) -/
  | resetWriteBack (line : Nat)
  /-- COMPRESSION (R341) -/
  | compression (page : Nat)
  /-- UNIT_EXPANSION (R341) -/
  | unitExpansion (page unit : Nat)
  deriving DecidableEq, Repr, Inhabited

end Sys2Proof
end

