-- ==== Sys2Proof/Machine/Info.lean ====
section
/-! DEFINITION. What the opcode maps and the entries say of each instruction's word: its space and
opcode (R80 to R82), how each operand field is used (R66, R67, R87), and its static checks. -/

namespace Sys2Proof.Machine

/-- The spaces an opcode is assigned in: `any0` is common in its scalar form (R82), `any` is common,
`vecsys` is LNRD and LNWR; `word` is a copy-engine word, `event` a step of the machine itself. -/
inductive Space | any0 | any | vec | mat | cpy | sys | vecsys | word | event
  deriving DecidableEq, Repr

/-- How an entry uses an operand field. -/
inductive Role | unused | raw | dst | src | upd
  deriving DecidableEq, Repr

/-- An operand field: its use, the number of registers it names (R77), and the classes it admits
(V, S, K, and the special registers and inline constants). -/
structure Opd where
  use : Role := .unused
  size : Nat := 1
  v : Bool := false
  s : Bool := false
  k : Bool := false
  o : Bool := false
  deriving DecidableEq, Repr

namespace Opd
def no : Opd := {}
def raw : Opd := { use := .raw }
def src32 : Opd := ⟨.src, 1, true, true, true, true⟩
def src64 : Opd := ⟨.src, 2, true, true, true, true⟩
def srcV : Opd := ⟨.src, 1, true, false, false, false⟩
def srcVV : Opd := ⟨.src, 2, true, false, false, false⟩
def srcS : Opd := ⟨.src, 1, false, true, false, false⟩
/-- A uniform scalar class (R200). -/
def srcU : Opd := ⟨.src, 1, false, true, true, true⟩
/-- An address: an S register, an even V pair or an even K pair (R112, R212). -/
def srcA : Opd := ⟨.src, 2, true, true, true, false⟩
def dst32 : Opd := ⟨.dst, 1, true, true, false, false⟩
def dst64 : Opd := ⟨.dst, 2, true, true, false, false⟩
def dstV : Opd := ⟨.dst, 1, true, false, false, false⟩
def dstVV : Opd := ⟨.dst, 2, true, false, false, false⟩
def dstS : Opd := ⟨.dst, 1, false, true, false, false⟩
def upd32 : Opd := ⟨.upd, 1, true, true, false, false⟩
def upd64 : Opd := ⟨.upd, 2, true, true, false, false⟩
def updV : Opd := ⟨.upd, 1, true, false, false, false⟩
end Opd

/-- The registers a field of a 64-bit or a 32-bit operand names. -/
def srcW (w64 : Bool) : Opd := if w64 then .src64 else .src32
def dstW (w64 : Bool) : Opd := if w64 then .dst64 else .dst32
/-- The data field of a memory instruction of width WID (R64, R216). -/
def dstB (wid : BitVec 3) : Opd :=
  if wid = 4 then ⟨.dst, 4, true, false, false, false⟩ else dstW (wid == 3#3)
def srcB (wid : BitVec 3) : Opd :=
  if wid = 4 then ⟨.src, 4, true, false, false, false⟩ else srcW (wid == 3#3)

/-- The class of an operand field and its number (R67). -/
def isV (f : BitVec 9) : Bool := !f.getLsbD 8
def isS (f : BitVec 9) : Bool := f.extractLsb' 6 3 == 4#3
def isK (f : BitVec 9) : Bool := f.extractLsb' 6 3 == 5#3
def isSpec (f : BitVec 9) : Bool := f.extractLsb' 6 3 == 6#3
def isIC (f : BitVec 9) : Bool := f.extractLsb' 6 3 == 7#3
/-- The register number of a V operand, or [5:0] of another. -/
def fnum (f : BitVec 9) : Nat := if isV f then f.toNat else f.toNat % 64

/-- Everything the maps and an entry say of one word. -/
structure Info where
  space : Space
  opc : Nat
  /-- The fields D, X, Y, Z of the formats that have them. -/
  d : Opd := .no
  x : Opd := .no
  y : Opd := .no
  z : Opd := .no
  /-- The bits of M[5:0] the entry names. -/
  mOk : Nat := 0
  /-- RMO may be set (R61). -/
  rnd : Bool := false
  /-- WCC may be set (R89). -/
  wcc : Bool := false
  /-- LA may be set (R72). -/
  la : Bool := false
  /-- COND must be AL. -/
  al : Bool := false
  /-- A scalar form exists (R68, R88). -/
  scal : Bool := true
  /-- The entry defines a scalar result with V sources (R44). -/
  sdv : Bool := false
  /-- An instruction of "Group instructions": no scalar form, any COND its entry allows (R68). -/
  cross : Bool := false
  /-- A control-flow instruction (R55). -/
  ctl : Bool := false
  /-- The entry's own checks of the word. -/
  ok : Bool := true
  deriving DecidableEq, Repr

end Sys2Proof.Machine

namespace Sys2Proof
open Sys2Proof.Machine

/-- M[5:0], RMO and M[0] of an R-format word. -/
def RArgs.m5 (a : RArgs) : BitVec 6 := a.m.extractLsb' 0 6
def RArgs.rmo (a : RArgs) : BitVec 3 := a.m.extractLsb' 6 3
def RArgs.w64 (a : RArgs) : Bool := a.m.getLsbD 0
/-- R70. -/
def MArgs.rcOk (a : MArgs) : Bool := a.cp.getLsbD 0 == (a.rcnt != 0#4)
def MArgs.nr (a : MArgs) : Bool := a.cp.getLsbD 3
/-- The scope, hint and counter fields of a load, a store and a local access (R216). -/
def MArgs.ldOk (a : MArgs) : Bool := a.scope != 7#3 && a.rcOk && a.dc == 6#3
def MArgs.stOk (a : MArgs) : Bool := a.scope != 7#3 && !a.cp.getLsbD 0 && a.rcnt == 0#4 && decide (a.dc < 7)
def MArgs.locOk (a : MArgs) : Bool := a.scope == 0#3 && a.cp == 0#4 && a.rcnt == 0#4 && decide (a.wid < 5)
def EArgs.dcOk (a : EArgs) : Bool := decide (a.dc < 7)
def EArgs.qz (a : EArgs) : Bool := a.q == 0#4

end Sys2Proof

namespace Sys2Proof.Machine

/-- Formats and positions of conversions (R106): code, position. -/
def fmtOk (c : BitVec 3) : Bool := decide (c < 5)
def posOk (c : BitVec 3) (p : BitVec 2) : Bool :=
  if c = 0 then p == 0#2 else if c < 3 then decide (p < 2) else true
/-- Positions of an integer of width code `w` (R108). -/
def ipos (w : BitVec 2) (p : BitVec 2) : Bool :=
  if w = 0 then true else if w = 1 then decide (p < 2) else p == 0#2
def dstZ (a : RArgs) : Opd := if a.m.getLsbD 5 then .dst32 else .upd32
def fcvtOk (a : RArgs) : Bool :=
  decide (a.z < 64) && fmtOk (a.z.extractLsb' 0 3) && fmtOk (a.z.extractLsb' 3 3)
    && posOk (a.z.extractLsb' 0 3) (a.m.extractLsb' 1 2) && posOk (a.z.extractLsb' 3 3) (a.m.extractLsb' 3 2)
def icvtOk (a : RArgs) : Bool :=
  decide (a.z < 32) && fmtOk (a.z.extractLsb' 0 3) && posOk (a.z.extractLsb' 0 3) (a.m.extractLsb' 1 2)
    && ipos (a.z.extractLsb' 3 2) (a.m.extractLsb' 3 2)
def ficvtOk (a : RArgs) : Bool :=
  decide (a.z < 64) && !a.z.getLsbD 2 && fmtOk (a.z.extractLsb' 3 3)
    && posOk (a.z.extractLsb' 3 3) (a.m.extractLsb' 3 2)
def packWide (a : RArgs) : Bool := a.m.extractLsb' 0 3 == 1#3 || a.m.extractLsb' 0 3 == 2#3
def packOk (a : RArgs) : Bool :=
  fmtOk (a.m.extractLsb' 0 3) && a.m.extractLsb' 0 3 != 0#3 && !(packWide a && a.m.getLsbD 4)
def unpkOk (a : RArgs) : Bool :=
  fmtOk (a.m.extractLsb' 0 3) && a.m.extractLsb' 0 3 != 0#3 && posOk (a.m.extractLsb' 0 3) (a.m.extractLsb' 3 2)
/-- The operation of RED and SCAN (R149). -/
def redOk (a : RArgs) : Bool :=
  decide (a.m5.extractLsb' 0 4 < 11) && !(a.m5.getLsbD 4 && decide (8 ≤ a.m5.extractLsb' 0 4))
/-- M and N of a matrix command (R188). -/
def mnOk (a : EArgs) : Bool := a.mode.extractLsb' 4 2 != 3#2 && a.mode.extractLsb' 6 2 != 3#2
def mmaOk (a : EArgs) : Bool :=
  mnOk a && decide (a.mode.extractLsb' 0 4 < 7) && a.mode.extractLsb' 9 2 == 0#2 && a.qz && a.dcOk
def aldOk (a : EArgs) : Bool :=
  mnOk a && a.mode.extractLsb' 0 4 == 0#4 && decide (a.z < 16) && a.qz && a.dcOk
/-- The data operand of an atomic (R223): read, and written by a returning form. -/
def atomD (a : MArgs) : Opd :=
  if a.nr then srcB a.wid else ⟨.upd, if a.wid = 3 then 2 else 1, true, true, false, false⟩
/-- The operand that follows D in a cas (R223). -/
def casOk (a : MArgs) : Bool :=
  a.rcnt != 9#4 ||
  (let q := if a.wid = 3 then 4 else 2
   (isV a.d && decide (fnum a.d % q = 0)) || (isS a.d && decide (fnum a.d ≤ 62)) || (isK a.d && a.nr && decide (fnum a.d % q = 0)))
def atomOk (a : MArgs) : Bool :=
  (a.wid == 2#3 || a.wid == 3#3) && a.cp &&& 7#4 == 0#4
    && (decide (a.rcnt < 10) || (a.rcnt == 10#4 && a.wid == 2#3)) && casOk a
    && (if a.nr then decide (a.dc < 7) else a.dc == 6#3)
def redmOk (a : MArgs) : Bool :=
  (a.wid == 2#3 || a.wid == 3#3) && a.cp == 0#4 && a.scope != 7#3 && decide (a.dc < 7)
    && (decide (a.rcnt < 8) || (decide (10 ≤ a.rcnt) && decide (a.rcnt < 14) && a.wid == 2#3))
/-- R263. -/
def pwrhintOk (a : IArgs) : Bool :=
  let n := a.imm.toNat
  decide (n < 2 ^ 16) && (n == 0 || (decide (n % 16 = 1) && decide (16 ≤ n)))
/-- R316. -/
def spawnOk (a : EArgs) : Bool :=
  let n := a.mode.toNat
  decide (n ≤ 4) && a.z == 0#9 && a.qz && a.dcOk
    && (if n = 0 then a.y == 0#9 else isV a.y && decide (fnum a.y + n ≤ 256))
/-- R290. -/
def cflushOk (a : MArgs) : Bool :=
  a.off == 0#10 && a.wid == 0#3 && a.cp.extractLsb' 0 2 == 0#2 && a.cp.extractLsb' 2 2 != 3#2 && a.rcnt == 0#4
    && a.dc == 6#3 && decide (2 ≤ a.scope) && a.scope != 7#3

/-- A row of each format. X of an E-format word is an S register (R65). -/
def rI (sp : Space) (o : Nat) : Info := { space := sp, opc := o }
def iI (sp : Space) (o : Nat) : Info := { space := sp, opc := o }
def bI (sp : Space) (o : Nat) : Info := { space := sp, opc := o }
def mI (sp : Space) (o : Nat) : Info := { space := sp, opc := o }
def eI (sp : Space) (o : Nat) : Info := { space := sp, opc := o, x := .srcS, scal := false }


/-- The row of the opcode maps (R80 to R82) and the fields (R66, R88 to R91, and the entries) of each instruction. -/
def info : Instr → Info
  | .iadd _ => { rI .any0 0x000 with d := .dst32, x := .src32, y := .src32, mOk := 3, wcc := true }
  | .iaddImm _ => { iI .any0 0x020 with d := .dst32, x := .src32, wcc := true }
  | .isub _ => { rI .any0 0x001 with d := .dst32, x := .src32, y := .src32, mOk := 3, wcc := true }
  | .isubImm _ => { iI .any0 0x021 with d := .dst32, x := .src32, wcc := true }
  | .iadc _ => { rI .any0 0x002 with d := .dst32, x := .src32, y := .src32, wcc := true, scal := false }
  | .iadcImm _ => { iI .any0 0x022 with d := .dst32, x := .src32, wcc := true, scal := false }
  | .isbc _ => { rI .any0 0x003 with d := .dst32, x := .src32, y := .src32, wcc := true, scal := false }
  | .isbcImm _ => { iI .any0 0x023 with d := .dst32, x := .src32, wcc := true, scal := false }
  | .ineg _ => { rI .any0 0x004 with d := .dst32, x := .src32, wcc := true }
  | .inegImm _ => { iI .any0 0x024 with d := .dst32, wcc := true }
  | .iabs _ => { rI .any0 0x005 with d := .dst32, x := .src32, wcc := true }
  | .iabsImm _ => { iI .any0 0x025 with d := .dst32, wcc := true }
  | .imin _ => { rI .any0 0x006 with d := .dst32, x := .src32, y := .src32, mOk := 1, wcc := true }
  | .iminImm _ => { iI .any0 0x026 with d := .dst32, x := .src32, wcc := true }
  | .imax _ => { rI .any0 0x007 with d := .dst32, x := .src32, y := .src32, mOk := 1, wcc := true }
  | .imaxImm _ => { iI .any0 0x027 with d := .dst32, x := .src32, wcc := true }
  | .imul _ => { rI .any0 0x008 with d := .dst32, x := .src32, y := .src32, mOk := 1, wcc := true }
  | .imulImm _ => { iI .any0 0x028 with d := .dst32, x := .src32, wcc := true }
  | .imulh _ => { rI .any0 0x009 with d := .dst32, x := .src32, y := .src32, mOk := 1, wcc := true }
  | .imulhImm _ => { iI .any0 0x029 with d := .dst32, x := .src32, wcc := true }
  | .imad _ => { rI .any0 0x00A with d := .dst32, x := .src32, y := .src32, z := .src32, wcc := true }
  | .imadImm _ => { iI .any0 0x02A with d := .upd32, x := .src32, wcc := true }
  | .imadw _ => { rI .any0 0x00B with d := .dst64, x := .src32, y := .src32, z := .src64, mOk := 1, wcc := true }
  | .imadwImm _ => { iI .any0 0x02B with d := .upd64, x := .src32, wcc := true }
  | .icmp _ => { rI .any0 0x00C with d := .dst32, x := .src32, y := .src32, mOk := 1, wcc := true }
  | .icmpImm _ => { iI .any0 0x02C with d := .dst32, x := .src32, wcc := true }
  | .isat _ => { rI .any0 0x00D with d := .dst32, x := .src32, y := .src32, mOk := 3, wcc := true }
  | .isatImm _ => { iI .any0 0x02D with d := .dst32, x := .src32, wcc := true }
  | .iadd64 _ => { rI .any0 0x00E with d := .dst64, x := .src64, y := .src64, mOk := 3, wcc := true }
  | .iadd64Imm _ => { iI .any0 0x02E with d := .dst64, x := .src64, wcc := true }
  | .isub64 _ => { rI .any0 0x00F with d := .dst64, x := .src64, y := .src64, mOk := 3, wcc := true }
  | .isub64Imm _ => { iI .any0 0x02F with d := .dst64, x := .src64, wcc := true }
  | .icmp64 _ => { rI .any0 0x010 with d := .dst32, x := .src64, y := .src64, mOk := 1, wcc := true }
  | .icmp64Imm _ => { iI .any0 0x030 with d := .dst32, x := .src64, wcc := true }
  | .lea _ => { rI .any0 0x011 with d := .dst32, x := .src32, y := .src32, mOk := 7, wcc := true }
  | .leaImm _ => { iI .any0 0x031 with d := .dst32, x := .src32, wcc := true }
  | .lea64 _ => { rI .any0 0x012 with d := .dst64, x := .src64, y := .src32, mOk := 15, wcc := true }
  | .andL _ => { rI .any0 0x040 with d := .dst32, x := .src32, y := .src32, wcc := true }
  | .andLImm _ => { iI .any0 0x060 with d := .dst32, x := .src32, wcc := true }
  | .orL _ => { rI .any0 0x041 with d := .dst32, x := .src32, y := .src32, wcc := true }
  | .orLImm _ => { iI .any0 0x061 with d := .dst32, x := .src32, wcc := true }
  | .xorL _ => { rI .any0 0x042 with d := .dst32, x := .src32, y := .src32, wcc := true }
  | .xorLImm _ => { iI .any0 0x062 with d := .dst32, x := .src32, wcc := true }
  | .notL _ => { rI .any0 0x043 with d := .dst32, x := .src32, wcc := true }
  | .notLImm _ => { iI .any0 0x063 with d := .dst32, wcc := true }
  | .lut3 a => { rI .any0 0x044 with d := .upd32, x := .src32, y := .src32, z := .raw, wcc := true, ok := decide (a.z < 256) }
  | .lut3Imm _ => { iI .any0 0x064 with d := .upd32, x := .src32, wcc := true }
  | .shl _ => { rI .any0 0x045 with d := .dst32, x := .src32, y := .src32, wcc := true }
  | .shlImm _ => { iI .any0 0x065 with d := .dst32, x := .src32, wcc := true }
  | .shr _ => { rI .any0 0x046 with d := .dst32, x := .src32, y := .src32, wcc := true }
  | .shrImm _ => { iI .any0 0x066 with d := .dst32, x := .src32, wcc := true }
  | .sar _ => { rI .any0 0x047 with d := .dst32, x := .src32, y := .src32, wcc := true }
  | .sarImm _ => { iI .any0 0x067 with d := .dst32, x := .src32, wcc := true }
  | .rot _ => { rI .any0 0x048 with d := .dst32, x := .src32, y := .src32, wcc := true }
  | .rotImm _ => { iI .any0 0x068 with d := .dst32, x := .src32, wcc := true }
  | .fshl _ => { rI .any0 0x049 with d := .dst32, x := .src32, y := .src32, z := .src32, wcc := true }
  | .fshlImm _ => { iI .any0 0x069 with d := .upd32, x := .src32, wcc := true }
  | .fshr _ => { rI .any0 0x04A with d := .dst32, x := .src32, y := .src32, z := .src32, wcc := true }
  | .fshrImm _ => { iI .any0 0x06A with d := .upd32, x := .src32, wcc := true }
  | .popc _ => { rI .any0 0x04B with d := .dst32, x := .src32, wcc := true }
  | .clz _ => { rI .any0 0x04C with d := .dst32, x := .src32, wcc := true }
  | .ctz _ => { rI .any0 0x04D with d := .dst32, x := .src32, wcc := true }
  | .brev _ => { rI .any0 0x04E with d := .dst32, x := .src32, wcc := true }
  | .bfx _ => { rI .any0 0x04F with d := .dst32, x := .src32, y := .src32, z := .src32, mOk := 1, wcc := true }
  | .bfi _ => { rI .any0 0x050 with d := .upd32, x := .src32, y := .src32, z := .src32, wcc := true }
  | .prmb _ => { rI .any0 0x051 with d := .dst32, x := .src32, y := .src32, z := .src32, wcc := true }
  | .sel a => { rI .any0 0x052 with d := .dst32, x := .src32, y := .src32, mOk := 15, scal := false, ok := a.m5.extractLsb' 0 4 != 15#4 }
  | .mov a => { rI .any0 0x080 with d := (dstW a.w64), x := (srcW a.w64), mOk := 1, wcc := true }
  | .movi _ => { iI .any0 0x081 with d := .dst32, wcc := true }
  | .movhi a => { iI .any0 0x082 with d := .upd32, wcc := true, ok := decide (a.imm.toNat < 2 ^ 18) && (isS a.d || decide (a.imm.toNat < 2 ^ 17)) }
  | .sxt a => { rI .any0 0x083 with d := .dst32, x := .src32, mOk := 3, wcc := true, ok := a.m5 != 3#6 }
  | .zxt a => { rI .any0 0x084 with d := .dst32, x := .src32, mOk := 3, wcc := true, ok := a.m5 != 3#6 }
  | .mfs a => { rI .any0 0x085 with d := .dst32, x := .raw, mOk := 1, sdv := true, ok := if a.w64 then isV a.x else isSpec a.x }
  | .mts a => { rI .any0 0x086 with d := .raw, x := .src32, al := true, ok := isSpec a.d && !isV a.x && [14, 15, 19, 27].contains (fnum a.d) }
  | .ccrd _ => { rI .any0 0x087 with d := .dst32, scal := false }
  | .ccwr _ => { rI .any0 0x088 with x := .src32 }
  | .fadd _ => { rI .vec 0x100 with d := .dst32, x := .src32, y := .src32, mOk := 15, wcc := true, rnd := true }
  | .fsub _ => { rI .vec 0x101 with d := .dst32, x := .src32, y := .src32, mOk := 15, wcc := true, rnd := true }
  | .fmul _ => { rI .vec 0x102 with d := .dst32, x := .src32, y := .src32, mOk := 15, wcc := true, rnd := true }
  | .ffma _ => { rI .vec 0x103 with d := .dst32, x := .src32, y := .src32, z := .src32, mOk := 31, wcc := true, rnd := true }
  | .fmin _ => { rI .vec 0x104 with d := .dst32, x := .src32, y := .src32, mOk := 15, wcc := true }
  | .fmax _ => { rI .vec 0x105 with d := .dst32, x := .src32, y := .src32, mOk := 15, wcc := true }
  | .fcmp _ => { rI .vec 0x106 with d := .dst32, x := .src32, y := .src32, mOk := 7, wcc := true }
  | .fclass a => { rI .vec 0x107 with d := .dst32, x := .src32, mOk := 3, wcc := true, ok := a.m5 != 3#6 }
  | .frnd _ => { rI .vec 0x108 with d := .dst32, x := .src32, wcc := true, rnd := true }
  | .hadd2 _ => { rI .vec 0x110 with d := .dst32, x := .src32, y := .src32, mOk := 15, rnd := true }
  | .hmul2 _ => { rI .vec 0x111 with d := .dst32, x := .src32, y := .src32, mOk := 15, rnd := true }
  | .hfma2 _ => { rI .vec 0x112 with d := .dst32, x := .src32, y := .src32, z := .src32, mOk := 31, rnd := true }
  | .badd2 _ => { rI .vec 0x113 with d := .dst32, x := .src32, y := .src32, mOk := 15, rnd := true }
  | .bmul2 _ => { rI .vec 0x114 with d := .dst32, x := .src32, y := .src32, mOk := 15, rnd := true }
  | .bfma2 _ => { rI .vec 0x115 with d := .dst32, x := .src32, y := .src32, z := .src32, mOk := 31, rnd := true }
  | .frcp _ => { rI .vec 0x140 with d := .dst32, x := .src32, wcc := true, rnd := true, la := true }
  | .frsq _ => { rI .vec 0x141 with d := .dst32, x := .src32, wcc := true, rnd := true, la := true }
  | .fsqrt _ => { rI .vec 0x142 with d := .dst32, x := .src32, wcc := true, rnd := true, la := true }
  | .fexp2 _ => { rI .vec 0x143 with d := .dst32, x := .src32, wcc := true, rnd := true, la := true }
  | .flog2 _ => { rI .vec 0x144 with d := .dst32, x := .src32, wcc := true, rnd := true, la := true }
  | .fsin _ => { rI .vec 0x145 with d := .dst32, x := .src32, wcc := true, rnd := true, la := true }
  | .fcos _ => { rI .vec 0x146 with d := .dst32, x := .src32, wcc := true, rnd := true, la := true }
  | .ftanh _ => { rI .vec 0x147 with d := .dst32, x := .src32, wcc := true, rnd := true, la := true }
  | .fdiv _ => { rI .vec 0x148 with d := .dst32, x := .src32, y := .src32, mOk := 3, wcc := true, rnd := true, la := true }
  | .fcvt a => { rI .vec 0x180 with d := (dstZ a), x := .src32, y := .src32, z := .raw, mOk := 63, rnd := true, ok := fcvtOk a }
  | .icvt a => { rI .vec 0x181 with d := (dstZ a), x := (srcW (a.z.extractLsb' 3 2 == 3#2)), y := .src32, z := .raw, mOk := 63, rnd := true, ok := icvtOk a }
  | .ficvt a => { rI .vec 0x182 with d := (dstW (a.z.extractLsb' 0 2 == 3#2)), x := .src32, y := .src32, z := .raw, mOk := 25, rnd := true, ok := ficvtOk a }
  | .pack a => { rI .vec 0x183 with d := (if packWide a then .dst32 else .upd32), x := .src32, y := .src32, z := .src32, mOk := 31, rnd := true, ok := packOk a }
  | .unpk a => { rI .vec 0x184 with d := .dst32, x := .src32, mOk := 31, ok := unpkOk a }
  | .amaxrd _ => { rI .vec 0x185 with d := .dst32, mOk := 1, al := true }
  | .amaxclr _ => { rI .vec 0x186 with al := true }
  | .br _ => { bI .any 0x200 with ctl := true }
  | .brx _ => { rI .any 0x201 with x := .srcA, ctl := true }
  | .call _ => { bI .any 0x202 with ctl := true }
  | .callx _ => { rI .any 0x203 with d := .dst64, x := .srcA, ctl := true, sdv := true }
  | .ret _ => { rI .any 0x204 with x := .srcA, ctl := true }
  | .exitI _ => { rI .any 0x205 with ctl := true }
  | .yieldI _ => { rI .any 0x206 with ctl := true }
  | .nop _ => rI .any 0x207
  | .rep a => { iI .any 0x208 with al := true, ok := decide (a.imm.toNat < 2 ^ 10) }
  | .trapI a => { iI .any 0x209 with ctl := true, ok := decide (a.imm.toNat < 2 ^ 8) }
  | .bkpt _ => { rI .any 0x20A with ctl := true }
  | .rtt _ => { rI .any 0x20B with ctl := true, al := true }
  | .waitdc a => { iI .any 0x20C with ok := decide (a.imm.toNat < 2 ^ 9) && decide (a.imm.toNat % 8 < 6) }
  | .shfl a => { rI .vec 0x240 with d := .dstV, x := .src32, y := .src32, mOk := 31, wcc := true, la := true, sdv := true, cross := true, ok := a.m5.extractLsb' 2 3 != 7#3 }
  | .vote a => { rI .vec 0x241 with d := (dstW (a.m5 == 3#6)), x := .src32, mOk := 3, la := true, sdv := true, cross := true }
  | .matchI a => { rI .vec 0x242 with d := .dstVV, x := (srcW a.w64), mOk := 3, la := true, sdv := true, cross := true }
  | .bcast a => { rI .vec 0x243 with d := .dst32, x := .src32, y := (if a.w64 then .no else .src32), mOk := 1, la := true, sdv := true, cross := true }
  | .red a => { rI .vec 0x244 with d := (dstW (a.m5.getLsbD 4)), x := (srcW (a.m5.getLsbD 4)), mOk := 31, la := true, sdv := true, cross := true, rnd := a.m5.extractLsb' 0 4 == 8#4, ok := redOk a }
  | .scan a => { rI .vec 0x245 with d := (if a.m5.getLsbD 4 then .dstVV else .dstV), x := (srcW (a.m5.getLsbD 4)), mOk := 63, la := true, sdv := true, cross := true, rnd := a.m5.extractLsb' 0 4 == 8#4, ok := redOk a }
  | .xrd _ => { rI .vec 0x246 with d := .dst32, x := .src32, la := true, sdv := true, cross := true }
  | .lnrd a => { rI .vecsys 0x247 with d := (dstW a.w64), x := (if a.w64 then .srcVV else .srcV), y := .src32, mOk := 1, la := true, sdv := true, cross := true }
  | .lnwr _ => { rI .vecsys 0x248 with d := .updV, x := .src32, y := .src32, al := true, sdv := true, cross := true }
  | .bar _ => { rI .any 0x380 with x := .src32, mOk := 31, al := true }
  | .arrive a => { rI .any 0x381 with x := .src32, z := .raw, mOk := 63, ok := decide (a.z.toNat < 7) }
  | .waitph _ => { rI .any 0x382 with x := .src32, mOk := 63 }
  | .cbar _ => { rI .any 0x383 with x := .src32, mOk := 31, al := true }
  | .evwait _ => { rI .any 0x384 with x := .src32, y := .src32, mOk := 3 }
  | .evpost _ => { rI .any 0x385 with x := .src32, y := .src32, mOk := 1 }
  | .bind a => { iI .vec 0x280 with al := true, ok := decide (1 ≤ a.imm.toNat) && decide (a.imm.toNat < 7) }
  | .unbind _ => { rI .vec 0x281 with al := true }
  | .ladd _ => { rI .vec 0x282 with d := .dstV, x := .src32, y := .src32, wcc := true, la := true, sdv := true, cross := true }
  | .ladc _ => { rI .vec 0x283 with d := .dstV, x := .src32, y := .src32, wcc := true, la := true, sdv := true, cross := true }
  | .lsub _ => { rI .vec 0x284 with d := .dstV, x := .src32, y := .src32, wcc := true, la := true, sdv := true, cross := true }
  | .lsbc _ => { rI .vec 0x285 with d := .dstV, x := .src32, y := .src32, wcc := true, la := true, sdv := true, cross := true }
  | .lneg _ => { rI .vec 0x286 with d := .dstV, x := .src32, wcc := true, la := true, sdv := true, cross := true }
  | .lcmp _ => { rI .vec 0x287 with d := .dstV, x := .src32, y := .src32, mOk := 1, wcc := true, la := true, sdv := true, cross := true }
  | .lshl _ => { rI .vec 0x288 with d := .dstV, x := .src32, y := .src32, wcc := true, la := true, sdv := true, cross := true }
  | .lshr _ => { rI .vec 0x289 with d := .dstV, x := .src32, y := .src32, wcc := true, la := true, sdv := true, cross := true }
  | .lsar _ => { rI .vec 0x28A with d := .dstV, x := .src32, y := .src32, wcc := true, la := true, sdv := true, cross := true }
  | .lmad _ => { rI .vec 0x28B with d := .dstV, x := .src32, y := .src32, z := .src32, mOk := 1, wcc := true, la := true, sdv := true, cross := true }
  | .pldi _ => { rI .vec 0x2A0 with x := .srcV, mOk := 63, al := true, la := true, sdv := true, cross := true }
  | .plds _ => { rI .vec 0x2A1 with x := .srcV, mOk := 56, al := true, la := true, sdv := true, cross := true }
  | .psti a => { rI .vec 0x2A2 with d := .dstV, z := .raw, sdv := true, cross := true, ok := decide (a.z < 8) }
  | .psts a => { rI .vec 0x2A3 with d := .dstV, z := .raw, sdv := true, cross := true, ok := decide (a.z < 8) }
  | .pcomp a => { rI .vec 0x2A4 with z := .raw, mOk := 56, al := true, la := true, sdv := true, cross := true, ok := decide (a.z < 64) }
  | .pinv a => { rI .vec 0x2A5 with z := .raw, mOk := 56, al := true, la := true, sdv := true, cross := true, ok := decide (a.z < 8) }
  | .prand _ => { rI .vec 0x2A6 with mOk := 63, al := true, la := true, sdv := true, cross := true }
  | .pidn _ => { rI .vec 0x2A7 with mOk := 63, al := true, sdv := true, cross := true }
  | .papply a => { rI .vec 0x2A8 with d := .dstV, x := .src32, z := .raw, la := true, sdv := true, cross := true, ok := decide (a.z < 8) }
  | .pcyc a => { rI .vec 0x2A9 with d := .dst32, x := .src32, z := .raw, mOk := 7, la := true, sdv := true, cross := true, ok := decide (a.z < 8) && decide (a.m5 < 5) && (!isS a.d || !isV a.x || decide (a.m5 < 3)) }
  | .gang _ => { rI .mat 0x100 with x := .src32, al := true }
  | .mma a => { eI .mat 0x101 with y := .srcS, ok := mmaOk a }
  | .aclr _ => { rI .mat 0x102 with mOk := 31, al := true }
  | .ald a => { eI .mat 0x103 with ok := aldOk a && a.mode.extractLsb' 8 3 == 0#3 }
  | .ast a => { eI .mat 0x104 with y := .srcU, ok := aldOk a && a.mode.extractLsb' 9 2 == 0#2 }
  | .amov _ => { rI .mat 0x105 with d := .dstV, x := .src32, mOk := 31, la := true, sdv := true, cross := true }
  | .mxrd a => { rI .mat 0x106 with d := .dst64, mOk := 31, la := true, ok := a.w64 || decide (a.m5 < 2) }
  | .mxclr a => { rI .mat 0x107 with mOk := 15, ok := a.m5 != 0#6 }
  | .tfetch a => { eI .mat 0x108 with ok := decide (a.mode < 2) && a.z == 0 && a.dcOk && a.qz }
  | .ld a => { mI .vec 0x300 with x := .srcA, d := dstB a.wid, la := a.scope == 0#3, ok := a.ldOk && decide (a.wid < 5) }
  | .st a => { mI .vec 0x301 with x := .srcA, d := srcB a.wid, ok := a.stOk && decide (a.wid < 5) }
  | .lde a => { mI .vec 0x302 with x := .srcA, d := .dst32, la := a.scope == 0#3, ok := a.ldOk && a.wid == 2#3 }
  | .ste a => { mI .vec 0x303 with x := .srcA, d := .src32, ok := a.stOk && a.wid == 2#3 }
  | .ldl a => { mI .vec 0x304 with x := .src32, d := dstB a.wid, la := true, ok := a.locOk && a.dc == 6#3 }
  | .stl a => { mI .vec 0x305 with x := .src32, d := srcB a.wid, ok := a.locOk && decide (a.dc < 7) }
  | .ldf a => { mI .vec 0x306 with x := .src32, d := dstB a.wid, la := true, ok := { a with cp := a.cp &&& 14 }.locOk && a.dc == 6#3 }
  | .stf a => { mI .vec 0x307 with x := .src32, d := srcB a.wid, ok := a.locOk && decide (a.dc < 7) }
  | .ldw a => { mI .vec 0x308 with x := .src32, d := dstB a.wid, la := true, ok := a.locOk && a.dc == 6#3 }
  | .atom a => { mI .vec 0x309 with x := .srcA, d := atomD a, la := !a.nr, ok := atomOk a && a.scope != 7#3 }
  | .atoml a => { mI .vec 0x30A with x := .src32, d := atomD a, la := !a.nr, ok := atomOk a && a.scope == 0#3 }
  | .redm a => { mI .vec 0x30B with x := .srcA, d := srcB a.wid, ok := redmOk a }
  | .pref a => { mI .vec 0x30C with x := .srcA, ok := a.wid == 0#3 && a.scope == 0#3 && a.rcOk && a.dc == 6#3 }
  | .fence a => { mI .vec 0x30D with ok := a.off == 0#10 && a.wid == 0#3 && a.scope != 7#3 && a.cp == 0#4 && a.rcnt == 0#4 && a.dc == 6#3 }
  | .cpub a => { mI .vec 0x30E with x := .src64, d := .src64, ok := a.off == 0#10 && a.wid == 0#3 && decide (3 ≤ a.scope) && a.scope != 7#3 && a.cp == 0#4 && a.rcnt == 0#4 && a.dc == 6#3 }
  | .qfence _ => { rI .vec 0x30F with x := .src64, al := true }
  | .phase _ => { rI .vec 0x310 with d := .dstS, x := .src64, al := true, sdv := true }
  | .objdecl a => { eI .vec 0x311 with y := .dstS, ok := a.z == 0#9 && a.qz && a.dc == 6#3 && (a.mode.extractLsb' 0 3 == 3#3 || a.mode.extractLsb' 0 3 == 4#3) }
  | .objrel _ => { rI .vec 0x312 with x := .src64, al := true }
  | .place a => { eI .vec 0x313 with ok := a.z == 0#9 && a.qz && a.dcOk && decide (a.mode < 8) && a.mode.extractLsb' 0 2 != 3#2 }
  | .placew a => { eI .vec 0x314 with ok := a.z == 0#9 && a.qz && a.dc == 6#3 && a.mode == 0#11 }
  | .copy a => { eI .cpy 0x100 with ok := a.z == 0#9 && decide (a.dc < 6) && a.mode == 0#11 }
  | .copyg a => { eI .cpy 0x101 with y := .srcV, ok := a.z == 0#9 && decide (a.dc < 6) && a.mode == 0#11 }
  | .copys a => { eI .cpy 0x102 with y := .srcV, ok := a.z == 0#9 && decide (a.dc < 6) && a.mode == 0#11 }
  | .fill a => { eI .cpy 0x103 with y := .src32, ok := a.z == 0#9 && decide (a.dc < 6) && decide (a.mode < 2) }
  | .bankcfg a => { rI .vec 0x389 with mOk := 63, al := true, ok := a.m5.extractLsb' 4 2 != 3#2 }
  | .pwrhint a => { iI .any 0x38A with al := true, ok := pwrhintOk a }
  | .sleep a => { iI .any 0x38B with al := true, ok := decide (a.imm.toNat < 2 ^ 20) }
  | .signal a => { eI .vec 0x386 with ok := a.z == 0#9 && a.qz && a.mode == 0#11 && a.dcOk }
  | .launch a => { eI .vec 0x387 with y := if a.mode.getLsbD 8 then .src64 else .no, ok := a.z == 0#9 && a.qz && decide (a.mode < 512) && a.dcOk }
  | .spawn a => { eI .vec 0x388 with y := .raw, ok := spawnOk a }
  | .tlbinv a => { rI .sys 0x100 with x := .src64, y := .src64, mOk := 15, al := true, ok := a.m5.extractLsb' 0 2 != 3#2 && a.m5.extractLsb' 2 2 != 3#2 }
  | .cflush a => { mI .sys 0x101 with x := .src64, d := .src64, al := true, ok := cflushOk a }
  | .ctxsave a => { eI .sys 0x102 with y := .src64, ok := a.z == 0#9 && a.qz && a.dcOk && decide (a.mode < 1024) && a.mode.extractLsb' 8 2 != 3#2 }
  | .ctxload a => { eI .sys 0x103 with y := .src64, ok := a.z == 0#9 && a.qz && a.dcOk && decide (a.mode < 256) }
  | .mtsp _ => { rI .sys 0x104 with x := .src64, y := .src64, al := true }
  | .mfsp _ => { rI .sys 0x105 with d := .dstS, x := .src64, al := true, sdv := true }
  | .halt a => { rI .sys 0x106 with x := (if a.m5 == 0#6 then .no else .src64), mOk := 3, al := true, ok := a.m5 != 3#6 }
  | .xcopy _ _ _ _ => { space := .word, opc := 0 }
  | .xgath _ _ _ _ _ => { space := .word, opc := 0 }
  | .xwait _ _ _ => { space := .word, opc := 0 }
  | .xsig _ _ _ => { space := .word, opc := 0 }
  | .xloop _ _ _ => { space := .word, opc := 0 }
  | .xjmp _ => { space := .word, opc := 0 }
  | .xplace _ _ _ => { space := .word, opc := 0 }
  | .xstrm _ => { space := .word, opc := 0 }
  | .xfence => { space := .word, opc := 0 }
  | .xend _ _ => { space := .word, opc := 0 }
  | .clauseStart _ _ => { space := .event, opc := 0 }
  | .rfMerge _ _ => { space := .event, opc := 0 }
  | .lookaheadResult _ _ _ => { space := .event, opc := 0 }
  | .groupActivate _ => { space := .event, opc := 0 }
  | .groupIdleTimeout _ => { space := .event, opc := 0 }
  | .collectorDispatch _ => { space := .event, opc := 0 }
  | .uncorrectableError _ _ _ _ => { space := .event, opc := 0 }
  | .barrierArrival _ => { space := .event, opc := 0 }
  | .barrierRelease _ _ => { space := .event, opc := 0 }
  | .arrivalApply _ => { space := .event, opc := 0 }
  | .crookStart _ => { space := .event, opc := 0 }
  | .crookComplete _ => { space := .event, opc := 0 }
  | .hurdleRelease _ => { space := .event, opc := 0 }
  | .limiterStep _ => { space := .event, opc := 0 }
  | .mmaOccupancyStart _ => { space := .event, opc := 0 }
  | .mmaComplete _ => { space := .event, opc := 0 }
  | .fallingStepsEnd _ => { space := .event, opc := 0 }
  | .prerampExpire _ => { space := .event, opc := 0 }
  | .tileDeferredFault _ => { space := .event, opc := 0 }
  | .aldComplete _ => { space := .event, opc := 0 }
  | .astComplete _ => { space := .event, opc := 0 }
  | .tfetchComplete _ => { space := .event, opc := 0 }
  | .storeComplete _ => { space := .event, opc := 0 }
  | .ldfRelease _ _ => { space := .event, opc := 0 }
  | .stfRelease _ _ => { space := .event, opc := 0 }
  | .homeRequest _ _ => { space := .event, opc := 0 }
  | .l1Invalidate _ => { space := .event, opc := 0 }
  | .phaseViewUpdate _ _ _ => { space := .event, opc := 0 }
  | .copyCommandStart _ _ => { space := .event, opc := 0 }
  | .copyCommandComplete _ _ => { space := .event, opc := 0 }
  | .copyCommandFault _ _ => { space := .event, opc := 0 }
  | .bankcfgChange _ => { space := .event, opc := 0 }
  | .clusterWindowAccess _ => { space := .event, opc := 0 }
  | .cbarRelease _ _ _ => { space := .event, opc := 0 }
  | .laneModeChange _ => { space := .event, opc := 0 }
  | .laneRelockDone _ => { space := .event, opc := 0 }
  | .sleepWake _ _ => { space := .event, opc := 0 }
  | .gateIdleTimeout _ => { space := .event, opc := 0 }
  | .gateEnterDone _ => { space := .event, opc := 0 }
  | .gateWakeDone _ => { space := .event, opc := 0 }
  | .teamPlace _ _ _ => { space := .event, opc := 0 }
  | .groupStart _ => { space := .event, opc := 0 }
  | .groupEnd _ => { space := .event, opc := 0 }
  | .spawnBinTimeout _ _ => { space := .event, opc := 0 }
  | .saveAndAdmit _ _ => { space := .event, opc := 0 }
  | .watchdogExpire _ _ => { space := .event, opc := 0 }
  | .drainTimeout _ => { space := .event, opc := 0 }
  | .teamSave _ => { space := .event, opc := 0 }
  | .ctxsaveSummary _ _ => { space := .event, opc := 0 }
  | .dbgresWrite _ _ => { space := .event, opc := 0 }
  | .registerWrite _ _ => { space := .event, opc := 0 }
  | .resolve _ _ => { space := .event, opc := 0 }
  | .deny _ _ => { space := .event, opc := 0 }
  | .migrationStart _ => { space := .event, opc := 0 }
  | .migrationSwitch _ => { space := .event, opc := 0 }
  | .placeComplete _ => { space := .event, opc := 0 }
  | .ceStart _ _ => { space := .event, opc := 0 }
  | .ceStop _ _ => { space := .event, opc := 0 }
  | .ceTransferComplete _ _ => { space := .event, opc := 0 }
  | .computeReset _ => { space := .event, opc := 0 }
  | .resetL2Switch => { space := .event, opc := 0 }
  | .computeResetEnd => { space := .event, opc := 0 }
  | .bootlrEnable => { space := .event, opc := 0 }
  | .keepDomainReset _ => { space := .event, opc := 0 }
  | .hostMemRequest _ _ _ _ => { space := .event, opc := 0 }
  | .bisnpComplete _ => { space := .event, opc := 0 }
  | .hostDeadline _ => { space := .event, opc := 0 }
  | .finatUntranslatable _ => { space := .event, opc := 0 }
  | .signalWindowWrite _ _ _ => { space := .event, opc := 0 }
  | .signalRingWrite _ => { space := .event, opc := 0 }
  | .inboundPostedWrite _ _ _ _ _ => { space := .event, opc := 0 }
  | .routeAck _ _ _ => { space := .event, opc := 0 }
  | .inboundRead _ _ _ _ => { space := .event, opc := 0 }
  | .outboundLoadTimeout _ => { space := .event, opc := 0 }
  | .remoteRequest _ _ _ _ _ => { space := .event, opc := 0 }
  | .signalDeliver _ => { space := .event, opc := 0 }
  | .signalAck _ => { space := .event, opc := 0 }
  | .linkNarrow _ => { space := .event, opc := 0 }
  | .linkDown _ => { space := .event, opc := 0 }
  | .unreachableTimeout _ => { space := .event, opc := 0 }
  | .syncLost => { space := .event, opc := 0 }
  | .collectiveDoorbell _ _ _ => { space := .event, opc := 0 }
  | .collectiveDoorbellRead _ _ _ => { space := .event, opc := 0 }
  | .collectiveComplete _ _ _ => { space := .event, opc := 0 }
  | .collectiveTimeout _ _ => { space := .event, opc := 0 }
  | .powerInterval _ => { space := .event, opc := 0 }
  | .throttleAnnouncement _ _ _ => { space := .event, opc := 0 }
  | .announcementApply _ => { space := .event, opc := 0 }
  | .hbmTempSample _ _ => { space := .event, opc := 0 }
  | .securityAlarm _ _ _ => { space := .event, opc := 0 }
  | .attestationRequest _ => { space := .event, opc := 0 }
  | .attestationReportDone => { space := .event, opc := 0 }
  | .fenceComplete _ _ => { space := .event, opc := 0 }
  | .bar0Read _ _ => { space := .event, opc := 0 }
  | .portLinkUp _ _ => { space := .event, opc := 0 }
  | .portLinkDown _ => { space := .event, opc := 0 }
  | .linkUp _ => { space := .event, opc := 0 }
  | .syncHeld => { space := .event, opc := 0 }
  | .resetWriteBack _ => { space := .event, opc := 0 }
  | .compression _ => { space := .event, opc := 0 }
  | .unitExpansion _ _ => { space := .event, opc := 0 }

/-- The fields of a word, by format. -/
inductive Args
  | r (a : RArgs)
  | i (a : IArgs)
  | b (a : BArgs)
  | m (a : MArgs)
  | e (a : EArgs)
  | none
  deriving DecidableEq, Repr

/-- The fields an instruction carries. -/
def args : Instr → Args
  | .iadd a => .r a
  | .iaddImm a => .i a
  | .isub a => .r a
  | .isubImm a => .i a
  | .iadc a => .r a
  | .iadcImm a => .i a
  | .isbc a => .r a
  | .isbcImm a => .i a
  | .ineg a => .r a
  | .inegImm a => .i a
  | .iabs a => .r a
  | .iabsImm a => .i a
  | .imin a => .r a
  | .iminImm a => .i a
  | .imax a => .r a
  | .imaxImm a => .i a
  | .imul a => .r a
  | .imulImm a => .i a
  | .imulh a => .r a
  | .imulhImm a => .i a
  | .imad a => .r a
  | .imadImm a => .i a
  | .imadw a => .r a
  | .imadwImm a => .i a
  | .icmp a => .r a
  | .icmpImm a => .i a
  | .isat a => .r a
  | .isatImm a => .i a
  | .iadd64 a => .r a
  | .iadd64Imm a => .i a
  | .isub64 a => .r a
  | .isub64Imm a => .i a
  | .icmp64 a => .r a
  | .icmp64Imm a => .i a
  | .lea a => .r a
  | .leaImm a => .i a
  | .lea64 a => .r a
  | .andL a => .r a
  | .andLImm a => .i a
  | .orL a => .r a
  | .orLImm a => .i a
  | .xorL a => .r a
  | .xorLImm a => .i a
  | .notL a => .r a
  | .notLImm a => .i a
  | .lut3 a => .r a
  | .lut3Imm a => .i a
  | .shl a => .r a
  | .shlImm a => .i a
  | .shr a => .r a
  | .shrImm a => .i a
  | .sar a => .r a
  | .sarImm a => .i a
  | .rot a => .r a
  | .rotImm a => .i a
  | .fshl a => .r a
  | .fshlImm a => .i a
  | .fshr a => .r a
  | .fshrImm a => .i a
  | .popc a => .r a
  | .clz a => .r a
  | .ctz a => .r a
  | .brev a => .r a
  | .bfx a => .r a
  | .bfi a => .r a
  | .prmb a => .r a
  | .sel a => .r a
  | .mov a => .r a
  | .movi a => .i a
  | .movhi a => .i a
  | .sxt a => .r a
  | .zxt a => .r a
  | .mfs a => .r a
  | .mts a => .r a
  | .ccrd a => .r a
  | .ccwr a => .r a
  | .fadd a => .r a
  | .fsub a => .r a
  | .fmul a => .r a
  | .ffma a => .r a
  | .fmin a => .r a
  | .fmax a => .r a
  | .fcmp a => .r a
  | .fclass a => .r a
  | .frnd a => .r a
  | .hadd2 a => .r a
  | .hmul2 a => .r a
  | .hfma2 a => .r a
  | .badd2 a => .r a
  | .bmul2 a => .r a
  | .bfma2 a => .r a
  | .frcp a => .r a
  | .frsq a => .r a
  | .fsqrt a => .r a
  | .fexp2 a => .r a
  | .flog2 a => .r a
  | .fsin a => .r a
  | .fcos a => .r a
  | .ftanh a => .r a
  | .fdiv a => .r a
  | .fcvt a => .r a
  | .icvt a => .r a
  | .ficvt a => .r a
  | .pack a => .r a
  | .unpk a => .r a
  | .amaxrd a => .r a
  | .amaxclr a => .r a
  | .br a => .b a
  | .brx a => .r a
  | .call a => .b a
  | .callx a => .r a
  | .ret a => .r a
  | .exitI a => .r a
  | .yieldI a => .r a
  | .nop a => .r a
  | .rep a => .i a
  | .trapI a => .i a
  | .bkpt a => .r a
  | .rtt a => .r a
  | .waitdc a => .i a
  | .shfl a => .r a
  | .vote a => .r a
  | .matchI a => .r a
  | .bcast a => .r a
  | .red a => .r a
  | .scan a => .r a
  | .xrd a => .r a
  | .lnrd a => .r a
  | .lnwr a => .r a
  | .bar a => .r a
  | .arrive a => .r a
  | .waitph a => .r a
  | .cbar a => .r a
  | .evwait a => .r a
  | .evpost a => .r a
  | .bind a => .i a
  | .unbind a => .r a
  | .ladd a => .r a
  | .ladc a => .r a
  | .lsub a => .r a
  | .lsbc a => .r a
  | .lneg a => .r a
  | .lcmp a => .r a
  | .lshl a => .r a
  | .lshr a => .r a
  | .lsar a => .r a
  | .lmad a => .r a
  | .pldi a => .r a
  | .plds a => .r a
  | .psti a => .r a
  | .psts a => .r a
  | .pcomp a => .r a
  | .pinv a => .r a
  | .prand a => .r a
  | .pidn a => .r a
  | .papply a => .r a
  | .pcyc a => .r a
  | .gang a => .r a
  | .mma a => .e a
  | .aclr a => .r a
  | .ald a => .e a
  | .ast a => .e a
  | .amov a => .r a
  | .mxrd a => .r a
  | .mxclr a => .r a
  | .tfetch a => .e a
  | .ld a => .m a
  | .st a => .m a
  | .lde a => .m a
  | .ste a => .m a
  | .ldl a => .m a
  | .stl a => .m a
  | .ldf a => .m a
  | .stf a => .m a
  | .ldw a => .m a
  | .atom a => .m a
  | .atoml a => .m a
  | .redm a => .m a
  | .pref a => .m a
  | .fence a => .m a
  | .cpub a => .m a
  | .qfence a => .r a
  | .phase a => .r a
  | .objdecl a => .e a
  | .objrel a => .r a
  | .place a => .e a
  | .placew a => .e a
  | .copy a => .e a
  | .copyg a => .e a
  | .copys a => .e a
  | .fill a => .e a
  | .bankcfg a => .r a
  | .pwrhint a => .i a
  | .sleep a => .i a
  | .signal a => .e a
  | .launch a => .e a
  | .spawn a => .e a
  | .tlbinv a => .r a
  | .cflush a => .m a
  | .ctxsave a => .e a
  | .ctxload a => .e a
  | .mtsp a => .r a
  | .mfsp a => .r a
  | .halt a => .r a
  | .xcopy _ _ _ _ => .none
  | .xgath _ _ _ _ _ => .none
  | .xwait _ _ _ => .none
  | .xsig _ _ _ => .none
  | .xloop _ _ _ => .none
  | .xjmp _ => .none
  | .xplace _ _ _ => .none
  | .xstrm _ => .none
  | .xfence => .none
  | .xend _ _ => .none
  | .clauseStart _ _ => .none
  | .rfMerge _ _ => .none
  | .lookaheadResult _ _ _ => .none
  | .groupActivate _ => .none
  | .groupIdleTimeout _ => .none
  | .collectorDispatch _ => .none
  | .uncorrectableError _ _ _ _ => .none
  | .barrierArrival _ => .none
  | .barrierRelease _ _ => .none
  | .arrivalApply _ => .none
  | .crookStart _ => .none
  | .crookComplete _ => .none
  | .hurdleRelease _ => .none
  | .limiterStep _ => .none
  | .mmaOccupancyStart _ => .none
  | .mmaComplete _ => .none
  | .fallingStepsEnd _ => .none
  | .prerampExpire _ => .none
  | .tileDeferredFault _ => .none
  | .aldComplete _ => .none
  | .astComplete _ => .none
  | .tfetchComplete _ => .none
  | .storeComplete _ => .none
  | .ldfRelease _ _ => .none
  | .stfRelease _ _ => .none
  | .homeRequest _ _ => .none
  | .l1Invalidate _ => .none
  | .phaseViewUpdate _ _ _ => .none
  | .copyCommandStart _ _ => .none
  | .copyCommandComplete _ _ => .none
  | .copyCommandFault _ _ => .none
  | .bankcfgChange _ => .none
  | .clusterWindowAccess _ => .none
  | .cbarRelease _ _ _ => .none
  | .laneModeChange _ => .none
  | .laneRelockDone _ => .none
  | .sleepWake _ _ => .none
  | .gateIdleTimeout _ => .none
  | .gateEnterDone _ => .none
  | .gateWakeDone _ => .none
  | .teamPlace _ _ _ => .none
  | .groupStart _ => .none
  | .groupEnd _ => .none
  | .spawnBinTimeout _ _ => .none
  | .saveAndAdmit _ _ => .none
  | .watchdogExpire _ _ => .none
  | .drainTimeout _ => .none
  | .teamSave _ => .none
  | .ctxsaveSummary _ _ => .none
  | .dbgresWrite _ _ => .none
  | .registerWrite _ _ => .none
  | .resolve _ _ => .none
  | .deny _ _ => .none
  | .migrationStart _ => .none
  | .migrationSwitch _ => .none
  | .placeComplete _ => .none
  | .ceStart _ _ => .none
  | .ceStop _ _ => .none
  | .ceTransferComplete _ _ => .none
  | .computeReset _ => .none
  | .resetL2Switch => .none
  | .computeResetEnd => .none
  | .bootlrEnable => .none
  | .keepDomainReset _ => .none
  | .hostMemRequest _ _ _ _ => .none
  | .bisnpComplete _ => .none
  | .hostDeadline _ => .none
  | .finatUntranslatable _ => .none
  | .signalWindowWrite _ _ _ => .none
  | .signalRingWrite _ => .none
  | .inboundPostedWrite _ _ _ _ _ => .none
  | .routeAck _ _ _ => .none
  | .inboundRead _ _ _ _ => .none
  | .outboundLoadTimeout _ => .none
  | .remoteRequest _ _ _ _ _ => .none
  | .signalDeliver _ => .none
  | .signalAck _ => .none
  | .linkNarrow _ => .none
  | .linkDown _ => .none
  | .unreachableTimeout _ => .none
  | .syncLost => .none
  | .collectiveDoorbell _ _ _ => .none
  | .collectiveDoorbellRead _ _ _ => .none
  | .collectiveComplete _ _ _ => .none
  | .collectiveTimeout _ _ => .none
  | .powerInterval _ => .none
  | .throttleAnnouncement _ _ _ => .none
  | .announcementApply _ => .none
  | .hbmTempSample _ _ => .none
  | .securityAlarm _ _ _ => .none
  | .attestationRequest _ => .none
  | .attestationReportDone => .none
  | .fenceComplete _ _ => .none
  | .bar0Read _ _ => .none
  | .portLinkUp _ _ => .none
  | .portLinkDown _ => .none
  | .linkUp _ => .none
  | .syncHeld => .none
  | .resetWriteBack _ => .none
  | .compression _ => .none
  | .unitExpansion _ _ => .none

end Sys2Proof.Machine
end

