-- ==== Sys2Proof/WellFormed.lean ====
section
/-! DEFINITION. The static legality of an instruction word: what R60 to R72, R84, R87 to R90 and each
entry require of its fields. A word that fails raises ILLOP (R84). -/

namespace Sys2Proof
open Sys2Proof.Machine

/-- An operand field against its entry (R66, R67, R87, R44). -/
def fieldOk (o : Opd) (f : BitVec 9) : Bool :=
  match o.use with
  | .unused => f == 0#9
  | .raw => true
  | _ =>
    if isV f then o.v && decide (fnum f % o.size = 0)
    else if isS f then o.s
    else if isK f then o.k && decide (o.size ≠ 2 ∨ fnum f % 2 = 0)
    else o.o

/-- The field is a destination. -/
def Machine.Opd.isDst (o : Opd) : Bool := o.use == .dst || o.use == .upd
/-- The field is a source. -/
def Machine.Opd.isSrc (o : Opd) : Bool := o.use == .src || o.use == .upd
/-- The field names a V register that is read. -/
def srcIsV (o : Opd) (f : BitVec 9) : Bool := o.isSrc && isV f

/-- COND 15, LA, WCC and a COND that must be AL (R45, R72, R89). -/
def ctlOk (n : Info) (la cond : BitVec 4) (wcc : BitVec 1) : Bool :=
  cond != 15#4 && (la == 0#4 || n.la) && (wcc == 0#1 || n.wcc) && (cond == 0#4 || !n.al)

/-- A scalar form: COND AL, WCC 0, no V source, and a form that exists (R44, R88). -/
def scalarOk (n : Info) (d cond : Bool) (wcc : BitVec 1) (vsrc : Bool) : Bool :=
  !d || ((n.scal && (n.cross || (cond && wcc == 0#1))) && (n.sdv || !vsrc))

def wfR (n : Info) (a : RArgs) : Bool :=
  ctlOk n a.la a.cond a.wcc
    && fieldOk n.d a.d && fieldOk n.x a.x && fieldOk n.y a.y && fieldOk n.z a.z
    && (a.rmo == 0#3 || (n.rnd && decide (4 ≤ a.rmo)))
    && a.m5 &&& ~~~(BitVec.ofNat 6 n.mOk) == 0#6
    && scalarOk n (n.d.isDst && isS a.d) (a.cond == 0#4) a.wcc (srcIsV n.x a.x || srcIsV n.y a.y || srcIsV n.z a.z)

def wfI (n : Info) (a : IArgs) : Bool :=
  ctlOk n a.la a.cond a.wcc && fieldOk n.d a.d && fieldOk n.x a.x
    && scalarOk n (n.d.isDst && isS a.d) (a.cond == 0#4) a.wcc (srcIsV n.x a.x)

def wfB (_ : Info) (a : BArgs) : Bool := a.cond != 15#4 && decide (a.hint < 2)

def wfM (n : Info) (a : MArgs) : Bool :=
  ctlOk n a.la a.cond a.wcc && fieldOk n.d a.d && fieldOk n.x a.x
    && scalarOk n (n.d.isDst && isS a.d) (a.cond == 0#4) a.wcc (srcIsV n.x a.x)

/-- Z, Q, DC and MODE of an E-format word are checked by the entries. -/
def wfE (n : Info) (a : EArgs) : Bool := fieldOk n.x a.x && fieldOk n.y a.y

/-- The fields R348 and R352 bound in a copy-engine word; the widths of the others leave nothing to check. -/
def wfWord : Instr → Bool
  | .xcopy step c _ _ => step || c == 0#2
  | .xgath step c _ _ idx => (step || c == 0#2) && decide (idx.toNat % 4 = 0)
  | .xloop _ n _ => n != 0#16
  | .xplace _ tier _ => tier != 3#2
  | .xend post ev => post || ev == 0#16
  | _ => true

/-- A well-formed instruction. The machine's own steps carry numbers and are always well formed. -/
def Instr.wf (i : Instr) : Bool :=
  let n := info i
  n.ok && (match args i with
    | .r a => wfR n a
    | .i a => wfI n a
    | .b a => wfB n a
    | .m a => wfM n a
    | .e a => wfE n a
    | .none => wfWord i)

/-- Well-formedness as a proposition. -/
abbrev WellFormed (i : Instr) : Prop := i.wf = true

end Sys2Proof
end

