-- ==== Sys2Proof/Decode.lean ====
section
/-! DEFINITION. The decoder: total on any word in any space, rejecting by name (R84); and the encoder,
written from the same tables (R60, R80 to R83, R348). -/

namespace Sys2Proof
open Sys2Proof.Machine

/-- Why a word is no instruction. -/
inductive DecodeError
  /-- The opcode is not assigned in the space (R59, R84). -/
  | unassigned (opc : Nat)
  /-- A reserved or unused field is set, or a field value the entry refuses (R84). -/
  | illFormed (opc : Nat)
  /-- Fewer bytes than one word. -/
  | short
  deriving DecidableEq, Repr

/-- The fields of a word, by format (R60). -/
def opcOf (w : DWord) : Nat := (w.extractLsb' 54 10).toNat
def rOf (w : DWord) : RArgs :=
  ⟨w.extractLsb' 50 4, w.extractLsb' 46 4, w.extractLsb' 45 1, w.extractLsb' 36 9, w.extractLsb' 27 9,
    w.extractLsb' 18 9, w.extractLsb' 9 9, w.extractLsb' 0 9⟩
def iOf (w : DWord) : IArgs :=
  ⟨w.extractLsb' 50 4, w.extractLsb' 46 4, w.extractLsb' 45 1, w.extractLsb' 36 9, w.extractLsb' 27 9,
    w.extractLsb' 0 27⟩
def bOf (w : DWord) : BArgs := ⟨w.extractLsb' 46 4, w.extractLsb' 36 9, w.extractLsb' 0 36⟩
def mOf (w : DWord) : MArgs :=
  ⟨w.extractLsb' 50 4, w.extractLsb' 46 4, w.extractLsb' 45 1, w.extractLsb' 36 9, w.extractLsb' 27 9,
    w.extractLsb' 17 10, w.extractLsb' 14 3, w.extractLsb' 11 3, w.extractLsb' 7 4, w.extractLsb' 3 4,
    w.extractLsb' 0 3⟩
def eOf (w : DWord) : EArgs :=
  ⟨w.extractLsb' 36 9, w.extractLsb' 27 9, w.extractLsb' 18 9, w.extractLsb' 14 4, w.extractLsb' 11 3,
    w.extractLsb' 0 11⟩

/-- The words of the formats (R60). -/
def rWord (o : BitVec 10) (a : RArgs) : DWord := o ++ a.la ++ a.cond ++ a.wcc ++ a.d ++ a.x ++ a.y ++ a.z ++ a.m
def iWord (o : BitVec 10) (a : IArgs) : DWord := o ++ a.la ++ a.cond ++ a.wcc ++ a.d ++ a.x ++ a.imm
def bWord (o : BitVec 10) (a : BArgs) : DWord := o ++ 0#4 ++ a.cond ++ 0#1 ++ a.hint ++ a.off
def mWord (o : BitVec 10) (a : MArgs) : DWord :=
  o ++ a.la ++ a.cond ++ a.wcc ++ a.d ++ a.x ++ a.off ++ a.wid ++ a.scope ++ a.cp ++ a.rcnt ++ a.dc
def eWord (o : BitVec 10) (a : EArgs) : DWord := o ++ 0#9 ++ a.x ++ a.y ++ a.z ++ a.q ++ a.dc ++ a.mode

/-- The common instructions, assigned in all four spaces (R80, R82). -/
def opCommon : Nat → Option (DWord → Instr)
  | 0x000 => some (fun w => .iadd (rOf w))
  | 0x020 => some (fun w => .iaddImm (iOf w))
  | 0x001 => some (fun w => .isub (rOf w))
  | 0x021 => some (fun w => .isubImm (iOf w))
  | 0x002 => some (fun w => .iadc (rOf w))
  | 0x022 => some (fun w => .iadcImm (iOf w))
  | 0x003 => some (fun w => .isbc (rOf w))
  | 0x023 => some (fun w => .isbcImm (iOf w))
  | 0x004 => some (fun w => .ineg (rOf w))
  | 0x024 => some (fun w => .inegImm (iOf w))
  | 0x005 => some (fun w => .iabs (rOf w))
  | 0x025 => some (fun w => .iabsImm (iOf w))
  | 0x006 => some (fun w => .imin (rOf w))
  | 0x026 => some (fun w => .iminImm (iOf w))
  | 0x007 => some (fun w => .imax (rOf w))
  | 0x027 => some (fun w => .imaxImm (iOf w))
  | 0x008 => some (fun w => .imul (rOf w))
  | 0x028 => some (fun w => .imulImm (iOf w))
  | 0x009 => some (fun w => .imulh (rOf w))
  | 0x029 => some (fun w => .imulhImm (iOf w))
  | 0x00A => some (fun w => .imad (rOf w))
  | 0x02A => some (fun w => .imadImm (iOf w))
  | 0x00B => some (fun w => .imadw (rOf w))
  | 0x02B => some (fun w => .imadwImm (iOf w))
  | 0x00C => some (fun w => .icmp (rOf w))
  | 0x02C => some (fun w => .icmpImm (iOf w))
  | 0x00D => some (fun w => .isat (rOf w))
  | 0x02D => some (fun w => .isatImm (iOf w))
  | 0x00E => some (fun w => .iadd64 (rOf w))
  | 0x02E => some (fun w => .iadd64Imm (iOf w))
  | 0x00F => some (fun w => .isub64 (rOf w))
  | 0x02F => some (fun w => .isub64Imm (iOf w))
  | 0x010 => some (fun w => .icmp64 (rOf w))
  | 0x030 => some (fun w => .icmp64Imm (iOf w))
  | 0x011 => some (fun w => .lea (rOf w))
  | 0x031 => some (fun w => .leaImm (iOf w))
  | 0x012 => some (fun w => .lea64 (rOf w))
  | 0x040 => some (fun w => .andL (rOf w))
  | 0x060 => some (fun w => .andLImm (iOf w))
  | 0x041 => some (fun w => .orL (rOf w))
  | 0x061 => some (fun w => .orLImm (iOf w))
  | 0x042 => some (fun w => .xorL (rOf w))
  | 0x062 => some (fun w => .xorLImm (iOf w))
  | 0x043 => some (fun w => .notL (rOf w))
  | 0x063 => some (fun w => .notLImm (iOf w))
  | 0x044 => some (fun w => .lut3 (rOf w))
  | 0x064 => some (fun w => .lut3Imm (iOf w))
  | 0x045 => some (fun w => .shl (rOf w))
  | 0x065 => some (fun w => .shlImm (iOf w))
  | 0x046 => some (fun w => .shr (rOf w))
  | 0x066 => some (fun w => .shrImm (iOf w))
  | 0x047 => some (fun w => .sar (rOf w))
  | 0x067 => some (fun w => .sarImm (iOf w))
  | 0x048 => some (fun w => .rot (rOf w))
  | 0x068 => some (fun w => .rotImm (iOf w))
  | 0x049 => some (fun w => .fshl (rOf w))
  | 0x069 => some (fun w => .fshlImm (iOf w))
  | 0x04A => some (fun w => .fshr (rOf w))
  | 0x06A => some (fun w => .fshrImm (iOf w))
  | 0x04B => some (fun w => .popc (rOf w))
  | 0x04C => some (fun w => .clz (rOf w))
  | 0x04D => some (fun w => .ctz (rOf w))
  | 0x04E => some (fun w => .brev (rOf w))
  | 0x04F => some (fun w => .bfx (rOf w))
  | 0x050 => some (fun w => .bfi (rOf w))
  | 0x051 => some (fun w => .prmb (rOf w))
  | 0x052 => some (fun w => .sel (rOf w))
  | 0x080 => some (fun w => .mov (rOf w))
  | 0x081 => some (fun w => .movi (iOf w))
  | 0x082 => some (fun w => .movhi (iOf w))
  | 0x083 => some (fun w => .sxt (rOf w))
  | 0x084 => some (fun w => .zxt (rOf w))
  | 0x085 => some (fun w => .mfs (rOf w))
  | 0x086 => some (fun w => .mts (rOf w))
  | 0x087 => some (fun w => .ccrd (rOf w))
  | 0x088 => some (fun w => .ccwr (rOf w))
  | 0x200 => some (fun w => .br (bOf w))
  | 0x201 => some (fun w => .brx (rOf w))
  | 0x202 => some (fun w => .call (bOf w))
  | 0x203 => some (fun w => .callx (rOf w))
  | 0x204 => some (fun w => .ret (rOf w))
  | 0x205 => some (fun w => .exitI (rOf w))
  | 0x206 => some (fun w => .yieldI (rOf w))
  | 0x207 => some (fun w => .nop (rOf w))
  | 0x208 => some (fun w => .rep (iOf w))
  | 0x209 => some (fun w => .trapI (iOf w))
  | 0x20A => some (fun w => .bkpt (rOf w))
  | 0x20B => some (fun w => .rtt (rOf w))
  | 0x20C => some (fun w => .waitdc (iOf w))
  | 0x380 => some (fun w => .bar (rOf w))
  | 0x381 => some (fun w => .arrive (rOf w))
  | 0x382 => some (fun w => .waitph (rOf w))
  | 0x383 => some (fun w => .cbar (rOf w))
  | 0x384 => some (fun w => .evwait (rOf w))
  | 0x385 => some (fun w => .evpost (rOf w))
  | 0x38A => some (fun w => .pwrhint (iOf w))
  | 0x38B => some (fun w => .sleep (iOf w))
  | _ => none

/-- The rest of the vector and scalar space (R80). -/
def opVec : Nat → Option (DWord → Instr)
  | 0x100 => some (fun w => .fadd (rOf w))
  | 0x101 => some (fun w => .fsub (rOf w))
  | 0x102 => some (fun w => .fmul (rOf w))
  | 0x103 => some (fun w => .ffma (rOf w))
  | 0x104 => some (fun w => .fmin (rOf w))
  | 0x105 => some (fun w => .fmax (rOf w))
  | 0x106 => some (fun w => .fcmp (rOf w))
  | 0x107 => some (fun w => .fclass (rOf w))
  | 0x108 => some (fun w => .frnd (rOf w))
  | 0x110 => some (fun w => .hadd2 (rOf w))
  | 0x111 => some (fun w => .hmul2 (rOf w))
  | 0x112 => some (fun w => .hfma2 (rOf w))
  | 0x113 => some (fun w => .badd2 (rOf w))
  | 0x114 => some (fun w => .bmul2 (rOf w))
  | 0x115 => some (fun w => .bfma2 (rOf w))
  | 0x140 => some (fun w => .frcp (rOf w))
  | 0x141 => some (fun w => .frsq (rOf w))
  | 0x142 => some (fun w => .fsqrt (rOf w))
  | 0x143 => some (fun w => .fexp2 (rOf w))
  | 0x144 => some (fun w => .flog2 (rOf w))
  | 0x145 => some (fun w => .fsin (rOf w))
  | 0x146 => some (fun w => .fcos (rOf w))
  | 0x147 => some (fun w => .ftanh (rOf w))
  | 0x148 => some (fun w => .fdiv (rOf w))
  | 0x180 => some (fun w => .fcvt (rOf w))
  | 0x181 => some (fun w => .icvt (rOf w))
  | 0x182 => some (fun w => .ficvt (rOf w))
  | 0x183 => some (fun w => .pack (rOf w))
  | 0x184 => some (fun w => .unpk (rOf w))
  | 0x185 => some (fun w => .amaxrd (rOf w))
  | 0x186 => some (fun w => .amaxclr (rOf w))
  | 0x240 => some (fun w => .shfl (rOf w))
  | 0x241 => some (fun w => .vote (rOf w))
  | 0x242 => some (fun w => .matchI (rOf w))
  | 0x243 => some (fun w => .bcast (rOf w))
  | 0x244 => some (fun w => .red (rOf w))
  | 0x245 => some (fun w => .scan (rOf w))
  | 0x246 => some (fun w => .xrd (rOf w))
  | 0x247 => some (fun w => .lnrd (rOf w))
  | 0x248 => some (fun w => .lnwr (rOf w))
  | 0x280 => some (fun w => .bind (iOf w))
  | 0x281 => some (fun w => .unbind (rOf w))
  | 0x282 => some (fun w => .ladd (rOf w))
  | 0x283 => some (fun w => .ladc (rOf w))
  | 0x284 => some (fun w => .lsub (rOf w))
  | 0x285 => some (fun w => .lsbc (rOf w))
  | 0x286 => some (fun w => .lneg (rOf w))
  | 0x287 => some (fun w => .lcmp (rOf w))
  | 0x288 => some (fun w => .lshl (rOf w))
  | 0x289 => some (fun w => .lshr (rOf w))
  | 0x28A => some (fun w => .lsar (rOf w))
  | 0x28B => some (fun w => .lmad (rOf w))
  | 0x2A0 => some (fun w => .pldi (rOf w))
  | 0x2A1 => some (fun w => .plds (rOf w))
  | 0x2A2 => some (fun w => .psti (rOf w))
  | 0x2A3 => some (fun w => .psts (rOf w))
  | 0x2A4 => some (fun w => .pcomp (rOf w))
  | 0x2A5 => some (fun w => .pinv (rOf w))
  | 0x2A6 => some (fun w => .prand (rOf w))
  | 0x2A7 => some (fun w => .pidn (rOf w))
  | 0x2A8 => some (fun w => .papply (rOf w))
  | 0x2A9 => some (fun w => .pcyc (rOf w))
  | 0x300 => some (fun w => .ld (mOf w))
  | 0x301 => some (fun w => .st (mOf w))
  | 0x302 => some (fun w => .lde (mOf w))
  | 0x303 => some (fun w => .ste (mOf w))
  | 0x304 => some (fun w => .ldl (mOf w))
  | 0x305 => some (fun w => .stl (mOf w))
  | 0x306 => some (fun w => .ldf (mOf w))
  | 0x307 => some (fun w => .stf (mOf w))
  | 0x308 => some (fun w => .ldw (mOf w))
  | 0x309 => some (fun w => .atom (mOf w))
  | 0x30A => some (fun w => .atoml (mOf w))
  | 0x30B => some (fun w => .redm (mOf w))
  | 0x30C => some (fun w => .pref (mOf w))
  | 0x30D => some (fun w => .fence (mOf w))
  | 0x30E => some (fun w => .cpub (mOf w))
  | 0x30F => some (fun w => .qfence (rOf w))
  | 0x310 => some (fun w => .phase (rOf w))
  | 0x311 => some (fun w => .objdecl (eOf w))
  | 0x312 => some (fun w => .objrel (rOf w))
  | 0x313 => some (fun w => .place (eOf w))
  | 0x314 => some (fun w => .placew (eOf w))
  | 0x389 => some (fun w => .bankcfg (rOf w))
  | 0x386 => some (fun w => .signal (eOf w))
  | 0x387 => some (fun w => .launch (eOf w))
  | 0x388 => some (fun w => .spawn (eOf w))
  | _ => none

/-- The matrix space (R81). -/
def opMat : Nat → Option (DWord → Instr)
  | 0x100 => some (fun w => .gang (rOf w))
  | 0x101 => some (fun w => .mma (eOf w))
  | 0x102 => some (fun w => .aclr (rOf w))
  | 0x103 => some (fun w => .ald (eOf w))
  | 0x104 => some (fun w => .ast (eOf w))
  | 0x105 => some (fun w => .amov (rOf w))
  | 0x106 => some (fun w => .mxrd (rOf w))
  | 0x107 => some (fun w => .mxclr (rOf w))
  | 0x108 => some (fun w => .tfetch (eOf w))
  | _ => none

/-- The copy-unit space (R81). -/
def opCpy : Nat → Option (DWord → Instr)
  | 0x100 => some (fun w => .copy (eOf w))
  | 0x101 => some (fun w => .copyg (eOf w))
  | 0x102 => some (fun w => .copys (eOf w))
  | 0x103 => some (fun w => .fill (eOf w))
  | _ => none

/-- The system space (R81, R82). -/
def opSys : Nat → Option (DWord → Instr)
  | 0x247 => some (fun w => .lnrd (rOf w))
  | 0x248 => some (fun w => .lnwr (rOf w))
  | 0x100 => some (fun w => .tlbinv (rOf w))
  | 0x101 => some (fun w => .cflush (mOf w))
  | 0x102 => some (fun w => .ctxsave (eOf w))
  | 0x103 => some (fun w => .ctxload (eOf w))
  | 0x104 => some (fun w => .mtsp (rOf w))
  | 0x105 => some (fun w => .mfsp (rOf w))
  | 0x106 => some (fun w => .halt (rOf w))
  | _ => none

/-- The opcode map of a space: common opcodes first (R80 to R82). -/
def opMap (eng : BitVec 2) (o : Nat) : Option (DWord → Instr) :=
  match opCommon o with
  | some f => some f
  | none => if eng = 0 then opVec o else if eng = 1 then opMat o else if eng = 2 then opCpy o else opSys o

/-- The bits a format requires to be zero of itself: LA and WCC in B, LA, COND and WCC in E (R60). -/
def fmtOkW (i : Instr) (w : DWord) : Bool :=
  match args i with
  | .b _ => w.extractLsb' 50 4 == 0#4 && w.extractLsb' 45 1 == 0#1
  | .e _ => w.extractLsb' 45 9 == 0#9
  | _ => true

/-- The instruction a word stands for in a clause of engine class `eng` (R59, R84). -/
def decode (eng : BitVec 2) (w : DWord) : Except DecodeError Instr :=
  match opMap eng (opcOf w) with
  | none => .error (.unassigned (opcOf w))
  | some f => if (f w).wf && fmtOkW (f w) w then .ok (f w) else .error (.illFormed (opcOf w))

/-- The copy-engine word `w`, with the word after it (R83, R348, R352). -/
def decodeCe (w w2 : DWord) : Except DecodeError Instr :=
  let o := (w.extractLsb' 59 5).toNat
  let z (lo n : Nat) : Bool := w.extractLsb' lo n == 0#n
  let go (zero : Bool) (i : Instr) : Except DecodeError Instr :=
    if zero && i.wf then .ok i else .error (.illFormed o)
  match o with
  | 0 => go (z 51 2) (.xcopy (w.getLsbD 58) (w.extractLsb' 56 2) (w.extractLsb' 53 3) (w.extractLsb' 0 51))
  | 1 => go (z 51 2 && w2.extractLsb' 57 7 == 0#7)
      (.xgath (w.getLsbD 58) (w.extractLsb' 56 2) (w.extractLsb' 53 3) (w.extractLsb' 0 51) (w2.extractLsb' 0 57))
  | 2 => go (z 49 10) (.xwait (w.getLsbD 48) (w.extractLsb' 16 32) (w.extractLsb' 0 16))
  | 3 => go (z 49 10) (.xsig (w.getLsbD 48) (w.extractLsb' 16 32) (w.extractLsb' 0 16))
  | 4 => go (z 52 5) (.xloop (w.extractLsb' 57 2) (w.extractLsb' 36 16) (w.extractLsb' 0 36))
  | 5 => go (z 36 23) (.xjmp (w.extractLsb' 0 36))
  | 6 => go (z 55 4 && z 53 1) (.xplace (w.getLsbD 54) (w.extractLsb' 51 2) (w.extractLsb' 0 51))
  | 7 => go (z 51 8) (.xstrm (w.extractLsb' 0 51))
  | 8 => go (z 0 59) .xfence
  | 9 => go (z 17 42) (.xend (w.getLsbD 16) (w.extractLsb' 0 16))
  | _ => .error (.unassigned o)

/-- One bit. -/
def bit1 (b : Bool) : BitVec 1 := if b then 1 else 0

/-- The words of a well-formed instruction; a step of the machine has none. -/
def encode (i : Instr) : List DWord :=
  let o := BitVec.ofNat 10 (info i).opc
  match args i with
  | .r a => [rWord o a]
  | .i a => [iWord o a]
  | .b a => [bWord o a]
  | .m a => [mWord o a]
  | .e a => [eWord o a]
  | .none =>
    match i with
    | .xcopy s c cl ra => [0#5 ++ bit1 s ++ c ++ cl ++ 0#2 ++ ra]
    | .xgath s c cl ra idx => [1#5 ++ bit1 s ++ c ++ cl ++ 0#2 ++ ra, 0#7 ++ idx]
    | .xwait dec v ev => [2#5 ++ 0#10 ++ bit1 dec ++ v ++ ev]
    | .xsig clr y ev => [3#5 ++ 0#10 ++ bit1 clr ++ y ++ ev]
    | .xloop c n off => [4#5 ++ c ++ 0#5 ++ n ++ off]
    | .xjmp off => [5#5 ++ 0#23 ++ off]
    | .xplace pin tier ra => [6#5 ++ 0#4 ++ bit1 pin ++ 0#1 ++ tier ++ ra]
    | .xstrm ra => [7#5 ++ 0#8 ++ ra]
    | .xfence => [8#5 ++ 0#59]
    | .xend post ev => [9#5 ++ 0#42 ++ bit1 post ++ ev]
    | _ => []

/-- The engine class of a clause that may hold the instruction (R59). -/
def Instr.engClass (i : Instr) : BitVec 2 :=
  match (info i).space with
  | .mat => 1
  | .cpy => 2
  | .sys => 3
  | _ => 0

/-- A word from its bytes, lowest address first (R3). -/
def wordOfBytes : List Byte → Nat
  | [] => 0
  | b :: r => b.toNat + 256 * wordOfBytes r

/-- The bytes of a number, lowest address first (R3). -/
def bytesOf : Nat → Nat → List Byte
  | 0, _ => []
  | n + 1, v => BitVec.ofNat 8 v :: bytesOf n (v / 256)

/-- Decoding from bytes: any eight or more. -/
def decodeBytes (eng : BitVec 2) (bs : List Byte) : Except DecodeError Instr :=
  if bs.length < 8 then .error .short else decode eng (BitVec.ofNat 64 (wordOfBytes (bs.take 8)))

/-- The instruction read from a word whose bits the opcode table numbers: a vector and scalar word. -/
def decodeTableWord (nbits w : Nat) : Option Instr :=
  match decodeBytes 0 (bytesOf 8 (w % 2 ^ nbits)) with
  | .ok i => some i
  | .error _ => none

end Sys2Proof
end

