-- ==== Sys2Proof/Config.lean ====
section
/-! DEFINITION. What one package fixes, and the free values: constants without a body, which no
proof can evaluate. Each free value has a row in notes/assumptions. -/

namespace Sys2Proof.Config

/-- Which of several enabled steps comes next, where the spec leaves the order open. -/
opaque freeChoice : Nat → Nat
/-- What the outside does next, or which of the machine's own steps comes next, where the spec leaves it open. -/
opaque freeEvent : Nat → Instr
/-- An answer left open by the spec where one of two outcomes may come about. -/
opaque freeBool : Nat → Bool
/-- A 64-bit value the spec leaves open. -/
opaque freeWord : Nat → BitVec 64
/-- A correctly rounded special function (R105) where the rational bounds of
`Machine.SpecialFn` do not separate the two neighbours: function number, operand, mode. -/
opaque freeSpecial : Nat → BitVec 32 → Nat → BitVec 32
/-- SHAKE256 with an output of the given number of bytes (R394 to R396), named and not defined by the spec. -/
opaque shake256 : Nat → List (BitVec 8) → List (BitVec 8)
/-- The Falcon-1024 signature of the identity key (R396), 1,280 bytes. -/
opaque falconSign : List (BitVec 8) → List (BitVec 8)
/-- A byte read from outside the package's memory (another node, a PCIe partner), by address and a counter. -/
opaque outsideByte : Nat → Nat → BitVec 8
/-- A byte of a save slot whose place the spec does not lay out (R327), by offset and a counter. -/
opaque saveByte : Nat → Nat → BitVec 8
/-- The set of an L1 in which a line is kept (R213): the spec gives an L1 no geometry but its banks. -/
opaque l1Set : Nat → Nat
/-- The set of a line in its slice of L2, one of 1,024 (R273). -/
opaque l2Set : Nat → Nat
/-- The set of a page in a cluster's second-level TLB, one of 256 (R258). -/
opaque tlbSet : Nat → Nat
/-- The fused security version (R396, SECSTAT.SVN). -/
opaque fusedSvn : BitVec 8

/-- Counts of a full part (00, the hierarchy): dies, clusters per die, cores per cluster. -/
def dies : Nat := 8
def clustersPerDie : Nat := 8
def coresPerCluster : Nat := 128
/-- Contexts of the package (R305). -/
def contexts : Nat := 97
/-- Bytes of T1 behind one die (R272). -/
def t1PerDie : Nat := 2 ^ 37
/-- First physical address of T2, and the end of T2 (R272). -/
def t2Base : Nat := 0x010000000000
def t2End : Nat := 0x030000000000
/-- Groups a core holds, and groups of its active set (R120, R129). -/
def groupsPerCore : Nat := 32
def activeGroups : Nat := 8
/-- Rows of a core's vector register file (R132). -/
def vrfRows : Nat := 1024

end Sys2Proof.Config
end

