-- ==== Sys2Proof/Machine/Fp.lean ====
section
/-! DEFINITION. The floating-point formats to the bit, Round, and arithmetic on them
(01_numbers.md, R12 to R22). A finite value is (-1)^neg × m × 2^e, held exactly. -/

namespace Sys2Proof.Machine

/-- Rounding modes (R17). -/
inductive Rm | rne | rtz | rup | rdn
  deriving DecidableEq, Repr

/-- The two bits of FCR.RM (field map of FCR). -/
def Rm.ofBits (b : BitVec 2) : Rm :=
  if b = 0 then .rne else if b = 1 then .rtz else if b = 2 then .rup else .rdn

/-- The formats of R12. -/
inductive Fmt | fp32 | fp16 | bf16 | e4m3 | e5m2
  deriving DecidableEq, Repr

/-- Width, exponent bits, fraction bits, bias (R12). -/
def Fmt.bits : Fmt → Nat
  | .fp32 => 32 | .fp16 => 16 | .bf16 => 16 | .e4m3 => 8 | .e5m2 => 8
def Fmt.fbits : Fmt → Nat
  | .fp32 => 23 | .fp16 => 10 | .bf16 => 7 | .e4m3 => 3 | .e5m2 => 2
def Fmt.ebits (f : Fmt) : Nat := f.bits - 1 - f.fbits
def Fmt.bias : Fmt → Nat
  | .fp32 => 127 | .fp16 => 15 | .bf16 => 127 | .e4m3 => 7 | .e5m2 => 15
/-- The least exponent of a normal number (R12). -/
def Fmt.emin (f : Fmt) : Int := 1 - (f.bias : Int)
/-- The bits of the largest finite magnitude (R12): 448 is 0x7E in E4M3 (R13). -/
def Fmt.maxBits : Fmt → Nat
  | .fp32 => 0x7F7FFFFF | .fp16 => 0x7BFF | .bf16 => 0x7F7F | .e4m3 => 0x7E | .e5m2 => 0x7B
/-- The canonical NaN (R14). -/
def Fmt.nan : Fmt → Nat
  | .fp32 => 0x7FC00000 | .fp16 => 0x7E00 | .bf16 => 0x7FC0 | .e4m3 => 0x7F | .e5m2 => 0x7E
/-- The bits of +∞; E4M3 has none (R13). -/
def Fmt.inf : Fmt → Option Nat
  | .fp32 => some 0x7F800000 | .fp16 => some 0x7C00 | .bf16 => some 0x7F80 | .e4m3 => none | .e5m2 => some 0x7C
/-- The sign bit as a number. -/
def Fmt.signBit (f : Fmt) (neg : Bool) : Nat := if neg then 2 ^ (f.bits - 1) else 0

/-- A decoded value (R13): NaN, an infinity, or (-1)^neg × m × 2^e. -/
inductive Fv
  | nan
  | inf (neg : Bool)
  | fin (neg : Bool) (m : Nat) (e : Int)
  deriving DecidableEq, Repr

/-- Exception flags in FSR bit order: IV, DZ, OF, UF, IX in bits 4 to 0 (field map of FSR). -/
abbrev FFlags := BitVec 5
def ffIX : FFlags := 1
def ffUF : FFlags := 2
def ffOF : FFlags := 4
def ffDZ : FFlags := 8
def ffIV : FFlags := 16

/-- Decoding a field pattern (R13). -/
def Fmt.decode (f : Fmt) (b : Nat) : Fv :=
  let frac := b % 2 ^ f.fbits
  let ex := (b / 2 ^ f.fbits) % 2 ^ f.ebits
  let neg := decide ((b / 2 ^ (f.bits - 1)) % 2 = 1)
  let allOnes := 2 ^ f.ebits - 1
  if ex = 0 then .fin neg frac (f.emin - f.fbits)
  else if ex = allOnes ∧ f ≠ .e4m3 then (if frac = 0 then .inf neg else .nan)
  else if ex = allOnes ∧ frac = 2 ^ f.fbits - 1 then .nan
  else .fin neg (2 ^ f.fbits + frac) ((ex : Int) - (f.bias : Int) - (f.fbits : Int))

/-- A field pattern is a subnormal (R13). -/
def Fmt.isSubnormal (f : Fmt) (b : Nat) : Bool :=
  decide ((b / 2 ^ f.fbits) % 2 ^ f.ebits = 0) && decide (b % 2 ^ f.fbits ≠ 0)

/-- Operand flush (R18): a subnormal operand reads as zero of the same sign. -/
def Fmt.flushIn (f : Fmt) (on : Bool) (b : Nat) : Nat :=
  if on && f.isSubnormal b then (b / 2 ^ (f.bits - 1)) % 2 * 2 ^ (f.bits - 1) else b

/-- Overflow of a finite value (R15), without SAT. -/
def Fmt.overflow (f : Fmt) (mode : Rm) (neg : Bool) : Nat :=
  match f.inf with
  | none => f.nan
  | some i =>
    let toInf := match mode with
      | .rne => true | .rtz => false | .rup => !neg | .rdn => neg
    f.signBit neg + (if toInf then i else f.maxBits)

/-- Rounding up of the magnitude (R15): the integer part `n`, the remainder against its half, and the sign. -/
def roundUp (mode : Rm) (neg : Bool) (n rem half : Nat) (sticky inexact : Bool) : Bool :=
  match mode with
  | .rne => decide (rem > half) || (decide (rem = half) && (sticky || decide (n % 2 = 1)) && decide (half ≠ 0))
  | .rtz => false
  | .rup => inexact && !neg
  | .rdn => inexact && neg

/-- How Round is used: SAT of R21, and the flush of outputs of R18. -/
structure RoundOpt where
  mode : Rm
  sat : Bool := false
  flush : Bool := false
  deriving DecidableEq, Repr

/-- Round of R15 of (-1)^neg × (m × 2^e), or, with `sticky`, of a value strictly between m × 2^e and
(m + 1) × 2^e. A caller that passes `sticky` gives `m` at least two bits more than the format's precision. -/
def Fmt.round (f : Fmt) (o : RoundOpt) (neg : Bool) (m : Nat) (e : Int) (sticky : Bool) : Nat × FFlags :=
  if m = 0 ∧ !sticky then (f.signBit neg, 0)
  else
    let lg : Int := (Nat.log2 m : Int) + e
    let ee := max lg f.emin
    let qe := ee - (f.fbits : Int)
    let sh := (qe - e).toNat
    let up := (e - qe).toNat
    let n0 := if qe ≤ e then m * 2 ^ up else m / 2 ^ sh
    let rem := if qe ≤ e then 0 else m % 2 ^ sh
    let half := if qe ≤ e then 0 else 2 ^ (sh - 1)
    let inexact := decide (rem ≠ 0) || sticky
    let n := if roundUp o.mode neg n0 rem half sticky inexact then n0 + 1 else n0
    let bits := (ee - f.emin).toNat * 2 ^ f.fbits + n
    let tiny := decide (lg < f.emin)
    if bits > f.maxBits then
      (if o.sat then (f.signBit neg + f.maxBits, ffIX) else (f.overflow o.mode neg, ffOF ||| ffIX))
    else
      let fl : FFlags := (if inexact then ffIX else 0) ||| (if inexact && tiny then ffUF else 0)
      if o.flush && decide (0 < bits) && decide (bits < 2 ^ f.fbits) then (f.signBit neg, fl ||| ffUF ||| ffIX)
      else (f.signBit neg + bits, fl)

/-- Round of an infinite value (R15, R21): exact but in E4M3; with SAT the largest finite value and IX. -/
def Fmt.roundInf (f : Fmt) (o : RoundOpt) (neg : Bool) : Nat × FFlags :=
  if o.sat then (f.signBit neg + f.maxBits, ffIX)
  else match f.inf with
    | some i => (f.signBit neg + i, 0)
    | none => (f.nan, ffOF ||| ffIX)

/-- Round of a decoded value whose zero keeps its own sign. -/
def Fmt.roundFv (f : Fmt) (o : RoundOpt) : Fv → Nat × FFlags
  | .nan => (f.nan, 0)
  | .inf n => f.roundInf o n
  | .fin n m e => f.round o n m e false

/-- The exact signed sum of two finite values: mantissa and exponent. -/
def addFin (n1 : Bool) (m1 : Nat) (e1 : Int) (n2 : Bool) (m2 : Nat) (e2 : Int) : Int × Int :=
  let e := min e1 e2
  let a : Int := (m1 * 2 ^ (e1 - e).toNat : Nat)
  let b : Int := (m2 * 2 ^ (e2 - e).toNat : Nat)
  ((if n1 then -a else a) + (if n2 then -b else b), e)

/-- The sign of an exact zero sum (R16): that of the operands when they agree, else by the mode. -/
def zeroSign (mode : Rm) (n1 n2 : Bool) : Bool :=
  if n1 = n2 then n1 else decide (mode = .rdn)

/-- A sum of two decoded values under R16 and R20. -/
def fvAdd (mode : Rm) : Fv → Fv → Fv × FFlags
  | .nan, _ => (.nan, 0)
  | _, .nan => (.nan, 0)
  | .inf a, .inf b => if a = b then (.inf a, 0) else (.nan, ffIV)
  | .inf a, _ => (.inf a, 0)
  | _, .inf b => (.inf b, 0)
  | .fin n1 m1 e1, .fin n2 m2 e2 =>
    let (s, e) := addFin n1 m1 e1 n2 m2 e2
    if s = 0 then (.fin (zeroSign mode n1 n2) 0 e, 0)
    else (.fin (decide (s < 0)) s.natAbs e, 0)

/-- A product of two decoded values (R16, R20). -/
def fvMul : Fv → Fv → Fv × FFlags
  | .nan, _ => (.nan, 0)
  | _, .nan => (.nan, 0)
  | .inf a, .inf b => (.inf (a != b), 0)
  | .inf a, .fin n m _ => if m = 0 then (.nan, ffIV) else (.inf (a != n), 0)
  | .fin n m _, .inf b => if m = 0 then (.nan, ffIV) else (.inf (n != b), 0)
  | .fin n1 m1 e1, .fin n2 m2 e2 => (.fin (n1 != n2) (m1 * m2) (e1 + e2), 0)

/-- Negation of a decoded value. -/
def Fv.neg : Fv → Fv
  | .nan => .nan
  | .inf a => .inf (!a)
  | .fin n m e => .fin (!n) m e

/-- Order of two decoded values: none when a NaN is present; +0 equals −0 (R102). -/
def fvCmp : Fv → Fv → Option Ordering
  | .nan, _ => none
  | _, .nan => none
  | .inf a, .inf b => some (if a = b then .eq else if a then .lt else .gt)
  | .inf a, _ => some (if a then .lt else .gt)
  | _, .inf b => some (if b then .gt else .lt)
  | .fin n1 m1 e1, .fin n2 m2 e2 => some (compare (addFin n1 m1 e1 (!n2) m2 e2).1 0)

/-- A value is zero. -/
def Fv.isZero : Fv → Bool
  | .fin _ 0 _ => true
  | _ => false

/-- Binary arithmetic of one element in format `f` with operand and result flush (R101, R104). -/
def Fmt.add2 (f : Fmt) (o : RoundOpt) (x y : Nat) : Nat × FFlags :=
  let (v, fl) := fvAdd o.mode (f.decode x) (f.decode y)
  let (r, fl') := f.roundFv o v
  (r, fl ||| fl')

def Fmt.mul2 (f : Fmt) (o : RoundOpt) (x y : Nat) : Nat × FFlags :=
  let (v, fl) := fvMul (f.decode x) (f.decode y)
  let (r, fl') := f.roundFv o v
  (r, fl ||| fl')

/-- Fused multiply and add: an exact product and one rounding (R101). -/
def Fmt.fma (f : Fmt) (o : RoundOpt) (x y z : Nat) : Nat × FFlags :=
  let (p, fl) := fvMul (f.decode x) (f.decode y)
  let (v, fl') := fvAdd o.mode p (f.decode z)
  -- a NaN operand raises no flag of its own (R14)
  let (r, fl'') := f.roundFv o v
  (r, fl ||| fl' ||| fl'')

/-- The sign bit of a pattern. -/
def Fmt.isNeg (f : Fmt) (b : Nat) : Bool := decide ((b / 2 ^ (f.bits - 1)) % 2 = 1)

/-- FMIN and FMAX of R19 (`mx` for FMAX), on patterns that already read through the flush of R18. -/
def Fmt.minMax (f : Fmt) (mx : Bool) (x y : Nat) : Nat :=
  match fvCmp (f.decode x) (f.decode y) with
  | none =>
    if f.decode x = .nan then (if f.decode y = .nan then f.nan else y) else x
  | some .lt => if mx then y else x
  | some .gt => if mx then x else y
  | some .eq => if f.isNeg x = mx then y else x

/-- Bit `b` of the sign of a pattern is complemented or cleared (the modifiers of R101). -/
def Fmt.modSign (f : Fmt) (abs neg : Bool) (b : Nat) : Nat :=
  let mag := b % 2 ^ (f.bits - 1)
  let s := if abs then false else f.isNeg b
  f.signBit (if neg then !s else s) + mag

/-- A quotient of exact naturals as mantissa, exponent and sticky bit, with at least `k` bits. -/
def divBits (k a b : Nat) : Nat × Int × Bool :=
  let sh := k + Nat.log2 b + 1
  let n := a * 2 ^ sh
  (n / b, -(sh : Int), decide (n % b ≠ 0))

/-- A square root of m × 2^e as mantissa, exponent and sticky bit. -/
def sqrtBits (k m : Nat) (e : Int) : Nat × Int × Bool :=
  let sh0 : Nat := 2 * k
  let m1 := if e % 2 = 0 then m * 2 ^ sh0 else m * 2 ^ (sh0 + 1)
  let e1 : Int := if e % 2 = 0 then e - (sh0 : Int) else e - 1 - (sh0 : Int)
  let r := Nat.sqrt m1
  (r, e1 / 2, decide (r * r ≠ m1))

/-- Conversion of a decoded value to an integer of `w` bits (R22). -/
def fvToInt (mode : Rm) (signed : Bool) (w : Nat) : Fv → BitVec 64 × FFlags
  | .nan => (0, ffIV)
  | .inf n =>
    let v : Int := if n then (if signed then -(2 ^ (w - 1) : Int) else 0)
      else (if signed then 2 ^ (w - 1) - 1 else 2 ^ w - 1)
    (BitVec.ofInt 64 v, ffIV)
  | .fin n m e =>
    let sh := (-e).toNat
    let n0 := if 0 ≤ e then m * 2 ^ e.toNat else m / 2 ^ sh
    let rem := if 0 ≤ e then 0 else m % 2 ^ sh
    let half := if 0 ≤ e then 0 else 2 ^ (sh - 1)
    let ix := decide (rem ≠ 0)
    let q := if roundUp mode n n0 rem half false ix then n0 + 1 else n0
    let v : Int := if n then -(q : Int) else q
    let lo : Int := if signed then -(2 ^ (w - 1) : Int) else 0
    let hi : Int := if signed then 2 ^ (w - 1) - 1 else 2 ^ w - 1
    if v < lo then (BitVec.ofInt 64 lo, ffIV)
    else if hi < v then (BitVec.ofInt 64 hi, ffIV)
    else (BitVec.ofInt 64 v, if ix then ffIX else 0)

/-- An exact integer as a decoded value. -/
def intFv (i : Int) : Fv := .fin (decide (i < 0)) i.natAbs 0

/-- Conversion of R21: Round(x × scale) into `dst`, the product exact. -/
def convert (dst : Fmt) (o : RoundOpt) (x scale : Fv) : Nat × FFlags :=
  let (p, fl) := fvMul x scale
  let (r, fl') := dst.roundFv o p
  (r, fl ||| fl')

/-- Conversion between FP32 and a format without scale: decoding is exact (R109). -/
def toFp32 (f : Fmt) (b : Nat) : Nat := (Fmt.fp32.roundFv { mode := .rne } (f.decode b)).1

end Sys2Proof.Machine
end

