-- ==== Sys2Proof/Machine/Map.lean ====
section
/-! DEFINITION. Sparse maps by number in one canonical form: keys strictly rising, and no entry
that equals what an unlisted key reads as. Memory, register files and tables are held so. -/

namespace Sys2Proof.Machine

/-- A sparse map from numbers. -/
abbrev Amap (α : Type) := List (Nat × α)

/-- The value at key `a`; an unlisted key reads as `d`. -/
def Amap.get {α : Type} (d : α) : Amap α → Nat → α
  | [], _ => d
  | (k, v) :: r, a => if a = k then v else Amap.get d r a

/-- The map without key `a`. -/
def Amap.erase {α : Type} (m : Amap α) (a : Nat) : Amap α := m.filter (fun p => decide (p.1 ≠ a))

/-- Add an entry before the first greater key. -/
def Amap.insert {α : Type} : Amap α → Nat → α → Amap α
  | [], a, v => [(a, v)]
  | (k, w) :: r, a, v => if a < k then (a, v) :: (k, w) :: r else (k, w) :: Amap.insert r a v

/-- Write `v` at key `a`; writing `d` removes the entry. -/
def Amap.set {α : Type} [DecidableEq α] (d : α) (m : Amap α) (a : Nat) (v : α) : Amap α :=
  if v = d then m.erase a else (m.erase a).insert a v

/-- Every key of the map is above `b`. -/
def Amap.above {α : Type} (b : Nat) (m : Amap α) : Bool := m.all (fun p => b < p.1)

/-- The canonical form. -/
def Amap.wf {α : Type} [DecidableEq α] (d : α) : Amap α → Bool
  | [] => true
  | (k, v) :: r => decide (v ≠ d) && Amap.above k r && Amap.wf d r

/-- The first record of a list that meets `p`, or `d`. -/
def findD {α : Type} (d : α) (p : α → Bool) : List α → α
  | [] => d
  | x :: r => if p x then x else findD d p r

/-- Change the records of a list that meet `p`. -/
def updWhere {α : Type} (p : α → Bool) (f : α → α) (l : List α) : List α :=
  l.map (fun x => if p x then f x else x)

/-- Change the record at one position of a list. -/
def modAt {α : Type} (f : α → α) : Nat → List α → List α
  | _, [] => []
  | 0, x :: r => f x :: r
  | n + 1, x :: r => x :: modAt f n r

end Sys2Proof.Machine
end

