-- ==== Sys2Proof/Machine/State.lean ====
section
/-! DEFINITION. Everything the spec gives the package to hold, as plain data, and the state after reset. -/

namespace Sys2Proof.Machine

/-- A V register with its shape tag (R40). GEN holds lanes 0 to 63. -/
inductive VReg
  | uni (b : Word)
  | aff (b t : Word)
  | gen (lanes : List Word)
  deriving DecidableEq, Repr

/-- A permutation register (R167): NLOG, and its settings at the image bits of R170. -/
structure PReg where
  nlog : Nat := 6
  img : BitVec 2048 := 0
  deriving DecidableEq, Repr

/-- A started clause (R53): engine class, CNT and YLD, its instruction words as they were fetched with it (R282), and, until its
first instruction has issued, the counters that its DCW selects (R58). -/
structure Clause where
  eng : BitVec 2
  cnt : Nat
  yld : Bool
  ws : List DWord := []
  dcw : BitVec 6 := 0
  deriving DecidableEq, Repr

/-- A frontier entry (R121). `h` is the header of the clause that holds `pc`; `cl` is none while the
entry stands at the clause head and the clause has not been started (R55, R58). -/
structure Entry where
  prio : BitVec 8
  pc : DWord
  mask : Mask
  h : DWord
  cl : Option Clause := none
  deriving DecidableEq, Repr

/-- What a pending result may be written to (R73). -/
inductive RegId
  | v (n : Nat)
  | s (n : Nat)
  | cc
  | p (n : Nat)
  deriving DecidableEq, Repr

/-- A register write. `vr` writes a whole register, `vl` the named lanes (R41). -/
inductive RegWrite
  | vr (r : Nat) (v : VReg)
  | vl (r : Nat) (lanes : Mask) (vals : List Word)
  | sr (r : Nat) (v : DWord)
  | cc (lanes c z n v : Mask)
  | pr (r : Nat) (v : PReg)
  | xr (v : DWord) (empty : Bool)
  | vpoison (r : Nat) (lanes : Mask)
  | spoison (r : Nat)
  deriving DecidableEq, Repr

/-- A pending long-latency result (R73, R75) of some lanes: the instructions of its window that remain, and, once it
has arrived, its writes. `flags` are the FSR bits that each lane raises when the result commits (R34, R35), none where it is
empty, and `fsr` tells that it can raise one. -/
structure Pending where
  rid : Nat
  left : Nat
  lanes : Mask
  dst : List RegId
  ready : Bool := false
  writes : List RegWrite := []
  flags : List Word := []
  red : Bool := false
  fsr : Bool := false
  rep : Bool := false
  oldP : Option (Nat × PReg) := none
  deriving DecidableEq, Repr

/-- What a warp waits on (R126, R129): its entry stays at the waiting instruction. -/
inductive Wait
  | none
  | bar (b n : Nat) (fence : Bool)
  | cbar (b n : Nat) (fence : Bool)
  | waitph (ring stage : Nat) (ph : Bool)
  | event (die ev v : Nat) (dec ext : Bool)
  | evfull (ev : Nat) (ext : Bool)
  | sleep (until_ : Nat)
  | ldf
  | stf
  | hurdle
  | xrd
  | waitdc (n v : Nat)
  | placew
  | fence
  | phase (die obj ph : Nat)
  | bank
  | other
  deriving DecidableEq, Repr

/-- A fence in progress (R225): its skew, and the writes it waits for. -/
structure FenceSt where
  scope : Nat
  upto : Nat
  deriving DecidableEq, Repr

/-- A warp (R121). `pass` counts the stages of an instruction that stalls its warp through several steps,
and `snap` the values it read at its first stage. `parked` marks lanes that wait for the fault service (R125);
`waitAt` is when the wait it stands in began (R320), and `turn` its place in the core's order of issue, 0 before its
first (R126). -/
structure Warp where
  wid : Nat
  entries : List Entry
  pend : List Pending := []
  rpc : Word := 0
  wait : Wait := .none
  arrived : Bool := false
  released : Bool := false
  fence : Option FenceSt := none
  pass : Nat := 0
  snap : List Nat := []
  parked : Bool := false
  held : Bool := false
  lastIssue : Nat := 0
  waitAt : Option Nat := none
  turn : Nat := 0
  deriving DecidableEq, Repr

/-- The handler registers and what trap entry sets aside (R138 to R141, R79). -/
structure Handler where
  priv : Bool
  tam : Mask
  tfm : Mask
  tcause : Word
  tpc : DWord
  tprio : Word
  taddr : DWord
  tinfo : Word
  rpc : Word
  frozen : List Nat
  intr : Option Nat
  deriving DecidableEq, Repr

/-- A fault held on a counter's slot, or on the slot without one (R241, R432), with the TINFO that its check gave (R291). -/
structure HeldFault where
  cause : Nat
  addr : DWord
  queue : Nat
  lost : Bool := false
  info : Nat := 0
  deriving DecidableEq, Repr

/-- A deferred ring arrival (R160): `upto` tells what the group issued before it (R162, R335). -/
structure Arrival where
  ring : Nat
  stage : Nat
  c : Nat
  dc : Nat
  upto : Nat := 0
  deriving DecidableEq, Repr

/-- An MMA captured at the Hurdle in FCLK cycle `at_` (R182, R183). -/
structure HurdleSt where
  wid : Nat
  gangreg : Word
  mode : Nat
  z : Nat
  xv : DWord
  yv : DWord
  q : Nat
  dc : Nat
  mask : Mask
  order : Nat
  at_ : Nat := 0
  deriving DecidableEq, Repr

/-- What a group held at the start of the FCLK cycle that runs (R36, R58, R99, R128, R137). -/
structure Cycle where
  s : Amap DWord
  fcr : Word
  fsr : Word
  amax : Word
  amaxc : Word
  dc : List Nat
  deriving DecidableEq, Repr

/-- A commit of the FCLK cycle that runs (R36): its lanes, flags, and AMAX magnitudes. -/
structure Commit where
  lanes : Mask
  fl : Word
  mags : List Nat := []
  deriving DecidableEq, Repr

/-- Where a group stands in the active set (R129), and its life (R313, R315). -/
inductive GState | placed | waiting | ready | active | ended | saved
  deriving DecidableEq, Repr

/-- A group (R120, R38). `coll` counts its vector instructions that wait in the core's operand collector (R135); `dead`
marks a group that does not resume after its machine-check handler (R266); `ctxStop` one that HALT.CONTEXT stops (R331). `seatedAt`
is when it was restored to another core than the one it was saved from (R299).
`cyc`, `issued` and `commits` belong to the FCLK cycle that runs. -/
structure Group where
  gid : Nat
  team : Nat
  grid : Nat
  ctx : Nat
  core : Nat
  index : Nat := 0
  role : Nat := 2
  width : Nat := 64
  budget : Nat := 256
  st : GState := .active
  since : Nat := 0
  lastIssue : Nat := 0
  warps : List Warp := []
  v : Amap VReg := []
  vpoison : Amap Mask := []
  s : Amap DWord := []
  spoison : Mask := 0
  c : Mask := 0
  z : Mask := 0
  n : Mask := 0
  vf : Mask := 0
  fcr : Word := 0
  fsr : Word := 0
  amax : Word := 0
  amaxc : Word := 0
  xr : DWord := 0
  xrseq : DWord := 0
  limb : Word := 0
  gangreg : Word := 0
  rng : DWord := 0
  gw : Nat := 0
  floor : Nat := 0
  dc : List Nat := [0, 0, 0, 0, 0, 0]
  held : List (Nat × HeldFault) := []
  deferred : List Arrival := []
  hurdle : List HurdleSt := []
  handlers : List Handler := []
  stopped : Bool := false
  causes : List Nat := []
  halted : Bool := false
  haltDue : Bool := false
  yieldDue : Bool := false
  dead : Bool := false
  ctxStop : Bool := false
  seatedAt : Nat := 0
  coll : Nat := 0
  teamid : Nat := 0
  gridsz : Nat := 1
  cyc : Option Cycle := none
  issued : List Nat := []
  commits : List Commit := []
  deriving DecidableEq, Repr

/-- Barrier state (R157). `full` tells that CNT had reached EXP when the FCLK cycle that runs began. -/
structure Barrier where
  gen : Nat := 0
  all : Bool := false
  exp : Nat := 0
  cnt : Nat := 0
  arrived : Word := 0
  full : Bool := false
  deriving DecidableEq, Repr

/-- Stage state (R159). `was` is PHASE at the start of the FCLK cycle that runs (R160, R161). -/
structure Stage where
  phase : Bool := false
  pend : Nat := 1
  was : Bool := false
  deriving DecidableEq, Repr

/-- A stage ring: E, and its stages. -/
structure Ring where
  e : Nat := 1
  stages : List Stage := []
  deriving DecidableEq, Repr

/-- An accumulator tile (R180, R196): elements by 64 i + j, type, deferred fault and kept address. -/
structure Tile where
  el : Amap Word := []
  int32 : Bool := false
  fcause : Nat := 0
  faddr : DWord := 0
  deriving DecidableEq, Repr

/-- A parameter window (R221) and a cluster window (R209, R309). -/
structure Window where
  valid : Bool := false
  base : DWord := 0
  size : Nat := 0
  deriving DecidableEq, Repr
structure CWindow where
  valid : Bool := false
  lo : Nat := 0
  hi : Nat := 0
  core : Nat := 0
  wr : Bool := false
  deriving DecidableEq, Repr

/-- The life of a team (R312, R315, R326). -/
inductive TState | queued | resident | draining | saving | flushing | saved | dying | ended
  deriving DecidableEq, Repr

/-- A team (R120): what its groups share. `banks` are the modes of its claimed banks, which are FIFO, and `bankNos`
the numbers of these banks (R208, R252). `full` are the granules that are full, and `fullWas` those that were at the start of the FCLK cycle
that runs (R211). A spawned team keeps its bin's `threads`, its `entry`
header and `binGw`, when the bin launched it (R317). `mode` is how
its pre-emption was asked for (R325), and `saveAt` where its saved image lies (R330). -/
structure Team where
  tid : Nat
  grid : Nat
  ctx : Nat
  die : Nat
  core : Nat := 0
  firstCore : Nat := 0
  teamid : Nat := 0
  st : TState := .resident
  spawned : Bool := false
  queuedAt : Nat := 0
  placedAt : Nat := 0
  progress : Nat := 0
  drainAt : Nat := 0
  slot : Option Nat := none
  ngrp : Nat := 1
  barriers : Amap Barrier := []
  rings : List (Nat × Ring) := []
  nt : Nat := 0
  tiles : Amap Tile := []
  mx : DWord := 0
  pregs : Amap PReg := []
  banks : List Bool := []
  bankNos : List Nat := []
  bankPend : Option (Nat × Nat × Nat) := none
  scratch : Amap Byte := []
  full : List Nat := []
  fullWas : List Nat := []
  spois : List Nat := []
  windows : List Window := []
  cwindows : List CWindow := []
  arg : DWord := 0
  threads : List (List Word) := []
  requeued : Bool := false
  mode : Nat := 0
  entry : DWord := 0
  binGw : Nat := 0
  saveAt : Nat := 0
  deriving DecidableEq, Repr

/-- The launch record (R308) and the binding table (R309), read and checked. -/
structure LaunchRec where
  code : DWord := 0
  entV : Nat := 0
  entM : Nat := 0
  entC : Nat := 0
  teams : Nat := 1
  arg : DWord := 0
  bind : DWord := 0
  seed : DWord := 0
  est : Nat := 0
  evdone : Nat := 0
  even : Bool := false
  idem : Bool := false
  pri : Nat := 0
  place : Nat := 0
  percore : Nat := 0
  ngrp : Nat := 1
  width : Nat := 64
  ncopy : Nat := 0
  nmat : Nat := 0
  nvec : Nat := 1
  budC : Nat := 0
  budM : Nat := 0
  budV : Nat := 0
  banks : Nat := 0
  fifo : Nat := 0
  tiles : Nat := 0
  rings : List (Nat × Ring) := []
  windows : List Window := []
  cwindows : List CWindow := []
  deriving DecidableEq, Repr

/-- A grid (R311, R315). `unplaced` holds, for each die, the next team index of that die and the die's mask. -/
structure Grid where
  id : Nat
  ctx : Nat
  record : LaunchRec
  addr : DWord := 0
  stamp : Nat := 0
  dies : List Nat := []
  next : List Nat := []
  spawnedN : Nat := 0
  launcher : Option (Nat × Nat) := none
  queuedAt : Nat := 0
  fixed : Option Nat := none
  gw : Nat := 0
  killed : Bool := false
  deriving DecidableEq, Repr

/-- Kinds of memory request (R217, R223, R273). -/
inductive RKind
  | load
  | store
  | atom (op : Nat) (ret : Bool)
  deriving DecidableEq, Repr

/-- One lane's access within one line: address, bytes, data and the new value of a cas. -/
structure Acc where
  lane : Nat
  va : Nat
  pa : Nat
  n : Nat
  data : Nat := 0
  new : Nat := 0
  conv : Nat := 0
  deriving DecidableEq, Repr

/-- The accesses of one request to one line: the class, lease class and XF of its page (R275, R276, R281), and the
hints of its instruction (R213). -/
structure Part where
  line : Nat
  accs : List Acc
  cls : Nat
  lc : Nat := 0
  xf : Bool := false
  node : Nat := 0
  fills : Bool := true
  pol : Nat := 0
  l2na : Bool := false
  rcnt : Nat := 0
  done : Bool := false
  performed : Bool := false
  gwct : Nat := 0
  deriving DecidableEq, Repr

/-- A memory request in flight: one per instruction, with one part per line. `lanes` and `full` say what a load's
destination receives (`uniform`: one value for every lane), `vals` the values that have come back, by lane. The `bad` lanes
were not performed, for `cause` with TINFO `info`; `far` marks a remote fault (R410) and `pref` a PREF (R224). `sentAt` is when it left the package. -/
structure Req where
  rid : Nat
  gid : Nat
  wid : Nat
  core : Nat
  ctx : Nat
  kind : RKind
  inCluster : Bool := false
  dc : Nat := 6
  scope : Nat := 0
  parts : List Part
  vals : List (Nat × Nat) := []
  bad : Mask := 0
  badAt : Nat := 0
  wt : Nat := 0
  acq : Bool := false
  wid3 : Nat := 2
  lanes : Mask := 0
  full : Bool := false
  uniform : Bool := false
  dreg : Nat := 0
  dIsS : Bool := false
  daz : Bool := false
  sent : Bool := false
  sentAt : Nat := 0
  cause : Nat := 0x13
  info : Nat := 0
  far : Bool := false
  pref : Bool := false
  deriving DecidableEq, Repr

/-- Home state of a line (R273): keyed by line number; lines not listed are clean, unheld and unwritten. `dirtyAt` is when a dirty line became
dirty (R373). -/
structure Line where
  line : Nat
  inL2 : Bool := false
  dirty : Bool := false
  dirtyBy : Nat := 0
  dirtyAt : Nat := 0
  owner : Nat := 0
  clusters : BitVec 8 := 0
  dieBits : BitVec 8 := 0
  hw : Nat := 0
  wt : Nat := 0
  cp : Bool := false
  rcnt : Nat := 0
  old : List Byte := []
  deriving DecidableEq, Repr

/-- An L1 copy (R275 to R279): data, class, lease, fill time, and the phase it was filled in. It stands in CACHE bank `bank` (R207); a line under
the policy keep counts in `keep` the keep lines filled since (R213). -/
structure L1Line where
  core : Nat
  line : Nat
  data : List Byte
  cls : Nat := 0
  lease : Nat := 0
  ft : Nat := 0
  tag : Option (Nat × Nat) := none
  rcnt : Nat := 0
  bank : Nat := 0
  keep : Option Nat := none
  bad : Bool := false
  deriving DecidableEq, Repr

/-- An instruction-cache copy (R281). -/
structure ICLine where
  core : Nat
  line : Nat
  data : List Byte
  deriving DecidableEq, Repr

/-- A leaf entry (R283). -/
structure Leaf where
  pfn : Nat
  w : Bool
  x : Bool
  xf : Bool
  coh : Nat
  lc : Nat
  fmt : Nat
  bg : Nat
  ten : Nat
  node : Nat
  deriving DecidableEq, Repr

/-- A TLB entry (R285): `cluster` and `core` say whose; pages are 2^order × 4 KiB. -/
structure TlbEntry where
  second : Bool
  who : Nat
  asid : Nat
  vpn : Nat
  order : Nat
  leaf : Leaf
  deriving DecidableEq, Repr

/-- A non-leaf entry in a die's walk cache (R286). -/
structure WalkEntry where
  die : Nat
  asid : Nat
  level : Nat
  idx : Nat
  table : Nat
  deriving DecidableEq, Repr

/-- An invalidation on its way to L1s and instruction caches (R274, R275). -/
structure Inval where
  iid : Nat
  line : Nat
  home : Nat
  clusters : BitVec 8
  dieBits : BitVec 8
  icOnly : Bool
  spare : Option Nat
  rid : Option (Nat × Nat)
  deriving DecidableEq, Repr

/-- A fault record (R287), the warps held on it, and the commands of engines that WAITERS counts. -/
structure FaultRec where
  id : Nat
  die : Nat
  va : DWord
  asid : Nat
  ctx : Nat
  level : Nat
  kind : Nat
  waiters : Nat := 1
  agent : Nat := 0
  bwAt : Nat := 0
  cluster : Nat := 0
  core : Nat := 0
  queued : Bool := true
  state : Nat := 0
  warps : List (Nat × Nat) := []
  engines : List (Nat × Nat) := []
  deriving DecidableEq, Repr

/-- A Fold table entry (R278) with its box as line numbers (R279). -/
structure FoldEntry where
  die : Nat
  index : Nat
  live : Bool := false
  decl : Nat := 0
  pkg : Bool := false
  gen : Nat := 0
  pm1 : Nat := 0
  arr : Nat := 0
  phase : Nat := 0
  lines : List Nat := []
  deriving DecidableEq, Repr

/-- A core's view of an object's phase (R279). -/
structure PhaseView where
  core : Nat
  die : Nat
  index : Nat
  phase : Nat
  deriving DecidableEq, Repr

/-- A command of the core copy unit (R236, R240) and its markers (R227). Of a started command, `at_` elements have been
moved, or granules of scratchpad written (R246), with the GWCTs `gw` and flags `fl` so far. `by_` are the lanes of the entry that issued it (R37). -/
structure CopyCmd where
  id : Nat
  gid : Nat
  kind : Nat
  recAddr : DWord
  mask : Mask := 0
  idx : List Nat := []
  fill : Word := 0
  empty : Bool := false
  dc : Nat := 0
  waits : List Nat := []
  started : Bool := false
  record : List Byte := []
  src : List Byte := []
  dst : List Byte := []
  preg : Option PReg := none
  marker : Bool := false
  queue : Nat := 0
  at_ : Nat := 0
  gw : Nat := 0
  fl : BitVec 5 := 0
  by_ : Mask := 0
  deriving DecidableEq, Repr

/-- Kinds of matrix-queue command (R204). -/
inductive MKind | mma | aclr | ald | ast | mxclr | marker
  deriving DecidableEq, Repr

/-- A released matrix command (R188 to R204): its records, P registers and shape as read at release. `was` is memory, and each
team's scratchpad, as an MMA's operands may still be read (R195). `by_` are the lanes of the entry that issued it (R37), `pinned` tells that its operands
were at hand at its grant (R269), `after` is the LCLK at which the last marker before it left the queue (R227), and `held` that a
translation fault has held it (R196). -/
structure MCmd where
  id : Nat
  team : Nat
  gid : Nat
  kind : MKind
  tile : Nat := 0
  mode : Nat := 0
  m : Nat := 64
  n : Nat := 64
  k : Nat := 32
  acc : Bool := false
  sat : Bool := false
  int32 : Bool := false
  mask : Nat := 0
  scale : Word := 0
  recA : List Byte := []
  recB : List Byte := []
  pA : PReg := {}
  pB : PReg := {}
  members : List (Nat × Nat) := []
  waits : List Nat := []
  reqAt : Nat := 0
  granted : Bool := false
  grantAt : Nat := 0
  started : Bool := false
  done : Bool := false
  fault : Option (Nat × DWord) := none
  occEnd : Nat := 0
  was : Option (List Host.Cell × List (Nat × Amap Byte)) := none
  by_ : Mask := 0
  pinned : Bool := false
  after : Nat := 0
  held : Bool := false
  deriving DecidableEq, Repr

/-- Kinds of queued permutation instruction (R171). -/
inductive CrookKind | pldi | plds | pcomp | pinv | prand | psti | psts | pcyc | pidn
  deriving DecidableEq, Repr

/-- A queued permutation instruction (R171, R173): `val` is the new value of pd, or the settings it reads once it has
reached the Crook; `pre` names the registers that the warp reads inside the window of an earlier write of its own, with
that write, and `olds` what those registers held (R172). -/
structure CrookOp where
  rid : Nat
  gid : Nat
  wid : Nat
  team : Nat
  kind : CrookKind
  pd : Nat := 0
  pa : Nat := 0
  pb : Nat := 0
  lanes : Mask := 0
  full : Bool := false
  dreg : Nat := 0
  started : Bool := false
  val : PReg := {}
  valB : PReg := {}
  pre : List (Nat × Nat) := []
  olds : List (Nat × PReg) := []
  endAt : Nat := 0
  deriving DecidableEq, Repr

/-- Power state of a core's matrix engine (R259, R260, R263). `engEnd` is, while live, the last LCLK that an operation
was given to occupy; in its falling steps the last LCLK it is live; in pre-ramp the last LCLK of the fillers. `preReq` is a
pre-ramp's requests (LCLK, length), which wait in turn. -/
inductive EngSt | idle | live | falling | preramp
  deriving DecidableEq, Repr

/-- A line that a core holds pinned (R193, R197): for the operation `op`, or, where that is none, for a TFETCH of the record at `recAt` by
the team. -/
structure Pin where
  line : Nat
  recAt : Nat
  team : Nat
  op : Option Nat := none
  deriving DecidableEq, Repr

/-- A core (R119 to R137, R171, R204, R207, R240). Keyed by its package-wide number. -/
structure Core where
  crook : List CrookOp := []
  mq : List MCmd := []
  copyq : List CopyCmd := []
  tfetch : List CopyCmd := []
  hintMiss : Nat := 0
  policy : Nat := 0
  eng : EngSt := .idle
  engEnd : Nat := 0
  preReq : List (Nat × Nat) := []
  pins : List Pin := []
  deriving DecidableEq, Repr

/-- A cluster (R248 to R266). `pend` marks a lane-mode change (R250): `draining` until its relock, which ends at FCLK `relockAt`;
`heldMode` is a mode written meanwhile. `owed` counts the FCLK cycles of the BWCLK tick that runs which have not begun. `quiet`, `rise`, `stepAt` (the last boundary taken) and the tables in force belong to the
current-slew limiter (R259). -/
structure Cluster where
  fmhz : Nat := 1800
  pend : Bool := false
  lmode : Nat := 1
  newMode : Nat := 1
  heldMode : Option Nat := none
  draining : Bool := false
  relockAt : Nat := 0
  fclk : Nat := 0
  facc : Nat := 0
  owed : Nat := 0
  lclk : Nat := 0
  ramp : List Nat := List.replicate 4 0x0001000100010001
  quiet : Bool := true
  rise : Nat := 0
  stepAt : Nat := 0
  upTab : List Nat := [1, 1, 2, 2, 4, 4, 8, 8, 16, 16, 32, 32, 64, 64, 128, 128]
  dnTab : List Nat := [4, 3, 2, 1, 0]
  gpwr : Nat := 16
  gceil : Nat := 16
  profile : Nat := 0
  gate : Nat := 0
  gateEn : Bool := true
  idleus : Nat := 10
  idleAt : Nat := 0
  serpt : DWord := 0
  cbars : List ((Nat × Nat) × (Barrier × List Nat)) := []
  relAt : List (Nat × Nat) := []
  fillers : Nat := 0
  deriving DecidableEq, Repr

/-- A waiter of an event (R318): a warp (`a` its group, `b` its number) or a copy engine (`a` its number). -/
structure Waiter where
  eng : Bool := false
  a : Nat
  b : Nat := 0
  v : Nat
  dec : Bool
  deriving DecidableEq, Repr

/-- A named event (R318), sparse: not listed is COUNT 0, no waiters, no STREAM. -/
structure Event where
  ctx : Nat
  ev : Nat
  count : Nat := 0
  stream : Option Nat := none
  waiters : List Waiter := []
  stamp : Nat := 0
  deriving DecidableEq, Repr

/-- A spawn bin (R317). -/
structure Bin where
  die : Nat
  ctx : Nat
  entry : DWord
  grid : Nat
  n : Nat
  threads : List (List Word) := []
  start : Nat := 0
  gw : Nat := 0
  deriving DecidableEq, Repr

/-- A copy engine (R346 to R353). `xfer` is its transfer in progress; `window` the address of the record of the XSTRM it runs,
`record` its bits as read, `layer` CUR, `promoted` and `page` what is promoted next, `taken` that it took the layer's EVDONE.
`waiting` marks an engine whose word waits for an event or a PLACE. -/
structure CopyEngine where
  pc : DWord := 0
  ctx : Nat := 0
  fev : Nat := 0
  lact : BitVec 4 := 0
  l : List Nat := [0, 0, 0, 0]
  i : List Nat := [0, 0, 0, 0]
  flags : BitVec 5 := 0
  cause : Nat := 0
  state : Nat := 0
  faddr : DWord := 0
  xfer : Option CopyCmd := none
  gw : Nat := 0
  window : Option Nat := none
  record : Nat := 0
  layer : Nat := 0
  promoted : Nat := 0
  page : Nat := 0
  taken : Bool := false
  stopReq : Bool := false
  waiting : Bool := false
  ahead : List (Nat × DWord) := []
  deriving DecidableEq, Repr

/-- The copy of a context's registers (R305), held once: a write reaches all eight copies before it completes. `leftAt` is when
a group of the context last left a die (R320). -/
structure Context where
  enable : Bool := false
  priv : Bool := false
  dbg : Bool := false
  fsvc : Bool := false
  asid : Nat := 0
  ptroot : Nat := 0
  tvec : DWord := 0
  ptvec : DWord := 0
  wdog : Nat := 10000
  spawnt : Nat := 256
  drain : Nat := 0
  flush : Nat := 0
  spillBase : Nat := 0
  spillSize : Nat := 0
  savepool : Nat := 0
  slots : Nat := 0
  dlkcnt : Nat := 0
  bwmeter : List Nat := [0, 0, 0, 0, 0, 0, 0, 0]
  xhits : List Nat := [0, 0, 0, 0, 0, 0, 0, 0]
  leftAt : List Nat := [0, 0, 0, 0, 0, 0, 0, 0]
  tenmask : BitVec 9 := 1
  t1budget : Nat := 0xFFFFFF
  t1held : Nat := 0
  tierpol : Nat := 0
  deriving DecidableEq, Repr

/-- A CTXSAVE or CTXLOAD in progress (R329, R330): the counter of its issuer, the summary address, and the counts. -/
structure SaveOp where
  id : Nat
  die : Nat
  ctx : Nat
  gid : Nat
  dc : Nat
  addr : DWord
  mode : Nat
  load : Bool := false
  saved : Nat := 0
  drained : Nat := 0
  flushed : Nat := 0
  deriving DecidableEq, Repr

/-- A die's scheduler (R312, R321, R329): contexts it does not place, the last save-and-admit of a context, and the context
whose turn was last. -/
structure Die where
  saveBlock : List Nat := []
  admitAt : List (Nat × Nat) := []
  turn : Nat := 0
  deriving DecidableEq, Repr

/-- A PLACE in progress, or the XPLACE of an engine (R231, R351). -/
structure PlaceOp where
  rid : Nat
  gid : Nat
  dc : Nat
  engine : Option (Nat × Nat) := none
  ctx : Nat
  tier : Nat
  pin : Bool
  pages : List Nat
  deriving DecidableEq, Repr

/-- A migration (R339). -/
structure Migration where
  mid : Nat
  ctx : Nat
  vpage : Nat
  src : Nat
  dst : Nat
  phase : Nat := 0
  deriving DecidableEq, Repr

/-- What the tier manager keeps of a page: pins by tier, RCP and the lines read in the pass (R345), compression (R341). -/
structure PageSt where
  ctx : Nat
  vpage : Nat
  pin : Option Nat := none
  rcp : Nat := 0
  readLines : List Nat := []
  held : Bool := false
  promoted : Bool := false
  packed : List Nat := []
  deriving DecidableEq, Repr

/-- A host port (R355 to R372): the mode in force and PORTCFG's, its registers, its log, and its tenant TLB (R357). SIGPROD, SIGCONS, SIGOVF and
LOGHEAD start at 0 (DESIGN CHOICE: the spec gives them no reset value). -/
structure Port where
  mode : Nat := 3
  modeCfg : Nat := 3
  ctx : Nat := 0
  nvf : Nat := 0
  up : Bool := false
  lwidth : Nat := 0
  tenctl : DWord := 0x400000
  ttroot : Nat := 0
  sigbase : Nat := 0
  sigprod : Nat := 0
  sigcons : Nat := 0
  sigovf : Nat := 0
  loghead : Nat := 0
  log : List DWord := List.replicate 16 0
  ttlb : List TlbEntry := []
  deriving DecidableEq, Repr

/-- A region (R360): a range of lent memory and what the host of its port may hold of it. `lines` are the 64 lines of a
CONTESTED region: 0 none, 1 clean, 2 clean or dirty; `used` orders regions by their last use. -/
inductive RegSt | shared | host | contested
  deriving DecidableEq, Repr
structure Region where
  port : Nat
  base : Nat
  size : Nat
  st : RegSt
  lines : List Nat := []
  used : Nat := 0
  deriving DecidableEq, Repr

/-- A back-invalidate snoop on its way (R361 to R363): the 128-byte line or recalled range, whether it invalidates, whether
it recalls, and the request that waits for it. -/
structure Snoop where
  hid : Nat
  port : Nat
  base : Nat
  size : Nat
  inv : Bool
  back : Bool := false
  drop : Bool := false
  deriving DecidableEq, Repr

/-- A host request held by the device (R361 to R367), or a write performed and not completed to the host until `ackAt` (R302). -/
structure HostReq where
  hid : Nat
  port : Nat
  kind : Nat
  addr : Nat
  value : Nat
  pa : Nat := 0
  at_ : Nat := 0
  held : Nat := 0
  ackAt : Nat := 0
  deriving DecidableEq, Repr

/-- The bytes of an inbound request in one line: where, its place in the request, and its class. -/
structure InPart where
  pa : Nat
  off : Nat
  n : Nat
  cls : Nat
  xf : Bool
  done : Bool := false
  deriving DecidableEq, Repr

/-- An inbound posted write, or a read, at its function's ordering point (R371, R372, R379). -/
structure Inbound where
  pid : Nat
  port : Nat
  fn : Nat
  addr : Nat
  value : Nat := 0
  size : Nat
  read : Bool := false
  parts : List InPart := []
  released : Bool := false
  stamp : Nat := 0
  gwct : Nat := 0
  acked : List Nat := []
  deriving DecidableEq, Repr

/-- A signal in flight (R411, R412, R370). `gid` is 2^64 for one that another node (`port`) sent; `src` is the sending
context, `stamp` the posting's instant once `posted`, `seq` its place among postings. -/
structure Signal where
  sid : Nat
  gid : Nat
  dc : Nat
  kind : Nat
  node : Nat
  ctx : Nat
  ev : Nat
  value : DWord
  port : Nat := 0
  clr : Bool := false
  stamp : Nat := 0
  applied : Bool := false
  seq : Nat := 0
  src : Nat := 0
  posted : Bool := false
  wrote : Option Nat := none
  deriving DecidableEq, Repr

/-- A Droveway link (R403, R406): WIDTH, PEER and RETRY of LINKSTAT. -/
structure Link where
  width : Nat := 0
  peer : Nat := 0
  retry : Nat := 0
  deriving DecidableEq, Repr

/-- A collective record in a context's queue on a die (R413 to R415). `data` is every member's source, once all have joined,
`fail` the code of a failure, `gw` the GWCT of what it wrote, and `done` that its flag is written. -/
structure Collective where
  id : Nat
  marker : Bool := false
  die : Nat
  ctx : Nat
  addr : DWord
  at_ : Nat := 0
  waits : List Nat := []
  data : Option (List (List Byte)) := none
  fail : Nat := 0
  gw : Nat := 0
  done : Bool := false
  deriving DecidableEq, Repr

/-- A remote access held at this node until its fault record ends (R410). -/
structure Remote where
  id : Nat
  src : Nat
  kind : Nat
  va : Nat
  tidx : Nat
  value : Nat
  deriving DecidableEq, Repr

/-- A power island (R388): frequency cap, throttle group and the announcements on the way. -/
structure Island where
  thrgrp : Nat := 0
  late : Nat := 0
  fcap : Nat := 1800
  freq : Nat := 1800
  pending : List (Nat × Nat × Nat) := []
  deriving DecidableEq, Repr

/-- A memory stack (R389, R392); `sampAt` counts its samples. -/
structure Stack where
  temp : BitVec 8
  level : Nat := 0
  sampAt : Nat := 0
  deriving DecidableEq, Repr

/-- The phase of a compute reset (R374). -/
inductive ResetSt | idle | started (t : Nat) | switched (t : Nat)
  deriving DecidableEq, Repr

/-- The measurement slots after a bring-up (R394, R395): Finat, the Shepherd firmware and perhaps a host boot image extend a
slot each; the slots and digests are free values. -/
def bootMeasure (k : Nat) : List (List Byte) :=
  let digest (i : Nat) : List Byte := (List.range 64).map (fun j => Config.outsideByte j (k + i))
  ([0, 1] ++ if Config.freeBool k then [2] else []).foldl (fun (ms : List (List Byte)) i =>
    modAt (fun m => Config.shake256 64 (m ++ digest i)) ((Config.freeWord (k + i)).toNat % 16) ms) (List.replicate 16 (List.replicate 64 0))

/-- Package registers and units of one instance: power, security, reset and fabric. `caps` lists the capability registers
that differ from those of a full part (R398); `bucket` is in mJ `pwAt` counts the intervals measured, and `sustw` is SUSTW as the interval has it (R385, R401). `serlog` is Finat's log of corrected
errors: a cluster and the counts read (R392). `attEv` is the event of a report that is asked for, and `attGw` the GWCT of one that is written (R396).
ATTBUF starts at 0, and so does RESETSTAT[0], `resetDone` (DESIGN CHOICE: the spec gives neither a value after power-on or a keep-domain reset). -/
structure Package where
  coolin : Nat := 45
  boost : Bool := true
  boostw : Nat := 10000
  sustw : Nat := 8000
  capw : Nat := 8000
  pw : Nat := 0
  bucket : Nat := 36000000
  pwAt : Nat := 0
  refctl : Nat := 0
  t2prot : Nat := 0
  t2protOn : Nat := 0
  caps : List (Nat × DWord) := []
  svn : BitVec 8 := Config.fusedSvn
  prov : Bool := true
  kekv : Bool := true
  alarm : Nat := 0
  measure : List (List Byte) := bootMeasure 0
  attbuf : DWord := 0
  attEv : Option Nat := none
  attGw : Option Nat := none
  reset : ResetSt := .idle
  resetDone : Bool := false
  bootFail : Bool := false
  bootlr : DWord := 0
  halt : Bool := false
  nodecfg : DWord := 0
  sigdrop : Nat := 0
  wfault : Nat := 0
  cbad : Nat := 0
  sync : Bool := false
  routes : Amap DWord := []
  serlog : List (Nat × Nat) := []
  deriving DecidableEq, Repr

/-- A warp, by group and number within it. -/
structure WarpRef where
  gid : Nat
  wid : Nat
  deriving DecidableEq, Repr

/-- What a replacement strikes: an L1 or instruction-cache copy, a TLB or walk-cache entry, or a line of a home slice. -/
inductive Cached | l1 | icache | tlb | walk | l2
  deriving DecidableEq, Repr

/-- What comes next: a warp issues, a copy engine performs its next word, a step of the machine, time passes, a cache
replaces an entry, a soft error of a unit of a core's cluster is corrected (R266), a link sends a flit again (R403),
or a copy engine fetches the j-th word after its PC (R347). -/
inductive Move
  | issue (w : WarpRef)
  | engine (die e : Nat)
  | event (i : Instr)
  | tick
  | replace (c : Cached) (i : Nat)
  | corrected (core unit_ i : Nat)
  | retried (link : Nat)
  | ahead (die e j : Nat)
  deriving DecidableEq, Repr

/-- The whole machine. `served` are the lines, each with a rank of its requester, whose slices have performed a request in this tick of BWCLK
(R273). -/
structure State where
  bw : Nat
  groups : List Group
  teams : List Team
  grids : List Grid
  cores : Amap Core
  clusters : List Cluster
  dies : List Die
  contexts : List Context
  mem : List Host.Cell
  poison : List Nat
  lines : List Line
  eh : Amap Nat
  l1 : List L1Line
  icache : List ICLine
  tlb : List TlbEntry
  walkc : List WalkEntry
  reqs : List Req
  invals : List Inval
  faults : List FaultRec
  fold : List FoldEntry
  views : List PhaseView
  events : List Event
  bins : List Bin
  ces : List CopyEngine
  saves : List SaveOp
  places : List PlaceOp
  migs : List Migration
  pages : List PageSt
  ports : List Port
  regions : List Region
  snoops : List Snoop
  hostReqs : List HostReq
  inbound : List Inbound
  remotes : List Remote
  ordering : List (Nat × Nat × Nat)
  signals : List Signal
  links : List Link
  collectives : List Collective
  islands : List Island
  hbm : List Stack
  pkg : Package
  out : List (Nat × List Nat)
  finat : List (Nat × Nat × Nat × Nat)
  served : List (Nat × Nat)
  nextId : Nat
  choice : Nat
  issuer : Option WarpRef
  engine : Option Nat
  agenda : List Move
  deriving DecidableEq, Repr

/-- The machine stops with a fault: no rule of the spec stops the package, so there is none that a
step raises. The constructor stands for a step number no machine has. -/
inductive Fault
  /-- Raised by nothing: kept so that the type is inhabited. Safe. -/
  | none
  deriving DecidableEq, Repr

/-- No meaning for an instruction. -/
inductive Refusal
  /-- Raised by an arm of `exec` that has no meaning yet. Safe. -/
  | notModelled (mnemonic : String)
  deriving DecidableEq, Repr

/-- Context `k` after reset (R305): context 0 is enabled and privileged with a fault service. -/
def Context.reset (k : Nat) : Context :=
  { enable := k == 0, priv := k == 0, fsvc := k == 0, asid := k }

/-- The package right after a reset of the whole package, before any launch (R374, R375, R400). BWCLK starts at 0 (DESIGN CHOICE: R400 gives no
value at its start). -/
def State.reset : State where
  bw := 0
  groups := []
  teams := []
  grids := []
  cores := []
  clusters := List.replicate 64 {}
  dies := List.replicate 8 {}
  contexts := (List.range 97).map Context.reset
  mem := []
  poison := []
  lines := []
  eh := []
  l1 := []
  icache := []
  tlb := []
  walkc := []
  reqs := []
  invals := []
  faults := []
  fold := []
  views := []
  events := []
  bins := []
  ces := List.replicate 64 {}
  saves := []
  places := []
  migs := []
  pages := []
  ports := List.replicate 8 {}
  regions := []
  snoops := []
  hostReqs := []
  inbound := []
  remotes := []
  ordering := []
  signals := []
  links := List.replicate 36 {}
  collectives := []
  islands := List.replicate 64 {}
  hbm := List.replicate 16 { temp := 0 }
  pkg := {}
  out := []
  finat := []
  served := []
  nextId := 0
  choice := 0
  issuer := none
  engine := none
  agenda := []

end Sys2Proof.Machine
end

