-- ==== Sys2Proof/Machine/Ops.lean ====
section
/-! DEFINITION. The named operations over memory, groups, warps and registers, and taking an exception
(R138 to R141) and returning from one (R117), each written once. -/

namespace Sys2Proof.Machine

/-! ## Masks and numbers -/

/-- Lane `l` is in the mask. -/
def Mask.has (m : Mask) (l : Nat) : Bool := m.getLsbD l
/-- The lanes 0 to w − 1 (R119). -/
def Mask.width (w : Nat) : Mask := BitVec.ofNat 64 (2 ^ w - 1)
/-- A mask of the lanes that meet a test. -/
def Mask.where_ (p : Nat → Bool) : Mask :=
  (List.range 64).foldl (fun m l => if p l then m ||| (1#64 <<< l) else m) 0
/-- The lanes of a mask, ascending. -/
def Mask.lanes (m : Mask) : List Nat := (List.range 64).filter (Mask.has m)
/-- The lowest lane, or 64. -/
def Mask.low (m : Mask) : Nat := (Mask.lanes m).headD 64
def Mask.count (m : Mask) : Nat := (Mask.lanes m).length
/-- `a` holds only lanes of `b`. -/
def Mask.sub (a b : Mask) : Bool := a &&& ~~~b == 0#64

/-- A field of a word of any length: n bits from bit `lo` (R1). -/
def field (v lo n : Nat) : Nat := v / 2 ^ lo % 2 ^ n
/-- The signed value of an n-bit field (R2). -/
def sInt (v n : Nat) : Int := if v % 2 ^ n < 2 ^ (n - 1) then (v % 2 ^ n : Nat) else (v % 2 ^ n : Nat) - (2 ^ n : Int)
/-- Trunc(·, n) of an integer (R2). -/
def truncI (n : Nat) (i : Int) : Nat := (i % (2 ^ n : Int)).toNat

/-! ## Memory -/

/-- What a byte that nothing has written reads as. -/
def memDefault : Byte := 0
/-- A memory is in canonical form. -/
abbrev Memory.wf (m : List Host.Cell) : Prop := Amap.wf memDefault m = true
def Memory.read (m : List Host.Cell) (a : Nat) : Byte := Amap.get memDefault m a
def Memory.write (m : List Host.Cell) (a : Nat) (b : Byte) : List Host.Cell := Amap.set memDefault m a b
/-- The bytes from an address upward. -/
def Memory.bytes (m : List Host.Cell) (a : Nat) : Nat → List Byte
  | 0 => []
  | n + 1 => Memory.read m a :: Memory.bytes m (a + 1) n
def Memory.store (m : List Host.Cell) (a : Nat) : List Byte → List Host.Cell
  | [] => m
  | b :: r => Memory.store (Memory.write m a b) (a + 1) r

/-- Bytes to a number and back, lowest address first (R3). -/
def leNat : List Byte → Nat
  | [] => 0
  | b :: r => b.toNat + 256 * leNat r
def leBytes : Nat → Nat → List Byte
  | 0, _ => []
  | n + 1, v => BitVec.ofNat 8 v :: leBytes n (v / 256)

/-- n bytes of the home view of memory as a number. -/
def State.rd (s : State) (a n : Nat) : Nat := leNat (Memory.bytes s.mem a n)
def State.wrBytes (s : State) (a : Nat) (bs : List Byte) : State := { s with mem := Memory.store s.mem a bs }
def State.wr (s : State) (a n v : Nat) : State := s.wrBytes a (leBytes n v)
/-- The 64-byte block of an address is poisoned (R392). -/
def State.poisoned (s : State) (a n : Nat) : Bool :=
  (List.range n).any (fun k => s.poison.contains ((a + k) / 64))

/-- This package's node number (R402). -/
def State.nodeId (s : State) : Nat := s.pkg.nodecfg.toNat % 2 ^ 14
/-- An address that another node homes: the export address and the node (R408), set above every local address. -/
def remotePa (node ea : Nat) : Nat := (node + 1) * 2 ^ 48 + ea
def isRemote (pa : Nat) : Bool := decide (2 ^ 48 ≤ pa)
/-- A register or signal window, or another node (R272): not memory of this package. -/
def isWindow (pa : Nat) : Bool := decide (Config.t2End ≤ pa)
/-- A byte as a load performed at the home reads it; outside the package's memory it is a free value. -/
def State.rdByte (s : State) (pa : Nat) : Byte := if isWindow pa then Config.outsideByte pa s.choice else Memory.read s.mem pa
def State.rdBytes (s : State) (pa n : Nat) : List Byte := (List.range n).map (fun k => s.rdByte (pa + k))

/-! ## Places -/

/-- Cluster (8 × die + cluster) and die of a core's package-wide number. -/
def clusterOf (core : Nat) : Nat := core / 128
def dieOf (core : Nat) : Nat := core / 1024
def State.core (s : State) (c : Nat) : Core := Amap.get {} s.cores c
def State.setCore (s : State) (c : Nat) (f : Core → Core) : State :=
  { s with cores := Amap.set {} s.cores c (f (s.core c)) }
def State.cluster (s : State) (k : Nat) : Cluster := s.clusters.getD k {}
def State.setCluster (s : State) (k : Nat) (f : Cluster → Cluster) : State :=
  { s with clusters := modAt f k s.clusters }
def State.ctx (s : State) (k : Nat) : Context := s.contexts.getD k {}
def State.setCtx (s : State) (k : Nat) (f : Context → Context) : State :=
  { s with contexts := modAt f k s.contexts }
def State.ce (s : State) (k : Nat) : CopyEngine := s.ces.getD k {}
def State.setCe (s : State) (k : Nat) (f : CopyEngine → CopyEngine) : State := { s with ces := modAt f k s.ces }

def noGroup : Group := { gid := 0, team := 0, grid := 0, ctx := 0, core := 0 }
def noTeam : Team := { tid := 0, grid := 0, ctx := 0, die := 0 }
def State.group (s : State) (gid : Nat) : Option Group := s.groups.find? (fun g => g.gid == gid)
def State.setGroup (s : State) (gid : Nat) (f : Group → Group) : State :=
  { s with groups := updWhere (fun g => g.gid == gid) f s.groups }
def State.team (s : State) (tid : Nat) : Team := findD noTeam (fun t => t.tid == tid) s.teams
def State.setTeam (s : State) (tid : Nat) (f : Team → Team) : State :=
  { s with teams := updWhere (fun t => t.tid == tid) f s.teams }
def State.setGrid (s : State) (id : Nat) (f : Grid → Grid) : State :=
  { s with grids := updWhere (fun g => g.id == id) f s.grids }
def State.grid (s : State) (id : Nat) : Option Grid := s.grids.find? (fun g => g.id == id)
def Group.warp (g : Group) (wid : Nat) : Option Warp := g.warps.find? (fun w => w.wid == wid)
def Group.setWarp (g : Group) (wid : Nat) (f : Warp → Warp) : Group :=
  { g with warps := updWhere (fun w => w.wid == wid) f g.warps }
def State.setWarp (s : State) (gid wid : Nat) (f : Warp → Warp) : State :=
  s.setGroup gid (fun g => g.setWarp wid f)
/-- A fresh number. -/
def State.fresh (s : State) : Nat × State := (s.nextId, { s with nextId := s.nextId + 1 })
/-- A free value, fresh each time. -/
def State.free (s : State) : Nat × State := (s.choice, { s with choice := s.choice + 1 })

/-- Groups of a team, in index order as stored. -/
def State.groupsOf (s : State) (tid : Nat) : List Group := s.groups.filter (fun g => g.team == tid)
/-- The warps of the program: in a handler, those it froze (R138). -/
def Group.progWarps (g : Group) : List Warp :=
  match g.handlers.getLast? with
  | none => g.warps
  | some h => g.warps.filter (fun w => h.frozen.contains w.wid)
/-- A warp may issue: it is not frozen by the handler the group is in (R138). -/
def Group.mayRun (g : Group) (wid : Nat) : Bool :=
  match g.handlers with
  | [] => true
  | h :: _ => !h.frozen.contains wid
/-- Live lanes of a group: those of all its entries (R121). -/
def Group.live (g : Group) : Mask :=
  g.progWarps.foldl (fun m w => w.entries.foldl (fun m e => m ||| e.mask) m) 0
/-- The group is in a handler. -/
def Group.inHandler (g : Group) : Bool := !g.handlers.isEmpty
def Group.inPriv (g : Group) : Bool := match g.handlers with | h :: _ => h.priv | [] => false
/-- Every lane of the group (R119). -/
def Group.all (g : Group) : Mask := Mask.width g.width
/-- Lanes in parked entries (PARKMASK, R125). -/
def Group.parkmask (g : Group) : Mask :=
  g.warps.foldl (fun m w => if w.parked then w.entries.foldl (fun m e => m ||| e.mask) m else m) 0

/-! ## Registers -/

/-- Lane `l` of a register (R40). -/
def VReg.lane (r : VReg) (l : Nat) : Word :=
  match r with
  | .uni b => b
  | .aff b t => b + BitVec.ofNat 32 l * t
  | .gen ls => ls.getD l 0
def VReg.isGen : VReg → Bool
  | .gen _ => true
  | _ => false
def VReg.isUni : VReg → Bool
  | .uni _ => true
  | _ => false
def VReg.tag : VReg → Nat
  | .uni _ => 0
  | .aff _ _ => 1
  | .gen _ => 2
/-- A GEN register of a group of width `w`: lanes at or above the width read zero (R119). -/
def VReg.ofFn (w : Nat) (f : Nat → Word) : VReg :=
  .gen ((List.range 64).map (fun l => if l < w then f l else 0))
def Group.vreg (g : Group) (r : Nat) : VReg := Amap.get (.uni 0) g.v r
def Group.sreg (g : Group) (r : Nat) : DWord := Amap.get 0 g.s r
def Group.setV (g : Group) (r : Nat) (x : VReg) : Group := { g with v := Amap.set (.uni 0) g.v r x }
def Group.setS (g : Group) (r : Nat) (x : DWord) : Group := { g with s := Amap.set 0 g.s r x }
def Group.vpois (g : Group) (r : Nat) : Mask := Amap.get 0 g.vpoison r
def Group.setPois (g : Group) (r : Nat) (m : Mask) : Group := { g with vpoison := Amap.set 0 g.vpoison r m }
/-- GEN registers the group holds (R42). -/
def Group.genCount (g : Group) : Nat := (g.v.filter (fun p => p.2.isGen)).length
/-- FSR flags are ORed in (R32, R35). -/
def Group.orFsr (g : Group) (fl : Word) : Group := { g with fsr := g.fsr ||| fl }
/-- The group as an instruction that issues now reads it (R58, R99, R128, R137): its S registers, counters and what MTS writes as they
stood at the start of the FCLK cycle, with the flags committed since. -/
def Group.old (g : Group) : Group :=
  match g.cyc with
  | none => g
  | some c => { g with s := c.s, fcr := c.fcr, amaxc := c.amaxc, dc := c.dc, fsr := g.commits.foldl (fun v k => v ||| k.fl) c.fsr }
/-- The start of an FCLK cycle of the group's core. -/
def Group.startCycle (g : Group) : Group :=
  { g with cyc := some { s := g.s, fcr := g.fcr, fsr := g.fsr, amax := g.amax, amaxc := g.amaxc, dc := g.dc }, issued := [], commits := [] }
/-- A queued permutation instruction writes a P register (R171, R173 to R176). -/
def CrookOp.writesP (o : CrookOp) : Bool :=
  match o.kind with
  | .psti => false
  | .psts => false
  | .pcyc => false
  | _ => true
/-- Waits that the waiting instruction tests again each time it may issue; the others end by a step of their own. -/
def Wait.tests : Wait → Bool
  | .none => true
  | .waitdc .. => true
  | .evfull .. => true
  | .xrd => true
  | .other => true
  | .placew => true
  | _ => false
/-- What a group waits on may have come: its waits that test do so again, and WAITING becomes READY (R129). A WAITDC keeps its
counter and bound, by which it goes before an increment that is held (R142). -/
def Group.wake (g : Group) (now : Nat) : Group :=
  { g with
    warps := g.warps.map (fun w => match w.wait with
      | .xrd => { w with wait := .none }
      | .other => { w with wait := .none }
      | .placew => { w with wait := .none }
      | _ => w),
    st := if g.st = .waiting then .ready else g.st, since := if g.st = .waiting then now else g.since }
/-- Dependency counter n. -/
def Group.dcv (g : Group) (n : Nat) : Nat := g.dc.getD n 0
/-- A counter that an instruction may not raise (R137): 63 now, or at the start of the cycle. -/
def Group.dcFull (g : Group) (n : Nat) : Bool := decide (63 ≤ g.dcv n) || decide (63 ≤ g.old.dcv n)
def Group.addDc (g : Group) (n : Nat) : Group := { g with dc := modAt (· + 1) n g.dc }
def Group.subDc (g : Group) (n : Nat) : Group := { g with dc := modAt (· - 1) n g.dc }
/-- A completed write joins GW (R215). -/
def Group.joinGw (g : Group) (t : Nat) : Group := { g with gw := max g.gw t }

/-- Lanes `m` of register `r` receive `vals` (by lane): the register becomes GEN (R41). -/
def Group.writeLanes (g : Group) (r : Nat) (m : Mask) (vals : List Word) : Group :=
  let old := g.vreg r
  (g.setV r (VReg.ofFn g.width (fun l => if Mask.has m l then vals.getD l 0 else old.lane l))).setPois r
    (g.vpois r &&& ~~~m)

/-- Apply one register write. A P register belongs to the team and is written by `State.applyW`. -/
def Group.applyW (g : Group) : RegWrite → Group
  | .vr r x => (g.setV r x).setPois r 0
  | .vl r m vals => if m = 0 then g else g.writeLanes r m vals
  | .sr r x => { g.setS r x with spoison := g.spoison &&& ~~~(1#64 <<< r) }
  | .cc m c z n v =>
    { g with c := g.c &&& ~~~m ||| c &&& m, z := g.z &&& ~~~m ||| z &&& m,
             n := g.n &&& ~~~m ||| n &&& m, vf := g.vf &&& ~~~m ||| v &&& m }
  | .pr _ _ => g
  | .xr x e =>
    { g with xr := x, xrseq := BitVec.ofNat 64 ((g.xrseq.toNat % 2 ^ 32 + 1) % 2 ^ 32 + if e then 2 ^ 32 else 0) }
  | .vpoison r m => g.setPois r (g.vpois r ||| m)
  | .spoison r => { g with spoison := g.spoison ||| (1#64 <<< r) }

def State.setPreg (s : State) (tid p : Nat) (x : PReg) : State :=
  s.setTeam tid (fun t => { t with pregs := Amap.set {} t.pregs p x })
def State.preg (s : State) (tid p : Nat) : PReg := Amap.get {} (s.team tid).pregs p

/-- Apply register writes of a group, in order. -/
def State.applyWs (s : State) (gid tid : Nat) : List RegWrite → State
  | [] => s
  | .pr r x :: ws => State.applyWs (s.setPreg tid r x) gid tid ws
  | w :: ws => State.applyWs (s.setGroup gid (fun g => g.applyW w)) gid tid ws

/-- AMAX := max(AMAX, |x|) under AMAXC (R33): `some` of an FP32 magnitude, NaN recorded by NANPOL. -/
def Group.updAmax (g : Group) (x : Nat) : Group :=
  if g.amaxc.getLsbD 1 then g
  else if g.amax = 0x7FC00000 then g
  else if Fmt.fp32.decode x = .nan then (if g.amaxc.getLsbD 0 then { g with amax := 0x7FC00000 } else g)
  else
    let mag := x % 2 ^ 31
    { g with amax := if g.amax.toNat < mag then BitVec.ofNat 32 mag else g.amax }

/-- Of the commits of the FCLK cycle that runs, those of the lanes `m` and those of other warps. -/
def Group.commitsOf (g : Group) (m : Mask) (own : Bool) : List Commit := g.commits.filter (fun k => (k.lanes &&& m != 0#64) == own)
/-- The flags and magnitudes of lanes commit (R33, R35, R36). -/
def Group.commit (g : Group) (lanes : Mask) (fl : Word) (mags : List Nat) : Group :=
  let g := mags.foldl Group.updAmax (g.orFsr fl)
  if fl = 0 ∧ mags = [] then g else { g with commits := g.commits ++ [{ lanes := lanes, fl := fl, mags := mags }] }
/-- MTS to FSR by a warp of lanes `m`: flags that other warps commit in the same cycle come after it (R36). -/
def Group.mtsFsr (g : Group) (m : Mask) (v : Word) : Group :=
  { g with fsr := (g.commitsOf m false).foldl (fun v k => v ||| k.fl) v }
/-- AMAXCLR, after which the magnitudes that other warps commit in the same cycle come (R36). -/
def Group.clearAmax (g : Group) (m : Mask) : Group :=
  (g.commitsOf m false).foldl (fun g k => k.mags.foldl Group.updAmax g) { g with amax := 0 }
/-- MTS to AMAXC: the magnitudes that other warps commit in the same cycle are taken under the new AMAXC (R36). -/
def Group.mtsAmaxc (g : Group) (m : Mask) (v : Word) : Group :=
  match g.cyc, g.commitsOf m false with
  | some c, k :: ks =>
    let own := (g.commitsOf m true).foldl (fun g k => k.mags.foldl Group.updAmax g) { g with amax := c.amax }
    (k :: ks).foldl (fun g k => k.mags.foldl Group.updAmax g) { own with amaxc := v }
  | _, _ => { g with amaxc := v }
/-- The group-wide writes of a result that commits are seen in the cycle of the commit (R73). -/
def Group.seen (g : Group) (ws : List RegWrite) : Group :=
  { g with cyc := g.cyc.map (fun c => { c with s := ws.foldl (fun s w => match w with | .sr r x => Amap.set 0 s r x | _ => s) c.s }) }

/-! ## Warps and the frontier -/

/-- A warp begins to wait, or goes on waiting. -/
def Warp.waitOn (w : Warp) (wt : Wait) (now : Nat) : Warp := { w with wait := wt, waitAt := some (w.waitAt.getD now) }

/-- Merge entries of equal PRIO and PC (R121). -/
def mergeInto (e : Entry) : List Entry → List Entry
  | [] => [e]
  | x :: r =>
    if x.prio = e.prio ∧ x.pc = e.pc then
      { x with mask := x.mask ||| e.mask, cl := if x.cl = e.cl then x.cl else none } :: r
    else if x.prio.toNat < e.prio.toNat ∨ (x.prio = e.prio ∧ e.pc.toNat < x.pc.toNat) then e :: x :: r
    else x :: mergeInto e r
/-- A frontier in order (R121): PRIO highest first, then ascending PC; no empty entries. -/
def sortEntries (es : List Entry) : List Entry :=
  (es.filter (fun e => e.mask ≠ 0)).foldl (fun acc e => mergeInto e acc) []
/-- The entry a warp issues. -/
def Warp.first (w : Warp) : Option Entry := w.entries.head?
def Warp.lanes (w : Warp) : Mask := w.entries.foldl (fun m e => m ||| e.mask) 0
/-- Lanes of the slices that hold any of the lanes (R119). -/
def sliceMask (m : Mask) : Mask := Mask.where_ (fun l => (List.range 4).any (fun k => Mask.has m (l / 4 * 4 + k)))
/-- A write of a whole register by part of its lanes becomes a write of those lanes: GEN, as rule 1 of R41 has a write by part of the
group (DESIGN CHOICE: a register that turns GEN so takes a row without a test of the budget). -/
def RegWrite.restrict (m : Mask) : RegWrite → RegWrite
  | .vr r x => .vl r m ((List.range 64).map x.lane)
  | .vl r k vs => .vl r (k &&& m) vs
  | .cc k c z n v => .cc (k &&& m) c z n v
  | .vpoison r k => .vpoison r (k &&& m)
  | w => w
/-- The part of a pending result that belongs to the lanes `m` (R75, R125): its lanes' writes and flags. -/
def Pending.restrict (p : Pending) (m : Mask) : Pending :=
  { p with lanes := p.lanes &&& m, writes := p.writes.map (RegWrite.restrict (p.lanes &&& m)),
           flags := p.flags.zipIdx.map (fun q => if Mask.has m q.2 then q.1 else 0) }
/-- The pending results of a warp, for the part of it that holds lanes `m`. -/
def splitPend (ps : List Pending) (m : Mask) : List Pending :=
  (ps.filter (fun p => p.lanes &&& m != 0#64)).map (fun p => if Mask.sub p.lanes m then p else p.restrict m)
/-- A write that belongs to the group or the team, not to lanes. -/
def RegWrite.shared : RegWrite → Bool
  | .sr .. => true
  | .pr .. => true
  | .xr .. => true
  | .spoison _ => true
  | _ => false
/-- The group-wide writes of a result have been made: the parts of it that other lanes still hold do not make them again. -/
def Group.wroteShared (g : Group) (rid : Nat) : Group :=
  { g with warps := g.warps.map (fun w => { w with pend := w.pend.map (fun p =>
      if p.rid = rid then { p with writes := p.writes.filter (fun x => !x.shared), red := false } else p) }) }

/-- A destination of lanes: the next header and its PRIO. -/
structure Dest where
  h : DWord
  prio : BitVec 8
  mask : Mask
  deriving DecidableEq, Repr

/-- The entry of lanes that go to a header (R56). -/
def Dest.entry (d : Dest) : Entry := { prio := d.prio, pc := d.h + 8, mask := d.mask, h := d.h }

/-- Destinations with equal header and PRIO joined. -/
def joinDests (ds : List Dest) : List Dest :=
  ds.foldl (fun acc d =>
    if acc.any (fun x => x.h = d.h ∧ x.prio = d.prio) then
      acc.map (fun x => if x.h = d.h ∧ x.prio = d.prio then { x with mask := x.mask ||| d.mask } else x)
    else acc ++ [d]) []

/-- A warp whose issuing lanes go to several headers, or of which some end (R114), splits (R122). Answers the warps that take its place;
the numbers of new warps start at `wid0`. Lanes in no destination have ended. -/
def splitWarp (w : Warp) (issuing : Mask) (ds0 : List Dest) (wid0 : Nat) : List Warp :=
  let ds := (joinDests ds0).filter (fun d => d.mask ≠ 0)
  let rest := (w.entries.drop 1)
  let restM : Mask := rest.foldl (fun m e => m ||| e.mask) 0
  let ended : Mask := issuing &&& ~~~(ds.foldl (fun m d => m ||| d.mask) 0)
  let whole (es : List Entry) : List Warp := if es.isEmpty then [] else [{ w with entries := es, pend := splitPend w.pend (es.foldl (fun m e => m ||| e.mask) (0 : Mask)) }]
  match ds with
  | [] => whole (sortEntries rest)
  | d :: more =>
    if more.isEmpty && ended == 0#64 then whole (sortEntries (d.entry :: rest))
    else
      -- slices whose issuing lanes agree and which hold no other lane of the warp move (rules 1 and 3)
      let goes (d : Dest) : Mask := Mask.where_ (fun l =>
        let sl := Mask.where_ (fun k => k / 4 == l / 4)
        Mask.has d.mask l && Mask.sub (issuing &&& sl) d.mask && (restM &&& sl == 0#64))
      let moved : List Dest := ds.map (fun d => { d with mask := goes d })
      let movedM : Mask := moved.foldl (fun m d => m ||| d.mask) 0
      let stay : List Dest := (ds.map (fun d => { d with mask := d.mask &&& ~~~movedM })).filter (fun d => d.mask ≠ 0)
      let news : List Warp := (moved.filter (fun d => d.mask ≠ 0)).zipIdx.map (fun x =>
        { w with wid := wid0 + x.2, entries := [x.1.entry], pend := splitPend w.pend x.1.mask })
      whole (sortEntries (stay.map Dest.entry ++ rest)) ++ news

/-- Replace a warp of a group by others. -/
def Group.replaceWarp (g : Group) (wid : Nat) (ws : List Warp) : Group :=
  { g with warps := g.warps.filter (fun w => w.wid != wid) ++ ws }

/-- Warps of a group merged into one at one entry (R123, R156). -/
def mergeWarps (ws : List Warp) (wid : Nat) (e : Entry) : Warp :=
  let firsts := ws.foldl (fun m w => match w.first with | some x => m ||| x.mask | none => m) 0
  { wid := wid, entries := sortEntries ({ e with mask := firsts } :: ws.flatMap (fun w => w.entries.drop 1)),
    pend := ws.flatMap (fun w => w.pend), rpc := 0,
    lastIssue := ws.foldl (fun m w => max m w.lastIssue) 0, turn := ws.foldl (fun m w => max m w.turn) 0 }

/-! ## Taking an exception, and returning from one -/

/-- A cause of R52: its stage, code (R139), lanes, TADDR and TINFO, and the slot of a fault held until now (R241, R432). -/
structure Cause where
  stage : Nat
  code : Nat
  tfm : Mask
  taddr : DWord := 0
  tinfo : Nat := 0
  slot : Option Nat := none
  deriving DecidableEq, Repr

/-- The TCAUSE codes (R139). -/
def cILLOP : Nat := 0x01
def cILLCL : Nat := 0x02
def cROLE : Nat := 0x03
def cLAWAR : Nat := 0x04
def cREGBUDGET : Nat := 0x05
def cFPX : Nat := 0x06
def cTRAP : Nat := 0x07
def cBKPT : Nat := 0x08
def cPERMINV : Nat := 0x09
def cLIMBDIV : Nat := 0x0A
def cPWUNBOUND : Nat := 0x0B
def cALIGN : Nat := 0x0C
def cPROT : Nat := 0x0D
def cCODETORN : Nat := 0x0E
def cXLATE : Nat := 0x0F
def cGANG : Nat := 0x10
def cDLK : Nat := 0x11
def cSTREAM : Nat := 0x12
def cPOISON : Nat := 0x13
def cMCHK : Nat := 0x20
def cSECALARM : Nat := 0x21
def cDEBUGHALT : Nat := 0x22

/-- One cause is taken: the earliest stage, and within it the lowest code (R52). -/
def pickCause : List Cause → Option Cause
  | [] => none
  | c :: r =>
    match pickCause r with
    | none => some c
    | some d =>
      if d.stage < c.stage ∨ (d.stage = c.stage ∧ d.code < c.code) then some d
      else if d.stage = c.stage ∧ d.code = c.code then
        some { c with tfm := c.tfm ||| d.tfm, taddr := if Mask.low c.tfm ≤ Mask.low d.tfm then c.taddr else d.taddr,
                      tinfo := if Mask.low c.tfm ≤ Mask.low d.tfm then c.tinfo else d.tinfo }
      else some c

/-- The handler's warp number: above every other of the group. -/
def Group.newWid (g : Group) : Nat := g.warps.foldl (fun m w => max m (w.wid + 1)) 0

/-- The group stops on a double trap: both causes are kept and a report goes to Finat (R139, R323). -/
def State.doubleTrap (s : State) (g : Group) (first second : Nat) : State :=
  { s.setGroup g.gid (fun g => { g with stopped := true, causes := [first, second] }) with
    finat := s.finat ++ [(g.ctx, g.gid, first, if g.inPriv then cMCHK else second)] }

/-- A header word at the vector may start a handler (R323). -/
def vectorOk (w : DWord) : Bool :=
  w.extractLsb' 60 4 == 15#4 && w.extractLsb' 46 8 == 255#8 && !w.getLsbD 39

/-- Trap entry (R138, R141, R323, R324): the trapping warp's entry is `e`; `vec` is the vector and `word` the
header word read there, or the cause that refuses its fetch. Where a privileged trap interrupts no warp, TPC and TPRIO hold 0 beside
TAM (DESIGN CHOICE: R141 gives TAM alone). -/
def State.trapEntry (s : State) (g : Group) (w : Option Warp) (e : Option Entry) (c : Cause) (tpc : DWord)
    (priv : Bool) (vec : DWord) (word : Except Nat DWord) : State :=
  if g.inHandler && !(priv && !g.inPriv) then
    s.doubleTrap g (match g.handlers with | h :: _ => h.tcause.toNat | [] => c.code) c.code
  else
    match word with
    | .ok x =>
      if vec = 0 || !vectorOk x then s.doubleTrap g c.code c.code
      else
        let wid := g.newWid
        let rpc := match w with | some w => w.rpc | none => 0
        let h : Handler :=
          { priv := priv, tam := (match e with | some e => e.mask | none => 0), tfm := c.tfm,
            tcause := BitVec.ofNat 32 (c.code + if priv then 256 else 0),
            tpc := tpc, tprio := (match e with | some e => e.prio.zeroExtend 32 | none => 0),
            taddr := c.taddr, tinfo := BitVec.ofNat 32 c.tinfo, rpc := rpc, frozen := g.warps.map (fun w => w.wid),
            intr := w.map (fun w => w.wid) }
        let hw : Warp := { wid := wid, entries := [{ prio := 255, pc := vec + 8, mask := g.all, h := vec }] }
        s.setGroup g.gid (fun g =>
          let g := match w with
            | some w => { g.setWarp w.wid (fun w => { w with rpc := 0, wait := .none, waitAt := none, pass := 0, snap := [], fence := none, arrived := false, released := false }) with
                          issued := g.issued ++ [w.wid] }
            | none => g
          { g with handlers := h :: g.handlers, warps := g.warps ++ [hw] })
    | .error second => s.doubleTrap g c.code (if vec = 0 then c.code else second)

/-- A handler ends (R117): its warps leave, the interrupted warp's entry resumes at `pc` with TPRIO and RPC
is restored. `clause` says how the entry stands there. Lanes that ended in the handler are not restored. -/
def Group.endHandler (g : Group) (h : Handler) (pc hdr : DWord) (prio : BitVec 8) (cl : Option Clause) (rpc : Word) : Group :=
  let g := { g with handlers := g.handlers.drop 1, warps := g.warps.filter (fun w => h.frozen.contains w.wid) }
  match h.intr with
  | none => g
  | some wid =>
    let g := g.setWarp wid (fun w =>
      let rest := if h.tam = 0 then w.entries else w.entries.drop 1
      { w with rpc := if h.tam = 0 then w.rpc else rpc,
               entries := sortEntries ({ prio := prio, pc := pc, mask := h.tam, h := hdr, cl := cl } :: rest) })
    { g with warps := g.warps.filter (fun w => !w.entries.isEmpty) }

end Sys2Proof.Machine
end

