-- ==== Sys2Proof/Machine/Slice.lean ====
section
/-! DEFINITION. The slices of L2: homes, the state a slice keeps with a line, and how an access meets it (R272 to R274, R214, R288). -/

namespace Sys2Proof.Machine

def State.lineSt (s : State) (line : Nat) : Line := findD { line := line } (fun l => l.line == line) s.lines
def State.setLine (s : State) (line : Nat) (f : Line → Line) : State :=
  if s.lines.any (fun l => l.line == line) then { s with lines := updWhere (fun l => l.line == line) f s.lines }
  else { s with lines := s.lines ++ [f { line := line }] }

/-- The home die of a physical address (R272). -/
def homeDie (pa : Nat) : Nat := if pa < Config.t2Base then pa / 2 ^ 37 % 8 else field pa 13 3
/-- The directory bits that cover a core's copies (R273): cluster bits of the home die, die bits of the others. -/
def dirBits (home core : Nat) : BitVec 8 × BitVec 8 :=
  if dieOf core = home then (1#8 <<< (clusterOf core % 8), 0) else (0, 1#8 <<< dieOf core)
/-- The core is covered by directory bits. -/
def covered (home : Nat) (cl di : BitVec 8) (core : Nat) : Bool :=
  if dieOf core = home then cl.getLsbD (clusterOf core % 8) else di.getLsbD (dieOf core)
/-- The slice of a line within its die (R272), and a number for it in the package. -/
def sliceHash (pa : Nat) : Nat :=
  [7, 12, 17, 22, 27, 32].foldl (fun h lo => Nat.xor h (field pa lo 5)) 0
def sliceKey (line : Nat) : Nat := homeDie (line * 128) * 32 + sliceHash (line * 128)
/-- A slice drops a line (R274): the copies its directory names go first, and a lease in the future joins EH. -/
def State.dropLine (s : State) (line : Nat) : State :=
  let l := s.lineSt line
  let cov (c : Nat) : Bool := covered (homeDie (line * 128)) l.clusters l.dieBits c
  let k := sliceKey line
  { s with
    l1 := s.l1.filter (fun q => !(q.line == line && cov q.core && (q.cls == 0))),
    icache := s.icache.filter (fun q => !(q.line == line && cov q.core)),
    eh := if s.bw < l.hw then Amap.set 0 s.eh k (max (Amap.get 0 s.eh k) l.hw) else s.eh }.setLine line (fun l =>
      { l with inL2 := false, dirty := false, old := [], hw := 0, clusters := 0, dieBits := 0, rcnt := 0 })
/-- Bytes charged to a context on a die (R288). -/
def State.charge (s : State) (ctx die n : Nat) : State := s.setCtx ctx (fun c => { c with bwmeter := modAt (· + n) die c.bwmeter })
/-- A slice writes a dirty line back, at the cost of the context that dirtied it (R288). -/
def State.writeBack (s : State) (l : Line) : State := if l.dirty then s.charge l.dirtyBy (homeDie (l.line * 128)) 128 else s
/-- The pins that stand in LCLK t (R193): an operation has consumed its lines when its occupancy ends. -/
def Core.pinsAt (c : Core) (t : Nat) : List Pin :=
  c.pins.filter (fun p => match p.op with
    | none => true
    | some id => c.mq.any (fun q => q.id == id && !(q.started && decide (q.occEnd < t))))
/-- The pins of every core. -/
def State.pins (s : State) : List Pin := s.cores.flatMap (fun c => c.2.pinsAt (s.cluster (clusterOf c.1)).lclk)
/-- A core holds the line pinned (R193): no slice evicts it. -/
def State.pinned (s : State) (line : Nat) : Bool := s.pins.any (fun p => p.line == line)
/-- A slice makes room for a line (R273): where the set is full it evicts a line of it that no core pins (R193), a free choice, and
writes it back at the cost of the context that dirtied it (R288). It answers whether there is room. -/
def State.makeRoom (s : State) (line : Nat) : State × Bool :=
  let near := s.lines.filter (fun l => l.inL2 && sliceKey l.line == sliceKey line)
  if near.length < 24 then (s, true)
  else
    let set := near.filter (fun l => Config.l2Set l.line % 1024 == Config.l2Set line % 1024)
    let may := set.filter (fun l => !s.pinned l.line)
    if set.length < 24 then (s, true)
    else
      match may[(Config.freeWord s.choice).toNat % may.length]? with
      | none => (s, false)
      | some l => (({ s with choice := s.choice + 1 }.writeBack l).dropLine l.line, true)
/-- How an access meets a read count (R214): a load lowers it, a PREF does not, and a write cancels it. -/
inductive Touch | load | pref | write
  deriving DecidableEq, Repr
/-- An access reaches the slice of a line (R273, R288): a fill from memory, with HW := EH and a read count, or a hit. Where it is not to
be allocated (R213) the line passes by. -/
def State.touchLine (s : State) (line ctx rc : Nat) (k : Touch) (alloc : Bool) : State :=
  let l := s.lineSt line
  let home := homeDie (line * 128)
  if !l.inL2 then
    let r := if alloc then s.makeRoom line else (s, false)
    if r.2 then
      (r.1.setLine line (fun l => { l with inL2 := true, owner := ctx, hw := max l.hw (Amap.get 0 r.1.eh (sliceKey line)), rcnt := rc })).charge ctx home 128
    else r.1
  else
    let s := if l.owner = ctx then s else s.setCtx ctx (fun c => { c with xhits := modAt (· + 1) home c.xhits })
    match k with
    | .pref => s
    | .write => if l.rcnt = 0 then s else s.setLine line (fun l => { l with rcnt := 0 })
    | .load => if l.rcnt = 0 then s else if l.rcnt = 1 then s.dropLine line else s.setLine line (fun l => { l with rcnt := l.rcnt - 1 })
/-- A plain read of a line of the package's memory through its slice. -/
def State.readLine (s : State) (line ctx : Nat) : State :=
  if isRemote (line * 128) || isWindow (line * 128) then s else s.touchLine line ctx 0 .load true

end Sys2Proof.Machine
end

