-- ==== Sys2Proof/Machine/Table.lean ====
section
/-! DEFINITION. The region table (R360 to R363): its entries, and how an access of the device meets it (R302). -/

namespace Sys2Proof.Machine

/-- Entries of each kind in the table of an I/O die (R360). -/
def regionCap (contested : Bool) : Nat := if contested then 16384 else 131072
def Region.isContested (r : Region) : Bool := r.st == .contested
def iodRegions (s : State) (port : Nat) (contested : Bool) : List Region := s.regions.filter (fun r => r.port / 4 == port / 4 && r.isContested == contested)
def Region.has (r : Region) (a n : Nat) : Bool := decide (r.base < a + n) && decide (a < r.base + r.size)
def State.regionAt (s : State) (pa : Nat) : Option Region := s.regions.find? (fun r => r.has pa 1)
/-- A snoop is on its way to a range. -/
def snooped (s : State) (a n : Nat) : Bool := s.snoops.any (fun q => decide (q.base < a + n) && decide (a < q.base + q.size))
def State.setRegion (s : State) (r : Region) (rs : List Region) : State := { s with regions := s.regions.erase r ++ rs }
/-- A contested region whose lines all read d is freed; one whose lines all read s is SHARED (R361). -/
def Region.norm (r : Region) : List Region :=
  if !r.isContested then [r]
  else if r.lines.all (· == 0) then []
  else if r.lines.all (· == 1) then [{ r with st := .shared, lines := [] }]
  else [r]
/-- The size of a new region (R361): 4 KiB × 2^k for the largest k that REGSZ and the page allow and that overlaps no entry. -/
def newSize (s : State) (pa : Nat) : Nat → Nat
  | 0 => 4096
  | k + 1 =>
    let n := 4096 * 2 ^ (k + 1)
    if s.regions.any (fun r => r.has (pa / n * n) n) then newSize s pa k else n
/-- The entry that gives way when the table is full (R363): its range is recalled. -/
def State.recall (s : State) (port : Nat) (contested : Bool) (keep : Nat) : State :=
  let rs := (iodRegions s port contested).filter (fun r => !r.has keep 1)
  match rs.foldl (fun (b : Option Region) r => match b with | some q => if q.used ≤ r.used then b else some r | none => some r) none with
  | none => s
  | some r =>
    if snooped s r.base r.size then s
    else { s with snoops := s.snoops ++ [{ hid := s.nextId, port := r.port, base := r.base, size := r.size, inv := true, back := true }], nextId := s.nextId + 1 }
/-- A region split by halving down to the 4 KiB that holds `pa` (R361): the halves that stay, in the former state. -/
def splitRegion (r : Region) (pa : Nat) : Nat → Nat → Nat → List Region
  | 0, _, _ => []
  | k + 1, base, size =>
    if size ≤ 4096 then []
    else
      let h := size / 2
      if pa < base + h then { r with base := base + h, size := h } :: splitRegion r pa k base h
      else { r with base := base, size := h } :: splitRegion r pa k (base + h) h
/-- A device access to a 128-byte line meets the table (R361): it goes on, or waits for a snoop that it starts. -/
def deviceGate (s : State) (line : Nat) (store drop : Bool) : State × Bool :=
  let pa := line * 128
  let snoop (s : State) (port : Nat) : State :=
    { s with snoops := s.snoops ++ [{ hid := s.nextId, port := port, base := pa, size := 128, inv := store, drop := drop }], nextId := s.nextId + 1 }
  if snooped s pa 128 then (s, false)
  else
    match s.regionAt pa with
    | none => (s, true)
    | some r =>
      let used (r : Region) : Region := { r with used := s.bw }
      match r.st with
      | .contested =>
        let i := pa % 4096 / 64
        let m := max (r.lines.getD i 0) (r.lines.getD (i + 1) 0)
        if (store && m != 0) || m == 2 then (snoop (s.setRegion r [used r]) r.port, false) else (s.setRegion r [used r], true)
      | st =>
        if st == .shared && !store then (s.setRegion r [used r], true)
        else if regionCap true ≤ (iodRegions s r.port true).length then (s.recall r.port true pa, false)
        else if regionCap false + 1 < (iodRegions s r.port false).length + (splitRegion r pa 10 r.base r.size).length then (s.recall r.port false pa, false)
        else
          let c : Region := { port := r.port, base := pa / 4096 * 4096, size := 4096, st := .contested, used := s.bw,
                              lines := List.replicate 64 (if st == .shared then 1 else 2) }
          (snoop (s.setRegion r (splitRegion r pa 10 r.base r.size ++ [c])) r.port, false)
/-- The region table lets an access go on (R302, R361). -/
def gateOpen (s : State) (pa : Nat) (store : Bool) : Bool := s.regions.isEmpty || (deviceGate s (pa / 128) store false).2

end Sys2Proof.Machine
end

