-- ==== Sys2Proof/Machine/Translate.lean ====
section
/-! DEFINITION. Page tables, TLBs and walks (R283 to R286), the checks of an access (R50, R284), fault records
(R287), and instruction fetch (R281, R282). -/

namespace Sys2Proof.Machine

/-- The outcome of a translation (R284): a mapping, a translation fault with its level, or a refusal with TINFO[7:0]. -/
inductive Tr
  | ok (pa : Nat) (l : Leaf)
  | absent (level : Nat)
  | xlate (info : Nat)
  | prot (info : Nat)
  deriving DecidableEq, Repr

/-- The windows above T2: the outbound windows of the eight ports (R371) and the collective doorbells (R413). -/
def outBase : Nat := 0x030000000000
def outSize : Nat := 0x1000000000
def doorBase : Nat := 0x040000000000
/-- A frame in a reserved range (R284, R398): above T2 and in no window. -/
def pfnReserved (pfn : Nat) : Bool :=
  let a := pfn * 4096
  decide (outBase + 8 * outSize ≤ a) && !(decide (doorBase ≤ a) && decide (a < doorBase + 8 * 4096))

/-- T1 frames at or beyond T1SIZE of their die are reserved too (R398). -/
def State.cap (s : State) (r : Nat) : DWord :=
  match s.pkg.caps.find? (fun p => p.1 == r) with
  | some p => p.2
  | none => if r = 0x201 then 0xFFFFFFFF else if 0x220 ≤ r ∧ r < 0x228 then 2 ^ 37 else if r = 0x300 then 0xAAAAAAAAAAAAAAAA else if r = 0x301 then 0xAA
      else 0xFFFFFFFFFFFFFFFF
def t1Absent (s : State) (pfn : Nat) : Bool :=
  decide (pfn * 4096 < Config.t2Base) && decide ((s.cap (0x220 + pfn * 4096 / Config.t1PerDie)).toNat ≤ pfn * 4096 % Config.t1PerDie)

/-- Non-zero reserved bits or an invalid value in an entry (R284), at `level` for the page `vpn`. The PFN of a tenant's page or
of another node's is no frame of this package (R358, R408). -/
def pteBad (s : State) (e level vpn : Nat) : Bool :=
  let leaf := level == 0 || e.testBit 1
  field e 10 2 != 0 || field e 59 5 != 0 || field e 78 50 != 0
    || (!leaf && (field e 2 10 != 0 || field e 48 11 != 0 || field e 64 14 != 0 || field e 12 1 != 0))
    || (leaf && (field e 5 2 == 3 || decide (14 ≤ field e 48 4) || decide (9 ≤ field e 55 4) || field e 52 2 == 3
      || (field e 52 3 != 0 && !(decide (6 ≤ field e 48 4) && decide (field e 48 4 ≤ 12)))))
    || (e.testBit 1 && decide (3 ≤ level))
    || (e.testBit 9 && (decide (1 ≤ level) || field e 12 4 != vpn % 16))
    || (leaf && level == 1 && field e 12 9 != 0) || (leaf && level == 2 && field e 12 18 != 0)
    || ((!leaf || field e 64 14 == s.nodeId) && (pfnReserved (field e 12 36) || t1Absent s (field e 12 36)))

def leafOf (e : Nat) : Leaf :=
  { pfn := field e 12 36, w := e.testBit 2, x := e.testBit 3, xf := e.testBit 4, coh := field e 5 2, lc := field e 7 2,
    fmt := field e 48 4, bg := field e 52 3, ten := field e 55 4, node := field e 64 14 }

/-- A walk's outcome: the leaf with the order of its page, or why there is none. -/
inductive Walk
  | leaf (l : Leaf) (order vpn : Nat)
  | absent (level : Nat)
  | xlate
  | prot (info : Nat)
  deriving DecidableEq, Repr

/-- A leaf entry that passes the format checks: the mapping it gives (R283, R284). -/
def walkLeaf (e level vpn : Nat) : Walk :=
  let l := leafOf e
  if l.w && l.x then .prot 0x11
  else if l.x && !l.xf then .prot 0x12
  else if e.testBit 9 then .leaf { l with pfn := l.pfn / 16 * 16 } 4 (vpn / 16 * 16)
  else .leaf l (9 * level) (vpn / 2 ^ (9 * level) * 2 ^ (9 * level))

/-- The entry a walk reads at a level. -/
def pteAt (s : State) (tab vpn level : Nat) : Nat := s.rd (tab + 16 * (vpn / 2 ^ (9 * level) % 512)) 16

/-- The walk from a level with its table at `tab` (R283, R284). -/
def walk (s : State) (vpn : Nat) : Nat → Nat → Walk
  | 0, tab =>
    let e := pteAt s tab vpn 0
    if !e.testBit 0 then .absent 0 else if pteBad s e 0 vpn then .xlate else walkLeaf e 0 vpn
  | k + 1, tab =>
    let e := pteAt s tab vpn (k + 1)
    if !e.testBit 0 then .absent (k + 1)
    else if pteBad s e (k + 1) vpn then .xlate
    else if e.testBit 1 then walkLeaf e (k + 1) vpn
    else walk s vpn k (field e 12 36 * 4096)

/-- The deepest cached table for a page, with its level (R286). -/
def walkStart (s : State) (die asid vpn root : Nat) : Nat × Nat :=
  let hit (lv : Nat) : Option WalkEntry :=
    s.walkc.find? (fun w => w.die == die && w.asid == asid && w.level == lv && w.idx == vpn / 2 ^ (9 * (lv + 1)))
  match hit 0, hit 1, hit 2, hit 3 with
  | some w, _, _, _ => (w.table, 0)
  | none, some w, _, _ => (w.table, 1)
  | none, none, some w, _ => (w.table, 2)
  | none, none, none, some w => (w.table, 3)
  | none, none, none, none => (root, 4)

/-- The tables a walk from `level` reads below it, for the walk cache: (level, index, table). -/
def walkTables (s : State) (die asid vpn tab : Nat) : Nat → List WalkEntry
  | 0 => []
  | k + 1 =>
    let e := s.rd (tab + 16 * (vpn / 2 ^ (9 * (k + 1)) % 512)) 16
    if !e.testBit 0 || pteBad s e (k + 1) vpn || e.testBit 1 then []
    else
      let t := field e 12 36 * 4096
      { die := die, asid := asid, level := k, idx := vpn / 2 ^ (9 * (k + 1)), table := t } :: walkTables s die asid vpn t k

/-- Who translates: a core, or an engine of a die that keeps no TLB of its own. -/
def tlbFind (s : State) (core asid vpn : Nat) : Option TlbEntry :=
  let hit (second : Bool) (who : Nat) (t : TlbEntry) : Bool :=
    t.second == second && t.who == who && t.asid == asid && t.vpn == vpn / 2 ^ t.order * 2 ^ t.order
  match s.tlb.find? (hit false core) with
  | some t => some t
  | none => s.tlb.find? (hit true (clusterOf core))

/-- The physical address of a leaf for a virtual one. -/
def leafPa (l : Leaf) (vpn0 va : Nat) : Nat := (l.pfn + (va / 4096 - vpn0)) * 4096 + va % 4096

/-- Translation of a device virtual address by a core for a context (R284 to R286, R212). -/
def translate (s : State) (core ctx : Nat) (va : Nat) : Tr :=
  if 2 ^ 57 ≤ va then .xlate 0
  else
    let c := s.ctx ctx
    let vpn := va / 4096
    match tlbFind s core c.asid vpn with
    | some t => .ok (leafPa t.leaf t.vpn va) t.leaf
    | none =>
      let st := walkStart s (dieOf core) c.asid vpn c.ptroot
      match walk s vpn st.2 st.1 with
      | .leaf l _ v0 => .ok (leafPa l v0 va) l
      | .absent k => .absent k
      | .xlate => .xlate 0x10
      | .prot i => .prot i

/-- The newest `n` of the entries that a test picks are kept. -/
def capBy {α : Type} [DecidableEq α] (n : Nat) (mine : α → Bool) (l : List α) : List α :=
  let q := l.filter mine
  q.take (q.length - n) |>.foldl List.erase l
/-- The TLBs keep 96 entries for a core, and 16 in each set for a cluster (R258, R285). -/
def capTlbs (core vpn : Nat) (l : List TlbEntry) : List TlbEntry :=
  let l := capBy 96 (fun t => !t.second && t.who == core) l
  if (l.filter (fun t => t.second && t.who == clusterOf core)).length ≤ 16 then l
  else capBy 16 (fun t => t.second && t.who == clusterOf core && Config.tlbSet t.vpn % 256 == Config.tlbSet vpn % 256) l

/-- The lines that a walk from `level` reads (R283). -/
def walkLines (s : State) (vpn : Nat) : Nat → Nat → List Nat
  | 0, tab => [(tab + 16 * (vpn % 512)) / 128]
  | k + 1, tab =>
    let a := tab + 16 * (vpn / 2 ^ (9 * (k + 1)) % 512)
    let e := s.rd a 16
    a / 128 :: (if !e.testBit 0 || pteBad s e (k + 1) vpn || e.testBit 1 then [] else walkLines s vpn k (field e 12 36 * 4096))
/-- A walk for a page that misses the TLBs reads its entries at their homes as U-class loads of the context (R283, R288). -/
def State.walked (s : State) (core ctx va : Nat) : State :=
  let c := s.ctx ctx
  match tlbFind s core c.asid (va / 4096) with
  | some _ => s
  | none =>
    let st := walkStart s (dieOf core) c.asid (va / 4096) c.ptroot
    (walkLines s (va / 4096) st.2 st.1).foldl (fun (s : State) l => s.readLine l ctx) s

/-- A translation that was used enters the TLBs and the walk cache (R284 to R286). -/
def State.fillTlb (s : State) (core ctx : Nat) (va : Nat) : State :=
  let c := s.ctx ctx
  let vpn := va / 4096
  match tlbFind s core c.asid vpn with
  | some _ => s
  | none =>
    let st := walkStart s (dieOf core) c.asid vpn c.ptroot
    let s := s.walked core ctx va
    match walk s vpn st.2 st.1 with
    | .leaf l o v0 =>
      let e (second : Bool) (who : Nat) : TlbEntry := { second := second, who := who, asid := c.asid, vpn := v0, order := o, leaf := l }
      let wc := walkTables s (dieOf core) c.asid vpn st.1 st.2
      { s with tlb := capTlbs core v0 (s.tlb ++ [e false core, e true (clusterOf core)]),
               walkc := capBy 1024 (fun w => w.die == dieOf core) (s.walkc ++ wc) }
    | _ => s

/-- Kinds of access for R50. -/
inductive AccK | read | write | fetch | atomic
  deriving DecidableEq, Repr

/-- The tenant number a context may reach (R284, R358): the device's own pages, and those of the ports of TENMASK. -/
def tenOk (c : Context) (ten : Nat) : Bool := decide (ten < 9) && c.tenmask.getLsbD ten

/-- Bytes of a tenant (R357). -/
def Port.tenantSize (p : Port) : Nat := (field p.tenctl.toNat 28 12 + 1) * 2 ^ 28
/-- A leaf is valid for the tenant of port `p` (R357). -/
def tenantLeafOk (p : Nat) (l : Leaf) (order : Nat) : Bool :=
  decide (order ≤ 9) && l.ten == p + 1 && !l.x && !l.xf && l.w && l.coh == 0 && l.fmt == 0
/-- Tenant translation of a tenant address (R357): the frame's address, an address beyond the tenant, or untranslatable at a
level. -/
inductive TenR
  | ok (pa : Nat) (l : Leaf) (order v0 : Nat)
  | beyond
  | none_ (level : Nat)
  deriving DecidableEq, Repr
def tenantTr (s : State) (p ta : Nat) : TenR :=
  let port : Port := s.ports.getD p {}
  if port.tenantSize ≤ ta then .beyond
  else
    let vpn := ta / 4096
    match port.ttlb.find? (fun t => t.vpn == vpn / 2 ^ t.order * 2 ^ t.order) with
    | some t => .ok (leafPa t.leaf t.vpn ta) t.leaf t.order t.vpn
    | none =>
      match walk s vpn 3 port.ttroot with
      | .leaf l o v0 => if tenantLeafOk p l o then .ok (leafPa l v0 ta) l o v0 else .none_ 0
      | .absent k => .none_ k
      | .xlate => .none_ 0
      | .prot _ => .none_ 0
/-- A tenant's table maps a frame (R357): the table at `tab` of a level, for the pages from `v` on. -/
def mapsFrame (s : State) (p pfn : Nat) : Nat → Nat → Nat → Bool
  | 0, tab, v => (List.range 512).any (fun j =>
      let e := s.rd (tab + 16 * j) 16
      e.testBit 0 && !pteBad s e 0 (v + j) && (leafOf e).ten == p + 1 && (leafOf e).pfn == pfn)
  | k + 1, tab, v => (List.range 512).any (fun j =>
      let e := s.rd (tab + 16 * j) 16
      let n := 2 ^ (9 * (k + 1))
      let v' := v + j * n
      e.testBit 0 && !pteBad s e (k + 1) v' && (
        if e.testBit 1 then (leafOf e).ten == p + 1 && decide ((leafOf e).pfn ≤ pfn) && decide (pfn < (leafOf e).pfn + n)
        else mapsFrame s p pfn k (field e 12 36 * 4096) v'))
/-- A line of a tenant's page. -/
def tenantLine (s : State) (line : Nat) : Bool :=
  (List.range 8).any (fun p => let q : Port := s.ports.getD p {}; q.ttroot != 0 && mapsFrame s p (line / 32) 3 q.ttroot 0)
/-- A tenant translation that was used enters its port's TLB (R357). -/
def State.fillTtlb (s : State) (p ta : Nat) : State :=
  match tenantTr s p ta with
  | .ok _ l o v0 =>
    { s with ports := modAt (fun (q : Port) =>
        if q.ttlb.any (fun t => t.vpn == v0 && t.order == o) then q
        else
          let e : TlbEntry := { second := true, who := p, asid := 0, vpn := v0, order := o, leaf := l }
          { q with ttlb := (q.ttlb ++ [e]).drop (q.ttlb.length + 1 - 4096) }) p s.ports }
  | _ => s

/-- A page admits an access of a kind. -/
def AccK.ok (k : AccK) (l : Leaf) : Bool :=
  match k with
  | .write => l.w
  | .atomic => l.w
  | .fetch => l.x
  | .read => true
/-- A translated access checked under R50: PROT when the page refuses it. A tenant's page is translated a second time
(R358), and a page of another node keeps its export address (R408). -/
def accessTr (s : State) (core ctx : Nat) (k : AccK) (va : Nat) : Tr :=
  match translate s core ctx va with
  | .ok pa l =>
    if !tenOk (s.ctx ctx) l.ten || !k.ok l then .prot 0
    else if l.node ≠ s.nodeId then .ok (remotePa l.node pa) l
    else if l.ten = 0 then .ok pa l
    else
      match tenantTr s (l.ten - 1) pa with
      | .ok q _ _ _ => .ok q l
      | .beyond => .xlate 0
      | .none_ lv => .absent lv
  | t => t

/-- A page whose record the fault service denied: its replays raise XLATE (R287). -/
def State.denied (s : State) (asid va : Nat) : Bool :=
  s.faults.any (fun f => f.state == 2 && f.asid == asid && f.va.toNat / 4096 == va / 4096)

/-- The fault service may resolve a translation fault of this context (R287), outside a privileged handler. -/
def recoverable (s : State) (ctx : Nat) (priv : Bool) (va : Nat) : Bool :=
  (s.ctx ctx).fsvc && !priv && decide (va < 2 ^ 57) && !s.denied (s.ctx ctx).asid va

/-- A warp has replayed onto a denied record, or (`none`) an engine onto the denied record of a page that no warp waits for:
the record is done with (R287). -/
def State.dropDenied (s : State) (w : Option (Nat × Nat)) (asid va : Nat) : State :=
  { s with faults := s.faults.filterMap (fun f =>
      if f.state ≠ 2 then some f
      else
        match w with
        | some p => if f.warps.contains p then (if f.warps.erase p = [] then none else some { f with warps := f.warps.erase p }) else some f
        | none => if f.warps.isEmpty && f.asid == asid && f.va.toNat / 4096 == va / 4096 then none else some f) }

/-- The kind bits of a fault record (R287). -/
def AccK.bits : AccK → Nat
  | .read => 1
  | .write => 2
  | .fetch => 4
  | .atomic => 8

/-- A translation fault joins or makes a fault record of the die (R287); a warp that parks is held on it. -/
def State.addFault (s : State) (core ctx : Nat) (kind va level agent : Nat) (w : Option (Nat × Nat)) : State :=
  let asid := (s.ctx ctx).asid
  let die := dieOf core
  let same (f : FaultRec) : Bool := f.die == die && f.asid == asid && f.va.toNat / 4096 == va / 4096 && f.state == 0
  let ws := match w with | some p => [p] | none => []
  let s := s.walked core ctx va
  if s.faults.any same then
    { s with faults := updWhere same (fun f =>
        { f with waiters := min (f.waiters + 1) 0xFFFF, warps := f.warps ++ ws, kind := f.kind ||| kind }) s.faults }
  else
    let n := (s.faults.filter (fun f => f.die == die && f.queued && f.state == 0)).length
    let r : FaultRec :=
      { id := s.nextId, die := die, va := BitVec.ofNat 64 va, asid := asid, ctx := ctx, level := level, kind := kind,
        agent := agent, bwAt := s.bw, cluster := clusterOf core % 8, core := core % 128, queued := decide (n < 1024),
        warps := ws }
    { s with faults := s.faults ++ [r], nextId := s.nextId + 1 }

/-- What a fetch of one word answers. -/
inductive FetchR
  | word (w : DWord)
  | trap (c : Cause)
  | absent (level va : Nat)
  deriving DecidableEq, Repr

/-- The instruction-cache copy of a core. -/
def State.icHit (s : State) (core line : Nat) : Option ICLine :=
  s.icache.find? (fun l => l.core == core && l.line == line)
/-- The level that stands for a wait for the host's copy of a line (R302): nothing parks, a snoop is sent. -/
def snoopLevel : Nat := 64
/-- The fetch of the word at `va` by a core for a context: PROT and XLATE (R50, R284), CODETORN (R282), and a
recoverable fault. The instruction-cache copy of its line is read when there is one (R282); else, where `gated` says so, the fetch waits as the
region table has it (R302). -/
def fetchVia (gated : Bool) (s : State) (core ctx : Nat) (priv : Bool) (tfm : Mask) (va : DWord) : FetchR :=
  match accessTr s core ctx .fetch va.toNat with
  | .xlate i => .trap { stage := 1, code := cXLATE, tfm := tfm, taddr := va, tinfo := i }
  | .prot i => .trap { stage := 1, code := cPROT, tfm := tfm, taddr := va, tinfo := i }
  | .absent k =>
    if recoverable s ctx priv va.toNat then .absent k va.toNat
    else .trap { stage := 1, code := cXLATE, tfm := tfm, taddr := va }
  | .ok pa _ =>
    match s.icHit core (pa / 128) with
    | some l => .word (BitVec.ofNat 64 (leNat ((l.data.drop (pa % 128)).take 8)))
    | none =>
      if gated && !gateOpen s pa false then .absent snoopLevel va.toNat
      else if (s.lineSt (pa / 128)).cp then
        .trap { stage := 1, code := cCODETORN, tfm := tfm, taddr := BitVec.ofNat 64 (va.toNat / 128 * 128) }
      else if s.poisoned pa 8 then .trap { stage := 5, code := cPOISON, tfm := tfm, taddr := va }
      else .word (BitVec.ofNat 64 (leNat (s.rdBytes pa 8)))

def fetchWord (s : State) (core ctx : Nat) (priv : Bool) (tfm : Mask) (va : DWord) : FetchR := fetchVia true s core ctx priv tfm va
/-- An access of a core meets the region table, which sends the snoop that it waits for (R302, R361). -/
def State.snoopFor (s : State) (core ctx va : Nat) : State :=
  match accessTr s core ctx .read va with
  | .ok pa _ => (deviceGate s (pa / 128) false false).1
  | _ => s

/-- The fields of a header word (R53). -/
def hdrMark (w : DWord) : Bool := w.extractLsb' 60 4 == 15#4
def hdrEng (w : DWord) : BitVec 2 := w.extractLsb' 58 2
def hdrCnt (w : DWord) : Nat := (w.extractLsb' 54 4).toNat
def hdrPrio (w : DWord) : BitVec 8 := w.extractLsb' 46 8
def hdrDcw (w : DWord) : BitVec 6 := w.extractLsb' 40 6
def hdrRf (w : DWord) : Bool := w.getLsbD 39
def hdrYld (w : DWord) : Bool := w.getLsbD 38

end Sys2Proof.Machine
end

