-- ==== Sys2Proof/Machine/Pages.lean ====
section
/-! DEFINITION. Pages as the tier manager sees them (R338 to R345): what maps them, what holds them in T1, and their read
passes; and the fills of instruction caches (R281). -/

namespace Sys2Proof.Machine

/-- A frame lies in T1 or T2 (R272). -/
def inT1 (pfn : Nat) : Bool := decide (pfn * 4096 < Config.t2Base)
/-- The table that maps a page: a context's, or, for 128 + p, that of the tenant of port p (R357). -/
def tableOf (s : State) (ctx : Nat) : Nat × Nat := if ctx < 128 then (4, (s.ctx ctx).ptroot) else (3, (s.ports.getD (ctx - 128) {}).ttroot)
/-- The page that maps an address to a frame of this package: its leaf, the log of its frames, and its first page number
(R338). -/
def pageLeaf (s : State) (ctx va : Nat) : Option (Leaf × Nat × Nat) :=
  if 2 ^ 57 ≤ va then none
  else
    let t := tableOf s ctx
    match walk s (va / 4096) t.1 t.2 with
    | .leaf l o v0 => if l.node ≠ s.nodeId ∨ (ctx < 128 ∧ l.ten ≠ 0) ∨ (128 ≤ ctx ∧ !tenantLeafOk (ctx - 128) l o) then none else some (l, o, v0)
    | _ => none
def State.page (s : State) (ctx v : Nat) : PageSt := findD { ctx := ctx, vpage := v } (fun p => p.ctx == ctx && p.vpage == v) s.pages
def State.setPage (s : State) (ctx v : Nat) (f : PageSt → PageSt) : State :=
  let e := f (s.page ctx v)
  let rest := s.pages.filter (fun p => !(p.ctx == ctx && p.vpage == v))
  { s with pages := if e = { ctx := ctx, vpage := v } then rest else rest ++ [e] }
/-- Frames of a page held in T1 by pins and windows, in all (R341, R344). -/
def heldFrames (s : State) (ctx : Nat) : Nat :=
  (s.pages.filter (fun p => p.ctx == ctx && (p.pin == some 0 || p.held))).foldl (fun n p =>
    match pageLeaf s ctx (p.vpage * 4096) with | some (_, o, _) => n + 2 ^ o | none => n + 1) 0
def State.setT1held (s : State) (ctx : Nat) : State := s.setCtx ctx (fun c => { c with t1held := (heldFrames s ctx + 15) / 16 })
/-- Holding `n` more frames would pass the context's budget. -/
def overBudget (s : State) (ctx n : Nat) : Bool := decide ((s.ctx ctx).t1budget < (heldFrames s ctx + n + 15) / 16)
def migrating (s : State) (ctx v : Nat) : Bool := s.migs.any (fun m => m.ctx == ctx && m.vpage == v)
/-- A migration is asked for. -/
def State.askMove (s : State) (ctx v : Nat) (toT1 : Bool) : State :=
  let mid := s.migs.foldl (fun n m => if m.mid < 2 ^ 64 then max n (m.mid + 1) else n) 0
  { s with migs := s.migs ++ [{ mid := mid, ctx := ctx, vpage := v, src := 0, dst := if toT1 then 0 else 1 }] }
/-- A promoted page is demoted (R344, R345): it is held no more, and moves to T2 once no move of it is under way. -/
def State.demotePage (s : State) (ctx v : Nat) : State :=
  let st := s.page ctx v
  if !st.held then s
  else
    let s := (s.setPage ctx v (fun p => { p with held := false, promoted := false, rcp := 0, readLines := [] })).setT1held ctx
    match pageLeaf s ctx (v * 4096) with
    | some (l, _, _) => if (inT1 l.pfn || migrating s ctx v) && st.pin.isNone then s.askMove ctx v false else s
    | none => s

/-- A promoted page that holds a line. -/
def pageHolds (s : State) (p : PageSt) (line : Nat) : Bool :=
  match pageLeaf s p.ctx (p.vpage * 4096) with
  | some (l, o, _) => decide (l.pfn * 32 ≤ line) && decide (line < (l.pfn + 2 ^ o) * 32)
  | none => false
/-- Lines read at their home count towards the passes over promoted pages; the last pass demotes the page (R345). -/
def State.countReads (s : State) (lines : List Nat) : State :=
  (s.pages.filter (fun p => p.promoted && p.rcp != 0)).foldl (fun (s : State) p =>
    let mine := lines.filter (pageHolds s p)
    let all := (p.readLines ++ mine).dedup
    let size := match pageLeaf s p.ctx (p.vpage * 4096) with | some (_, o, _) => 32 * 2 ^ o | none => 32
    if mine.isEmpty then s
    else if all.length < size then s.setPage p.ctx p.vpage (fun q => { q with readLines := all })
    else
      let s := s.setPage p.ctx p.vpage (fun q => { q with rcp := q.rcp - 1, readLines := [] })
      if p.rcp = 1 then s.demotePage p.ctx p.vpage else s) s
/-- Lines an engine has read at their homes for a context (R288, R345). -/
def State.readLines (s : State) (ctx : Nat) (lines : List Nat) : State :=
  ((lines.filter (fun l => !isWindow (l * 128))).foldl (fun (s : State) l => s.touchLine l ctx 0 .load true) s).countReads lines
/-- A fetch that missed fills the instruction cache: its copy is recorded in the directory (R281), and its read counts (R345). -/
def State.fillIc (s : State) (core ctx : Nat) (va : DWord) : State :=
  match accessTr s core ctx .fetch va.toNat with
  | .ok pa _ =>
    let s := s.fillTlb core ctx va.toNat
    match s.icHit core (pa / 128) with
    | some _ => s
    | none =>
      let full := (s.icache.filter (fun l => l.core == core)).length
      let keep := if 256 ≤ full then
        (match s.icache.find? (fun l => l.core == core) with | some l => s.icache.erase l | none => s.icache) else s.icache
      let n := pa / 128
      let c : ICLine := { core := core, line := n, data := s.rdBytes (n * 128) 128 }
      let s : State := ({ s with icache := keep }.readLine n ctx).countReads [n]
      let d := dirBits (homeDie (n * 128)) core
      if isRemote pa || isWindow pa then { s with icache := s.icache ++ [c] }
      else if !(s.lineSt n).inL2 then s
      else { s with icache := s.icache ++ [c] }.setLine n (fun l => { l with clusters := l.clusters ||| d.1, dieBits := l.dieBits ||| d.2 })
  | _ => s

/-- A write to a promoted page sets its read count to zero (R345). -/
def State.pageWritten (s : State) (line : Nat) : State :=
  { s with pages := s.pages.map (fun p => if p.promoted && pageHolds s p line then { p with rcp := 0, readLines := [] } else p) }

end Sys2Proof.Machine
end

