-- ==== Sys2Proof/Machine/Operands.lean ====
section
/-! DEFINITION. The issuing position, every operand form (R43, R67, R87), the writes of a destination (R41, R42, R44),
and the pipeline every program instruction goes through: waits, causes ranked by R52, parking, commit, and the
advance to the next instruction (R54, R73, R77, R431). -/

namespace Sys2Proof.Machine

/-- Lanes that pass COND (R45). -/
def condMask (k : BitVec 4) (g : Group) : Mask :=
  match k.toNat with
  | 0 => ~~~0#64
  | 1 => g.z
  | 2 => ~~~g.z
  | 3 => g.c
  | 4 => ~~~g.c
  | 5 => g.n
  | 6 => ~~~g.n
  | 7 => g.vf
  | 8 => ~~~g.vf
  | 9 => g.c &&& ~~~g.z
  | 10 => ~~~g.c ||| g.z
  | 11 => ~~~(g.n ^^^ g.vf)
  | 12 => g.n ^^^ g.vf
  | 13 => ~~~g.z &&& ~~~(g.n ^^^ g.vf)
  | 14 => g.z ||| (g.n ^^^ g.vf)
  | _ => 0

/-- An instruction at its issue: the group, warp, entry and clause, the static row, the active lanes (R8, R143),
and the repeat it is in (R77). -/
structure Issue where
  s : State
  g : Group
  w : Warp
  e : Entry
  cl : Clause
  n : Info
  a : Args
  act : Mask
  full : Bool
  k : Nat
  rmask : Nat
  last : Bool
  more : Bool

/-- LA, COND and WCC of a word's fields. -/
def Args.la : Args → Nat
  | .r a => a.la.toNat
  | .i a => a.la.toNat
  | .m a => a.la.toNat
  | _ => 0
def Args.cond : Args → BitVec 4
  | .r a => a.cond
  | .i a => a.cond
  | .b a => a.cond
  | .m a => a.cond
  | _ => 0
def Args.wcc : Args → Bool
  | .r a => a.wcc == 1#1
  | .i a => a.wcc == 1#1
  | .m a => a.wcc == 1#1
  | _ => false
def Args.d : Args → BitVec 9
  | .r a => a.d
  | .i a => a.d
  | .m a => a.d
  | _ => 0
def Args.x : Args → BitVec 9
  | .r a => a.x
  | .i a => a.x
  | .m a => a.x
  | .e a => a.x
  | _ => 0
def Args.y : Args → BitVec 9
  | .r a => a.y
  | .e a => a.y
  | _ => 0
def Args.z : Args → BitVec 9
  | .r a => a.z
  | .e a => a.z
  | _ => 0
/-- The DC field (R71); 6 in a format without one. -/
def Args.dc : Args → Nat
  | .m a => a.dc.toNat
  | .e a => a.dc.toNat
  | _ => 6

/-- h', the header of the next clause (R54). -/
def Issue.hn (x : Issue) : DWord := x.e.h + BitVec.ofNat 64 (8 * (x.cl.cnt + 2))
/-- The issuing entry once an instruction of its clause has issued, or has trapped or parked: the clause's counters are tested no
more (R57, R58). -/
def Issue.started (x : Issue) : Entry := { x.e with cl := x.e.cl.map (fun c => { c with dcw := 0 }) }
/-- ILLOP of the whole instruction. -/
def Issue.ill (x : Issue) (taddr : DWord := 0) (tinfo : Nat := 0) : Cause :=
  { stage := 2, code := cILLOP, tfm := x.e.mask, taddr := taddr, tinfo := tinfo }
/-- M[5:0]. -/
def Issue.m (x : Issue) : BitVec 6 := match x.a with | .r a => a.m5 | _ => 0
def Issue.isScalar (x : Issue) : Bool := x.n.d.isDst && isS x.a.d && !x.n.cross
def Issue.tm (x : Issue) : Team := x.s.team x.g.team
def Issue.priv (x : Issue) : Bool := x.g.inPriv
/-- The step of a field in repeat k (R77): bit `b` of the step mask. -/
def Issue.step (x : Issue) (b : Nat) (o : Opd) (f : BitVec 9) : BitVec 9 :=
  if x.k = 0 || !x.rmask.testBit b then f else f + BitVec.ofNat 9 (x.k * (if isS f then 1 else o.size))

/-- What reading an operand gives: the low and high words, the causes it raises, and WOB; `park` is a recoverable
fault of a K word, or its wait for a host's copy: level and address; `cut` the special register whose read waits, and ends windows so (R37);
`failed` tells that the word could not be read, so that what its value would decide is not evaluated (R52); `vas` is where in device memory it
was read. -/
structure Opr where
  lo : VReg := .uni 0
  hi : VReg := .uni 0
  causes : List Cause := []
  wait : Bool := false
  cut : Nat := 0
  wob : Bool := false
  park : Option (Nat × Nat) := none
  failed : Bool := false
  vas : List Nat := []
  deriving DecidableEq, Repr, Inhabited

def Opr.at32 (o : Opr) (l : Nat) : Word := o.lo.lane l
def Opr.at64 (o : Opr) (l : Nat) : DWord := o.hi.lane l ++ o.lo.lane l
/-- UNI, scalar, window, constant or uniform special register (R41). -/
def Opr.uni (o : Opr) : Bool := o.lo.isUni && o.hi.isUni

def oprS (v : DWord) : Opr := { lo := .uni (v.extractLsb' 0 32), hi := .uni (v.extractLsb' 32 32) }

/-- The value of an inline constant (R43): the 32-bit pattern. -/
def icVal (n : Nat) : Word :=
  if n < 32 then BitVec.ofNat 32 n
  else if n < 48 then BitVec.ofInt 32 (31 - (n : Int))
  else BitVec.ofNat 32 ([0x3F000000, 0x3F800000, 0x40000000, 0x40800000, 0xBF000000, 0xBF800000, 0xC0000000, 0xC0800000,
    0x3E800000, 0x41000000, 0x3F317218, 0x3FB8AA3B, 0x40490FDB, 0x7F800000, 0xFF800000, 0x7FC00000].getD (n - 48) 0)

/-- The special registers that read one value for the group (R67, R98, R314), at full width, as R99 and R137 have them read. -/
def specVal (x : Issue) (n : Nat) : DWord :=
  let g := x.g.old
  let nat (v : Nat) : DWord := BitVec.ofNat 64 v
  let h? := g.handlers.head?
  match n with
  | 1 => nat (g.teamid * 16 + g.index)
  | 2 => nat g.teamid
  | 3 => nat g.gridsz
  | 4 => nat g.width
  | 5 => nat ((x.tm.ngrp - 1) * 256 + g.index)
  | 6 => nat g.role
  | 7 => nat (g.core % 128)
  | 8 => nat (g.core / 128 % 8)
  | 9 => nat (g.core / 1024)
  | 10 => nat x.s.nodeId
  | 11 => nat x.s.bw
  | 12 => nat (x.s.cluster (clusterOf g.core)).fclk
  | 13 => nat g.gw
  | 14 => g.fsr.zeroExtend 64
  | 15 => g.fcr.zeroExtend 64
  | 16 => g.xr
  | 17 => g.xrseq
  | 18 => g.amax.zeroExtend 64
  | 19 => g.amaxc.zeroExtend 64
  | 20 => g.limb.zeroExtend 64
  | 21 => x.w.rpc.zeroExtend 64
  | 22 => nat (g.dcv 0 + 64 * (g.dcv 1 + 64 * (g.dcv 2 + 64 * (g.dcv 3 + 64 * (g.dcv 4 + 64 * g.dcv 5)))))
  | 24 => x.e.mask
  | 25 => g.parkmask
  | 26 => g.gangreg.zeroExtend 64
  | 27 => g.rng
  | 32 => (match h? with | some h => h.tam | none => 0)
  | 33 => (match h? with | some h => h.tfm | none => 0)
  | 34 => (match h? with | some h => h.tcause.zeroExtend 64 | none => 0)
  | 35 => (match h? with | some h => h.tpc | none => 0)
  | 36 => (match h? with | some h => h.tprio.zeroExtend 64 | none => 0)
  | 37 => (match h? with | some h => h.taddr | none => 0)
  | 38 => (match h? with | some h => h.tinfo.zeroExtend 64 | none => 0)
  | _ => 0

/-- A pending result that a read of special register `n` waits for (R37, R43). -/
def specPend (n : Nat) (p : Pending) : Bool := (n == 14 && p.fsr) || (n == 17 && p.red)
/-- The read of FSR, AMAX or XRSEQ waits for the earlier instructions of the warp's own lanes that can update it: pending results,
copies (R237) and, for AMAX, ASTs (R33). -/
def specWaits (x : Issue) (n : Nat) : Bool :=
  let mine (m : Mask) : Bool := m &&& x.w.lanes != 0#64
  let c := x.s.core x.g.core
  x.w.pend.any (specPend n)
    || (n == 14 && c.copyq.any (fun q => q.gid == x.g.gid && !q.marker && mine q.by_))
    || (n == 18 && c.mq.any (fun q => q.gid == x.g.gid && q.kind == .ast && !q.done && mine q.by_))

/-- One byte of a parameter window (R221). -/
inductive WByte
  | val (b : Byte)
  | beyond
  | stop (c : Cause)
  | park (level va : Nat)
  deriving DecidableEq, Repr

/-- The byte at offset `o` of the access whose address is `at_`. -/
def winByte (x : Issue) (lanes : Mask) (w : Window) (at_ : DWord) (o : Nat) : WByte :=
  if w.size ≤ o then .beyond
  else
    let va := w.base.toNat + o
    match accessTr x.s x.g.core x.g.ctx .read va with
    | .xlate i => .stop { stage := 4, code := cXLATE, tfm := lanes, taddr := at_, tinfo := i }
    | .prot i => .stop { stage := 4, code := cPROT, tfm := lanes, taddr := at_, tinfo := i }
    | .absent k =>
      if recoverable x.s x.g.ctx x.priv va then .park k va
      else .stop { stage := 4, code := cXLATE, tfm := lanes, taddr := at_ }
    | .ok pa _ =>
      if !gateOpen x.s pa false then .park snoopLevel va
      else if x.s.poisoned pa 1 then .stop { stage := 5, code := cPOISON, tfm := lanes, taddr := at_ }
      else .val (x.s.rdByte pa)

/-- The bytes of a window from an offset: value, causes, WOB, and the first page that parks. -/
def winRead (x : Issue) (lanes : Mask) (w : Window) (o n : Nat) : Nat × List Cause × Bool × Option (Nat × Nat) :=
  (List.range n).foldl (fun acc k =>
    match winByte x lanes w (w.base + BitVec.ofNat 64 o) (o + k) with
    | .val b => (acc.1 + b.toNat * 256 ^ k, acc.2)
    | .beyond => (acc.1, acc.2.1, true, acc.2.2.2)
    | .stop c => (acc.1, acc.2.1 ++ [c], acc.2.2)
    | .park lv va => (acc.1, acc.2.1, acc.2.2.1, some (acc.2.2.2.getD (lv, va)))) (0, [], false, none)

/-- The device addresses of a read of n bytes of a window: one in each line. -/
def winVas (w : Window) (o n : Nat) : List Nat :=
  if w.size ≤ o then [] else let a := w.base.toNat + o; let b := w.base.toNat + min (o + n) w.size - 1; if a / 128 = b / 128 then [a] else [a, b]
/-- A core's reads of addresses reach the slices of their lines (R288), and count towards the passes over promoted pages (R345). -/
def readVas (core ctx : Nat) (vas : List Nat) (s : State) : State :=
  vas.foldl (fun (s : State) va => match accessTr s core ctx .read va with
    | .ok pa _ => ((s.fillTlb core ctx va).readLine (pa / 128) ctx).countReads [pa / 128]
    | _ => s) s
/-- A K word or pair (R43). Where no lane is active nothing is read, and a scalar result that is written all the same (R143) is computed
from 0 (DESIGN CHOICE). -/
def readK (x : Issue) (n size : Nat) : Opr :=
  let w := x.tm.windows.getD 0 {}
  if x.act = 0 then {}
  else if !w.valid then { causes := [{ stage := 2, code := cPWUNBOUND, tfm := x.act, tinfo := 0 }], failed := true }
  else
    let r := winRead x x.act w (4 * n) (4 * size)
    { oprS (BitVec.ofNat 64 r.1) with causes := r.2.1, wob := r.2.2.1, park := r.2.2.2, failed := !r.2.1.isEmpty || r.2.2.2.isSome, vas := winVas w (4 * n) (4 * size) }

/-- Poisoned lanes of a V operand and a poisoned S register raise POISON (R134, R432). -/
def poisV (x : Issue) (r size : Nat) : List Cause :=
  let m := x.act &&& ((List.range size).foldl (fun m k => m ||| x.g.vpois (r + k)) 0)
  if m = 0 then [] else [{ stage := 5, code := cPOISON, tfm := m }]
def poisS (x : Issue) (r : Nat) : List Cause :=
  if x.act ≠ 0 ∧ x.g.spoison.getLsbD r then [{ stage := 5, code := cPOISON, tfm := x.act }] else []

/-- An operand as its field names it (R43, R67, R87): 32 bits, or the first 64 of a pair or of four registers. S registers are read as
they stood at the start of the FCLK cycle (R128). -/
def readField (x : Issue) (size : Nat) (f : BitVec 9) : Opr :=
  if isV f then
    let r := f.toNat
    { lo := x.g.vreg r, hi := if 2 ≤ size then x.g.vreg (r + 1) else .uni 0, causes := poisV x r size }
  else if isS f then { oprS (x.g.old.sreg (fnum f)) with causes := poisS x (fnum f) }
  else if isK f then readK x (fnum f) size
  else if isSpec f then
    if fnum f = 0 then { lo := .aff 0 1 }
    else if 32 ≤ fnum f ∧ fnum f ≤ 38 ∧ !x.g.inHandler then { causes := [x.ill] }
    else { oprS (specVal x (fnum f)) with wait := specWaits x (fnum f), cut := if specWaits x (fnum f) then fnum f else 0 }
  else
    let v := icVal (fnum f)
    { lo := .uni v, hi := .uni (if v.getLsbD 31 then 0xFFFFFFFF else 0) }

def Issue.opX (x : Issue) : Opr := if x.n.x.isSrc then readField x x.n.x.size (x.step 1 x.n.x x.a.x) else {}
def Issue.opY (x : Issue) : Opr := if x.n.y.isSrc then readField x x.n.y.size (x.step 2 x.n.y x.a.y) else {}
def Issue.opZ (x : Issue) : Opr := if x.n.z.isSrc then readField x x.n.z.size (x.step 3 x.n.z x.a.z) else {}
/-- The old destination of an instruction that reads it (R87), or the data of a store. -/
def Issue.opD (x : Issue) : Opr := if x.n.d.isSrc then readField x x.n.d.size (x.step 0 x.n.d x.a.d) else {}
def Issue.fd (x : Issue) : BitVec 9 := x.step 0 x.n.d x.a.d

/-- The IMM of an I-format word as an operand (R62, R90). -/
def immOpr (imm : BitVec 27) : Opr := oprS (imm.signExtend 64)

/-! ## Destinations -/

/-- How a 32-bit scalar result is extended (R88). -/
inductive Ext | s | z
  deriving DecidableEq, Repr

/-- The write of a 32-bit result: an S register (R68, R88), or a V register whose shape with a full mask is `sh`
(none for GEN) (R41). -/
def Issue.put32 (x : Issue) (ext : Ext) (sh : Option VReg) (f : Nat → Word) : List RegWrite :=
  let d := x.fd
  if isS d then
    [.sr (fnum d) (match ext with | .s => (f 0).signExtend 64 | .z => (f 0).zeroExtend 64)]
  else if x.act = 0 then []
  else if x.full then [.vr d.toNat (match sh with | some v => v | none => VReg.ofFn x.g.width f)]
  else [.vl d.toNat x.act ((List.range 64).map f)]

/-- The write of a 64-bit result: an S register or an even V pair; `uni` when the result is UNI. -/
def Issue.put64 (x : Issue) (uni : Bool) (f : Nat → DWord) : List RegWrite :=
  let d := x.fd
  let lo (l : Nat) : Word := (f l).extractLsb' 0 32
  let hi (l : Nat) : Word := (f l).extractLsb' 32 32
  if isS d then [.sr (fnum d) (f 0)]
  else if x.act = 0 then []
  else if x.full then
    if uni then [.vr d.toNat (.uni (lo 0)), .vr (d.toNat + 1) (.uni (hi 0))]
    else [.vr d.toNat (VReg.ofFn x.g.width lo), .vr (d.toNat + 1) (VReg.ofFn x.g.width hi)]
  else [.vl d.toNat x.act ((List.range 64).map lo), .vl (d.toNat + 1) x.act ((List.range 64).map hi)]

/-- The UNI shape of rule 2 of R41 when every source is uniform, for an operation that reads no per-lane state. -/
def uniSh (os : List Opr) (v : Word) : Option VReg := if os.all Opr.uni then some (.uni v) else none

/-- The condition-code write of the active lanes (R89). -/
def Issue.putCC (x : Issue) (c z n v : Nat → Bool) : List RegWrite :=
  if x.a.wcc ∧ x.act ≠ 0 then
    [.cc x.act (Mask.where_ c) (Mask.where_ z) (Mask.where_ n) (Mask.where_ v)]
  else []

/-! ## What an instruction does -/

/-- The outcome of a meaning, before it is committed. Times of evaluation follow R52: `causes` first, then `parks`
(lane, address, level), then the flags of `fl` against FCR's enables, then the effects. `vas` is where device memory was read for the
operands. -/
structure Out where
  hold : Bool := false
  cut : Pending → Bool := fun _ => false
  causes : List Cause := []
  parks : List (Nat × Nat × Nat) := []
  kind : Nat := 1
  writes : List RegWrite := []
  fl : Nat → FFlags := fun _ => 0
  wob : Bool := false
  amax : List Nat := []
  dst : List RegId := []
  dly : Bool := false
  req : Option Nat := none
  red : Bool := false
  acq : Bool := false
  ready : Bool := true
  eff : State → State := fun s => s
  stay : Bool := false
  post : State → State := fun s => s
  vas : List Nat := []
  ctl : Option (List Dest) := none
  gone : Bool := false

/-- The sources an instruction read: their causes, waits and parks. Where a word could not be read, no cause of a later stage and no
park of the instruction's own is evaluated (R52). -/
def Out.ofSrcs (x : Issue) (os : List Opr) (o : Out) : Out :=
  let bad := os.any Opr.failed
  { o with
    hold := (o.hold && !bad) || os.any (fun p => p.wait), cut := fun q => o.cut q || os.any (fun p => specPend p.cut q),
    causes := (if bad then o.causes.filter (fun c => decide (c.stage ≤ 2)) else o.causes) ++ os.flatMap (fun p => p.causes),
    wob := o.wob || os.any (fun p => p.wob), stay := o.stay && !bad,
    vas := o.vas ++ os.flatMap Opr.vas,
    parks := (if bad then [] else o.parks) ++ os.flatMap (fun p => match p.park with
      | some (lv, va) => (Mask.lanes x.act).map (fun l => (l, va, lv)) | none => []) }

/-- Registers a write covers. -/
def RegWrite.dst : RegWrite → List RegId
  | .vr r _ => [.v r]
  | .vl r _ _ => [.v r]
  | .sr r _ => [.s r]
  | .cc .. => [.cc]
  | .pr r _ => [.p r]
  | _ => []

/-- The field that names a destination: D, or the Y of OBJDECL, which has no D (R228). -/
def Issue.dstField (x : Issue) : Nat := match x.a with | .e a => a.y.toNat | _ => x.fd.toNat
/-- LAWAR: a write to a pending destination of a thread that performs the instruction (R46, R74). TINFO holds the operand field. -/
def lawar (x : Issue) (o : Out) : List Cause :=
  let ds := o.dst ++ o.writes.flatMap RegWrite.dst
  let lanes := x.w.pend.foldl (fun m p => if p.dst.any ds.contains then m ||| (p.lanes &&& x.act) else m) (0 : Mask)
  if lanes ≠ 0 then [{ stage := 2, code := cLAWAR, tfm := lanes, tinfo := x.dstField }] else []

/-- REGBUDGET: a write that would turn a register GEN past the budget (R42). -/
def regBudget (x : Issue) (o : Out) : List Cause :=
  let gens := (o.writes.flatMap (fun w => match w with
    | .vr r (.gen _) => [r]
    | .vl r m _ => if m = 0 then [] else [r]
    | _ => [])).dedup
  let pend := (x.g.warps.flatMap (fun w => w.pend.flatMap (fun p => p.writes.flatMap (fun v => match v with
    | .vr r (.gen _) => [r]
    | .vl r _ _ => [r]
    | _ => [])))).dedup.filter (fun r => !(x.g.vreg r).isGen && !gens.contains r)
  let new := gens.filter (fun r => !(x.g.vreg r).isGen)
  if new.isEmpty || x.g.genCount + pend.length + new.length ≤ x.g.budget then []
  else [{ stage := 2, code := cREGBUDGET, tfm := x.act, tinfo := x.g.budget }]

/-- A V register named in a field the entry reads or writes (R82). -/
def namesV (x : Issue) : Bool :=
  let f (o : Opd) (v : BitVec 9) : Bool := o.use != .unused && o.use != .raw && isV v
  f x.n.d x.a.d || f x.n.x x.a.x || f x.n.y x.a.y || f x.n.z x.a.z || (x.n.x.use == .raw && isV x.a.x)

/-- ROLE of R59 and R82, and ILLOP of a privileged handler's vector instruction (R141). -/
def roleCauses (x : Issue) : List Cause :=
  let common := x.n.space == .any0 || x.n.space == .any
  let bad := (x.cl.eng == 0#2 && x.g.role != 2 && !common)
    || (!(x.cl.eng == 0#2 && x.g.role == 2) && decide (x.n.opc < 0x100) && x.n.space == .any0 && namesV x)
  (if bad then [{ stage := 2, code := cROLE, tfm := x.e.mask, taddr := x.e.h, tinfo := x.cl.eng.toNat }] else [])
    ++ (if x.g.inPriv && namesV x && x.n.space != .vecsys then [x.ill] else [])

/-- FPX (R34): lanes that raised an enabled flag. -/
def fpxCauses (x : Issue) (o : Out) : List Cause :=
  let en : FFlags := x.g.old.fcr.extractLsb' 4 5
  let lanes := x.act &&& Mask.where_ (fun l => o.fl l &&& en != 0#5)
  if lanes = 0 then []
  else [{ stage := 7, code := cFPX, tfm := lanes,
          tinfo := ((Mask.lanes lanes).foldl (fun (m : FFlags) l => m ||| o.fl l) 0).toNat }]

/-- FSR flags of an outcome, by lane (R35). -/
def Out.laneFsr (x : Issue) (o : Out) : List Word :=
  (List.range 64).map (fun l => if Mask.has x.act l then (o.fl l).zeroExtend 32 ||| (if o.wob then 32 else 0) else 0)
/-- FSR flags of an outcome (R32, R35). -/
def Out.fsr (x : Issue) (o : Out) : Word :=
  let f : FFlags := (Mask.lanes x.act).foldl (fun m l => m ||| o.fl l) 0
  f.zeroExtend 32 ||| (if o.wob then 32 else 0)

/-- A word of a started clause at `pc`: as it was fetched with the clause (R282), else fetched now. -/
def clauseWord (s : State) (core ctx : Nat) (priv : Bool) (tfm : Mask) (cl : Clause) (h pc : DWord) : FetchR :=
  match cl.ws[(pc - h).toNat / 8 - 1]? with
  | some w => .word w
  | none => fetchWord s core ctx priv tfm pc

/-- The header of the next clause, read before commit (R431): its PRIO, or its causes, or a recoverable fault. -/
def nextHeader (x : Issue) (h : DWord) (lanes : Mask) : Except (List Cause ⊕ (Nat × Nat)) (BitVec 8) :=
  match fetchWord x.s x.g.core x.g.ctx x.priv lanes h with
  | .word w =>
    if hdrMark w then .ok (hdrPrio w)
    else .error (.inl [{ stage := 1, code := cILLCL, tfm := lanes, taddr := h, tinfo := 3 }])
  | .trap c => .error (.inl [{ c with taddr := h }])
  | .absent lv va => .error (.inr (lv, va))

/-- Take a trap of warp `w` standing at entry `e` of group `g` (R138, R141, R323): software traps enter at TVEC,
the privileged ones at PTVEC. A fault held for a counter leaves its slot. -/
def State.raise (s : State) (g : Group) (w : Option Warp) (e : Option Entry) (c : Cause) (tpc : DWord) : State :=
  let ctx := s.ctx g.ctx
  let priv := decide (0x20 ≤ c.code)
  let vec := if priv then ctx.ptvec else ctx.tvec
  let lanes := match e with | some e => e.mask | none => 0
  let word : Except Nat DWord := match fetchVia false s g.core g.ctx true lanes vec with | .word w => .ok w | .trap c => .error c.code | .absent .. => .error cXLATE
  let s := s.trapEntry g w e c tpc priv vec word
  let s := match w with | some w => if c.code = cXLATE then s.dropDenied (some (g.gid, w.wid)) 0 0 else s | none => s
  match c.slot with
  | none => s
  | some k => s.setGroup g.gid (fun g => { g with held := g.held.filter (fun p => p.1 != k) })

/-- Take a trap at the issuing instruction. -/
def takeTrap (x : Issue) (c : Cause) : State :=
  (x.s.setWarp x.g.gid x.w.wid (fun w => { w with entries := x.started :: w.entries.drop 1, pass := 0, snap := [] })).raise x.g (some x.w) (some x.e) c x.e.pc

/-- Whole integers of the lanes while LIMB is bound (R164). -/
def limbLanes (g : Group) (m : Mask) : Mask :=
  if g.limb.getLsbD 8 then
    let n := 2 ^ (g.limb.toNat % 8)
    Mask.where_ (fun l => (List.range n).any (fun k => Mask.has m (l / n * n + k)))
  else m

/-- Lanes of the issuing entry park at the instruction (R125): they leave the warp with their pending results and RPC.
In a handler the warp waits in place instead (R139). An instruction that waits for a host's copy (R302) stays where it is. -/
def parkLanes (x : Issue) (lanes0 : Mask) (kind va level : Nat) : State :=
  let took (s : State) : State := s.setGroup x.g.gid (fun g => { g with issued := g.issued ++ [x.w.wid] })
  if level = snoopLevel then x.s.snoopFor x.g.core x.g.ctx va
  else if x.g.inHandler then
    let s := x.s.addFault x.g.core x.g.ctx kind va level 0 (some (x.g.gid, x.w.wid))
    (took s).setWarp x.g.gid x.w.wid (fun w => { w with held := true })
  else
    let lanes := limbLanes x.g lanes0 &&& x.e.mask
    let left := x.e.mask &&& ~~~lanes
    let wid := x.g.newWid
    let s := x.s.addFault x.g.core x.g.ctx kind va level 0 (some (x.g.gid, wid))
    let p : Warp := { wid := wid, entries := [{ x.started with mask := lanes }], pend := splitPend x.w.pend lanes,
                      rpc := x.w.rpc, parked := true, lastIssue := x.w.lastIssue, turn := x.w.turn }
    (took s).setGroup x.g.gid (fun g =>
      let rest := sortEntries ({ x.started with mask := left } :: x.w.entries.drop 1)
      let keep := rest.foldl (fun m e => m ||| e.mask) (0 : Mask)
      let g := g.setWarp x.w.wid (fun w => { w with entries := rest, pend := splitPend w.pend keep,
                                                    rpc := if left = 0 then 0 else w.rpc })
      { g with warps := g.warps.filter (fun w => !w.entries.isEmpty) ++ [p] })

/-- The windows of the warp after an instruction of the lanes of its first entry has issued (R73, R77): those lanes count it, and the
results of its other lanes do not. -/
def countWindows (x : Issue) (ps : List Pending) : List Pending :=
  if x.more then ps
  else
    let count (p : Pending) : Pending := if p.rep then { p with rep := false } else { p with left := p.left - 1 }
    ps.flatMap (fun p =>
      if p.lanes &&& x.e.mask == 0#64 then [p]
      else if Mask.sub p.lanes x.e.mask then [count p]
      else [count (p.restrict x.e.mask), p.restrict (~~~x.e.mask)])

/-- A warp stands between the first and the last instructions of a clause (R57). -/
def Warp.inClause (w : Warp) : Bool :=
  match w.first with
  | none => false
  | some e => e.pc != e.h + 8

/-- The group gives up its issue slot (R115, R129) when a READY group waits on its core; while another of its warps
stands inside a clause, at the next clause boundary (R57). -/
def State.yieldSlot (s : State) (gid : Nat) : State :=
  match s.group gid with
  | none => s
  | some g =>
    if g.st != .active || !s.groups.any (fun q => q.core == g.core && q.st == .ready) then
      s.setGroup gid (fun g => { g with yieldDue := false })
    else if g.warps.any (fun w => w.inClause && !w.parked && g.mayRun w.wid) then
      s.setGroup gid (fun g => { g with yieldDue := true })
    else s.setGroup gid (fun g => { g with st := .ready, since := s.bw, yieldDue := false })

/-- The end of a clause: a HALT.GROUP or HALT.KILL due there takes effect (R331). -/
def State.clauseEnd (s : State) (gid : Nat) (yld : Bool) : State :=
  let s := s.setGroup gid (fun g => if g.haltDue then { g with halted := true, haltDue := false } else g)
  let due := match s.group gid with | some g => g.yieldDue | none => false
  if yld || due then s.yieldSlot gid else s

/-- A vector instruction passes through the operand collector (R127, R135). -/
def Issue.vector (x : Issue) : Bool := x.cl.eng == 0#2 && !x.isScalar && (x.n.space == .vec || x.n.space == .vecsys || x.n.space == .any0)
/-- What a group keeps of an issue: its time, the warp, and its place in the collector. -/
def Issue.mark (x : Issue) (t : Nat) (g : Group) : Group :=
  { g with lastIssue := t, issued := g.issued ++ [x.w.wid], coll := if x.vector then g.coll + 1 else g.coll }
/-- The place that a warp takes in its core's order of issue: the end (R126). -/
def State.nextTurn (s : State) (core : Nat) : Nat :=
  (s.groups.filter (fun g => g.core == core)).foldl (fun m g => g.warps.foldl (fun m w => max m w.turn) m) 0 + 1
/-- The instructions that wait in a core's operand collector (R135). -/
def State.collector (s : State) (core : Nat) : Nat := (s.groups.filter (fun g => g.core == core)).foldl (fun n g => n + g.coll) 0

/-- The warp goes on to the next instruction (R54, R77, R79); `prio` is that of the next clause when this one ends. -/
def advance (x : Issue) (s : State) (prio : BitVec 8) (pend : List Pending) : State :=
  let rpc := x.w.rpc
  let s := s.setWarp x.g.gid x.w.wid (fun w =>
    let w := { w with pend := pend, lastIssue := s.bw, turn := s.nextTurn x.g.core, released := false, pass := 0, snap := [], wait := .none,
                      waitAt := none, arrived := false, fence := none, held := false }
    if x.more then { w with rpc := BitVec.ofNat 32 (rpc.toNat + 64), entries := x.started :: w.entries.drop 1 }
    else
      let e : Entry :=
        if x.last then { x.e with pc := x.hn + 8, h := x.hn, prio := prio, cl := none } else { x.started with pc := x.e.pc + 8 }
      { w with rpc := 0, entries := sortEntries (e :: w.entries.drop 1) })
  let s := s.setGroup x.g.gid (x.mark s.bw)
  if x.last && !x.more then s.clauseEnd x.g.gid x.cl.yld else s

/-- The warp's lanes go to other clauses (R111 to R115, R122). -/
def jump (x : Issue) (s : State) (ds : List Dest) : State :=
  let s := s.setGroup x.g.gid (fun g =>
    match g.warp x.w.wid with
    | none => g
    | some w =>
      let w := { w with lastIssue := s.bw, turn := s.nextTurn x.g.core, released := false, pass := 0, snap := [], rpc := 0, waitAt := none }
      x.mark s.bw (g.replaceWarp x.w.wid (splitWarp w x.e.mask ds g.newWid)))
  s.clauseEnd x.g.gid x.cl.yld

/-- Commit an outcome that raised nothing and parks nothing. -/
def commitOut (x : Issue) (prio : BitVec 8) (o : Out) : State :=
  let s := readVas x.g.core x.g.ctx o.vas x.s
  let late := o.dly
  let s := if late then s
    else
      let s := s.applyWs x.g.gid x.g.team o.writes
      s.setGroup x.g.gid (fun g => g.commit x.act (o.fsr x) o.amax)
  let s := o.eff s
  if o.stay then s
  else
    let old := match s.group x.g.gid with
      | some g => (match g.warp x.w.wid with | some w => w.pend | none => [])
      | none => []
    let new : List Pending :=
      if late then
        [{ rid := (match o.req with | some r => r | none => s.nextId), left := x.a.la, lanes := x.e.mask, dst := o.dst ++ o.writes.flatMap RegWrite.dst,
           ready := o.ready, writes := o.writes, flags := o.laneFsr x, red := o.red,
           fsr := o.fsr x != 0 || (o.red && x.m.toNat % 16 == 8) || x.n.rnd, rep := x.more || x.k ≠ 0 }]
      else []
    let s := if late ∧ o.req = none then { s with nextId := s.nextId + 1 } else s
    let pend := if x.more then old ++ new else countWindows x old ++ new.map (fun p => { p with rep := false })
    o.post (match o.ctl with
    | some ds => jump x s ds
    | none => if o.gone then s else advance x s prio pend)

/-- What is due before the instruction may issue: pending results of its lanes whose window has closed (R73). A control-flow
instruction waits for every one of its warp and cuts their windows. -/
def mustWait (x : Issue) : Bool :=
  if x.n.ctl then !x.w.pend.isEmpty else x.w.pend.any (fun p => p.left == 0 && !p.rep && p.lanes &&& x.e.mask != 0#64)
/-- The windows of the pending results that `p` names end (R37, R73). -/
def cutWindows (s : State) (gid wid : Nat) (p : Pending → Bool) : State :=
  s.setWarp gid wid (fun w => { w with pend := w.pend.map (fun q => if p q then { q with left := 0, rep := false } else q) })

/-- The pipeline after operands: R52's ranking, parking, and commit. A cause of stages 1 to 5 goes before a lane that parks, and a lane
that parks before a cause that a unit finds (R52). -/
def finishIssue (x : Issue) (f : Issue → Out) : State :=
  let o := f x
  if o.hold then cutWindows x.s x.g.gid x.w.wid o.cut
  else
    let hr : Except (List Cause ⊕ (Nat × Nat)) (BitVec 8) :=
      if x.last && !x.n.ctl && !x.more then nextHeader x x.hn x.e.mask else .ok 0
    let hc := match hr with | .error (.inl cs) => cs | _ => []
    let cs := hc ++ roleCauses x ++ o.causes ++ lawar x o ++ regBudget x o
    match pickCause (cs.filter (fun c => decide (c.stage ≤ 5))) with
    | some c => takeTrap x c
    | none =>
      match hr, o.parks with
      | .error (.inr (lv, va)), _ => parkLanes x x.e.mask 4 va lv
      | .error (.inl _), _ => x.s
      | .ok _, (l, va, lv) :: ps =>
        -- the lanes of one page park; the instruction issues again for the others
        let lanes := ((l, va, lv) :: ps).foldl (fun m p => if p.2.1 / 4096 = va / 4096 then m ||| (1#64 <<< p.1) else m) (0 : Mask)
        parkLanes x lanes o.kind va lv
      | .ok prio, [] =>
        match pickCause (cs ++ fpxCauses x o) with
        | some c => takeTrap x c
        | none => commitOut x prio o

/-- Issue has stopped in a group whose team is being saved or flushed (R325, R326): a software handler runs on to its RTT
unless the save is forced, and a privileged one always does. -/
def teamHolds (s : State) (g : Group) : Bool :=
  let t := s.team g.team
  match t.st with
  | .saving => !(g.inHandler && (g.inPriv || t.mode != 2))
  | .flushing => !g.inPriv
  | _ => false

/-- The issuing position of the machine, when the issuer may issue `i`. -/
def State.position (s : State) (i : Instr) : Option Issue :=
  match s.issuer with
  | none => none
  | some r =>
    match s.group r.gid with
    | none => none
    | some g =>
      match g.warp r.wid with
      | none => none
      | some w =>
        match w.entries with
        | [] => none
        | e :: _ =>
          match e.cl with
          | none => none
          | some cl =>
            if g.st != .active || g.stopped || g.halted || w.parked || w.held || !w.wait.tests || !g.mayRun w.wid || teamHolds s g then none
            else
              let n := info i
              let a := args i
              let act := e.mask &&& condMask a.cond g
              let rep := w.rpc.getLsbD 31
              let k := if rep then field w.rpc.toNat 6 6 else 0
              let nm1 := field w.rpc.toNat 0 6
              some { s := s, g := g, w := w, e := e, cl := cl, n := n, a := a, act := act,
                     full := e.mask == g.all && a.cond == 0#4, k := k,
                     rmask := if rep then field w.rpc.toNat 12 4 else 0,
                     last := e.pc == e.h + BitVec.ofNat 64 (8 * (cl.cnt + 1)), more := rep && decide (k < nm1) }

/-- The first instruction of a clause tests the counters of its DCW once more (R58): a fault held for one is raised (R241), and one that
does not read zero holds the clause. -/
def dcwOpen (g : Group) (dcw : BitVec 6) : Bool := (List.range 6).any (fun i => dcw.getLsbD i && g.old.dcv i != 0)
/-- The cause of a fault held in a slot (R241, R432): raised in the lanes `m`. A code that the check of a PROT gave is its TINFO (R255,
R291). -/
def heldCause (m : Mask) (k : Nat) (f : HeldFault) : Cause :=
  { stage := 6, code := f.cause, tfm := m, taddr := f.addr, tinfo := (if f.info ≠ 0 then f.info else f.queue + 16 * k) + (if f.lost then 128 else 0), slot := some k }
/-- The lowest-numbered faulted slot among those that `p` admits (R242). -/
def heldIn (g : Group) (m : Mask) (p : Nat → Bool) : List Cause :=
  match (List.range 7).filterMap (fun k => if p k then (g.held.find? (fun q => q.1 == k)).map (fun q => heldCause m k q.2) else none) with
  | [] => []
  | c :: _ => [c]
/-- An increment of counter n is held: the counter is full (R137), or a WAITDC of another warp that may go on comes first (R142). -/
def dcHeld (x : Issue) : Bool :=
  decide (x.a.dc < 6) && (x.g.dcFull x.a.dc ||
    x.g.warps.any (fun w => w.wid != x.w.wid && x.g.mayRun w.wid && (match w.wait with | .waitdc n v => n == x.a.dc && decide (x.g.old.dcv n ≤ v) | _ => false)))

/-- Issue an instruction with meaning `f`. Where the issuer may not issue it, nothing happens. -/
def runIssue (s : State) (i : Instr) (f : Issue → Out) : Host.Outcome State Fault Refusal :=
  match s.position i with
  | none => .next s
  | some x =>
    match heldIn x.g x.e.mask (fun k => decide (k < 6) && x.cl.dcw.getLsbD k) with
    | c :: _ => .next (s.raise x.g (some x.w) (some x.e) c x.e.pc)
    | [] =>
      if dcwOpen x.g x.cl.dcw then .next s
      else if mustWait x then .next (if x.n.ctl then cutWindows s x.g.gid x.w.wid (fun _ => true) else s)
      else if dcHeld x then .next s
      else if x.vector && decide (4 ≤ s.collector x.g.core) then .next s
      else .next (finishIssue x f)

end Sys2Proof.Machine
end

