-- ==== Sys2Proof/Machine/Flags.lean ====
section
/-! DEFINITION. The condition-code helpers of R89, and the shared shape of an instruction that computes lane by lane. -/

namespace Sys2Proof.Machine

/-- A result with its codes. -/
structure CC where
  r : Nat
  c : Bool
  z : Bool
  n : Bool
  v : Bool
  deriving DecidableEq, Repr

/-- AddCC of R89. -/
def addCC (x y cin n : Nat) : CC :=
  let t := x % 2 ^ n + y % 2 ^ n + cin
  let s := sInt x n + sInt y n + (cin : Int)
  let r := t % 2 ^ n
  { r := r, c := decide (2 ^ n ≤ t), z := r == 0, n := r.testBit (n - 1),
    v := decide (s < -(2 ^ (n - 1) : Int)) || decide ((2 ^ (n - 1) : Int) - 1 < s) }

/-- SubCC of R89. -/
def subCC (x y bin n : Nat) : CC :=
  let t : Int := (x % 2 ^ n : Nat) - (y % 2 ^ n : Nat) - (bin : Int)
  let s := sInt x n - sInt y n - (bin : Int)
  let r := truncI n t
  { r := r, c := decide (0 ≤ t), z := r == 0, n := r.testBit (n - 1),
    v := decide (s < -(2 ^ (n - 1) : Int)) || decide ((2 ^ (n - 1) : Int) - 1 < s) }

/-- LogicCC of R89. -/
def logicCC (r n : Nat) : CC := { r := r % 2 ^ n, c := false, z := r % 2 ^ n == 0, n := r.testBit (n - 1), v := false }

/-- FloatCC of R89, on an FP32 pattern. -/
def floatCC (r : Nat) : CC :=
  { r := r, c := false, z := r % 2 ^ 31 == 0, n := r.testBit 31, v := decide (Fmt.fp32.decode r = .nan) }

/-- Z and N of the value written, C and V of the exact operation (R89). -/
def CC.withResult (c : CC) (r n : Nat) : CC := { c with r := r % 2 ^ n, z := r % 2 ^ n == 0, n := r.testBit (n - 1) }
/-- The codes kept, another value written (the comparisons of R89). -/
def CC.value (c : CC) (r : Nat) : CC := { c with r := r }

/-- A lane-by-lane instruction of 32-bit results: one CC per lane from its operands. `sh` is the shape of the
result with a full mask (R41). -/
def laneOut32 (x : Issue) (ext : Ext) (srcs : List Opr) (sh : Option VReg) (f : Nat → CC) : Out :=
  Out.ofSrcs x srcs
    { writes := x.put32 ext sh (fun l => BitVec.ofNat 32 (f l).r)
        ++ x.putCC (fun l => (f l).c) (fun l => (f l).z) (fun l => (f l).n) (fun l => (f l).v) }

/-- A lane-by-lane instruction of 64-bit results. -/
def laneOut64 (x : Issue) (srcs : List Opr) (uni : Bool) (f : Nat → CC) : Out :=
  Out.ofSrcs x srcs
    { writes := x.put64 uni (fun l => BitVec.ofNat 64 (f l).r)
        ++ x.putCC (fun l => (f l).c) (fun l => (f l).z) (fun l => (f l).n) (fun l => (f l).v) }

/-- An operation of two 32-bit operands whose result is UNI when both are (R41). -/
def bin32 (x : Issue) (ext : Ext) (p q : Opr) (f : Nat → Nat → CC) : Out :=
  let g (l : Nat) := f (p.at32 l).toNat (q.at32 l).toNat
  laneOut32 x ext [p, q] (uniSh [p, q] (BitVec.ofNat 32 (g 0).r)) g

def un32 (x : Issue) (ext : Ext) (p : Opr) (f : Nat → CC) : Out :=
  let g (l : Nat) := f (p.at32 l).toNat
  laneOut32 x ext [p] (uniSh [p] (BitVec.ofNat 32 (g 0).r)) g

def tri32 (x : Issue) (ext : Ext) (p q r : Opr) (f : Nat → Nat → Nat → CC) : Out :=
  let g (l : Nat) := f (p.at32 l).toNat (q.at32 l).toNat (r.at32 l).toNat
  laneOut32 x ext [p, q, r] (uniSh [p, q, r] (BitVec.ofNat 32 (g 0).r)) g

/-- An operation that reads the lane's codes: never UNI (R41). -/
def bin32cc (x : Issue) (ext : Ext) (p q : Opr) (f : Nat → Nat → Bool → CC) : Out :=
  laneOut32 x ext [p, q] none (fun l => f (p.at32 l).toNat (q.at32 l).toNat (Mask.has x.g.c l))

/-- A shape given by the table of R41, or UNI. -/
def bin32sh (x : Issue) (ext : Ext) (p q : Opr) (sh : Option VReg) (f : Nat → Nat → CC) : Out :=
  let g (l : Nat) := f (p.at32 l).toNat (q.at32 l).toNat
  laneOut32 x ext [p, q] (match uniSh [p, q] (BitVec.ofNat 32 (g 0).r) with | some v => some v | none => sh) g

end Sys2Proof.Machine
end

