-- ==== Sys2Proof/Machine/Int.lean ====
section
/-! DEFINITION. The integer and address family (R92, R93) and its immediate forms (R90). -/

namespace Sys2Proof.Machine

/-- The AFF results of R41 for x + y and x − y in their wrapping forms. -/
def affAdd (p q : VReg) : Option VReg :=
  match p, q with
  | .aff b t, .uni u => some (.aff (b + u) t)
  | .uni u, .aff b t => some (.aff (b + u) t)
  | .aff b t, .aff b2 t2 => some (.aff (b + b2) (t + t2))
  | _, _ => none
def affSub (p q : VReg) : Option VReg :=
  match p, q with
  | .aff b t, .uni u => some (.aff (b - u) t)
  | .uni u, .aff b t => some (.aff (u - b) (-t))
  | .aff b t, .aff b2 t2 => some (.aff (b - b2) (t - t2))
  | _, _ => none
def affMul (p q : VReg) : Option VReg :=
  match p, q with
  | .aff b t, .uni u => some (.aff (b * u) (t * u))
  | .uni u, .aff b t => some (.aff (b * u) (t * u))
  | _, _ => none

/-- The extension of the column "U" (R88). -/
def extU (u : Bool) : Ext := if u then .z else .s
/-- A value read signed or unsigned (R92). -/
def rdI (u : Bool) (v n : Nat) : Int := if u then ((v % 2 ^ n : Nat) : Int) else sInt v n
/-- Sat(t, lo, hi) of R2. -/
def satI (t lo hi : Int) : Int := max lo (min hi t)
def loI (u : Bool) (n : Nat) : Int := if u then 0 else -(2 ^ (n - 1) : Int)
def hiI (u : Bool) (n : Nat) : Int := if u then 2 ^ n - 1 else 2 ^ (n - 1) - 1

/-- x + y and x − y with U and SAT (R93). -/
def addOp (u sat : Bool) (n x y : Nat) : CC :=
  let c := addCC x y 0 n
  if sat then c.withResult (truncI n (satI (rdI u x n + rdI u y n) (loI u n) (hiI u n))) n else c
def subOp (u sat : Bool) (n x y : Nat) : CC :=
  let c := subCC x y 0 n
  if sat then c.withResult (truncI n (satI (rdI u x n - rdI u y n) (loI u n) (hiI u n))) n else c
def negOp (x : Nat) : CC := subCC 0 x 0 32
def absOp (x : Nat) : CC := { logicCC (sInt x 32).natAbs 32 with v := x % 2 ^ 32 == 0x80000000 }
def minOp (u : Bool) (x y : Nat) : CC := logicCC (if rdI u x 32 ≤ rdI u y 32 then x else y) 32
def maxOp (u : Bool) (x y : Nat) : CC := logicCC (if rdI u x 32 ≤ rdI u y 32 then y else x) 32
def mulOp (u : Bool) (x y : Nat) : CC :=
  let p := rdI u x 32 * rdI u y 32
  { logicCC (truncI 32 p) 32 with v := decide (p < loI u 32) || decide (hiI u 32 < p) }
def mulhOp (u : Bool) (x y : Nat) : CC := logicCC (truncI 64 (rdI u x 32 * rdI u y 32) / 2 ^ 32) 32
def madOp (x y z : Nat) : CC := logicCC (truncI 32 (sInt x 32 * sInt y 32 + sInt z 32)) 32
def madwOp (u : Bool) (x y z : Nat) : CC := logicCC (truncI 64 (rdI u x 32 * rdI u y 32 + (z : Int))) 64
/-- −1, 0 or +1 with the codes of the difference (R89). -/
def cmpOp (u : Bool) (n x y : Nat) : CC :=
  (subCC x y 0 n).value (if rdI u x n < rdI u y n then 0xFFFFFFFF else if rdI u x n = rdI u y n then 0 else 1)
def isatOp (u ux : Bool) (x y : Nat) : CC :=
  let w := (satI y 1 32).toNat
  let v : Int := rdI ux x 32
  let t := satI v (if u then 0 else -(2 ^ (w - 1) : Int)) (if u then 2 ^ w - 1 else 2 ^ (w - 1) - 1)
  { logicCC (truncI 32 t) 32 with v := decide (t ≠ v) }
def leaOp (sh x y : Nat) : CC := addCC x (y * 2 ^ sh) 0 32
def lea64Op (sx : Bool) (sh x y : Nat) : CC := addCC x (truncI 64 ((if sx then sInt y 32 else (y : Int)) * 2 ^ sh)) 0 64

def Issue.mb (x : Issue) (b : Nat) : Bool := x.m.getLsbD b
def Issue.imm (x : Issue) : Opr := match x.a with | .i a => immOpr a.imm | _ => {}

/-- The family's meanings over the second operand `q`. -/
def oAdd (q : Issue → Opr) (x : Issue) : Out :=
  let p := x.opX; let q := q x
  bin32sh x (extU (x.mb 0)) p q (if x.mb 1 then none else affAdd p.lo q.lo) (addOp (x.mb 0) (x.mb 1) 32)
def oSub (q : Issue → Opr) (x : Issue) : Out :=
  let p := x.opX; let q := q x
  bin32sh x (extU (x.mb 0)) p q (if x.mb 1 then none else affSub p.lo q.lo) (subOp (x.mb 0) (x.mb 1) 32)
def oAdc (q : Issue → Opr) (x : Issue) : Out :=
  bin32cc x .s x.opX (q x) (fun a b c => addCC a b (if c then 1 else 0) 32)
def oSbc (q : Issue → Opr) (x : Issue) : Out :=
  bin32cc x .s x.opX (q x) (fun a b c => subCC a b (if c then 0 else 1) 32)
def oNeg (q : Issue → Opr) (x : Issue) : Out :=
  let p := q x
  let g (l : Nat) := negOp (p.at32 l).toNat
  laneOut32 x .s [p] (match p.lo with
    | .aff b t => some (.aff (-b) (-t)) | _ => uniSh [p] (BitVec.ofNat 32 (g 0).r)) g
def oAbs (q : Issue → Opr) (x : Issue) : Out := un32 x .s (q x) absOp
def oMin (q : Issue → Opr) (x : Issue) : Out := bin32 x (extU (x.mb 0)) x.opX (q x) (minOp (x.mb 0))
def oMax (q : Issue → Opr) (x : Issue) : Out := bin32 x (extU (x.mb 0)) x.opX (q x) (maxOp (x.mb 0))
def oMul (q : Issue → Opr) (x : Issue) : Out :=
  let p := x.opX; let q := q x
  bin32sh x (extU (x.mb 0)) p q (affMul p.lo q.lo) (mulOp (x.mb 0))
def oMulh (q : Issue → Opr) (x : Issue) : Out := bin32 x (extU (x.mb 0)) x.opX (q x) (mulhOp (x.mb 0))
def oMad (q r : Issue → Opr) (x : Issue) : Out := tri32 x .s x.opX (q x) (r x) madOp
def oMadw (q r : Issue → Opr) (x : Issue) : Out :=
  let p := x.opX; let q := q x; let r := r x
  laneOut64 x [p, q, r] ([p, q, r].all Opr.uni)
    (fun l => madwOp (x.mb 0) (p.at32 l).toNat (q.at32 l).toNat (r.at64 l).toNat)
def oCmp (q : Issue → Opr) (x : Issue) : Out := bin32 x .s x.opX (q x) (cmpOp (x.mb 0) 32)
def oIsat (q : Issue → Opr) (x : Issue) : Out := bin32 x (extU (x.mb 0)) x.opX (q x) (isatOp (x.mb 0) (x.mb 1))
def oBin64 (f : Issue → Nat → Nat → CC) (q : Issue → Opr) (x : Issue) : Out :=
  let p := x.opX; let q := q x
  laneOut64 x [p, q] ([p, q].all Opr.uni) (fun l => f x (p.at64 l).toNat (q.at64 l).toNat)
def oCmp64 (q : Issue → Opr) (x : Issue) : Out :=
  let p := x.opX; let q := q x
  let g (l : Nat) := cmpOp (x.mb 0) 64 (p.at64 l).toNat (q.at64 l).toNat
  laneOut32 x .s [p, q] (uniSh [p, q] (BitVec.ofNat 32 (g 0).r)) g
def oLea (q : Issue → Opr) (x : Issue) : Out := bin32 x .s x.opX (q x) (leaOp (x.m.toNat % 8))
def oLea64 (x : Issue) : Out :=
  let p := x.opX; let q := x.opY
  laneOut64 x [p, q] ([p, q].all Opr.uni) (fun l => lea64Op (x.mb 3) (x.m.toNat % 8) (p.at64 l).toNat (q.at32 l).toNat)

/-- IADD (R92). -/
def execIadd (a : RArgs) (s : State) : Host.Outcome State Fault Refusal := runIssue s (.iadd a) (oAdd Issue.opY)
/-- IADD_IMM (R92). -/
def execIaddImm (a : IArgs) (s : State) : Host.Outcome State Fault Refusal := runIssue s (.iaddImm a) (oAdd Issue.imm)
/-- ISUB (R92). -/
def execIsub (a : RArgs) (s : State) : Host.Outcome State Fault Refusal := runIssue s (.isub a) (oSub Issue.opY)
/-- ISUB_IMM (R92). -/
def execIsubImm (a : IArgs) (s : State) : Host.Outcome State Fault Refusal := runIssue s (.isubImm a) (oSub Issue.imm)
/-- IADC (R92). -/
def execIadc (a : RArgs) (s : State) : Host.Outcome State Fault Refusal := runIssue s (.iadc a) (oAdc Issue.opY)
/-- IADC_IMM (R92). -/
def execIadcImm (a : IArgs) (s : State) : Host.Outcome State Fault Refusal := runIssue s (.iadcImm a) (oAdc Issue.imm)
/-- ISBC (R92). -/
def execIsbc (a : RArgs) (s : State) : Host.Outcome State Fault Refusal := runIssue s (.isbc a) (oSbc Issue.opY)
/-- ISBC_IMM (R92). -/
def execIsbcImm (a : IArgs) (s : State) : Host.Outcome State Fault Refusal := runIssue s (.isbcImm a) (oSbc Issue.imm)
/-- INEG (R92). -/
def execIneg (a : RArgs) (s : State) : Host.Outcome State Fault Refusal := runIssue s (.ineg a) (oNeg Issue.opX)
/-- INEG_IMM (R90). -/
def execInegImm (a : IArgs) (s : State) : Host.Outcome State Fault Refusal := runIssue s (.inegImm a) (oNeg Issue.imm)
/-- IABS (R92). -/
def execIabs (a : RArgs) (s : State) : Host.Outcome State Fault Refusal := runIssue s (.iabs a) (oAbs Issue.opX)
/-- IABS_IMM (R90). -/
def execIabsImm (a : IArgs) (s : State) : Host.Outcome State Fault Refusal := runIssue s (.iabsImm a) (oAbs Issue.imm)
/-- IMIN (R92). -/
def execImin (a : RArgs) (s : State) : Host.Outcome State Fault Refusal := runIssue s (.imin a) (oMin Issue.opY)
/-- IMIN_IMM (R92). -/
def execIminImm (a : IArgs) (s : State) : Host.Outcome State Fault Refusal := runIssue s (.iminImm a) (oMin Issue.imm)
/-- IMAX (R92). -/
def execImax (a : RArgs) (s : State) : Host.Outcome State Fault Refusal := runIssue s (.imax a) (oMax Issue.opY)
/-- IMAX_IMM (R92). -/
def execImaxImm (a : IArgs) (s : State) : Host.Outcome State Fault Refusal := runIssue s (.imaxImm a) (oMax Issue.imm)
/-- IMUL (R92). -/
def execImul (a : RArgs) (s : State) : Host.Outcome State Fault Refusal := runIssue s (.imul a) (oMul Issue.opY)
/-- IMUL_IMM (R92). -/
def execImulImm (a : IArgs) (s : State) : Host.Outcome State Fault Refusal := runIssue s (.imulImm a) (oMul Issue.imm)
/-- IMULH (R92). -/
def execImulh (a : RArgs) (s : State) : Host.Outcome State Fault Refusal := runIssue s (.imulh a) (oMulh Issue.opY)
/-- IMULH_IMM (R92). -/
def execImulhImm (a : IArgs) (s : State) : Host.Outcome State Fault Refusal := runIssue s (.imulhImm a) (oMulh Issue.imm)
/-- IMAD (R92). -/
def execImad (a : RArgs) (s : State) : Host.Outcome State Fault Refusal := runIssue s (.imad a) (oMad Issue.opY Issue.opZ)
/-- IMAD_IMM (R62). -/
def execImadImm (a : IArgs) (s : State) : Host.Outcome State Fault Refusal := runIssue s (.imadImm a) (oMad Issue.imm Issue.opD)
/-- IMADW (R92). -/
def execImadw (a : RArgs) (s : State) : Host.Outcome State Fault Refusal := runIssue s (.imadw a) (oMadw Issue.opY Issue.opZ)
/-- IMADW_IMM (R62). -/
def execImadwImm (a : IArgs) (s : State) : Host.Outcome State Fault Refusal := runIssue s (.imadwImm a) (oMadw Issue.imm Issue.opD)
/-- ICMP (R92). -/
def execIcmp (a : RArgs) (s : State) : Host.Outcome State Fault Refusal := runIssue s (.icmp a) (oCmp Issue.opY)
/-- ICMP_IMM (R92). -/
def execIcmpImm (a : IArgs) (s : State) : Host.Outcome State Fault Refusal := runIssue s (.icmpImm a) (oCmp Issue.imm)
/-- ISAT (R93). -/
def execIsat (a : RArgs) (s : State) : Host.Outcome State Fault Refusal := runIssue s (.isat a) (oIsat Issue.opY)
/-- ISAT_IMM (R92). -/
def execIsatImm (a : IArgs) (s : State) : Host.Outcome State Fault Refusal := runIssue s (.isatImm a) (oIsat Issue.imm)
/-- IADD64 (R92). -/
def execIadd64 (a : RArgs) (s : State) : Host.Outcome State Fault Refusal := runIssue s (.iadd64 a) (oBin64 (fun x => addOp (x.mb 0) (x.mb 1) 64) Issue.opY)
/-- IADD64_IMM (R92). -/
def execIadd64Imm (a : IArgs) (s : State) : Host.Outcome State Fault Refusal := runIssue s (.iadd64Imm a) (oBin64 (fun _ => addOp false false 64) Issue.imm)
/-- ISUB64 (R92). -/
def execIsub64 (a : RArgs) (s : State) : Host.Outcome State Fault Refusal := runIssue s (.isub64 a) (oBin64 (fun x => subOp (x.mb 0) (x.mb 1) 64) Issue.opY)
/-- ISUB64_IMM (R92). -/
def execIsub64Imm (a : IArgs) (s : State) : Host.Outcome State Fault Refusal := runIssue s (.isub64Imm a) (oBin64 (fun _ => subOp false false 64) Issue.imm)
/-- ICMP64 (R92). -/
def execIcmp64 (a : RArgs) (s : State) : Host.Outcome State Fault Refusal := runIssue s (.icmp64 a) (oCmp64 Issue.opY)
/-- ICMP64_IMM (R92). -/
def execIcmp64Imm (a : IArgs) (s : State) : Host.Outcome State Fault Refusal := runIssue s (.icmp64Imm a) (oCmp64 Issue.imm)
/-- LEA (R92). -/
def execLea (a : RArgs) (s : State) : Host.Outcome State Fault Refusal := runIssue s (.lea a) (oLea Issue.opY)
/-- LEA_IMM (R92). -/
def execLeaImm (a : IArgs) (s : State) : Host.Outcome State Fault Refusal := runIssue s (.leaImm a) (oLea Issue.imm)
/-- LEA64 (R93). -/
def execLea64 (a : RArgs) (s : State) : Host.Outcome State Fault Refusal := runIssue s (.lea64 a) oLea64

end Sys2Proof.Machine
end

