-- ==== Sys2Proof/Machine/Logic.lean ====
section
/-! DEFINITION. Logic and bit operations (R94 to R96), moves and condition codes (R97 to R100). -/

namespace Sys2Proof.Machine

def lut3Op (tbl d x y : Nat) : CC :=
  logicCC ((List.range 32).foldl (fun r i =>
    let j := 4 * (d / 2 ^ i % 2) + 2 * (x / 2 ^ i % 2) + y / 2 ^ i % 2
    r + tbl / 2 ^ j % 2 * 2 ^ i) 0) 32
def shlOp (x k : Nat) : CC := logicCC (if k < 32 then x * 2 ^ k else 0) 32
def shrOp (x k : Nat) : CC := logicCC (if k < 32 then x / 2 ^ k else 0) 32
def sarOp (x k : Nat) : CC := logicCC (truncI 32 (sInt x 32 / 2 ^ (min k 31))) 32
def rotOp (x k : Nat) : CC := logicCC (x * 2 ^ (k % 32) % 2 ^ 32 + x / 2 ^ (32 - k % 32)) 32
def fshlOp (x y z : Nat) : CC := logicCC ((x * 2 ^ 32 + y) * 2 ^ (z % 32) / 2 ^ 32) 32
def fshrOp (x y z : Nat) : CC := logicCC ((x * 2 ^ 32 + y) / 2 ^ (z % 32)) 32
def popcOp (x : Nat) : CC := logicCC ((List.range 32).filter (fun i => x.testBit i)).length 32
def clzOp (x : Nat) : CC := logicCC (((List.range 32).reverse.takeWhile (fun i => !x.testBit i)).length) 32
def ctzOp (x : Nat) : CC := logicCC (((List.range 32).takeWhile (fun i => !x.testBit i)).length) 32
def brevOp (x : Nat) : CC := logicCC ((List.range 32).foldl (fun r i => r + x / 2 ^ (31 - i) % 2 * 2 ^ i) 0) 32
def bfxOp (sx : Bool) (x y z : Nat) : CC :=
  let n := min z 32
  if n = 0 then logicCC 0 32
  else
    let e : Int := if sx then sInt x 32 else (x : Int)
    let f := truncI n (e / 2 ^ (min y 64))
    logicCC (if sx then truncI 32 (sInt f n) else f) 32
def bfiOp (d x y z : Nat) : CC :=
  let n := min z 32
  logicCC ((List.range 32).foldl (fun r i =>
    r + (if y ≤ i ∧ i < y + n then x / 2 ^ (i - y) % 2 else d / 2 ^ i % 2) * 2 ^ i) 0) 32
def prmbOp (x y z : Nat) : CC :=
  logicCC ((List.range 4).foldl (fun r b =>
    let q := field z (4 * b) 4
    let e := field (x + y * 2 ^ 32) (8 * (q % 8)) 8
    r + (if q < 8 then e else if 128 ≤ e then 255 else 0) * 2 ^ (8 * b)) 0) 32

def affShl (p q : VReg) : Option VReg :=
  match p, q with
  | .aff b t, .uni k => if k.toNat < 32 then some (.aff (b <<< k.toNat) (t <<< k.toNat)) else none
  | _, _ => none

def oLog (f : Nat → Nat → Nat) (q : Issue → Opr) (x : Issue) : Out := bin32 x .z x.opX (q x) (fun a b => logicCC (f a b) 32)
def oNot (q : Issue → Opr) (x : Issue) : Out := un32 x .z (q x) (fun a => logicCC (2 ^ 32 - 1 - a) 32)
def oLut3 (tbl : Issue → Nat) (q : Issue → Opr) (x : Issue) : Out := tri32 x .z x.opD x.opX (q x) (lut3Op (tbl x))
def oShl (q : Issue → Opr) (x : Issue) : Out :=
  let p := x.opX; let q := q x
  bin32sh x .z p q (affShl p.lo q.lo) shlOp
def oShr (q : Issue → Opr) (x : Issue) : Out := bin32 x .z x.opX (q x) shrOp
def oSar (q : Issue → Opr) (x : Issue) : Out := bin32 x .s x.opX (q x) sarOp
def oRot (q : Issue → Opr) (x : Issue) : Out := bin32 x .z x.opX (q x) rotOp
def oFsh (f : Nat → Nat → Nat → CC) (q r : Issue → Opr) (x : Issue) : Out := tri32 x .z x.opX (q x) (r x) f
def oUn (f : Nat → CC) (x : Issue) : Out := un32 x .z x.opX f
def oBfx (x : Issue) : Out := tri32 x (if x.mb 0 then .s else .z) x.opX x.opY x.opZ (bfxOp (x.mb 0))
def oBfi (x : Issue) : Out :=
  let d := x.opD; let p := x.opX; let q := x.opY; let r := x.opZ
  let g (l : Nat) := bfiOp (d.at32 l).toNat (p.at32 l).toNat (q.at32 l).toNat (r.at32 l).toNat
  laneOut32 x .z [d, p, q, r] (uniSh [d, p, q, r] (BitVec.ofNat 32 (g 0).r)) g
def oPrmb (x : Issue) : Out := tri32 x .z x.opX x.opY x.opZ prmbOp
/-- SEL reads the lane's codes: no scalar form, never UNI (R96). -/
def oSel (x : Issue) : Out :=
  let p := x.opX; let q := x.opY
  let m := condMask (x.m.extractLsb' 0 4) x.g
  Out.ofSrcs x [p, q] { writes := x.put32 .z none (fun l => if Mask.has m l then p.at32 l else q.at32 l) }
def lutTbl (x : Issue) : Nat := match x.a with | .r a => a.z.toNat % 256 | .i a => a.imm.toNat % 256 | _ => 0
def lutImmY (x : Issue) : Opr := match x.a with | .i a => oprS ((a.imm.extractLsb' 8 19).signExtend 64) | _ => {}

/-- MOV, with the shape of its source (R41, R97). -/
def oMov (x : Issue) : Out :=
  let p := x.opX
  if x.mb 0 then
    Out.ofSrcs x [p]
      { writes := (if x.full ∧ isV x.fd then
            -- each register of a pair carries its own tag (R40)
            (let keep (r : VReg) : VReg := match r with | .gen _ => VReg.ofFn x.g.width r.lane | v => v
             [.vr x.fd.toNat (keep p.lo), .vr (x.fd.toNat + 1) (keep p.hi)])
          else x.put64 false p.at64)
        ++ x.putCC (fun _ => false) (fun l => p.at64 l == 0#64) (fun l => (p.at64 l).getLsbD 63) (fun _ => false) }
  else
    let g (l : Nat) := logicCC (p.at32 l).toNat 32
    laneOut32 x .s [p] (match p.lo with | .gen _ => none | v => some v) g
def oMovi (x : Issue) : Out := un32 x .s x.imm (fun a => logicCC a 32)
/-- MOVHI replaces half h of its old destination, the others kept (R97). -/
def oMovhi (x : Issue) : Out :=
  let i := match x.a with | .i a => a.imm.toNat | _ => 0
  let h := i / 2 ^ 16 % 4
  let half := i % 2 ^ 16
  let d := x.opD
  let put (v : Nat) : Nat := v / 2 ^ (16 * h + 16) * 2 ^ (16 * h + 16) + half * 2 ^ (16 * h) + v % 2 ^ (16 * h)
  if isS x.fd then
    Out.ofSrcs x [d] { writes := [.sr (fnum x.fd) (BitVec.ofNat 64 (put (d.at64 0).toNat))] }
  else un32 x .z d (fun a => logicCC (put a) 32)
def extW (x : Issue) : Nat := 8 * 2 ^ (x.m.toNat % 4)
def oSxt (x : Issue) : Out := un32 x .s x.opX (fun a => logicCC (truncI 32 (sInt a (extW x))) 32)
def oZxt (x : Issue) : Out := un32 x .z x.opX (fun a => logicCC (a % 2 ^ extW x) 32)
/-- MFS: a special register, or the tag of a V register (R98). With a full mask the tag read is UNI: one value, of an operation that
reads no lane (R41, rule 2; DEDUCED). -/
def oMfs (x : Issue) : Out :=
  let f := x.step 1 .src32 x.a.x
  if x.mb 0 then { writes := x.put32 .z (some (.uni (BitVec.ofNat 32 (x.g.vreg (fnum f)).tag))) (fun _ => BitVec.ofNat 32 (x.g.vreg (fnum f)).tag) }
  else
    let p := readField x 1 f
    Out.ofSrcs x [p]
      { writes := if isS x.fd then [.sr (fnum x.fd) (p.at64 0)]
          else x.put32 .z (match p.lo with | .uni v => some (.uni v) | _ => none) p.at32 }
/-- MTS to FSR, FCR, AMAXC or RNG: reserved bits receive nothing (R5, R99, R176). The flags and magnitudes that other warps commit in the same
cycle come after it (R36). A K source is one word, zero-extended where RNG takes 64 bits (DESIGN CHOICE: R99 states no width). -/
def oMts (x : Issue) : Out :=
  let p := x.opX
  let v := p.at64 0
  let w : Word := v.extractLsb' 0 32
  Out.ofSrcs x [p]
    { eff := fun s => s.setGroup x.g.gid (fun g =>
        match fnum x.a.d with
        | 14 => g.mtsFsr x.w.lanes (w &&& 0x3F)
        | 15 => { g with fcr := w &&& 0x1FF }
        | 19 => g.mtsAmaxc x.w.lanes (w &&& 3)
        | 27 => { g with rng := if v = 0 then 0x9E3779B97F4A7C15 else v }
        | _ => g) }
def oCcrd (x : Issue) : Out :=
  let b (m : Mask) (l k : Nat) : Nat := if Mask.has m l then k else 0
  { writes := x.put32 .z none (fun l => BitVec.ofNat 32 (b x.g.c l 8 + b x.g.z l 4 + b x.g.n l 2 + b x.g.vf l 1)) }
/-- CCWR writes the codes of the active lanes from any class of source: it has no destination field, so the scalar form of R68, which an S
destination makes, does not arise (DEDUCED). -/
def oCcwr (x : Issue) : Out :=
  let p := x.opX
  let bit (k : Nat) : Mask := Mask.where_ (fun l => (p.at32 l).getLsbD k)
  Out.ofSrcs x [p] { writes := if x.act = 0 then [] else [.cc x.act (bit 3) (bit 2) (bit 1) (bit 0)] }

/-- AND (R94). -/
def execAndL (a : RArgs) (s : State) : Host.Outcome State Fault Refusal := runIssue s (.andL a) (oLog Nat.land Issue.opY)
/-- AND_IMM (R94). -/
def execAndLImm (a : IArgs) (s : State) : Host.Outcome State Fault Refusal := runIssue s (.andLImm a) (oLog Nat.land Issue.imm)
/-- OR (R94). -/
def execOrL (a : RArgs) (s : State) : Host.Outcome State Fault Refusal := runIssue s (.orL a) (oLog Nat.lor Issue.opY)
/-- OR_IMM (R94). -/
def execOrLImm (a : IArgs) (s : State) : Host.Outcome State Fault Refusal := runIssue s (.orLImm a) (oLog Nat.lor Issue.imm)
/-- XOR (R94). -/
def execXorL (a : RArgs) (s : State) : Host.Outcome State Fault Refusal := runIssue s (.xorL a) (oLog Nat.xor Issue.opY)
/-- XOR_IMM (R94). -/
def execXorLImm (a : IArgs) (s : State) : Host.Outcome State Fault Refusal := runIssue s (.xorLImm a) (oLog Nat.xor Issue.imm)
/-- NOT (R94). -/
def execNotL (a : RArgs) (s : State) : Host.Outcome State Fault Refusal := runIssue s (.notL a) (oNot Issue.opX)
/-- NOT_IMM (R90). -/
def execNotLImm (a : IArgs) (s : State) : Host.Outcome State Fault Refusal := runIssue s (.notLImm a) (oNot Issue.imm)
/-- LUT3 (R95). -/
def execLut3 (a : RArgs) (s : State) : Host.Outcome State Fault Refusal := runIssue s (.lut3 a) (oLut3 lutTbl Issue.opY)
/-- LUT3_IMM (R95). -/
def execLut3Imm (a : IArgs) (s : State) : Host.Outcome State Fault Refusal := runIssue s (.lut3Imm a) (oLut3 lutTbl lutImmY)
/-- SHL (R94). -/
def execShl (a : RArgs) (s : State) : Host.Outcome State Fault Refusal := runIssue s (.shl a) (oShl Issue.opY)
/-- SHL_IMM (R94). -/
def execShlImm (a : IArgs) (s : State) : Host.Outcome State Fault Refusal := runIssue s (.shlImm a) (oShl Issue.imm)
/-- SHR (R94). -/
def execShr (a : RArgs) (s : State) : Host.Outcome State Fault Refusal := runIssue s (.shr a) (oShr Issue.opY)
/-- SHR_IMM (R94). -/
def execShrImm (a : IArgs) (s : State) : Host.Outcome State Fault Refusal := runIssue s (.shrImm a) (oShr Issue.imm)
/-- SAR (R94). -/
def execSar (a : RArgs) (s : State) : Host.Outcome State Fault Refusal := runIssue s (.sar a) (oSar Issue.opY)
/-- SAR_IMM (R94). -/
def execSarImm (a : IArgs) (s : State) : Host.Outcome State Fault Refusal := runIssue s (.sarImm a) (oSar Issue.imm)
/-- ROT (R94). -/
def execRot (a : RArgs) (s : State) : Host.Outcome State Fault Refusal := runIssue s (.rot a) (oRot Issue.opY)
/-- ROT_IMM (R94). -/
def execRotImm (a : IArgs) (s : State) : Host.Outcome State Fault Refusal := runIssue s (.rotImm a) (oRot Issue.imm)
/-- FSHL (R94). -/
def execFshl (a : RArgs) (s : State) : Host.Outcome State Fault Refusal := runIssue s (.fshl a) (oFsh fshlOp Issue.opY Issue.opZ)
/-- FSHL_IMM (R94). -/
def execFshlImm (a : IArgs) (s : State) : Host.Outcome State Fault Refusal := runIssue s (.fshlImm a) (oFsh fshlOp Issue.imm Issue.opD)
/-- FSHR (R94). -/
def execFshr (a : RArgs) (s : State) : Host.Outcome State Fault Refusal := runIssue s (.fshr a) (oFsh fshrOp Issue.opY Issue.opZ)
/-- FSHR_IMM (R94). -/
def execFshrImm (a : IArgs) (s : State) : Host.Outcome State Fault Refusal := runIssue s (.fshrImm a) (oFsh fshrOp Issue.imm Issue.opD)
/-- POPC (R94). -/
def execPopc (a : RArgs) (s : State) : Host.Outcome State Fault Refusal := runIssue s (.popc a) (oUn popcOp)
/-- CLZ (R94). -/
def execClz (a : RArgs) (s : State) : Host.Outcome State Fault Refusal := runIssue s (.clz a) (oUn clzOp)
/-- CTZ (R94). -/
def execCtz (a : RArgs) (s : State) : Host.Outcome State Fault Refusal := runIssue s (.ctz a) (oUn ctzOp)
/-- BREV (R94). -/
def execBrev (a : RArgs) (s : State) : Host.Outcome State Fault Refusal := runIssue s (.brev a) (oUn brevOp)
/-- BFX (R96). -/
def execBfx (a : RArgs) (s : State) : Host.Outcome State Fault Refusal := runIssue s (.bfx a) oBfx
/-- BFI (R96). -/
def execBfi (a : RArgs) (s : State) : Host.Outcome State Fault Refusal := runIssue s (.bfi a) oBfi
/-- PRMB (R96). -/
def execPrmb (a : RArgs) (s : State) : Host.Outcome State Fault Refusal := runIssue s (.prmb a) oPrmb
/-- SEL (R94). -/
def execSel (a : RArgs) (s : State) : Host.Outcome State Fault Refusal := runIssue s (.sel a) oSel
/-- MOV (R97). -/
def execMov (a : RArgs) (s : State) : Host.Outcome State Fault Refusal := runIssue s (.mov a) oMov
/-- MOVI (R97). -/
def execMovi (a : IArgs) (s : State) : Host.Outcome State Fault Refusal := runIssue s (.movi a) oMovi
/-- MOVHI (R97). -/
def execMovhi (a : IArgs) (s : State) : Host.Outcome State Fault Refusal := runIssue s (.movhi a) oMovhi
/-- SXT (R97). -/
def execSxt (a : RArgs) (s : State) : Host.Outcome State Fault Refusal := runIssue s (.sxt a) oSxt
/-- ZXT (R97). -/
def execZxt (a : RArgs) (s : State) : Host.Outcome State Fault Refusal := runIssue s (.zxt a) oZxt
/-- MFS (R98). -/
def execMfs (a : RArgs) (s : State) : Host.Outcome State Fault Refusal := runIssue s (.mfs a) oMfs
/-- MTS (R99). -/
def execMts (a : RArgs) (s : State) : Host.Outcome State Fault Refusal := runIssue s (.mts a) oMts
/-- CCRD (R100). -/
def execCcrd (a : RArgs) (s : State) : Host.Outcome State Fault Refusal := runIssue s (.ccrd a) oCcrd
/-- CCWR (R100). -/
def execCcwr (a : RArgs) (s : State) : Host.Outcome State Fault Refusal := runIssue s (.ccwr a) oCcwr

end Sys2Proof.Machine
end

