-- ==== Sys2Proof/Machine/SpecialFn.lean ====
section
/-! DEFINITION. The special functions (R105): exact rational bounds of the value, both ends rounded (R15). Where
the two ends round alike that is the correctly rounded result; where they do not, the result is a free value. -/

namespace Sys2Proof.Machine

/-- ⌊π × 2^640⌋ and ⌊ln 2 × 2^320⌋. -/
def piFix : Nat := 0x3243f6a8885a308d313198a2e03707344a4093822299f31d0082efa98ec4e6c89452821e638d01377be5466cf34e90c6cc0ac29b7c97c50dd3f84d5b5b54709179216d5d98979fb1bd1310ba698dfb5ac
def ln2Fix : Nat := 0xb17217f7d1cf79abc9e3b39803f2f6af40f343267298b62d8a0d175b8baafa2be7b876206debac98
/-- Fraction bits of the fixed-point evaluation. -/
def fxBits : Nat := 320
def fxOne : Int := 2 ^ fxBits

/-- A Taylor sum: `t` is the present term, `k` the terms left, `n` the index; each next term is t × y ÷ den n. -/
def fxSeries (y : Int) (den : Nat → Nat) : Nat → Nat → Int → Int
  | 0, _, _ => 0
  | k + 1, n, t => t + fxSeries y den k (n + 1) (t * y / fxOne / (den n : Nat))

/-- e^y for 0 ≤ y < 1, within 2^20 units. -/
def fxExp (y : Int) : Int := fxSeries y (fun n => n + 1) 90 0 fxOne
/-- sin r and cos r for |r| < 1, within 2^20 units. -/
def fxSin (r : Int) : Int := fxSeries (-(r * r / fxOne)) (fun n => (2 * n + 2) * (2 * n + 3)) 60 0 r
def fxCos (r : Int) : Int := fxSeries (-(r * r / fxOne)) (fun n => (2 * n + 1) * (2 * n + 2)) 60 0 fxOne
/-- ln t for 1 ≤ t < 2 given as a fixed-point number: 2 atanh((t − 1)/(t + 1)). -/
def fxLn (t : Int) : Int :=
  let z := (t - fxOne) * fxOne / (t + fxOne)
  let z2 := z * z / fxOne
  2 * ((List.range 120).foldl (fun (acc : Int × Int) k => (acc.1 + acc.2 / (2 * k + 1 : Nat), acc.2 * z2 / fxOne)) (0, z)).1

/-- m × 2^e as a fixed-point number, truncated. -/
def fxOf (m : Nat) (e : Int) : Int :=
  let k := e + (fxBits : Int)
  if 0 ≤ k then ((m * 2 ^ k.toNat : Nat) : Int) else ((m / 2 ^ (-k).toNat : Nat) : Int)

/-- The rounding of an irrational value whose magnitude lies within `err` units of v × 2^(sh − 320). -/
def roundApprox (o : RoundOpt) (fn : Nat) (arg : Word) (neg : Bool) (v err : Int) (sh : Int) : Nat × FFlags :=
  let r (w : Int) := Fmt.fp32.round o neg w.toNat (sh - (fxBits : Int)) true
  let a := r (v - err)
  let b := r (v + err)
  if a = b then a
  else
    let mode := match o.mode with | .rne => 0 | .rtz => 1 | .rup => 2 | .rdn => 3
    ((Config.freeSpecial fn arg mode).toNat, ffIX)

/-- A value strictly below or above m × 2^e and within a quarter of its last place. -/
def roundNear (o : RoundOpt) (neg : Bool) (m : Nat) (e : Int) (above : Bool) : Nat × FFlags :=
  Fmt.fp32.round o neg (if above then 4 * m else 4 * m - 1) (e - 2) true

/-- |x| < 2^k. -/
def smaller (m : Nat) (e k : Int) : Bool := decide ((Nat.log2 m : Int) + e < k)

/-- 2^x (R105). -/
def sfExp2 (o : RoundOpt) (arg : Word) : Fv → Nat × FFlags
  | .nan => (Fmt.fp32.nan, 0)
  | .inf n => if n then (0, 0) else (0x7F800000, 0)
  | .fin n m e =>
    if m = 0 then Fmt.fp32.round o false 1 0 false
    else if smaller m e (-27) then roundNear o false (2 ^ 24) (-24) (!n)
    else if !smaller m e 9 then
      -- |x| ≥ 512: far outside the exponent range either way
      (if n then Fmt.fp32.round o false 1 (-1000) true else Fmt.fp32.round o false 1 1000 false)
    else
      -- x = k + f with 0 ≤ f < 1, in units of 2^-320 (exact, since e ≥ -149)
      let fx : Int := if n then -(fxOf m e) else fxOf m e
      let k := fx / fxOne
      let f := fx % fxOne
      if f = 0 then Fmt.fp32.round o false 1 k false
      else roundApprox o 3 arg false (fxExp (f * (ln2Fix : Int) / fxOne)) (2 ^ 20) k

/-- log2 x (R105). -/
def sfLog2 (o : RoundOpt) (arg : Word) : Fv → Nat × FFlags
  | .nan => (Fmt.fp32.nan, 0)
  | .inf n => if n then (Fmt.fp32.nan, ffIV) else (0x7F800000, 0)
  | .fin n m e =>
    if m = 0 then (0xFF800000, ffDZ)
    else if n then (Fmt.fp32.nan, ffIV)
    else
      let lg := Nat.log2 m
      let k : Int := (lg : Int) + e
      if m = 2 ^ lg then (if k = 0 then (0, 0) else Fmt.fp32.round o (decide (k < 0)) k.natAbs 0 false)
      else
        let v := fxLn (fxOf m (-(lg : Int))) * fxOne / (ln2Fix : Int) + k * fxOne
        roundApprox o 4 arg (decide (v < 0)) (if v < 0 then -v else v) (2 ^ 24) 0

/-- The quadrant and the reduced argument of |x| in units of 2^-320. -/
def reduce (m : Nat) (e : Int) : Nat × Int :=
  -- |x| in units of 2^-641, so that half a π is piFix
  let x := if 0 ≤ e + 641 then m * 2 ^ (e + 641).toNat else m / 2 ^ (-(e + 641)).toNat
  let k := (2 * x + piFix) / (2 * piFix)
  let r : Int := (x : Int) - (k * piFix : Nat)
  (k % 4, r / 2 ^ 321)

/-- sin x and cos x (R105); `c` for the cosine. -/
def sfSin (c : Bool) (o : RoundOpt) (arg : Word) : Fv → Nat × FFlags
  | .nan => (Fmt.fp32.nan, 0)
  | .inf _ => (Fmt.fp32.nan, ffIV)
  | .fin n m e =>
    if m = 0 then (if c then (0x3F800000, 0) else (Fmt.fp32.signBit n, 0))
    else if smaller m e (-13) then
      (if c then roundNear o false (2 ^ 24) (-24) false else roundNear o n m e false)
    else
      let q := reduce m e
      let j := (q.1 + if c then 1 else 0) % 4
      let v0 := if j % 2 = 0 then fxSin q.2 else fxCos q.2
      let v := if 2 ≤ j then -v0 else v0
      let neg := if c then decide (v < 0) else (decide (v < 0) != n)
      roundApprox o (if c then 6 else 5) arg neg (if v < 0 then -v else v) (2 ^ 24) 0

/-- tanh x (R105). -/
def sfTanh (o : RoundOpt) (arg : Word) : Fv → Nat × FFlags
  | .nan => (Fmt.fp32.nan, 0)
  | .inf n => (Fmt.fp32.signBit n + 0x3F800000, 0)
  | .fin n m e =>
    if m = 0 then (Fmt.fp32.signBit n, 0)
    else if smaller m e (-13) then roundNear o n m e false
    else if !smaller m e 4 then roundNear o n (2 ^ 24) (-24) false
    else
      let y := 2 * fxOf m e
      let k := (y / (ln2Fix : Int)).toNat
      let ex := fxExp (y - (k : Int) * (ln2Fix : Int)) * 2 ^ k
      roundApprox o 7 arg n ((ex - fxOne) * fxOne / (ex + fxOne)) (2 ^ 60) 0

/-- 1/x, 1/√x, √x and x/y, whose quotients and roots are exact to a sticky bit (R105, R20). -/
def sfRcp (o : RoundOpt) : Fv → Nat × FFlags
  | .nan => (Fmt.fp32.nan, 0)
  | .inf n => (Fmt.fp32.signBit n, 0)
  | .fin n m e =>
    if m = 0 then (Fmt.fp32.signBit n + 0x7F800000, ffDZ)
    else
      let q := divBits 60 1 m
      Fmt.fp32.round o n q.1 (q.2.1 - e) q.2.2
def sfRsq (o : RoundOpt) : Fv → Nat × FFlags
  | .nan => (Fmt.fp32.nan, 0)
  | .inf n => if n then (Fmt.fp32.nan, ffIV) else (0, 0)
  | .fin n m e =>
    if m = 0 then (Fmt.fp32.signBit n + 0x7F800000, ffDZ)
    else if n then (Fmt.fp32.nan, ffIV)
    else
      -- 1/√(m 2^e) = √(2^160/m' ) with an even exponent
      let m1 := if e % 2 = 0 then m else 2 * m
      let e1 := if e % 2 = 0 then e else e - 1
      let q := 2 ^ 200 / m1
      let r := Nat.sqrt q
      Fmt.fp32.round o false r (-100 - e1 / 2) (decide (r * r * m1 ≠ 2 ^ 200))
def sfSqrt (o : RoundOpt) : Fv → Nat × FFlags
  | .nan => (Fmt.fp32.nan, 0)
  | .inf n => if n then (Fmt.fp32.nan, ffIV) else (0x7F800000, 0)
  | .fin n m e =>
    if m = 0 then (Fmt.fp32.signBit n, 0)
    else if n then (Fmt.fp32.nan, ffIV)
    else
      let q := sqrtBits 40 m e
      Fmt.fp32.round o false q.1 q.2.1 q.2.2
def sfDiv (o : RoundOpt) : Fv → Fv → Nat × FFlags
  | .nan, _ => (Fmt.fp32.nan, 0)
  | _, .nan => (Fmt.fp32.nan, 0)
  | .inf _, .inf _ => (Fmt.fp32.nan, ffIV)
  | .inf a, .fin b _ _ => (Fmt.fp32.signBit (a != b) + 0x7F800000, 0)
  | .fin a _ _, .inf b => (Fmt.fp32.signBit (a != b), 0)
  | .fin a m e, .fin b k f =>
    if k = 0 then (if m = 0 then (Fmt.fp32.nan, ffIV) else (Fmt.fp32.signBit (a != b) + 0x7F800000, ffDZ))
    else if m = 0 then (Fmt.fp32.signBit (a != b), 0)
    else
      let q := divBits 60 m k
      Fmt.fp32.round o (a != b) q.1 (q.2.1 + e - f) q.2.2

end Sys2Proof.Machine
end

