-- ==== Sys2Proof/Machine/Float.lean ====
section
/-! DEFINITION. FP32 and packed arithmetic (R101 to R104), the special functions (R105), and conversions (R106 to R110). -/

namespace Sys2Proof.Machine

/-- The rounding mode: RMO, or FCR.RM (R17, R61). -/
def Issue.rm (x : Issue) : Rm :=
  match x.a with
  | .r a => if 4 ≤ a.rmo.toNat then Rm.ofBits (a.rmo.extractLsb' 0 2) else Rm.ofBits (x.g.old.fcr.extractLsb' 0 2)
  | _ => Rm.ofBits (x.g.old.fcr.extractLsb' 0 2)
/-- Results flushed and operands flushed (R18). -/
def Issue.ro (x : Issue) : RoundOpt := { mode := x.rm, flush := x.g.old.fcr.getLsbD 2 }
def Issue.fin (x : Issue) : Bool := x.g.old.fcr.getLsbD 3

/-- A floating-point operand with the modifiers of R101 and the flush of R18. -/
def Issue.fop (x : Issue) (f : Fmt) (abs neg : Bool) (b : Nat) : Nat := f.flushIn x.fin (f.modSign abs neg b)

/-- A lane-by-lane FP32 instruction: result and flags per lane. An S register receives the result zero-extended (DESIGN CHOICE: the FP32 rows
state no extension). -/
def fOut (x : Issue) (srcs : List Opr) (late : Bool) (f : Nat → Nat × FFlags) : Out :=
  Out.ofSrcs x srcs
    { writes := x.put32 .z (uniSh srcs (BitVec.ofNat 32 (f 0).1)) (fun l => BitVec.ofNat 32 (f l).1)
        ++ x.putCC (fun _ => false) (fun l => (floatCC (f l).1).z) (fun l => (floatCC (f l).1).n) (fun l => (floatCC (f l).1).v),
      fl := fun l => (f l).2, dly := late,
      dst := if late then (if isS x.fd then [.s (fnum x.fd)] else [.v x.fd.toNat]) ++ (if x.a.wcc then [.cc] else []) else [] }

def Issue.fx (x : Issue) (p : Opr) (l : Nat) : Nat := x.fop .fp32 (x.mb 2) (x.mb 0) (p.at32 l).toNat
def Issue.fy (x : Issue) (p : Opr) (l : Nat) : Nat := x.fop .fp32 (x.mb 3) (x.mb 1) (p.at32 l).toNat
def Issue.fz (x : Issue) (p : Opr) (l : Nat) : Nat := x.fop .fp32 false (x.mb 4) (p.at32 l).toNat

def oFbin (f : RoundOpt → Nat → Nat → Nat × FFlags) (x : Issue) : Out :=
  let p := x.opX; let q := x.opY
  fOut x [p, q] false (fun l => f x.ro (x.fx p l) (x.fy q l))
def fsubF (o : RoundOpt) (a b : Nat) : Nat × FFlags := Fmt.fp32.add2 o a (Fmt.fp32.modSign false true b)
def oFfma (x : Issue) : Out :=
  let p := x.opX; let q := x.opY; let r := x.opZ
  fOut x [p, q, r] false (fun l => Fmt.fp32.fma x.ro (x.fx p l) (x.fy q l) (x.fz r l))
def oFmm (mx : Bool) (x : Issue) : Out :=
  let p := x.opX; let q := x.opY
  fOut x [p, q] false (fun l => (Fmt.fp32.minMax mx (x.fx p l) (x.fy q l), 0))

/-- FCMP (R102). -/
def fcmpHolds (k : Nat) : Option Ordering → Bool
  | none => k == 1 || k == 6
  | some .lt => k == 1 || k == 2 || k == 3 || k == 7
  | some .eq => k == 0 || k == 3 || k == 5 || k == 7
  | some .gt => k == 1 || k == 4 || k == 5 || k == 7
/-- FCMP: an S register receives the mask sign-extended (DESIGN CHOICE: the row states no extension). -/
def oFcmp (x : Issue) : Out :=
  let p := x.opX; let q := x.opY
  let c (l : Nat) := fvCmp (Fmt.fp32.decode (Fmt.fp32.flushIn x.fin (p.at32 l).toNat)) (Fmt.fp32.decode (Fmt.fp32.flushIn x.fin (q.at32 l).toNat))
  let g (l : Nat) : CC :=
    { r := if fcmpHolds (x.m.toNat % 8) (c l) then 0xFFFFFFFF else 0, c := c l != some .lt, z := c l == some .eq,
      n := c l == some .lt, v := c l == none }
  laneOut32 x .s [p, q] (uniSh [p, q] (BitVec.ofNat 32 (g 0).r)) g
/-- FCLASS (R103). -/
def classBit (f : Fmt) (b : Nat) : Nat :=
  match f.decode b with
  | .nan => 256
  | .inf n => if n then 1 else 128
  | .fin n m _ => if m = 0 then (if n then 8 else 16) else if f.isSubnormal b then (if n then 4 else 32) else (if n then 2 else 64)
def oFclass (x : Issue) : Out :=
  un32 x .z x.opX (fun a => logicCC (match x.m.toNat % 4 with
    | 0 => classBit .fp32 a | 1 => classBit .fp16 (a % 2 ^ 16) | _ => classBit .bf16 (a % 2 ^ 16)) 32)
/-- FRND rounds to an integral value, raising nothing (R103). -/
def frnd (mode : Rm) (b : Nat) : Nat :=
  match Fmt.fp32.decode b with
  | .nan => Fmt.fp32.nan
  | .inf _ => b
  | .fin n m e =>
    if 0 ≤ e ∨ m = 0 then b
    else
      let sh := (-e).toNat
      let n0 := m / 2 ^ sh
      let q := if roundUp mode n n0 (m % 2 ^ sh) (2 ^ (sh - 1)) false (decide (m % 2 ^ sh ≠ 0)) then n0 + 1 else n0
      (Fmt.fp32.round { mode := .rne } n q 0 false).1
def oFrnd (x : Issue) : Out :=
  let p := x.opX
  fOut x [p] false (fun l => (frnd x.rm (Fmt.fp32.flushIn x.fin (p.at32 l).toNat), 0))

/-- A packed operand (R43, R104): an inline constant is rounded to the element format and placed in both halves. -/
def packed (f : Fmt) (fld : BitVec 9) (v : Nat) : Nat :=
  if isIC fld then
    let fv : Fv := if fnum fld < 48 then intFv (sInt v 32) else Fmt.fp32.decode v
    let h := (f.roundFv { mode := .rne } fv).1
    h + h * 2 ^ 16
  else v
/-- A packed instruction: each half as its FP32 counterpart, in the element format (R104). -/
def oPacked (f : Fmt) (op : RoundOpt → Nat → Nat → Nat → Nat × FFlags) (x : Issue) : Out :=
  let p := x.opX; let q := x.opY; let r := x.opZ
  let el (fld : BitVec 9) (o : Opr) (l h : Nat) : Nat := packed f fld (o.at32 l).toNat / 2 ^ (16 * h) % 2 ^ 16
  let one (l h : Nat) : Nat × FFlags :=
    op x.ro (x.fop f (x.mb 2) (x.mb 0) (el x.a.x p l h)) (x.fop f (x.mb 3) (x.mb 1) (el x.a.y q l h))
      (x.fop f false (x.mb 4) (el x.a.z r l h))
  let g (l : Nat) : Nat × FFlags := ((one l 0).1 + (one l 1).1 * 2 ^ 16, (one l 0).2 ||| (one l 1).2)
  Out.ofSrcs x [p, q, r]
    { writes := x.put32 .z (uniSh [p, q, r] (BitVec.ofNat 32 (g 0).1)) (fun l => BitVec.ofNat 32 (g l).1), fl := fun l => (g l).2 }
def pAdd (f : Fmt) (o : RoundOpt) (a b _ : Nat) : Nat × FFlags := f.add2 o a b
def pMul (f : Fmt) (o : RoundOpt) (a b _ : Nat) : Nat × FFlags := f.mul2 o a b

/-- A special function of one operand (R105). -/
def oSf (f : RoundOpt → Word → Fv → Nat × FFlags) (x : Issue) : Out :=
  let p := x.opX
  fOut x [p] true (fun l =>
    let b := Fmt.fp32.flushIn x.fin (p.at32 l).toNat
    f x.ro (BitVec.ofNat 32 b) (Fmt.fp32.decode b))
def oFdiv (x : Issue) : Out :=
  let p := x.opX; let q := x.opY
  fOut x [p, q] true (fun l =>
    sfDiv x.ro (Fmt.fp32.decode (x.fop .fp32 false (x.mb 0) (p.at32 l).toNat)) (Fmt.fp32.decode (x.fop .fp32 false (x.mb 1) (q.at32 l).toNat)))

/-! ## Conversions -/

/-- The format codes of R106. -/
def fmtOf : Nat → Fmt
  | 0 => .fp32
  | 1 => .fp16
  | 2 => .bf16
  | 3 => .e4m3
  | _ => .e5m2
/-- Element n of width b of a word, and its replacement (R106). -/
def elem (b n v : Nat) : Nat := field v (b * n) b
def setElem (b n v e : Nat) : Nat := v / 2 ^ (b * n + b) * 2 ^ (b * n + b) + e % 2 ^ b * 2 ^ (b * n) + v % 2 ^ (b * n)
/-- A magnitude as an FP32 pattern for AMAX: exact, since every element decodes exactly (R33). -/
def magOf (f : Fmt) (b : Nat) : Nat :=
  match f.decode b with
  | .nan => Fmt.fp32.nan
  | _ => toFp32 f b % 2 ^ 31

def oFcvt (x : Issue) : Out :=
  let p := x.opX; let q := x.opY; let d := x.opD
  let zf := x.a.z.toNat
  let df := fmtOf (zf % 8); let sf := fmtOf (zf / 8 % 8)
  let dp := x.m.toNat / 2 % 4; let sp := x.m.toNat / 8 % 4
  let src (l : Nat) : Nat := sf.flushIn x.fin (elem sf.bits sp (p.at32 l).toNat)
  let g (l : Nat) : Nat × FFlags :=
    let r := convert df { x.ro with sat := x.mb 0 } (sf.decode (src l)) (Fmt.fp32.decode (Fmt.fp32.flushIn x.fin (q.at32 l).toNat))
    (setElem df.bits dp (if x.mb 5 then 0 else (d.at32 l).toNat) r.1, r.2)
  let os := if x.mb 5 then [p, q] else [p, q, d]
  Out.ofSrcs x os
    { writes := x.put32 .z (uniSh os (BitVec.ofNat 32 (g 0).1)) (fun l => BitVec.ofNat 32 (g l).1), fl := fun l => (g l).2,
      amax := (Mask.lanes x.act).map (fun l => magOf sf (src l)) }
/-- An integer element of width code w, read signed or not (R108). -/
def intEl (w : Nat) (u : Bool) (sp : Nat) (v : Nat) : Int :=
  let b := 8 * 2 ^ w
  rdI u (elem b sp v) b
def oIcvt (x : Issue) : Out :=
  let p := x.opX; let q := x.opY; let d := x.opD
  let zf := x.a.z.toNat
  let df := fmtOf (zf % 8); let w := zf / 8 % 4
  let dp := x.m.toNat / 2 % 4; let sp := x.m.toNat / 8 % 4
  let g (l : Nat) : Nat × FFlags :=
    let v := if w = 3 then (p.at64 l).toNat else (p.at32 l).toNat
    let r := convert df x.ro (intFv (intEl w (x.mb 0) sp v)) (Fmt.fp32.decode (Fmt.fp32.flushIn x.fin (q.at32 l).toNat))
    (setElem df.bits dp (if x.mb 5 then 0 else (d.at32 l).toNat) r.1, r.2)
  let os := if x.mb 5 then [p, q] else [p, q, d]
  Out.ofSrcs x os
    { writes := x.put32 .z (uniSh os (BitVec.ofNat 32 (g 0).1)) (fun l => BitVec.ofNat 32 (g l).1), fl := fun l => (g l).2 }
def oFicvt (x : Issue) : Out :=
  let p := x.opX; let q := x.opY
  let zf := x.a.z.toNat
  let sf := fmtOf (zf / 8 % 8); let w := zf % 4
  let b := 8 * 2 ^ w
  let sp := x.m.toNat / 8 % 4
  let g (l : Nat) : DWord × FFlags :=
    let pr := fvMul (sf.decode (sf.flushIn x.fin (elem sf.bits sp (p.at32 l).toNat)))
      (Fmt.fp32.decode (Fmt.fp32.flushIn x.fin (q.at32 l).toNat))
    let r := fvToInt x.rm (!x.mb 0) b pr.1
    -- extended from b bits (R11): zero when unsigned, by the sign otherwise
    let v := if x.mb 0 then r.1.toNat % 2 ^ b else truncI 64 (sInt r.1.toNat b)
    (BitVec.ofNat 64 v, pr.2 ||| r.2)
  let os := [p, q]
  Out.ofSrcs x os
    { writes := if w = 3 then x.put64 (os.all Opr.uni) (fun l => (g l).1)
        else x.put32 (extU (x.mb 0)) (uniSh os ((g 0).1.extractLsb' 0 32)) (fun l => (g l).1.extractLsb' 0 32),
      fl := fun l => (g l).2 }
def oPack (x : Issue) : Out :=
  let p := x.opX; let q := x.opY; let r := x.opZ; let d := x.opD
  let df := fmtOf (x.m.toNat % 8)
  let cv (o : Opr) (l : Nat) : Nat × FFlags :=
    convert df { x.ro with sat := x.mb 3 } (Fmt.fp32.decode (Fmt.fp32.flushIn x.fin (o.at32 l).toNat))
      (Fmt.fp32.decode (Fmt.fp32.flushIn x.fin (r.at32 l).toNat))
  let g (l : Nat) : Nat × FFlags :=
    let fl := (cv p l).2 ||| (cv q l).2
    if df.bits = 16 then ((cv p l).1 + (cv q l).1 * 2 ^ 16, fl)
    else
      let k := if x.mb 4 then 2 else 0
      (setElem 8 (k + 1) (setElem 8 k (d.at32 l).toNat (cv p l).1) (cv q l).1, fl)
  let os := if df.bits = 16 then [p, q, r] else [p, q, r, d]
  Out.ofSrcs x os
    { writes := x.put32 .z (uniSh os (BitVec.ofNat 32 (g 0).1)) (fun l => BitVec.ofNat 32 (g l).1), fl := fun l => (g l).2,
      amax := (Mask.lanes x.act).flatMap (fun l =>
        [magOf .fp32 (Fmt.fp32.flushIn x.fin (p.at32 l).toNat), magOf .fp32 (Fmt.fp32.flushIn x.fin (q.at32 l).toNat)]) }
def oUnpk (x : Issue) : Out :=
  let p := x.opX
  let sf := fmtOf (x.m.toNat % 8)
  let g (l : Nat) : Nat := toFp32 sf (sf.flushIn x.fin (elem sf.bits (x.m.toNat / 8 % 4) (p.at32 l).toNat))
  Out.ofSrcs x [p] { writes := x.put32 .z (uniSh [p] (BitVec.ofNat 32 (g 0))) (fun l => BitVec.ofNat 32 (g l)) }
/-- AMAXRD waits as R37 states, reads AMAX and, with CLR, clears it (R110). -/
def oAmaxrd (x : Issue) : Out :=
  let w := specWaits x 18
  { hold := w, writes := x.put32 .z (some (.uni x.g.amax)) (fun _ => x.g.amax),
    eff := fun s => if x.mb 0 then s.setGroup x.g.gid (fun g => g.clearAmax x.w.lanes) else s }
/-- AMAXCLR (R33, R36). -/
def oAmaxclr (x : Issue) : Out := { eff := fun s => s.setGroup x.g.gid (fun g => g.clearAmax x.w.lanes) }

/-- FADD (R101). -/
def execFadd (a : RArgs) (s : State) : Host.Outcome State Fault Refusal := runIssue s (.fadd a) (oFbin Fmt.fp32.add2)
/-- FSUB (R101). -/
def execFsub (a : RArgs) (s : State) : Host.Outcome State Fault Refusal := runIssue s (.fsub a) (oFbin fsubF)
/-- FMUL (R101). -/
def execFmul (a : RArgs) (s : State) : Host.Outcome State Fault Refusal := runIssue s (.fmul a) (oFbin Fmt.fp32.mul2)
/-- FFMA (R101). -/
def execFfma (a : RArgs) (s : State) : Host.Outcome State Fault Refusal := runIssue s (.ffma a) oFfma
/-- FMIN (R101). -/
def execFmin (a : RArgs) (s : State) : Host.Outcome State Fault Refusal := runIssue s (.fmin a) (oFmm false)
/-- FMAX (R101). -/
def execFmax (a : RArgs) (s : State) : Host.Outcome State Fault Refusal := runIssue s (.fmax a) (oFmm true)
/-- FCMP (R102). -/
def execFcmp (a : RArgs) (s : State) : Host.Outcome State Fault Refusal := runIssue s (.fcmp a) oFcmp
/-- FCLASS (R103). -/
def execFclass (a : RArgs) (s : State) : Host.Outcome State Fault Refusal := runIssue s (.fclass a) oFclass
/-- FRND (R103). -/
def execFrnd (a : RArgs) (s : State) : Host.Outcome State Fault Refusal := runIssue s (.frnd a) oFrnd
/-- HADD2 (R104). -/
def execHadd2 (a : RArgs) (s : State) : Host.Outcome State Fault Refusal := runIssue s (.hadd2 a) (oPacked .fp16 (pAdd .fp16))
/-- HMUL2 (R104). -/
def execHmul2 (a : RArgs) (s : State) : Host.Outcome State Fault Refusal := runIssue s (.hmul2 a) (oPacked .fp16 (pMul .fp16))
/-- HFMA2 (R104). -/
def execHfma2 (a : RArgs) (s : State) : Host.Outcome State Fault Refusal := runIssue s (.hfma2 a) (oPacked .fp16 (Fmt.fp16.fma))
/-- BADD2 (R104). -/
def execBadd2 (a : RArgs) (s : State) : Host.Outcome State Fault Refusal := runIssue s (.badd2 a) (oPacked .bf16 (pAdd .bf16))
/-- BMUL2 (R104). -/
def execBmul2 (a : RArgs) (s : State) : Host.Outcome State Fault Refusal := runIssue s (.bmul2 a) (oPacked .bf16 (pMul .bf16))
/-- BFMA2 (R104). -/
def execBfma2 (a : RArgs) (s : State) : Host.Outcome State Fault Refusal := runIssue s (.bfma2 a) (oPacked .bf16 (Fmt.bf16.fma))
/-- FRCP (R105). -/
def execFrcp (a : RArgs) (s : State) : Host.Outcome State Fault Refusal := runIssue s (.frcp a) (oSf (fun o _ v => sfRcp o v))
/-- FRSQ (R105). -/
def execFrsq (a : RArgs) (s : State) : Host.Outcome State Fault Refusal := runIssue s (.frsq a) (oSf (fun o _ v => sfRsq o v))
/-- FSQRT (R105). -/
def execFsqrt (a : RArgs) (s : State) : Host.Outcome State Fault Refusal := runIssue s (.fsqrt a) (oSf (fun o _ v => sfSqrt o v))
/-- FEXP2 (R105). -/
def execFexp2 (a : RArgs) (s : State) : Host.Outcome State Fault Refusal := runIssue s (.fexp2 a) (oSf sfExp2)
/-- FLOG2 (R105). -/
def execFlog2 (a : RArgs) (s : State) : Host.Outcome State Fault Refusal := runIssue s (.flog2 a) (oSf sfLog2)
/-- FSIN (R105). -/
def execFsin (a : RArgs) (s : State) : Host.Outcome State Fault Refusal := runIssue s (.fsin a) (oSf (sfSin false))
/-- FCOS (R105). -/
def execFcos (a : RArgs) (s : State) : Host.Outcome State Fault Refusal := runIssue s (.fcos a) (oSf (sfSin true))
/-- FTANH (R105). -/
def execFtanh (a : RArgs) (s : State) : Host.Outcome State Fault Refusal := runIssue s (.ftanh a) (oSf sfTanh)
/-- FDIV (R105). -/
def execFdiv (a : RArgs) (s : State) : Host.Outcome State Fault Refusal := runIssue s (.fdiv a) oFdiv
/-- FCVT (R107). -/
def execFcvt (a : RArgs) (s : State) : Host.Outcome State Fault Refusal := runIssue s (.fcvt a) oFcvt
/-- ICVT (R108). -/
def execIcvt (a : RArgs) (s : State) : Host.Outcome State Fault Refusal := runIssue s (.icvt a) oIcvt
/-- FICVT (R108). -/
def execFicvt (a : RArgs) (s : State) : Host.Outcome State Fault Refusal := runIssue s (.ficvt a) oFicvt
/-- PACK (R109). -/
def execPack (a : RArgs) (s : State) : Host.Outcome State Fault Refusal := runIssue s (.pack a) oPack
/-- UNPK (R109). -/
def execUnpk (a : RArgs) (s : State) : Host.Outcome State Fault Refusal := runIssue s (.unpk a) oUnpk
/-- AMAXRD (R110). -/
def execAmaxrd (a : RArgs) (s : State) : Host.Outcome State Fault Refusal := runIssue s (.amaxrd a) oAmaxrd
/-- AMAXCLR (R110). -/
def execAmaxclr (a : RArgs) (s : State) : Host.Outcome State Fault Refusal := runIssue s (.amaxclr a) oAmaxclr

end Sys2Proof.Machine
end

