-- ==== Sys2Proof/Machine/Lanes.lean ====
section
/-! DEFINITION. Instructions across lanes: SHFL to BCAST (R146 to R148), RED, SCAN and XRD (R149 to R153), LNRD and
LNWR (R154, R155). -/

namespace Sys2Proof.Machine

/-- The pending destination of a long-latency instruction that writes `size` registers (R73). -/
def lateDst (x : Issue) (size : Nat) : List RegId :=
  (if isS x.fd then [.s (fnum x.fd)] else (List.range size).map (fun k => .v (x.fd.toNat + k))) ++ (if x.a.wcc then [.cc] else [])
/-- An operand the entry requires to be uniform: an AFF or GEN register, and LANEID, raise ILLOP in active lanes. -/
def needUni (x : Issue) (p : Opr) : List Cause := if p.uni || x.act == 0 then [] else [x.ill]
/-- A long-latency outcome. -/
def lateOut (x : Issue) (size : Nat) (srcs : List Opr) (o : Out) : Out :=
  Out.ofSrcs x srcs { o with dly := true, dst := lateDst x size }

/-- A pending result of a group becomes ready. -/
def State.ready (s : State) (gid rid : Nat) (f : Pending → Pending) : State :=
  s.setGroup gid (fun g => { g with warps := g.warps.map (fun w =>
    { w with pend := w.pend.map (fun p => if p.rid = rid then f { p with ready := true } else p) }) })

/-- The source lane of SHFL and whether it lies in range (R147). -/
def shflLane (mode S l k : Nat) : Nat × Bool :=
  let b := l - l % S
  match mode with
  | 0 => (b + k % S, true)
  | 1 => (l - k, decide (k ≤ l - b))
  | 2 => (l + k, decide (l + k < b + S))
  | _ => (b + ((l % S) ^^^ (k % S)), true)
def oShfl (x : Issue) : Out :=
  let p := x.opX; let q := x.opY
  let S := 64 / 2 ^ (x.m.toNat / 4 % 8)
  let src (l : Nat) := shflLane (x.m.toNat % 4) S l (q.at32 l).toNat
  let c (l : Nat) : Bool := (src l).2 && Mask.has x.act (src l).1
  let r (l : Nat) : Word := if c l then p.at32 (src l).1 else p.at32 l
  lateOut x 1 [p, q]
    { writes := x.put32 .z (if p.lo.isUni then some (.uni (p.at32 0)) else none) r
        ++ x.putCC c (fun l => r l == 0) (fun l => (r l).getLsbD 31) (fun _ => false) }

/-- All active lanes read one value. -/
def allEq (m : Mask) (f : Nat → DWord) : Bool := (Mask.lanes m).all (fun l => f l == f (Mask.low m))
def oVote (x : Issue) : Out :=
  let p := x.opX
  let hit : Mask := x.act &&& Mask.where_ (fun l => p.at32 l != 0)
  let b (v : Bool) : List RegWrite := x.put32 .z (some (.uni (if v then 1 else 0))) (fun _ => if v then 1 else 0)
  match x.m.toNat % 4 with
  | 0 => lateOut x 1 [p] { writes := b (hit == x.act) }
  | 1 => lateOut x 1 [p] { writes := b (hit != 0) }
  | 2 => lateOut x 1 [p] { writes := b (allEq x.act (fun l => (p.at32 l).zeroExtend 64)) }
  | _ => lateOut x 2 [p] { writes := x.put64 true (fun _ => hit) }
def oMatch (x : Issue) : Out :=
  let p := x.opX
  let v (l : Nat) : DWord := if x.mb 0 then p.at64 l else (p.at32 l).zeroExtend 64
  if x.mb 1 then lateOut x 2 [p] { writes := x.put64 true (fun _ => if allEq x.act v then x.act else 0) }
  else lateOut x 2 [p] { writes := x.put64 false (fun l => x.act &&& Mask.where_ (fun j => v j == v l)) }
def oBcast (x : Issue) : Out :=
  let p := x.opX; let q := x.opY
  let k0 := (q.at32 0).toNat
  let k := if x.mb 0 || decide (64 ≤ k0) || !Mask.has x.act k0 then Mask.low x.act else k0
  let r : Word := if x.act = 0 then 0 else p.at32 k
  lateOut x 1 [p, q] { writes := x.put32 .z (some (.uni r)) (fun _ => r), causes := needUni x q }

/-- An integer operation of RED and SCAN on n-bit values (R149). -/
def redInt (op n a b : Nat) : Nat :=
  match op with
  | 0 => (a + b) % 2 ^ n
  | 1 => if sInt a n ≤ sInt b n then a else b
  | 2 => if sInt a n ≤ sInt b n then b else a
  | 3 => min a b
  | 4 => max a b
  | 5 => Nat.land a b
  | 6 => Nat.lor a b
  | _ => Nat.xor a b
/-- The identities of R30. -/
def redIdent (op n : Nat) : Nat :=
  match op with
  | 1 => 2 ^ (n - 1) - 1
  | 2 => 2 ^ (n - 1)
  | 3 => 2 ^ n - 1
  | 5 => 2 ^ n - 1
  | 9 => 0x7F800000
  | 10 => 0xFF800000
  | _ => 0
/-- One step of a reduction, with the flags of fadd. -/
def redStep (x : Issue) (op n a b : Nat) : Nat × FFlags :=
  match op with
  | 8 => Fmt.fp32.add2 x.ro a b
  | 9 => (Fmt.fp32.minMax false a b, 0)
  | 10 => (Fmt.fp32.minMax true a b, 0)
  | _ => (redInt op n a b, 0)
/-- Pairs of one level of the tree of R31. -/
def pairUp (f : Nat → Nat → Nat × FFlags) : List (Option Nat) → List (Option Nat) × FFlags
  | some a :: some b :: r => let q := pairUp f r; (some (f a b).1 :: q.1, (f a b).2 ||| q.2)
  | some a :: none :: r => let q := pairUp f r; (some a :: q.1, q.2)
  | none :: some b :: r => let q := pairUp f r; (some b :: q.1, q.2)
  | none :: none :: r => let q := pairUp f r; (none :: q.1, q.2)
  | l => (l, 0)
/-- The tree of R31 over 2^k places. -/
def redTree (f : Nat → Nat → Nat × FFlags) : Nat → List (Option Nat) → Option Nat × FFlags
  | 0, l => (l.headD none, 0)
  | k + 1, l => let q := pairUp f l; let r := redTree f k q.1; (r.1, q.2 ||| r.2)
/-- A sequential fold, with its values after each lane and its flags. -/
def redChain (f : Nat → Nat → Nat × FFlags) (v : Nat → Nat) : Option Nat → List Nat → List (Nat × Nat) × FFlags
  | _, [] => ([], 0)
  | s, l :: r =>
    let t := match s with | none => (v l, 0#5) | some a => f a (v l)
    let q := redChain f v (some t.1) r
    ((l, t.1) :: q.1, t.2 ||| q.2)

/-- The width, source values and final form of a RED or SCAN. -/
def redN (x : Issue) : Nat := if x.mb 4 then 64 else 32
def redOp (x : Issue) : Nat := x.m.toNat % 16
def redVal (x : Issue) (p : Opr) (l : Nat) : Nat :=
  if redN x = 64 then (p.at64 l).toNat
  else if 8 ≤ redOp x then Fmt.fp32.flushIn x.fin (p.at32 l).toNat else (p.at32 l).toNat
def redFin (x : Issue) (v : Nat) : Nat :=
  if 8 ≤ redOp x ∧ Fmt.fp32.decode v = .nan then Fmt.fp32.nan else v % 2 ^ redN x
/-- A scalar result and XR (R145, R152). -/
def redExt (x : Issue) (v : Nat) : DWord :=
  if redN x = 32 ∧ redOp x ≤ 2 then (BitVec.ofNat 32 v).signExtend 64 else BitVec.ofNat 64 v

def oRed (x : Issue) : Out :=
  let p := x.opX
  let op := redOp x
  let r := redTree (redStep x op (redN x)) 6
    ((List.range 64).map (fun l => if Mask.has x.act l then some (redVal x p l) else none))
  let v := match r.1 with | none => redIdent op (redN x) | some a => redFin x a
  let w : List RegWrite :=
    if redN x = 64 then x.put64 true (fun _ => BitVec.ofNat 64 v)
    else x.put32 (if op ≤ 2 then .s else .z) (some (.uni (BitVec.ofNat 32 v))) (fun _ => BitVec.ofNat 32 v)
  lateOut x (if redN x = 64 then 2 else 1) [p]
    { writes := w ++ [.xr (redExt x v) (x.act == 0)], fl := fun _ => r.2, red := true }

def oScan (x : Issue) : Out :=
  let p := x.opX
  let op := redOp x
  let f := redStep x op (redN x)
  let ls := Mask.lanes x.act
  let inc := redChain f (redVal x p) none ls
  let exc := redChain f (redVal x p) (some 0) (ls.dropLast)
  let id := redIdent op (redN x)
  let get (t : List (Nat × Nat)) (l : Nat) : Nat := match t.find? (fun q => q.1 == l) with | some q => redFin x q.2 | none => id
  let below (l : Nat) : Option Nat := (ls.filter (fun j => decide (j < l))).getLast?
  let v (l : Nat) : Nat :=
    if x.mb 5 then (match below l with
      | none => id
      | some j => get (if op = 8 then exc.1 else inc.1) j)
    else get inc.1 l
  let tot := match ls.getLast? with | none => id | some l => get inc.1 l
  let w : List RegWrite :=
    if redN x = 64 then x.put64 false (fun l => BitVec.ofNat 64 (v l)) else x.put32 .z none (fun l => BitVec.ofNat 32 (v l))
  lateOut x (if redN x = 64 then 2 else 1) [p]
    { writes := w ++ [.xr (redExt x tot) (x.act == 0)], fl := fun _ => if x.mb 5 && op == 8 then inc.2 ||| exc.2 else inc.2, red := true }

/-- XRD (R153): the warp waits until reduction number e has committed. -/
def oXrd (x : Issue) : Out :=
  let p := x.opX
  let e := (p.at32 0).toNat
  let seq := x.g.xrseq.toNat % 2 ^ 32
  let due := decide ((seq + 2 ^ 32 - e) % 2 ^ 32 < 2 ^ 31)
  let bad := needUni x p
  if !due && bad.isEmpty && p.causes.isEmpty && x.w.pend.any (fun q => q.red) then { hold := true, cut := specPend 17 }
  else
    let o : Out := { causes := bad, writes := if isS x.fd then [.sr (fnum x.fd) x.g.xr] else x.put32 .z (some (.uni (x.g.xr.extractLsb' 0 32))) (fun _ => x.g.xr.extractLsb' 0 32) }
    if due then lateOut x 1 [p] o
    else Out.ofSrcs x [p] { causes := bad, stay := true, eff := fun s => s.setWarp x.g.gid x.w.wid (fun w => w.waitOn .xrd s.bw) }

def oLnrd (x : Issue) : Out :=
  let q := x.opY
  let k := (q.at32 0).toNat
  let r := (x.step 1 x.n.x x.a.x).toNat
  let size := if x.mb 0 then 2 else 1
  let lane (j : Nat) : Word := if k < x.g.width then (x.g.vreg (r + j)).lane k else 0
  let v : DWord := (if x.mb 0 then lane 1 else 0) ++ lane 0
  let pois := k < 64 ∧ (Mask.has (x.g.vpois r) k ∨ (x.mb 0 ∧ Mask.has (x.g.vpois (r + 1)) k))
  lateOut x size [q]
    { causes := needUni x q ++ (if pois ∧ x.act ≠ 0 then [{ stage := 5, code := cPOISON, tfm := x.e.mask }] else []),
      writes := if x.mb 0 then x.put64 true (fun _ => v) else x.put32 .z (some (.uni (lane 0))) (fun _ => lane 0) }

def oLnwr (x : Issue) : Out :=
  let p := x.opX; let q := x.opY
  let k := (p.at32 0).toNat
  let outside := decide (k < x.g.width) && !x.priv && !Mask.has x.e.mask k
  Out.ofSrcs x [p, q]
    { causes := needUni x p ++ needUni x q ++ (if outside then [x.ill] else []),
      writes := if k < x.g.width then [.vl x.fd.toNat (1#64 <<< k) (List.replicate 64 (q.at32 0))] else [] }

/-- SHFL (R147). -/
def execShfl (a : RArgs) (s : State) : Host.Outcome State Fault Refusal := runIssue s (.shfl a) oShfl
/-- VOTE (R148). -/
def execVote (a : RArgs) (s : State) : Host.Outcome State Fault Refusal := runIssue s (.vote a) oVote
/-- MATCH (R148). -/
def execMatchI (a : RArgs) (s : State) : Host.Outcome State Fault Refusal := runIssue s (.matchI a) oMatch
/-- BCAST (R148). -/
def execBcast (a : RArgs) (s : State) : Host.Outcome State Fault Refusal := runIssue s (.bcast a) oBcast
/-- RED (R150). -/
def execRed (a : RArgs) (s : State) : Host.Outcome State Fault Refusal := runIssue s (.red a) oRed
/-- SCAN (R151). -/
def execScan (a : RArgs) (s : State) : Host.Outcome State Fault Refusal := runIssue s (.scan a) oScan
/-- XRD (R153). -/
def execXrd (a : RArgs) (s : State) : Host.Outcome State Fault Refusal := runIssue s (.xrd a) oXrd
/-- LNRD (R154). -/
def execLnrd (a : RArgs) (s : State) : Host.Outcome State Fault Refusal := runIssue s (.lnrd a) oLnrd
/-- LNWR (R155). -/
def execLnwr (a : RArgs) (s : State) : Host.Outcome State Fault Refusal := runIssue s (.lnwr a) oLnwr

end Sys2Proof.Machine
end

