-- ==== Sys2Proof/Machine/Barrier.lean ====
section
/-! DEFINITION. Barriers and stage rings (R156 to R162), cluster barriers (R256), named events (R318, R319), and the
end of a fence (R225). -/

namespace Sys2Proof.Machine

/-! ## Waits that end -/

/-- A group tests its waits again (R129). -/
def State.wakeGroup (s : State) (gid : Nat) : State := s.setGroup gid (fun g => g.wake s.bw)
/-- A warp's wait ends: the waiting instruction completes when the warp issues it again. -/
def State.release (s : State) (gid wid : Nat) : State :=
  (s.setWarp gid wid (fun w => { w with wait := .none, released := true })).wakeGroup gid

/-- The skew of a scope in BWCLK ticks (R225). -/
def skew (scope : Nat) : Nat := if scope < 2 then 0 else if scope < 5 then 2 else 40
/-- Requests of a group whose GWCT a fence waits for (R225): stores, atomics and reductions, cluster-local ones too (R255). -/
def Req.fenced (r : Req) (gid upto : Nat) : Bool := r.gid == gid && r.kind != .load && decide (r.rid < upto)
/-- Both steps of a fence are done (R225). -/
def fenceDone (s : State) (g : Group) (f : FenceSt) : Bool :=
  !s.reqs.any (fun r => r.fenced g.gid f.upto || (f.scope == 0 && r.gid == g.gid && decide (r.rid < f.upto)))
    && decide (g.gw + skew f.scope ≤ s.bw)
/-- FENCE_COMPLETE (R225): of what the warp remembers, the last is now the instant of the completion. -/
def execFenceComplete (gid wid : Nat) (s : State) : Host.Outcome State Fault Refusal :=
  match s.group gid with
  | none => .next s
  | some g =>
    match g.warp wid with
    | none => .next s
    | some w =>
      match w.fence with
      | none => .next s
      | some f =>
        if fenceDone s g f && !g.stopped then
          match w.wait with
          | .bar .. => .next (s.setWarp gid wid (fun w => { w with fence := none, pass := 2 }))
          | .cbar .. => .next (s.setWarp gid wid (fun w => { w with fence := none, pass := 2 }))
          | _ => .next ((s.setWarp gid wid (fun w => { w with fence := none, pass := w.pass + 1, snap := w.snap ++ [s.bw] })).release gid wid)
        else .next s
/-- A warp waits for a fence of its group at a scope. -/
def waitFence (x : Issue) (scope : Nat) (s : State) : State :=
  s.setWarp x.g.gid x.w.wid (fun w => { w with wait := .fence, fence := some { scope := scope, upto := s.nextId }, released := false })

/-! ## What an arrival waits for -/

/-- A write to a P register that the group issued before `upto` has not been performed (R335). -/
def permBusy (s : State) (g : Group) (upto : Nat) : Bool :=
  (s.core g.core).crook.any (fun o => o.writesP && o.gid == g.gid && decide (o.rid < upto))

/-- A scratchpad access that the group issued before `upto` is still on its way, to one team or to any (R158, R162, R257). -/
def scratchBusy (s : State) (g : Group) (upto : Nat) (only : Option Nat) : Bool :=
  s.reqs.any (fun r => r.gid == g.gid && r.inCluster && decide (r.rid < upto) &&
    r.parts.any (fun p => !p.performed && (match only with | some t => p.node == t | none => true)))
/-- A ring arrival must wait (R162, R335). -/
def ringBusy (s : State) (g : Group) (upto : Nat) : Bool := permBusy s g upto || scratchBusy s g upto none
/-- An arrival at a barrier must wait (R158, R257, R335). -/
def barBusy (s : State) (g : Group) (w : Wait) : Bool :=
  match w with
  | .bar .. => permBusy s g s.nextId || scratchBusy s g s.nextId (some g.team)
  | _ => scratchBusy s g s.nextId none

/-! ## BAR and CBAR -/

/-- A team's groups that have not ended. -/
def State.openGroups (s : State) (tid : Nat) : Nat := ((s.groupsOf tid).filter (fun g => g.st != .ended)).length
/-- The warp waits with its entry held at this instruction. -/
def holdAt (x : Issue) (w : Wait) : Out :=
  { stay := true, eff := fun s => s.setWarp x.g.gid x.w.wid (fun q => { q.waitOn w s.bw with pass := 0, arrived := false, released := false }) }

def oBar (x : Issue) : Out :=
  if x.w.released then {}
  else
    let p := x.opX
    let n := (p.at32 0).toNat
    let bad := decide (x.tm.ngrp < n)
    Out.ofSrcs x [p] { holdAt x (.bar (x.m.toNat % 16) n (x.mb 4)) with causes := needUni x p ++ (if bad then [x.ill] else []) }
def oCbar (x : Issue) : Out :=
  if x.w.released then {}
  else
    let p := x.opX
    let n := (p.at32 0).toNat
    let bad := decide (n < 1) || decide (4096 < n)
    Out.ofSrcs x [p] { holdAt x (.cbar (x.m.toNat % 16) n (x.mb 4)) with causes := needUni x p ++ (if bad then [x.ill] else []) }

/-- Every live lane of the group stands at one BAR or CBAR, and none is parked (R156): the warps merge into one. -/
def gather (g : Group) : Option (Warp × Entry × Wait) :=
  match g.warps with
  | [] => none
  | w :: ws =>
    match w.entries, w.wait with
    | [e], .bar b n f =>
      if (w :: ws).all (fun q => !q.parked && q.entries.length == 1 && (q.first.map (fun e => e.pc)) == some e.pc
          && (match q.wait with | .bar b' _ f' => b' == b && f' == f | _ => false)) then some (w, e, .bar b n f) else none
    | [e], .cbar b n f =>
      if (w :: ws).all (fun q => !q.parked && q.entries.length == 1 && (q.first.map (fun e => e.pc)) == some e.pc
          && (match q.wait with | .cbar b' _ f' => b' == b && f' == f | _ => false)) then some (w, e, .cbar b n f) else none
    | _, _ => none

/-- ILLOP at the BAR of the merged warp (R157). -/
def barTrap (s : State) (g : Group) (w : Warp) (e : Entry) : State :=
  s.raise g (some w) (some e) { stage := 2, code := cILLOP, tfm := e.mask } e.pc

/-- A BAR arrival is counted (R157). -/
def arriveBar (s : State) (g : Group) (w : Warp) (e : Entry) (b n : Nat) : State :=
  let bar := Amap.get {} (s.team g.team).barriers b
  let new : Option Barrier :=
    if bar.cnt = 0 then
      some { bar with all := n == 0, exp := if n = 0 then s.openGroups g.team else n, cnt := 1,
                      arrived := bar.arrived ||| (1#32 <<< g.index) }
    else if (if bar.all then n == 0 else n == bar.exp) then
      some { bar with cnt := bar.cnt + 1, arrived := bar.arrived ||| (1#32 <<< g.index) }
    else none
  match new with
  | none => barTrap s g w e
  | some k => (s.setTeam g.team (fun t => { t with barriers := Amap.set {} t.barriers b k })).setWarp g.gid w.wid (fun w => { w with arrived := true })

/-- A cluster barrier's state and arrivals (R256). -/
def Cluster.cbar (c : Cluster) (ctx b : Nat) : Barrier × List Nat :=
  match c.cbars.find? (fun p => p.1 == (ctx, b)) with | some p => p.2 | none => ({}, [])
def Cluster.setCbar (c : Cluster) (ctx b : Nat) (v : Barrier × List Nat) : Cluster :=
  { c with cbars := ((ctx, b), v) :: c.cbars.filter (fun p => p.1 != (ctx, b)) }
/-- A CBAR arrival is counted; the generation that it completes clears at once, and its groups resume four cycles later. -/
def arriveCbar (s : State) (g : Group) (w : Warp) (e : Entry) (b n : Nat) : State :=
  let k := clusterOf g.core
  let c := s.cluster k
  let st := c.cbar g.ctx b
  if st.1.cnt ≠ 0 ∧ st.1.exp ≠ n then barTrap s g w e
  else
    let cnt := st.1.cnt + 1
    let ids := st.2 ++ [g.gid]
    let s := s.setWarp g.gid w.wid (fun w => { w with arrived := true })
    if n ≤ cnt then
      s.setCluster k (fun c =>
        let r := c.relAt ++ ids.map (fun i => (i, c.fclk + 4))
        { c.setCbar g.ctx b ({ gen := (st.1.gen + 1) % 256 }, []) with relAt := r })
    else s.setCluster k (fun c => c.setCbar g.ctx b ({ st.1 with exp := n, cnt := cnt }, ids))

/-- Nothing holds back the arrival of a group at its barrier. -/
def arrivesNow (s : State) (g : Group) (w : Warp) (wt : Wait) : Bool :=
  !(g.stopped || w.arrived || w.fence.isSome || teamHolds s g || barBusy s g wt)
/-- BARRIER_ARRIVAL (R156, R157, R256), which waits for the group's scratchpad accesses (R158, R257) and, at a BAR, writes to P registers (R335). -/
def execBarrierArrival (gid : Nat) (s : State) : Host.Outcome State Fault Refusal :=
  match s.group gid with
  | none => .next s
  | some g =>
    match gather g with
    | none => .next s
    | some (w, e, wt) =>
      if !arrivesNow s g w wt then .next s
      else
        let mw : Warp := { mergeWarps g.warps w.wid e with wait := wt, pass := w.pass, waitAt := some (g.warps.foldl (fun m q => max m (q.waitAt.getD 0)) 0) }
        let e' : Entry := { e with mask := g.warps.foldl (fun m q => m ||| q.lanes) 0 }
        let s := s.setGroup gid (fun g => { g with warps := [mw] })
        let fence := match wt with | .bar _ _ f => f | .cbar _ _ f => f | _ => false
        if fence && mw.pass != 2 then
          let fs : FenceSt := { scope := (match wt with | .cbar .. => 2 | _ => 1), upto := s.nextId }
          .next (s.setWarp gid w.wid (fun w => { w with pass := 1, fence := some fs }))
        else
          match s.group gid with
          | none => .next s
          | some g =>
            match wt with
            | .bar b n _ => .next (arriveBar s g mw e' b n)
            | .cbar b n _ => .next (arriveCbar s g mw e' b n)
            | _ => .next s

/-- BARRIER_RELEASE (R157): in the FCLK cycle after CNT reached EXP. -/
def execBarrierRelease (team b : Nat) (s : State) : Host.Outcome State Fault Refusal :=
  let bar := Amap.get {} (s.team team).barriers b
  if !bar.full then .next s
  else
    let s' := s.setTeam team (fun t => { t with barriers := Amap.set {} t.barriers b { gen := (bar.gen + 1) % 256 } })
    let gs := (s.groupsOf team).filter (fun g => bar.arrived.getLsbD g.index)
    .next (gs.foldl (fun s g => g.warps.foldl (fun s w =>
      match w.wait with
      | .bar b' _ _ => if b' = b ∧ w.arrived then s.release g.gid w.wid else s
      | _ => s) s) s')

/-- A group has arrived at a cluster barrier that its cluster has completed, four FCLK cycles ago (R256). -/
def cbarDue (k : Cluster) (g : Group) (at_ : Nat → Bool) : Bool :=
  k.relAt.any (fun p => p.1 == g.gid && decide (p.2 ≤ k.fclk))
    && g.warps.any (fun w => match w.wait with | .cbar b _ _ => at_ b && w.arrived | _ => false)
/-- CBAR_RELEASE (R256). -/
def execCbarRelease (cluster ctx b : Nat) (s : State) : Host.Outcome State Fault Refusal :=
  let gs := s.groups.filter (fun g => g.ctx == ctx && cbarDue (s.cluster cluster) g (fun n => n == b))
  let s' := s.setCluster cluster (fun c => { c with relAt := c.relAt.filter (fun p => !gs.any (fun g => g.gid == p.1)) })
  .next (gs.foldl (fun s g => g.warps.foldl (fun s w => s.release g.gid w.wid) s) s')

/-! ## Stage rings -/

def Team.ring (t : Team) (r : Nat) : Option Ring := (t.rings.find? (fun p => p.1 == r)).map (fun p => p.2)
/-- The stage named by an instruction exists (R159). -/
def ringOk (t : Team) (r k : Nat) : Bool := match t.ring r with | none => false | some q => decide (k < q.stages.length)
/-- PEND falls by c and PHASE flips while it is not above zero (R160), on at most `n` flips. -/
def flips (e : Nat) : Nat → Int → Bool → Int × Bool
  | 0, p, ph => (p, ph)
  | n + 1, p, ph => if p ≤ 0 then flips e n (p + e) (!ph) else (p, ph)
/-- An arrival of c on a stage (R160). Arrivals of one FCLK cycle so come to one of their sum, and the phase at its end is what releases waiters
(R161). -/
def State.ringArrive (s : State) (tid r k c : Nat) : State :=
  match (s.team tid).ring r with
  | none => s
  | some q =>
    let st := q.stages.getD k {}
    let f := flips q.e (c + 1) ((st.pend : Int) - c) st.phase
    s.setTeam tid (fun t => { t with rings := t.rings.map (fun p =>
      if p.1 = r then (r, { p.2 with stages := modAt (fun k => { k with phase := f.2, pend := f.1.toNat }) k p.2.stages }) else p) })

/-- An arrival with no counter applies as it issues, so its warp holds while it must wait for what came before it (R162, R335). -/
def oArrive (x : Issue) : Out :=
  let p := x.opX
  let r := x.m.toNat / 8
  let k := x.m.toNat % 8
  let c := (p.at32 0).toNat
  let e := match x.tm.ring r with | some q => q.e | none => 0
  let dc := match x.a with | .r a => a.z.toNat | _ => 6
  if x.act = 0 then {}
  else
    let bad := !ringOk x.tm r k || c == 0 || decide (e < c)
    let full := dc != 6 && decide (4 ≤ x.g.deferred.length)
    Out.ofSrcs x [p]
      { causes := needUni x p ++ (if bad then [x.ill] else []),
        hold := (full || (dc == 6 && ringBusy x.s x.g x.s.nextId)) && !bad && p.causes.isEmpty && p.uni,
        eff := fun s =>
          if dc = 6 then s.ringArrive x.g.team r k c
          else s.setGroup x.g.gid (fun g => { g with deferred := g.deferred ++ [{ ring := r, stage := k, c := c, dc := dc, upto := x.s.nextId }] }) }

/-- A deferred arrival may apply: its counter read zero when the FCLK cycle began. -/
def appliesNow (s : State) (g : Group) (a : Arrival) : Bool := g.old.dcv a.dc == 0 && !ringBusy s g a.upto
/-- ARRIVAL_APPLY (R160): the oldest deferred arrival of the group, once its counter reads zero, and the group's
earlier scratchpad accesses and writes to P registers have been performed (R162, R335). -/
def execArrivalApply (gid : Nat) (s : State) : Host.Outcome State Fault Refusal :=
  match s.group gid with
  | none => .next s
  | some g =>
    match g.deferred with
    | [] => .next s
    | a :: r =>
      if appliesNow s g a then .next ((s.setGroup gid (fun g => { g with deferred := r })).ringArrive g.team a.ring a.stage a.c)
      else .next s

def oWaitph (x : Issue) : Out :=
  if x.w.released || x.act == 0 then {}
  else
    let p := x.opX
    let r := x.m.toNat / 8
    let k := x.m.toNat % 8
    let ph := (p.at32 0).getLsbD 0
    let now := match x.tm.ring r with | some q => (q.stages.getD k {}).was | none => false
    let cs := needUni x p ++ (if ringOk x.tm r k then [] else [x.ill])
    if now == ph then Out.ofSrcs x [p] { causes := cs }
    else Out.ofSrcs x [p] { holdAt x (.waitph r k ph) with causes := cs }

/-! ## Named events -/

def State.event (s : State) (ctx ev : Nat) : Event := findD { ctx := ctx, ev := ev } (fun e => e.ctx == ctx && e.ev == ev) s.events
/-- An event is live (R318). -/
def Event.live (e : Event) : Bool := e.count != 0 || !e.waiters.isEmpty || e.stream.isSome
/-- Events are listed while they are live. -/
def State.setEvent (s : State) (e : Event) : State :=
  let rest := s.events.filter (fun q => !(q.ctx == e.ctx && q.ev == e.ev))
  if s.events.any (fun q => q.ctx == e.ctx && q.ev == e.ev) then
    { s with events := if e.live then updWhere (fun q => q.ctx == e.ctx && q.ev == e.ev) (fun _ => e) s.events else rest }
  else { s with events := if e.live then s.events ++ [e] else s.events }
/-- Waiter records of a context in the spill area of a die (R318). -/
def spilled (s : State) (ctx die : Nat) : Nat :=
  s.events.foldl (fun n e => if e.ctx = ctx ∧ e.ev % 8 = die then n + (e.waiters.length - 32) else n) 0
/-- There is room for a posting, or for a waiter, at an event (R318). -/
def eventRoom (s : State) (ctx ev : Nat) (waiter : Bool) : Bool :=
  let e := s.event ctx ev
  let die := ev % 8
  let size := if (s.ctx ctx).spillBase = 0 then 0 else (s.ctx ctx).spillSize
  let table := e.live || decide ((s.events.filter (fun q => q.ev % 8 == die)).length < 4096)
  let place := !waiter || decide (e.waiters.length < 32)
  (table && place) || (size != 0 && (place || decide (spilled s ctx die < (size * 2 ^ 20 - 2 ^ 17) / 8)))

/-- The waiters of an event, in arrival order, against a count (R319): who is released, who stays, and the count left. -/
def serve (stream : Bool) : Nat → List Waiter → List Waiter × List Waiter × Nat
  | c, [] => ([], [], c)
  | c, w :: r =>
    if stream then let q := serve stream c r; (w :: q.1, q.2.1, q.2.2)
    else if w.v ≤ c then
      let q := serve stream (if w.dec then c - w.v else c) r
      (w :: q.1, q.2.1, q.2.2)
    else let q := serve stream c r; (q.1, w :: q.2.1, q.2.2)
/-- A copy engine goes on after n words (R347, R350): one that is asked to stop is IDLE there. -/
def State.ceGo (s : State) (k n : Nat) : State :=
  s.setCe k (fun c => { c with pc := c.pc + BitVec.ofNat 64 (8 * n), waiting := false, xfer := none, state := if c.stopReq then 0 else 1, stopReq := false })
/-- A warp that an event releases; with STREAM it raises STREAM when it issues. A posting's instant enters the group's floor
(R301). -/
def State.releaseWarp (s : State) (stream : Option Nat) (stamp : Nat) (w : Waiter) : State :=
  let s := s.setGroup w.a (fun g => { g with floor := max g.floor stamp })
  (s.setWarp w.a w.b (fun q => { q with snap := match stream with | some e => [e] | none => [] })).release w.a w.b
/-- Warps in PLACEW test again (R232). -/
def State.wakePlacew (s : State) : State :=
  { s with groups := s.groups.map (fun g => if g.warps.any (fun w => w.wait == .placew) then g.wake s.bw else g) }
/-- Waiter places may be free: the EVWAITs that are held for one try again (R318). -/
def State.wakeEvfull (s : State) : State :=
  { s with groups := s.groups.map (fun g => if g.warps.any (fun w => match w.wait with | .evfull .. => true | _ => false) then g.wake s.bw else g) }
/-- A copy engine stops with STATE FAULT (R352), and marks STREAM on its event: every waiter there is released with STREAM, and
an engine among them faults in turn. -/
def State.ceFault : Nat → State → Nat → Nat → DWord → State
  | 0, s, _, _, _ => s
  | n + 1, s, k, cause, addr =>
    let c := s.ce k
    let ev := if c.window.isSome then field c.record 176 16 else c.fev
    let s := s.setCe k (fun c => { c with state := 3, cause := cause, faddr := addr, waiting := false, xfer := none, window := none, taken := false, stopReq := false })
    let e := s.event c.ctx ev
    e.waiters.foldl (fun (s : State) w => if w.eng then s.ceFault n w.a cSTREAM (s.ce w.a).pc else s.releaseWarp (some (k % 8)) 0 w)
      (s.setEvent { e with stream := some (k % 8), waiters := [] }).wakePlacew
/-- A released waiter: a warp, or a copy engine in an XWAIT or at the EVDONE of its window. -/
def State.releaseWaiter (s : State) (stream : Option Nat) (stamp : Nat) (w : Waiter) : State :=
  if w.eng then
    match stream with
    | some _ => s.ceFault 64 w.a cSTREAM (s.ce w.a).pc
    | none => if (s.ce w.a).window.isSome then s.setCe w.a (fun c => { c with waiting := false, state := 1, taken := true }) else s.ceGo w.a 1
  else s.releaseWarp stream stamp w
/-- A posting at an event (R319). -/
def State.postEvent (s : State) (ctx ev y : Nat) (clr : Bool) (stamp : Nat) : State :=
  let e := s.event ctx ev
  let count := if clr then y else min (e.count + y) (2 ^ 32 - 1)
  let stream := if clr then none else e.stream
  let q := serve stream.isSome count e.waiters
  q.1.foldl (fun s w => s.releaseWaiter stream stamp w)
    (s.setEvent { e with count := q.2.2, stream := stream, waiters := q.2.1, stamp := stamp }).wakeEvfull

/-- The event and value of EVWAIT and EVPOST, with their ILLOP (R319). -/
def evArgs (x : Issue) : Nat × Nat × List Cause :=
  let p := x.opX; let q := x.opY
  let ev := (p.at64 0).toNat
  let y := (q.at64 0).toNat
  let bad := decide (2 ^ 16 ≤ ev) || decide (2 ^ 32 ≤ y)
  (ev, y, needUni x p ++ needUni x q ++ (if bad && p.uni && q.uni then [x.ill] else []))

def oEvwait (x : Issue) : Out :=
  if x.act = 0 then {}
  else
    let a := evArgs x
    let e := x.s.event x.g.ctx a.1
    let raise (k : Nat) : Cause := { stage := 6, code := cSTREAM, tfm := x.act, tinfo := k }
    if x.w.released then
      match x.w.snap with
      | [] => {}
      | k :: _ => { causes := [raise k] }
    else
      let o : Out :=
        match e.stream with
        | some k => { causes := a.2.2 ++ [raise k] }
        | none =>
          if a.2.1 ≤ e.count then
            { causes := a.2.2,
              eff := fun s => (if x.mb 0 then s.setEvent { e with count := e.count - a.2.1 } else s).setGroup x.g.gid
                (fun g => { g with floor := max g.floor e.stamp }) }
          else if a.2.2.isEmpty && !eventRoom x.s x.g.ctx a.1 true then { stay := true, eff := fun s => s.setWarp x.g.gid x.w.wid (fun w => w.waitOn (.evfull a.1 (x.mb 1)) s.bw) }
          else
            { holdAt x (.event (a.1 % 8) a.1 a.2.1 (x.mb 0) (x.mb 1)) with
              causes := a.2.2,
              eff := fun s => (((holdAt x (.event (a.1 % 8) a.1 a.2.1 (x.mb 0) (x.mb 1))).eff s).setEvent
                { e with waiters := e.waiters ++ [{ a := x.g.gid, b := x.w.wid, v := a.2.1, dec := x.mb 0 }] }) }
      Out.ofSrcs x [x.opX, x.opY] o

/-- EVPOST (R319), made once the group's earlier writes have their GWCT and BWCLK has passed GW + 2 (R301). -/
def oEvpost (x : Issue) : Out :=
  if x.act = 0 then {}
  else
    let a := evArgs x
    let ready := x.w.pass != 0 || fenceDone x.s x.g { scope := 4, upto := x.s.nextId }
    Out.ofSrcs x [x.opX, x.opY]
      (if !a.2.2.isEmpty then { causes := a.2.2 }
       else if !ready then { stay := true, eff := waitFence x 4 }
       else if !eventRoom x.s x.g.ctx a.1 false then { hold := true }
       else { eff := fun s => s.postEvent x.g.ctx a.1 a.2.1 (x.mb 0) s.bw })

/-- BAR (R156). -/
def execBar (a : RArgs) (s : State) : Host.Outcome State Fault Refusal := runIssue s (.bar a) oBar
/-- CBAR (R256). -/
def execCbar (a : RArgs) (s : State) : Host.Outcome State Fault Refusal := runIssue s (.cbar a) oCbar
/-- ARRIVE (R160). -/
def execArrive (a : RArgs) (s : State) : Host.Outcome State Fault Refusal := runIssue s (.arrive a) oArrive
/-- WAITPH (R161). -/
def execWaitph (a : RArgs) (s : State) : Host.Outcome State Fault Refusal := runIssue s (.waitph a) oWaitph
/-- EVWAIT (R319). -/
def execEvwait (a : RArgs) (s : State) : Host.Outcome State Fault Refusal := runIssue s (.evwait a) oEvwait
/-- EVPOST (R319). -/
def execEvpost (a : RArgs) (s : State) : Host.Outcome State Fault Refusal := runIssue s (.evpost a) oEvpost

end Sys2Proof.Machine
end

