-- ==== Sys2Proof/Machine/Control.lean ====
section
/-! DEFINITION. Control flow (R111 to R118), NOP and REP (R76 to R79). -/

namespace Sys2Proof.Machine

/-- Lanes grouped by the header they go to. -/
def byTarget (f : Nat → DWord) (m : Mask) : List (DWord × Mask) :=
  (Mask.lanes m).foldl (fun acc l =>
    let t := f l
    if acc.any (fun p => p.1 == t) then acc.map (fun p => if p.1 == t then (p.1, p.2 ||| (1#64 <<< l)) else p)
    else acc ++ [(t, 1#64 <<< l)]) []

/-- The header reads of R431 for the targets of an instruction: causes, parks and destinations. -/
def readTargets (x : Issue) : List (DWord × Mask) → List Cause × List (Nat × Nat × Nat) × List Dest
  | [] => ([], [], [])
  | (t, m) :: r =>
    let q := readTargets x r
    if t.toNat < 2 ^ 57 ∧ t.toNat % 8 ≠ 0 then
      ({ stage := 3, code := cALIGN, tfm := m, taddr := t } :: q.1, q.2)
    else
      match nextHeader x t m with
      | .ok prio => (q.1, q.2.1, { h := t, prio := prio, mask := m } :: q.2.2)
      | .error (.inl cs) => (cs ++ q.1, q.2)
      | .error (.inr (lv, va)) => (q.1, (Mask.lanes m).map (fun l => (l, va, lv)) ++ q.2.1, q.2.2)

/-- LIMBDIV of a control-flow instruction whose lanes would go to more than one next position (R164). `f` gives the
next header of a lane, none where it ends. -/
def limbDiv (x : Issue) (f : Nat → Option DWord) : List Cause :=
  let low := f (Mask.low x.e.mask)
  let m := x.e.mask &&& Mask.where_ (fun l => f l != low)
  if x.g.limb.getLsbD 8 && m != 0 then [{ stage := 2, code := cLIMBDIV, tfm := m, tinfo := 1 }] else []

/-- Lanes that pass go where `f` says; the others fall through to h'. -/
def goTo (x : Issue) (f : Nat → DWord) (o : Out) : Out :=
  let fail := x.e.mask &&& ~~~x.act
  let ts := byTarget f x.act ++ (if fail = 0 then [] else [(x.hn, fail)])
  let r := readTargets x ts
  { o with causes := o.causes ++ r.1 ++ limbDiv x (fun l => some (if Mask.has x.act l then f l else x.hn)),
           parks := o.parks ++ r.2.1, kind := 4, ctl := some r.2.2 }

def bArgs (x : Issue) : BArgs := match x.a with | .b a => a | _ => {}
/-- The target of BR and CALL (R63). -/
def brTarget (x : Issue) : DWord := x.e.h + ((bArgs x).off.signExtend 64 <<< 3)

/-- A branch that HINT calls uniform and that its lanes disagree on (R63). -/
def hintMissed (x : Issue) : Bool := (bArgs x).hint.getLsbD 0 && x.act != 0 && x.act != x.e.mask
/-- It counts one in the core's hint-miss counter. -/
def countMiss (x : Issue) (s : State) : State :=
  if hintMissed x then s.setCore x.g.core (fun c => { c with hintMiss := c.hintMiss + 1 }) else s

def oBr (x : Issue) : Out := goTo x (fun _ => brTarget x) { post := countMiss x }
/-- Lanes that pass go where the register `p` says; where it could not be read, only the lanes that fall through read a header (R52). -/
def goVia (x : Issue) (p : Opr) (o : Out) : Out :=
  if p.failed then
    let fail := x.e.mask &&& ~~~x.act
    let r := readTargets x (if fail = 0 then [] else [(x.hn, fail)])
    Out.ofSrcs x [p] { o with causes := o.causes ++ r.1, kind := 4, ctl := some r.2.2 }
  else Out.ofSrcs x [p] (goTo x p.at64 o)
def oBrx (x : Issue) : Out := goVia x x.opX {}
/-- The link: h' in a pair of V registers of the passing lanes, or in an S register (R113). -/
def linkV (x : Issue) (r : Nat) : List RegWrite :=
  let lo : Word := x.hn.extractLsb' 0 32
  let hi : Word := x.hn.extractLsb' 32 32
  if x.act = 0 then []
  else if x.full then [.vr r (.uni lo), .vr (r + 1) (.uni hi)]
  else [.vl r x.act (List.replicate 64 lo), .vl (r + 1) x.act (List.replicate 64 hi)]
def oCall (x : Issue) : Out := goTo x (fun _ => brTarget x) { writes := linkV x 254, post := countMiss x }
def oCallx (x : Issue) : Out :=
  let p := x.opX
  let bad := isS x.a.d && x.a.cond != 0#4
  goVia x p
    { writes := if isS x.a.d then [.sr (fnum x.a.d) x.hn] else linkV x x.a.d.toNat,
      causes := if bad then [x.ill] else [] }

/-- Lanes leave every entry of the group and TAM. -/
def Group.dropLanes (g : Group) (m : Mask) : Group :=
  let ws := g.warps.map (fun w => { w with entries := (w.entries.map (fun e => { e with mask := e.mask &&& ~~~m })).filter (fun e => e.mask ≠ 0) })
  { g with warps := ws.filter (fun w => !w.entries.isEmpty),
           handlers := g.handlers.map (fun h => { h with tam := h.tam &&& ~~~m, tfm := h.tfm &&& ~~~m }) }

/-- An EXIT of the passing lanes would leave the group without a thread. -/
def endsGroup (x : Issue) : Bool :=
  x.act != 0 && (x.g.warps.all (fun w => w.entries.all (fun e => Mask.sub e.mask x.act)))

def oExit (x : Issue) : Out :=
  let fail := x.e.mask &&& ~~~x.act
  let r := readTargets x (if fail = 0 then [] else [(x.hn, fail)])
  let held := if endsGroup x then heldIn x.g x.e.mask (fun _ => true) else []
  { hold := endsGroup x && held.isEmpty && (x.g.dc.any (· != 0) || x.g.old.dc.any (· != 0)),
    causes := r.1 ++ held ++ limbDiv x (fun l => if Mask.has x.act l then none else some x.hn),
    parks := r.2.1, kind := 4, ctl := some r.2.2,
    post := fun s => if x.g.inHandler then s.setGroup x.g.gid (fun g => g.dropLanes x.act) else s }

def oYield (x : Issue) : Out :=
  let r := readTargets x [(x.hn, x.e.mask)]
  { causes := r.1, parks := r.2.1, kind := 4, ctl := some r.2.2,
    post := fun s => if x.act = 0 then s else s.yieldSlot x.g.gid }

def oNop (_ : Issue) : Out := {}

/-- TRAP, and BKPT with no debugger: the cause in the passing lanes, or on to h' when none passes (R116, R431). -/
def oTrapCode (code info : Nat) (always : Bool) (x : Issue) : Out :=
  let r := if always || x.act == 0 then readTargets x [(x.hn, x.e.mask)] else ([], [], [])
  { causes := r.1 ++ (if x.act = 0 then [] else [{ stage := 2, code := code, tfm := x.act, tinfo := info }]),
    parks := r.2.1, kind := 4, ctl := some r.2.2 }
def oTrap (x : Issue) : Out :=
  oTrapCode cTRAP (match x.a with | .i a => a.imm.toNat % 256 | _ => 0) true x
def oBkpt (x : Issue) : Out :=
  oTrapCode (if (x.s.ctx x.g.ctx).dbg then cDEBUGHALT else cBKPT) 0 false x

/-- RTT's read of the header after the clause of a TRAP or BKPT, made once the handler has ended (R117): the group
`g` has left the handler, and `w` is the interrupted warp with its entry `e` still at the trap. -/
def rttNext (s : State) (g : Group) (w : Warp) (e : Entry) (cnt : Nat) (prio : BitVec 8) : State :=
  let hn := e.h + BitVec.ofNat 64 (8 * (cnt + 2))
  let at_ (prio : BitVec 8) : Entry := { e with pc := hn + 8, h := hn, prio := prio, cl := none }
  let place (e' : Entry) (s : State) : State :=
    s.setWarp g.gid w.wid (fun w => { w with entries := sortEntries (e' :: w.entries.drop 1) })
  let trap (c : Cause) : State :=
    let s := place (at_ prio) s
    match s.group g.gid with
    | none => s
    | some g =>
      s.raise g (g.warp w.wid) (some (at_ prio)) { c with taddr := hn } (hn + 8)
  match fetchVia false s g.core g.ctx g.inPriv e.mask hn with
  | .word x =>
    if hdrMark x then place (at_ (hdrPrio x)) s
    else trap { stage := 1, code := cILLCL, tfm := e.mask, taddr := hn, tinfo := 3 }
  | .trap c => trap c
  | .absent lv va =>
    if g.inHandler then
      ((place (at_ prio) s).addFault g.core g.ctx 4 va lv 0 (some (g.gid, w.wid))).setWarp g.gid w.wid (fun w => { w with held := true })
    else
      let wid := g.newWid
      let s := s.addFault g.core g.ctx 4 va lv 0 (some (g.gid, wid))
      s.setGroup g.gid (fun g =>
        let rest := w.entries.drop 1
        let p : Warp := { w with wid := wid, entries := [at_ prio], pend := splitPend w.pend e.mask, parked := true }
        let keep := rest.foldl (fun m e => m ||| e.mask) (0 : Mask)
        let g := g.setWarp w.wid (fun w => { w with entries := rest, pend := splitPend w.pend keep })
        { g with warps := g.warps.filter (fun w => !w.entries.isEmpty) ++ [p] })

/-- The end of the handler of a group (R117). -/
def State.rtt (s : State) (g : Group) (h : Handler) : State :=
  let w? := h.intr.bind g.warp
  let code := h.tcause.toNat % 256
  match w? with
  | none => s.setGroup g.gid (fun g => g.endHandler h 0 0 0 none 0)
  | some w =>
    match w.entries with
    | [] => s.setGroup g.gid (fun g => g.endHandler h 0 0 0 none 0)
    | e :: _ =>
      let prio := h.tprio.extractLsb' 0 8
      let s := s.setGroup g.gid (fun g => g.endHandler h e.pc e.h prio e.cl h.rpc)
      if h.tam ≠ 0 ∧ (code = cTRAP ∨ code = cBKPT) then
        match e.cl, s.group g.gid with
        | some cl, some g =>
          (match g.warp w.wid with
           | some w => rttNext s g w { e with mask := h.tam, prio := prio } cl.cnt prio
           | none => s)
        | _, _ => s
      else s

/-- A group that has run a handler: no warp of it has been stalled since before `now` (R322). -/
def Group.afresh (g : Group) (now : Nat) : Group :=
  { g with warps := g.warps.map (fun w => { w with lastIssue := now, waitAt := w.waitAt.map (fun _ => now) }) }
/-- The end of a handler of a TRAP or BKPT waits where the region table lets its next header not be read yet (R117, R302). -/
def rttSnoop (x : Issue) (h : Handler) : List (Nat × Nat × Nat) :=
  match (h.intr.bind x.g.warp).bind Warp.first with
  | none => []
  | some e =>
    match e.cl with
    | none => []
    | some cl =>
      let code := h.tcause.toNat % 256
      if h.tam = 0 ∨ (code ≠ cTRAP ∧ code ≠ cBKPT) then []
      else match fetchWord x.s x.g.core x.g.ctx false e.mask (e.h + BitVec.ofNat 64 (8 * (cl.cnt + 2))) with
        | .absent lv va => if lv = snoopLevel then [(0, va, lv)] else []
        | _ => []
def oRtt (x : Issue) : Out :=
  match x.g.handlers with
  | [] => { causes := [x.ill] }
  | h :: _ => { gone := true, parks := rttSnoop x h, eff := fun s => (s.rtt x.g h).setGroup x.g.gid (fun g =>
      let g := { g.afresh s.bw with issued := g.issued ++ [x.w.wid] }
      if g.dead && g.handlers.isEmpty then { g with stopped := true } else g) }

/-- WAITDC (R118): a fault held on the counter is raised first (R241); otherwise the warp waits until DCN ≤ v. -/
def oWaitdc (x : Issue) : Out :=
  let i := match x.a with | .i a => a.imm.toNat | _ => 0
  let n := i % 8
  if x.act = 0 then {}
  else
    let hc := heldIn x.g x.e.mask (fun k => k == n)
    { causes := hc, stay := decide (i / 8 < x.g.old.dcv n),
      eff := fun s => if i / 8 < x.g.old.dcv n then s.setWarp x.g.gid x.w.wid (fun w => { w with wait := .waitdc n (i / 8) }) else s }

/-- A selected field of REP's target names a V or S register, and its last step one that exists (R78). -/
def repField (sel : Bool) (o : Opd) (f : BitVec 9) (nm1 : Nat) : Bool :=
  !sel || (o.use != .unused && o.use != .raw &&
    ((isV f && decide (f.toNat + nm1 * o.size ≤ 255)) || (isS f && decide (fnum f + nm1 ≤ 63))))
/-- REP's checks of its target (R78). -/
def repOk (i : Instr) (mask nm1 : Nat) : Bool :=
  let n := info i
  let a := args i
  let e := match a with | .e _ => true | _ => false
  let r := match a with | .r _ => true | _ => false
  let rep := match i with | .rep _ => true | _ => false
  !n.ctl && !rep && !e
    && repField (mask.testBit 0) n.d a.d nm1 && repField (mask.testBit 1) (if n.x.use == .raw then { n.x with use := .src } else n.x) a.x nm1
    && repField (mask.testBit 2) (if r then n.y else .no) a.y nm1 && repField (mask.testBit 3) (if r then n.z else .no) a.z nm1
/-- REP (R76 to R79): the repeat state is set for the next instruction. -/
def oRep (x : Issue) : Out :=
  let i := match x.a with | .i a => a.imm.toNat | _ => 0
  let nm1 := i % 64
  let mask := i / 64 % 16
  let ok := match clauseWord x.s x.g.core x.g.ctx x.priv x.e.mask x.cl x.e.h (x.e.pc + 8) with
    | .word w => (match opMap x.cl.eng (opcOf w) with
      | some f => repOk (f w) mask nm1
      | none => true)
    | _ => true
  { causes := if ok then [] else [x.ill],
    post := fun s => s.setWarp x.g.gid x.w.wid (fun w =>
      { w with rpc := BitVec.ofNat 32 (2 ^ 31 + mask * 2 ^ 12 + nm1) }) }

/-- BR (R111). -/
def execBr (a : BArgs) (s : State) : Host.Outcome State Fault Refusal := runIssue s (.br a) oBr
/-- BRX (R112). -/
def execBrx (a : RArgs) (s : State) : Host.Outcome State Fault Refusal := runIssue s (.brx a) oBrx
/-- CALL (R113). -/
def execCall (a : BArgs) (s : State) : Host.Outcome State Fault Refusal := runIssue s (.call a) oCall
/-- CALLX (R113). -/
def execCallx (a : RArgs) (s : State) : Host.Outcome State Fault Refusal := runIssue s (.callx a) oCallx
/-- RET (R113). -/
def execRet (a : RArgs) (s : State) : Host.Outcome State Fault Refusal := runIssue s (.ret a) oBrx
/-- EXIT (R114). -/
def execExitI (a : RArgs) (s : State) : Host.Outcome State Fault Refusal := runIssue s (.exitI a) oExit
/-- YIELD (R115). -/
def execYieldI (a : RArgs) (s : State) : Host.Outcome State Fault Refusal := runIssue s (.yieldI a) oYield
/-- NOP (R115). -/
def execNop (a : RArgs) (s : State) : Host.Outcome State Fault Refusal := runIssue s (.nop a) oNop
/-- REP (R76). -/
def execRep (a : IArgs) (s : State) : Host.Outcome State Fault Refusal := runIssue s (.rep a) oRep
/-- TRAP (R116). -/
def execTrapI (a : IArgs) (s : State) : Host.Outcome State Fault Refusal := runIssue s (.trapI a) oTrap
/-- BKPT (R116). -/
def execBkpt (a : RArgs) (s : State) : Host.Outcome State Fault Refusal := runIssue s (.bkpt a) oBkpt
/-- RTT (R117). -/
def execRtt (a : RArgs) (s : State) : Host.Outcome State Fault Refusal := runIssue s (.rtt a) oRtt
/-- WAITDC (R118). -/
def execWaitdc (a : IArgs) (s : State) : Host.Outcome State Fault Refusal := runIssue s (.waitdc a) oWaitdc

end Sys2Proof.Machine
end

