-- ==== Sys2Proof/Machine/CoreStep.lean ====
section
/-! DEFINITION. The core's own steps: starting a clause (R55, R58), merging at a re-fuse point (R123), a warp's turn, the active set
(R129, R130), the operand collector (R136), and uncorrectable errors (R266, R392). -/

namespace Sys2Proof.Machine

/-! ## Clause start -/

/-- A word is an instruction that control flow allows only at the end of a clause, or a REP (R55). -/
def wordCtl (eng : BitVec 2) (w : DWord) : Bool := match opMap eng (opcOf w) with | some f => (info (f w)).ctl | none => false
def wordRep (eng : BitVec 2) (w : DWord) : Bool := match opMap eng (opcOf w) with | some f => (match f w with | .rep _ => true | _ => false) | none => false

/-- The checks of a whole clause at its head (R55, R59): the cause, or none. `ws` are its instruction words. -/
def clauseCheck (s : State) (g : Group) (e : Entry) (h : DWord) (ws : List DWord) : Option Cause :=
  let eng := hdrEng h
  let n := ws.length
  let c (code info : Nat) : Cause := { stage := 2, code := code, tfm := e.mask, taddr := e.h, tinfo := info }
  let ctl (i : Nat) : Bool := wordCtl eng (ws.getD i 0)
  if !hdrMark h || h.extractLsb' 0 38 != 0#38 then some (c cILLCL 0)
  else if (List.range (n - 1)).any ctl then some (c cILLCL 1)
  else if wordRep eng (ws.getD (n - 1) 0) then some (c cILLCL 2)
  else if eng = 3#2 ∧ !((s.ctx g.ctx).priv || g.inPriv) then some (c cPROT 0)
  else if (eng = 1#2 ∧ g.role ≠ 1) ∨ (eng = 2#2 ∧ g.role ≠ 0) then some (c cROLE eng.toNat)
  else none

/-- What fetching a clause gives (R282): its words after the header, a trap, or a recoverable translation fault. -/
inductive ClauseR
  | words (h : DWord) (ws : List DWord)
  | trap (c : Cause)
  | absent (level va : Nat)
  deriving DecidableEq, Repr

def fetchWords (s : State) (g : Group) (m : Mask) (va : DWord) : Nat → ClauseR
  | 0 => .words 0 []
  | n + 1 =>
    match fetchWord s g.core g.ctx g.inPriv m va with
    | .trap c => .trap c
    | .absent lv a => .absent lv a
    | .word w =>
      match fetchWords s g m (va + 8) n with
      | .words h ws => .words h (w :: ws)
      | r => r
def fetchClause (s : State) (g : Group) (e : Entry) : ClauseR :=
  match fetchWord s g.core g.ctx g.inPriv e.mask e.h with
  | .trap c => .trap c
  | .absent lv a => .absent lv a
  | .word h =>
    if !hdrMark h then .words h []
    else
      match fetchWords s g e.mask (e.h + 8) (hdrCnt h + 1) with
      | .words _ ws => .words h ws
      | r => r

/-- A warp of the program waits at an RF head for others of its group (R123). -/
def rfBlocked (g : Group) (wid : Nat) (e : Entry) : Bool :=
  g.warps.any (fun w => w.wid != wid && w.entries.any (fun q => w.parked || decide (e.prio.toNat < q.prio.toNat)))
/-- Warps that stand at the same clause head with the same PRIO. -/
def rfPeers (g : Group) (e : Entry) : List Warp :=
  g.warps.filter (fun w => !w.parked && (match w.first with | some q => q.pc == e.pc && q.h == e.h && q.prio == e.prio && q.cl.isNone | none => false))
/-- The position of a warp that stands at a clause head, for parking its lanes. -/
def headIssue (s : State) (g : Group) (w : Warp) (e : Entry) : Issue :=
  { s := s, g := g, w := w, e := e, cl := { eng := 0, cnt := 0, yld := false }, n := info (.nop {}), a := args (.nop {}),
    act := e.mask, full := false, k := 0, rmask := 0, last := false, more := false }
/-- The fetch of a clause fills the instruction cache (R281). -/
def State.fillClause (s : State) (g : Group) (h : DWord) : Nat → State
  | 0 => s.fillIc g.core g.ctx h
  | n + 1 => (s.fillClause g h n).fillIc g.core g.ctx (h + BitVec.ofNat 64 (8 * (n + 1)))

/-- A warp that stands at a clause head and may start it. -/
def headOf (s : State) (gid wid : Nat) : Option (Group × Warp × Entry) :=
  match s.group gid with
  | none => none
  | some g =>
    match g.warp wid with
    | none => none
    | some w =>
      match w.entries with
      | [] => none
      | e :: _ =>
        if e.cl.isSome || g.st != .active || g.stopped || g.halted || w.parked || w.held || !g.mayRun wid || (g.ctxStop && !(s.ctx g.ctx).enable) || teamHolds s g then none else some (g, w, e)

/-- CLAUSE_START (R53 to R59): the clause is fetched and checked, faults held for its counters are raised, and once its
counters read zero its first instruction may issue, which tests them as they stand at the start of its own cycle (R58). -/
def execClauseStart (gid wid : Nat) (s : State) : Host.Outcome State Fault Refusal :=
  match headOf s gid wid with
  | none => .next s
  | some (g, w, e) =>
    match fetchClause s g e with
    | .trap c => .next (s.raise g (some w) (some e) c e.pc)
    | .absent lv va => .next (parkLanes (headIssue s g w e) e.mask 4 va lv)
    | .words h ws =>
      match clauseCheck s g e h ws with
      | some c => .next (s.raise g (some w) (some e) c e.pc)
      | none =>
        if hdrRf h && !g.inHandler && (rfBlocked g wid e || decide (1 < (rfPeers g e).length)) then .next s
        else
          match heldIn g e.mask (fun k => decide (k < 6) && (hdrDcw h).getLsbD k) with
          | c :: _ => .next (s.raise g (some w) (some e) c e.pc)
          | [] =>
            if dcwOpen g (hdrDcw h) then .next s
            else
              let cl : Clause := { eng := hdrEng h, cnt := hdrCnt h, yld := hdrYld h, ws := ws, dcw := hdrDcw h }
              let s := s.fillClause g e.h (hdrCnt h + 1)
              .next (s.setWarp gid wid (fun w => { w with entries := { e with cl := some cl } :: w.entries.drop 1 }))

/-- What a warp does next: an instruction that issues, or a state already reached. -/
inductive Turn
  | run (i : Instr)
  | did (s : State)

/-- ILLOP beside what a control-flow instruction's header reads raise, which rank before it (R52, R431). -/
def illegalCtl (o : Issue → Out) (x : Issue) : Out := { o x with causes := (o x).causes ++ [x.ill] }
/-- A word that is no instruction of its clause's space raises ILLOP (R59, R80 to R84). One whose opcode is a control-flow instruction's reads
the headers that instruction does, and no other word (R431). -/
def illegalWord (s : State) (f? : Option Instr) : State :=
  let run (i : Instr) (o : Issue → Out) : State := match runIssue s i (illegalCtl o) with | .next t => t | _ => s
  match f? with
  | some (.br a) => run (.br a) oBr
  | some (.brx a) => run (.brx a) oBrx
  | some (.call a) => run (.call a) oCall
  | some (.callx a) => run (.callx a) oCallx
  | some (.ret a) => run (.ret a) oBrx
  | some (.exitI a) => run (.exitI a) oExit
  | some (.yieldI a) => run (.yieldI a) oYield
  | some (.trapI a) => run (.trapI a) oTrap
  | some (.bkpt a) => run (.bkpt a) oBkpt
  | some (.rtt a) => run (.rtt a) (fun _ => {})
  | _ => run (.nop {}) oNop
/-- The turn of a warp: at a clause head it starts the clause; inside one its next word is decoded. -/
def warpTurn (s : State) (r : WarpRef) : Turn :=
  match s.group r.gid with
  | none => .did s
  | some g =>
    match g.warp r.wid with
    | none => .did s
    | some w =>
      match w.entries with
      | [] => .did s
      | e :: _ =>
        match e.cl with
        | none => .run (.clauseStart r.gid r.wid)
        | some cl =>
          match clauseWord s g.core g.ctx g.inPriv e.mask cl e.h e.pc with
          | .word v =>
            (match decode cl.eng v with
             | .ok i => .run i
             | .error _ => .did (illegalWord s ((opMap cl.eng (opcOf v)).map (fun f => f v))))
          | .trap c => (match s.position (.nop {}) with | none => .did s | some x => .did (takeTrap x c))
          | .absent lv va => (match s.position (.nop {}) with | none => .did s | some x => .did (parkLanes x x.e.mask 4 va lv))

/-- RF_MERGE (R123): every warp of the group that stands at the same RF head merges into one. -/
def execRfMerge (gid wid : Nat) (s : State) : Host.Outcome State Fault Refusal :=
  match headOf s gid wid with
  | none => .next s
  | some (g, _, e) =>
    match fetchWord s g.core g.ctx g.inPriv e.mask e.h with
    | .word h =>
      let ps := rfPeers g e
      let clear := ps.all (fun p => !rfBlocked { g with warps := g.warps.filter (fun w => w.wid == p.wid || !ps.any (fun q => q.wid == w.wid)) } p.wid e)
      if !hdrMark h || !hdrRf h || g.inHandler || decide (ps.length < 2) || !clear then .next s
      else
        let keep := (ps.map (fun p => p.wid)).min?.getD wid
        .next (s.setGroup gid (fun g =>
          { g with warps := g.warps.filter (fun w => !ps.any (fun q => q.wid == w.wid)) ++ [mergeWarps ps keep e] }))
    | _ => .next s

/-! ## The active set -/

/-- A wait that an outside event ends (R129, R130). -/
def Wait.outside (g : Group) : Wait → Bool
  | .none => false
  | .other => false
  | .fence => false
  | .phase .. => false
  | .bank => false
  | .waitdc n v => decide (v < g.dcv n)
  | _ => true
/-- A warp can go on only after an outside event (R126, R129). -/
def warpWaits (s : State) (g : Group) (w : Warp) : Bool :=
  w.parked || w.held || !g.mayRun w.wid || w.wait.outside g
    || (match w.first with
        | some e => e.cl.isNone && (match fetchWord s g.core g.ctx g.inPriv e.mask e.h with
            | .word h => hdrMark h && (dcwOpen g (hdrDcw h) || (hdrRf h && !g.inHandler && rfBlocked g w.wid e))
            | _ => false)
        | none => true)
/-- Groups of a core in the active set. -/
def activeOn (s : State) (core : Nat) : Nat := (s.groups.filter (fun g => g.core == core && g.st == .active)).length
/-- Ticks of BWCLK in which a core's FCLK makes at least n cycles (R3, R248). -/
def fclkTicks (s : State) (core n : Nat) : Nat := (n * 1000 + (s.cluster (clusterOf core)).fmhz - 1) / (s.cluster (clusterOf core)).fmhz

/-- GROUP_ACTIVATE (R129): the READY group that has waited longest takes a free slot. -/
def execGroupActivate (gid : Nat) (s : State) : Host.Outcome State Fault Refusal :=
  match s.group gid with
  | none => .next s
  | some g =>
    let first := s.groups.all (fun q => !(q.core == g.core && q.st == .ready) || decide (g.since ≤ q.since))
    if g.st != .ready || decide (Config.activeGroups ≤ activeOn s g.core) || !first then .next s
    else .next (s.setGroup gid (fun g => { g with st := .active, since := s.bw, lastIssue := s.bw }))

/-- GROUP_IDLE_TIMEOUT (R129, R130): a group whose every warp waits, or in which none has issued for 32 FCLK, leaves the
active set; the second only at a clause boundary, and where a warp stands inside a clause, at the next one. -/
def execGroupIdleTimeout (gid : Nat) (s : State) : Host.Outcome State Fault Refusal :=
  match s.group gid with
  | none => .next s
  | some g =>
    let waits := g.warps.all (warpWaits s g)
    let other := s.groups.any (fun q => q.core == g.core && q.st == .ready)
    let inClause := g.warps.any (fun w => w.inClause && !w.parked && g.mayRun w.wid)
    if g.st != .active || g.stopped then .next s
    else if waits then .next (s.setGroup gid (fun g => { g with st := .waiting, since := s.bw }))
    else if other && decide (g.lastIssue + fclkTicks s g.core 32 ≤ s.bw) then
      if inClause then .next (s.setGroup gid (fun g => { g with yieldDue := true }))
      else .next (s.setGroup gid (fun g => { g with st := .ready, since := s.bw }))
    else .next s

/-- COLLECTOR_DISPATCH (R135, R136): the oldest instruction of the core's collector goes to the lanes, unless a lane-mode change holds dispatch
(R250). Its operands and
result are those of its issue. -/
def execCollectorDispatch (core : Nat) (s : State) : Host.Outcome State Fault Refusal :=
  match s.groups.find? (fun g => g.core == core && g.coll != 0) with
  | none => .next s
  | some g => if (s.cluster (clusterOf core)).pend then .next s else .next (s.setGroup g.gid (fun g => { g with coll := g.coll - 1 }))

/-! ## Uncorrectable errors -/

/-- SERPT of a cluster records an uncorrectable error (R266): UE, and the core and unit of the first one. -/
def serptUe (core unit_ : Nat) (v : DWord) : DWord :=
  if v.getLsbD 63 then v
  else BitVec.ofNat 64 (2 ^ 63 + (core % 128) * 2 ^ 56 + unit_ * 2 ^ 52 + v.toNat % 2 ^ 52)
def State.serpt (s : State) (core unit_ : Nat) : State :=
  s.setCluster (clusterOf core) (fun k => { k with serpt := serptUe core unit_ k.serpt })
/-- Where SERPT counts the corrected errors of a unit: CERF (0), CESRAM (16) or CETLB (32). -/
def serptField (unit_ : Nat) : Nat := if unit_ = 0 ∨ unit_ = 2 then 0 else if unit_ = 4 then 32 else 16
/-- A single-bit error that is corrected on read, or a TLB entry whose parity is wrong and which is fetched afresh, is counted in SERPT (R134,
R258, R266). A count that reaches 0x8000 has Finat read SERPT, which clears the counts into its log (R392). -/
def State.corrected (s : State) (core unit_ i : Nat) : State :=
  let f := serptField unit_
  let c := clusterOf core
  let v := (s.cluster c).serpt.toNat
  let v' := if field v f 16 = 0xFFFF then v else v + 2 ^ f
  let s := if unit_ = 4 then { s with tlb := s.tlb.eraseIdx (i % s.tlb.length) } else s
  if 64 ≤ c then s
  else if 0x8000 ≤ field v' f 16 then
    { s.setCluster c (fun k => { k with serpt := BitVec.ofNat 64 (v' / 2 ^ 48 * 2 ^ 48) }) with
      pkg := { s.pkg with serlog := s.pkg.serlog ++ [(c, v' % 2 ^ 48)] } }
  else s.setCluster c (fun k => { k with serpt := BitVec.ofNat 64 v' })
/-- The warp that a privileged trap interrupts (R141): of an active group, the one that issued last, where it waits on nothing. -/
def Group.running (g : Group) : Option (Warp × Entry) :=
  if g.st != .active then none
  else
    let ws := g.warps.filter (fun w => g.mayRun w.wid && !w.parked && !w.held && w.wait == .none && w.pass == 0 && w.turn != 0)
    match ws.find? (fun w => ws.all (fun q => decide (q.turn ≤ w.turn))) with
    | none => none
    | some w => w.first.map (fun e => (w, e))
/-- A privileged trap that no instruction raises strikes a group (R141). -/
def State.interrupt (s : State) (g : Group) (c : Cause) : State :=
  match g.running with
  | some (w, e) => s.raise g (some w) (some e) c e.pc
  | none => s.raise g none none c 0
/-- MCHK in one group (R141, R266): the group does not resume. -/
def State.machineCheck (s : State) (gid : Nat) : State :=
  match s.group gid with
  | none => s
  | some g =>
    if g.st = .ended ∨ g.st = .saved ∨ g.stopped then s
    else
      let s := { s with finat := s.finat ++ [(g.ctx, g.gid, cMCHK, 0)] }
      let s := s.interrupt g { stage := 1, code := cMCHK, tfm := 0 }
      (s.setGroup gid (fun g => { g with dead := true })).wakeGroup gid
/-- An accumulator error marks its tile (R196, R266). -/
def Tile.poison (t : Tile) : Tile := if t.fcause = 0 then { t with fcause := cPOISON, faddr := 0 } else t
/-- UNCORRECTABLE_ERROR. `kind` is the unit of SERPT: 0 a register row (`site` the group, `arg` the register), 1 a bank
granule (`site` the team), 2 an accumulator tile (`site` the team), 3 an L1 copy (`site` the core, `arg` the line), 4 the TLBs
of a core and its cluster, 5 control state of a core; 6 is a 64-byte block of T1 or T2 (R392). -/
def execUncorrectableError (kind site arg lanes : Nat) (s : State) : Host.Outcome State Fault Refusal :=
  match kind with
  | 0 =>
    match s.group site with
    | none => .next s
    | some g =>
      if 256 ≤ arg ∨ !(g.vreg arg).isGen then .next s
      else .next ((s.setGroup site (fun g => g.setPois arg (g.vpois arg ||| (BitVec.ofNat 64 lanes &&& g.all)))).serpt g.core 0)
  | 1 =>
    let t := s.team site
    if t.tid ≠ site ∨ t.banks.length * 1024 ≤ arg then .next s
    else .next ((s.setTeam site (fun t => { t with spois := if t.spois.contains arg then t.spois else t.spois ++ [arg] })).serpt t.core 1)
  | 2 =>
    let t := s.team site
    if t.tid ≠ site ∨ t.nt ≤ arg then .next s
    else
      .next ((s.setTeam site (fun t => { t with tiles := Amap.set {} t.tiles arg (Tile.poison (Amap.get {} t.tiles arg)) })).serpt t.core 2)
  | 3 => .next ({ s with l1 := updWhere (fun l => l.core == site && l.line == arg) (fun l => { l with bad := true }) s.l1 }.serpt site 3)
  | 4 => .next ({ s with tlb := s.tlb.filter (fun t => if t.second then t.who != clusterOf site else t.who != site) }.serpt site 4)
  | 5 =>
    let s := s.serpt site 5
    .next ((s.groups.filter (fun g => g.core == site)).foldl (fun (s : State) g => s.machineCheck g.gid) s)
  | _ => if s.poison.contains site then .next s else .next { s with poison := s.poison ++ [site] }

end Sys2Proof.Machine
end

