-- ==== Sys2Proof/Machine/Perm.lean ====
section
/-! DEFINITION. Permutation registers, the network and its solution (R167 to R170), the Crook (R171), and the
permutation instructions (R172 to R179). -/

namespace Sys2Proof.Machine

/-! ## The network -/

/-- The setting of switch `w` at stage `s` (R170). -/
def PReg.sw (p : PReg) (s w : Nat) : Bool := p.img.getLsbD (128 * s + w)
def swBit (s w : Nat) (b : Bool) : BitVec 2048 := if b then 1#2048 <<< (128 * s + w) else 0
/-- Where the network on 2^k inputs placed at stage `s`, switch `w0` sends input `i` (R168). -/
def route (p : PReg) : Nat → Nat → Nat → Nat → Nat
  | 0, _, _, i => i
  | 1, s, w0, i => if p.sw s w0 then 1 - i else i
  | k + 1, s, w0, i =>
    let w := i / 2
    let top := (i % 2 == 1) == p.sw s (w0 + w)
    let o := route p k (s + 1) (if top then w0 else w0 + 2 ^ (k - 1)) w
    let b := p.sw (s + 2 * k) (w0 + o)
    2 * o + (if top == b then 1 else 0)
/-- π as a list of its N values (R167). -/
def PReg.perm (p : PReg) : List Nat := (List.range (2 ^ p.nlog)).map (route p p.nlog 0 0)
/-- π of any element: those at or above N are fixed. -/
def PReg.at_ (p : PReg) (i : Nat) : Nat := if i < 2 ^ p.nlog then route p p.nlog 0 0 i else i
/-- The element that π sends to a position. -/
def invAt (ps : List Nat) (j : Nat) : Nat := if j < ps.length then ps.idxOf j else j

/-- The loop of R169 from element `e`: settings of input and output switches. -/
def solveLoop (ps : List Nat) : Nat → Nat → List (Option Bool) → List (Option Bool) → List (Option Bool) × List (Option Bool)
  | 0, _, a, b => (a, b)
  | f + 1, e, a, b =>
    let o := ps.getD e 0
    match b.getD (o / 2) none with
    | some _ => (a, b)
    | none =>
      let b := modAt (fun _ => some (o % 2 == 1)) (o / 2) b
      let e2 := ps.idxOf (if o % 2 = 0 then o + 1 else o - 1)
      let a := modAt (fun _ => some (e2 % 2 == 0)) (e2 / 2) a
      solveLoop ps f (if e2 % 2 = 0 then e2 + 1 else e2 - 1) a b
/-- The loop for each input switch that is unset, lowest first. -/
def solveSwitches (ps : List Nat) : List Nat → List (Option Bool) → List (Option Bool) → List (Option Bool) × List (Option Bool)
  | [], a, b => (a, b)
  | w :: ws, a, b =>
    match a.getD w none with
    | some _ => solveSwitches ps ws a b
    | none =>
      let r := solveLoop ps (ps.length + 1) (2 * w) (modAt (fun _ => some false) w a) b
      solveSwitches ps ws r.1 r.2
/-- The settings of the network on 2^k inputs that realise π (R169). -/
def solve : Nat → List Nat → Nat → Nat → BitVec 2048
  | 0, _, _, _ => 0
  | 1, ps, s, w0 => swBit s w0 (ps.getD 0 0 == 1)
  | k + 1, ps, s, w0 =>
    let h := 2 ^ k
    let r := solveSwitches ps (List.range h) (List.replicate h none) (List.replicate h none)
    let bit (l : List (Option Bool)) (w : Nat) : Bool := (l.getD w none).getD false
    let top := (List.range h).map (fun w => ps.getD (2 * w + (if bit r.1 w then 1 else 0)) 0 / 2)
    let bot := (List.range h).map (fun w => ps.getD (2 * w + (if bit r.1 w then 0 else 1)) 0 / 2)
    let here := (List.range h).foldl (fun (m : BitVec 2048) w =>
      m ||| swBit s (w0 + w) (bit r.1 w) ||| swBit (s + 2 * k) (w0 + w) (bit r.2 w)) 0
    here ||| solve k top (s + 1) w0 ||| solve k bot (s + 1) (w0 + 2 ^ (k - 1))
def PReg.ofPerm (nlog : Nat) (ps : List Nat) : PReg := { nlog := nlog, img := solve nlog ps 0 0 }

/-- A settings image (R170): the switches, and NLOG in lane 60. -/
def PReg.image (p : PReg) (l : Nat) : Word :=
  p.img.extractLsb' (32 * l) 32 ||| (if l = 60 then BitVec.ofNat 32 p.nlog else 0)
/-- The image bits that exist at NLOG (R170). -/
def imageOk (nlog b : Nat) : Bool := decide (b / 128 < 2 * nlog - 1) && decide (b % 128 < 2 ^ (nlog - 1))
/-- An element of an index vector (R167). -/
def vecElem (N : Nat) (v : VReg) (i : Nat) : Nat :=
  let x := (v.lane (i % 64)).toNat
  if N ≤ 64 then x else if N = 128 then field x (16 * (i / 64)) 16 else field x (8 * (i / 64)) 8
/-- The index vector of π, by lane (R167, R174). -/
def PReg.vector (p : PReg) (l : Nat) : Word :=
  let N := 2 ^ p.nlog
  BitVec.ofNat 32 (if N ≤ 64 then p.at_ l
    else if N = 128 then p.at_ l + 2 ^ 16 * p.at_ (l + 64)
    else p.at_ l + 2 ^ 8 * p.at_ (l + 64) + 2 ^ 16 * p.at_ (l + 128) + 2 ^ 24 * p.at_ (l + 192))
/-- PINV (R175). -/
def PReg.inv (p : PReg) : PReg :=
  let n := p.nlog
  { nlog := n, img := (List.range (2 * n - 1)).foldl (fun m s =>
      (List.range (2 ^ (n - 1))).foldl (fun (m : BitVec 2048) w => m ||| swBit (2 * n - 2 - s) w (p.sw s w)) m) 0 }
/-- PCOMP: pa acts first (R175). -/
def PReg.comp (a b : PReg) : PReg :=
  let n := max a.nlog b.nlog
  PReg.ofPerm n ((List.range (2 ^ n)).map (fun i => b.at_ (a.at_ i)))

/-! ## The random generator (R176) -/

/-- The next state and the value it returns. -/
def rngNext (x0 : DWord) : DWord × DWord :=
  let x := x0 ^^^ (x0 >>> 12)
  let x := x ^^^ (x <<< 25)
  let x := x ^^^ (x >>> 27)
  (x, x * 0x2545F4914F6CDD1D)
def swapAt (l : List Nat) (i j : Nat) : List Nat :=
  modAt (fun _ => l.getD i 0) j (modAt (fun _ => l.getD j 0) i l)
/-- The shuffle of R176 from position `i` down to 1. -/
def shuffle : Nat → DWord → List Nat → DWord × List Nat
  | 0, x, l => (x, l)
  | i + 1, x, l =>
    let r := rngNext x
    let j := r.2.toNat / 2 ^ 32 * (i + 2) / 2 ^ 32
    shuffle i r.1 (swapAt l (i + 1) j)

/-! ## Cycles (R178) -/

/-- The cycle of an element, from it onward, at most `n` long. -/
def cycleFrom (ps : List Nat) (e : Nat) : Nat → Nat → List Nat
  | 0, _ => []
  | n + 1, c => c :: (if ps.getD c c = e then [] else cycleFrom ps e n (ps.getD c c))
def cycleOf (ps : List Nat) (e : Nat) : List Nat := cycleFrom ps e ps.length e
/-- Elements least in their cycle. -/
def cycleHeads (ps : List Nat) : List Nat := (List.range ps.length).filter (fun e => (cycleOf ps e).all (fun c => decide (e ≤ c)))
def cycQuery (p : PReg) (q e : Nat) : Nat :=
  let ps := p.perm
  match q with
  | 0 => (cycleHeads ps).length
  | 1 => ((List.range ps.length).filter (fun i => ps.getD i 0 == i)).length
  | 2 => min ((cycleHeads ps).foldl (fun m e => Nat.lcm m (cycleOf ps e).length) 1) (2 ^ 32 - 1)
  | 3 => if 256 ≤ e then 0 else if ps.length ≤ e then 1 else (cycleOf ps e).length
  | _ => if 256 ≤ e then 0 else if ps.length ≤ e then e else (cycleOf ps e).foldl min e

/-! ## Queueing -/

/-- Crook time (R171). -/
def pldiTime (n : Nat) : Nat := if n ≤ 16 then 12 else if n ≤ 32 then 20 else if n ≤ 64 then 28 else if n ≤ 128 then 52 else 96
def CrookOp.time (o : CrookOp) : Nat :=
  match o.kind with
  | .pldi => pldiTime (2 ^ o.val.nlog)
  | .pcomp => pldiTime (2 ^ max o.val.nlog o.valB.nlog) + 4
  | .prand => pldiTime (2 ^ o.val.nlog) + (2 ^ o.val.nlog + 7) / 8
  | .plds => 4
  | .pinv => 4
  | .pidn => 0
  | _ => 4 + (2 ^ o.val.nlog + 15) / 16
/-- The queue of 8 behind the instruction in the Crook is full (R171). -/
def crookFull (x : Issue) : Bool := decide (9 ≤ ((x.s.core x.g.core).crook.filter (fun o => o.kind != .pidn)).length)
/-- The warp reads register `p` inside the open window of its own write of it (R172): that write. -/
def ownWrite (x : Issue) (p : Nat) : Option Pending := x.w.pend.find? (fun q => q.dst.contains (.p p))
/-- A read of a P register at issue (R172, R179). -/
def readP (x : Issue) (p : Nat) : PReg :=
  match (ownWrite x p).bind (fun q => q.oldP) with
  | some o => o.2
  | none => x.s.preg x.g.team p
/-- A PIDN of the warp that has not applied yet holds its later reads (R175). -/
def pidnDue (x : Issue) (p : Nat) : Bool :=
  (x.s.core x.g.core).crook.any (fun o => o.kind == .pidn && o.gid == x.g.gid && o.wid == x.w.wid && o.pd == p)

/-- An instruction joins the Crook's queue; its result is pending until it completes. -/
def crookOut (x : Issue) (dst : List RegId) (reads : List Nat) (op : CrookOp) (o : Out) : Out :=
  let rid := x.s.nextId
  let pre := reads.filterMap (fun p => (ownWrite x p).map (fun q => (p, q.rid)))
  let olds := reads.filterMap (fun p => (ownWrite x p).bind (fun q => q.oldP))
  let op : CrookOp := { op with rid := rid, gid := x.g.gid, wid := x.w.wid, team := x.g.team, pre := pre, olds := olds }
  { o with
    hold := o.hold || (o.causes.isEmpty && crookFull x), dly := true, ready := false, req := some rid, dst := dst,
    eff := fun s => { (o.eff s).setCore x.g.core (fun c => { c with crook := c.crook ++ [op] }) with nextId := rid + 1 } }
def newOp (k : CrookKind) : CrookOp := { rid := 0, gid := 0, wid := 0, team := 0, kind := k }
def pdOf (x : Issue) : Nat := x.m.toNat / 8
def zOf (x : Issue) : Nat := match x.a with | .r a => a.z.toNat | _ => 0

/-- The V register that X names, which REP may step (R77). -/
def Issue.vecX (x : Issue) : Nat := (x.step 1 x.n.x x.a.x).toNat
/-- POISON of lanes a permutation load reads. -/
def vecPois (x : Issue) (n : Nat) : List Cause :=
  let m := x.g.vpois x.vecX &&& Mask.width n
  if m = 0 then [] else [{ stage := 5, code := cPOISON, tfm := m }]
def permInv (x : Issue) (m : Mask) (low kind : Nat) : Cause :=
  { stage := 6, code := cPERMINV, tfm := m, tinfo := low + 256 * kind + 1024 * pdOf x }

def oPldi (x : Issue) : Out :=
  let n := x.m.toNat % 8 + 1
  let N := 2 ^ n
  let v := x.g.vreg x.vecX
  let es := (List.range N).map (vecElem N v)
  let bad := (List.range N).filter (fun i => decide (N ≤ es.getD i 0) || decide (1 < es.count (es.getD i 0)))
  let cs := match bad with
    | [] => []
    | i :: _ => [permInv x (Mask.where_ (fun l => bad.any (fun b => b % 64 == l))) i (if N ≤ es.getD i 0 then 1 else 0)]
  crookOut x [.p (pdOf x)] [] { newOp .pldi with pd := pdOf x, val := if cs.isEmpty then PReg.ofPerm n es else { nlog := n } }
    { causes := vecPois x (min N 64) ++ cs }

def oPlds (x : Issue) : Out :=
  let v := x.g.vreg x.vecX
  let img : BitVec 2048 := (List.range 64).foldl (fun (m : BitVec 2048) l => m ||| ((v.lane l).zeroExtend 2048 <<< (32 * l))) 0
  let nlog := (v.lane 60).toNat % 16
  let okN := decide (1 ≤ nlog) && decide (nlog ≤ 8)
  let badLane (l : Nat) : Bool :=
    if okN then (List.range 32).any (fun b => (v.lane l).getLsbD b && !(l == 60 && decide (b < 4)) && !imageOk nlog (32 * l + b))
    else l == 60 || (decide (60 < l) && v.lane l != 0)
  let bad := (List.range 64).filter badLane
  let cs := match bad with
    | [] => []
    | l :: _ => [permInv x (Mask.where_ badLane) l 2]
  crookOut x [.p (pdOf x)] []
    { newOp .plds with pd := pdOf x, val := { nlog := nlog, img := img &&& BitVec.ofNat 2048 (2 ^ 1920 - 1) } }
    { causes := (if x.g.width = 64 then [] else [x.ill]) ++ vecPois x 64 ++ cs }

/-- PSTI and PSTS: GEN results written when the Crook completes. -/
def oPst (k : CrookKind) (x : Issue) : Out :=
  let bad := k == .psts && x.g.width != 64
  crookOut x [.v x.fd.toNat] [zOf x]
    { newOp k with pa := zOf x, lanes := x.act, full := x.full, dreg := x.fd.toNat }
    { causes := if bad then [x.ill] else [], writes := x.put32 .z none (fun _ => 0) }
def oPcomp (x : Issue) : Out :=
  crookOut x [.p (pdOf x)] [zOf x % 8, zOf x / 8] { newOp .pcomp with pd := pdOf x, pa := zOf x % 8, pb := zOf x / 8 } {}
def oPinv (x : Issue) : Out := crookOut x [.p (pdOf x)] [zOf x] { newOp .pinv with pd := pdOf x, pa := zOf x } {}
def oPrand (x : Issue) : Out :=
  let n := x.m.toNat % 8 + 1
  let r := shuffle (2 ^ n - 1) x.g.rng (List.range (2 ^ n))
  crookOut x [.p (pdOf x)] [] { newOp .prand with pd := pdOf x, val := PReg.ofPerm n r.2 }
    { eff := fun s => s.setGroup x.g.gid (fun g => { g with rng := r.1 }) }
/-- The queue with an operation placed right after the last one that writes its register. -/
def afterWriter (op : CrookOp) (q : List CrookOp) : List CrookOp :=
  let k := q.length - (q.reverse.takeWhile (fun o => !(o.writesP && o.team == op.team && o.pd == op.pd))).length
  q.take k ++ op :: q.drop k
def oPidn (x : Issue) : Out :=
  let v : PReg := { nlog := x.m.toNat % 8 + 1 }
  let due := (x.s.core x.g.core).crook.any (fun o => o.writesP && o.team == x.g.team && o.pd == pdOf x)
  let op : CrookOp := { newOp .pidn with rid := x.s.nextId, gid := x.g.gid, wid := x.w.wid, team := x.g.team, pd := pdOf x, val := v }
  { dst := [.p (pdOf x)],
    eff := fun s => if due then { s.setCore x.g.core (fun c => { c with crook := afterWriter op c.crook }) with nextId := x.s.nextId + 1 }
      else s.setPreg x.g.team (pdOf x) v }
/-- PAPPLY (R177). A uniform x gives UNI (R143) where every active lane has an active source; a lane that has none keeps its old value, and
the result is then GEN (DEDUCED: one value cannot hold both). -/
def oPapply (x : Issue) : Out :=
  let p := x.opX
  let r := readP x (zOf x)
  let ps := r.perm
  let src (j : Nat) : Nat := invAt ps j
  let old := x.g.vreg x.fd.toNat
  let f (j : Nat) : Word := if Mask.has x.act (src j) then p.at32 (src j) else old.lane j
  if pidnDue x (zOf x) then { hold := true }
  else lateOut x 1 [p]
    { causes := if 6 < r.nlog then [x.ill] else [],
      writes := x.put32 .z (if p.lo.isUni && (Mask.lanes x.act).all (fun j => Mask.has x.act (src j)) then some (.uni (p.at32 0)) else none) f }
def oPcyc (x : Issue) : Out :=
  let q := x.m.toNat % 8
  let p : Opr := if q < 3 then {} else x.opX
  let r := readP x (zOf x)
  let f (l : Nat) : Word := BitVec.ofNat 32 (cycQuery r q (p.at32 l).toNat)
  if pidnDue x (zOf x) then { hold := true }
  else
    crookOut x (if isS x.fd then [.s (fnum x.fd)] else [.v x.fd.toNat]) [zOf x] { newOp .pcyc with pa := zOf x }
      (Out.ofSrcs x [p] { writes := x.put32 .z (if q < 3 || !isV x.a.x then some (.uni (f 0)) else none) f })

/-! ## The Crook's steps -/

/-- CROOK_START (R171, R179): the oldest instruction reaches the Crook and reads the registers in force. -/
def execCrookStart (core : Nat) (s : State) : Host.Outcome State Fault Refusal :=
  match (s.core core).crook with
  | [] => .next s
  | o :: r =>
    if o.started then .next s
    else
      let rd (p : Nat) : PReg := match o.olds.find? (fun q => q.1 == p) with | some q => q.2 | none => s.preg o.team p
      let o : CrookOp :=
        match o.kind with
        | .pcomp => { o with val := rd o.pa, valB := rd o.pb }
        | .pinv => { o with val := rd o.pa }
        | .psti => { o with val := rd o.pa }
        | .psts => { o with val := rd o.pa }
        | .pcyc => { o with val := rd o.pa }
        | _ => o
      .next (s.setCore core (fun c => { c with crook := { o with started := true, endAt := (s.cluster (clusterOf core)).fclk + o.time } :: r }))

/-- The PIDNs that follow a completed write apply (R175). -/
def applyPidns (s : State) : List CrookOp → State × List CrookOp
  | o :: r => if o.kind = .pidn then applyPidns (s.setPreg o.team o.pd o.val) r else (s, o :: r)
  | [] => (s, [])

/-- CROOK_COMPLETE (R171, R173 to R178). -/
def execCrookComplete (core : Nat) (s : State) : Host.Outcome State Fault Refusal :=
  match (s.core core).crook with
  | [] => .next s
  | o :: r =>
    if !o.started || decide ((s.cluster (clusterOf core)).fclk < o.endAt) then .next s
    else
      let width := match s.group o.gid with | some g => g.width | none => 64
      let wr (f : Nat → Word) : List RegWrite :=
        if o.lanes = 0 then [] else if o.full then [.vr o.dreg (VReg.ofFn width f)] else [.vl o.dreg o.lanes ((List.range 64).map f)]
      let new : PReg := match o.kind with
        | .pcomp => o.val.comp o.valB
        | .pinv => o.val.inv
        | _ => o.val
      let old := s.preg o.team o.pd
      let r' := if o.writesP then r.map (fun q => if q.pre.contains (o.pd, o.rid) then { q with olds := (o.pd, old) :: q.olds } else q) else r
      let s := if o.writesP then s.setPreg o.team o.pd new else s
      let s := s.ready o.gid o.rid (fun p =>
        match o.kind with
        | .psti => { p with writes := (wr o.val.vector).map (RegWrite.restrict p.lanes) }
        | .psts => { p with writes := (wr o.val.image).map (RegWrite.restrict p.lanes) }
        | .pcyc => p
        | _ => { p with oldP := some (o.pd, old) })
      let q := applyPidns s r'
      .next (q.1.setCore core (fun c => { c with crook := q.2 }))

/-- PLDI (R173). -/
def execPldi (a : RArgs) (s : State) : Host.Outcome State Fault Refusal := runIssue s (.pldi a) oPldi
/-- PLDS (R173). -/
def execPlds (a : RArgs) (s : State) : Host.Outcome State Fault Refusal := runIssue s (.plds a) oPlds
/-- PSTI (R174). -/
def execPsti (a : RArgs) (s : State) : Host.Outcome State Fault Refusal := runIssue s (.psti a) ((oPst .psti))
/-- PSTS (R174). -/
def execPsts (a : RArgs) (s : State) : Host.Outcome State Fault Refusal := runIssue s (.psts a) ((oPst .psts))
/-- PCOMP (R175). -/
def execPcomp (a : RArgs) (s : State) : Host.Outcome State Fault Refusal := runIssue s (.pcomp a) oPcomp
/-- PINV (R175). -/
def execPinv (a : RArgs) (s : State) : Host.Outcome State Fault Refusal := runIssue s (.pinv a) oPinv
/-- PRAND (R176). -/
def execPrand (a : RArgs) (s : State) : Host.Outcome State Fault Refusal := runIssue s (.prand a) oPrand
/-- PIDN (R175). -/
def execPidn (a : RArgs) (s : State) : Host.Outcome State Fault Refusal := runIssue s (.pidn a) oPidn
/-- PAPPLY (R177). -/
def execPapply (a : RArgs) (s : State) : Host.Outcome State Fault Refusal := runIssue s (.papply a) oPapply
/-- PCYC (R178). -/
def execPcyc (a : RArgs) (s : State) : Host.Outcome State Fault Refusal := runIssue s (.pcyc a) oPcyc

end Sys2Proof.Machine
end

