-- ==== Sys2Proof/Machine/Home.lean ====
section
/-! DEFINITION. What a home does to a line (R272 to R281), the L1 (R275 to R279), scratchpad (R207 to R211), and the
requests of an instruction to them. -/

namespace Sys2Proof.Machine

/-! ## Lines and copies -/

/-- The class of a line (R275): windows are U, and a remote line is S or U (R272, R409). -/
def lineClass (pa : Nat) (l : Leaf) : Nat := if isRemote pa then (if l.coh = 1 then 1 else 2) else if isWindow pa then 2 else l.coh
def State.l1Find (s : State) (core line : Nat) : Option L1Line := s.l1.find? (fun l => l.core == core && l.line == line)
def State.l1Drop (s : State) (core line : Nat) : State :=
  { s with l1 := s.l1.filter (fun l => !(l.core == core && l.line == line)) }
/-- The live object that holds a line, in the Fold table of a die (R278). -/
def State.objectOf (s : State) (die line : Nat) : Option FoldEntry := s.fold.find? (fun f => f.live && f.die == die && f.lines.contains line)
/-- A live object holds bytes of a line (R280). -/
def State.inObject (s : State) (line : Nat) : Bool := s.fold.any (fun f => f.live && f.lines.contains line)
/-- A core's view of an object's phase (R279). -/
def State.viewOf (s : State) (core die index : Nat) : Nat :=
  match s.views.find? (fun v => v.core == core && v.die == die && v.index == index) with | some v => v.phase | none => 0
/-- Lease lengths (R276). -/
def leaseLen (lc : Nat) : Nat := [512, 128, 2048, 8192].getD (lc % 4) 512
/-- A team stands on its core. -/
def Team.stands (t : Team) : Bool := t.st == .resident || t.st == .draining || t.st == .saving || t.st == .flushing || t.st == .dying
/-- Banks that the teams standing on a core claim (R251, R252). -/
def claimedBanks (s : State) (core : Nat) : List Nat := (s.teams.filter (fun t => t.core == core && t.stands)).flatMap (fun t => t.bankNos)
/-- The banks of a core that serve its L1 (R207, R251): 128 lines each. -/
def cacheBanks (s : State) (core : Nat) : List Nat := let c := claimedBanks s core; (List.range 12).filter (fun b => !c.contains b)
/-- The line that gives way in an L1 that is full: the first that the policy keep does not protect (R213). -/
def victim (ls : List L1Line) : Option L1Line := ls.find? (fun l => match l.keep with | some n => decide (16 ≤ n) | none => true)
/-- A line filled into an L1 by a part of a request (R275, R276, R277, R279), with read count `rc`, under its policy (R213): streaming makes it
the first to go, and an L1 that holds nothing but protected lines is not filled. -/
def State.fillL1 (s : State) (core : Nat) (p : Part) (rc : Nat) : State :=
  let line := p.line
  let obj := s.objectOf (dieOf core) line
  let pa := line * 128
  let exp := s.bw + leaseLen p.lc
  let before := s.l1Find core line
  let s := s.l1Drop core line
  let mine := s.l1.filter (fun l => l.core == core)
  let free := (cacheBanks s core).find? (fun b => decide ((mine.filter (fun l => l.bank == b)).length < 128))
  let gone := match before, free with | none, none => victim mine | _, _ => none
  match (match before, free, gone with | some l, _, _ => some l.bank | none, some b, _ => some b | none, none, some v => some v.bank | _, _, _ => none) with
  | none => s
  | some b =>
    let c : L1Line :=
      { core := core, line := line, data := Memory.bytes s.mem pa 128, cls := p.cls, lease := if p.cls = 1 ∧ !s.inObject line then exp else 0, ft := s.bw,
        tag := obj.map (fun o => (o.index, s.viewOf core o.die o.index)), rcnt := rc, bank := b, keep := if p.pol = 3 then some 0 else none }
    let rest := (match gone with | some v => s.l1.erase v | none => s.l1).map (fun (l : L1Line) =>
      if p.pol = 3 ∧ l.core = core ∧ Config.l1Set l.line = Config.l1Set line then { l with keep := l.keep.map (· + 1) } else l)
    let d := dirBits (homeDie pa) core
    { s with l1 := if p.pol = 1 then c :: rest else rest ++ [c] }.setLine line (fun l =>
      if s.inObject line then l
      else if p.cls = 0 then { l with clusters := l.clusters ||| d.1, dieBits := l.dieBits ||| d.2 }
      else if p.cls = 1 then { l with hw := max l.hw exp } else l)
/-- An L1 copy may serve a load (R276, R277, R279, R299), a lease of 0 being none (R280): a tag is not older than the core's view where it lies less than half the range of
phases ahead of it. -/
def l1Serves (s : State) (g : Group) (l : L1Line) : Bool :=
  decide (g.floor ≤ l.ft) && decide (g.seatedAt ≤ l.ft)
    && (match l.tag with
        | some (i, ph) => decide ((ph + 2 ^ 32 - s.viewOf l.core (dieOf l.core) i % 2 ^ 32) % 2 ^ 32 < 2 ^ 31)
        | none => l.cls != 1 || l.lease == 0 || decide (s.bw < l.lease))
/-- A hit lowers the read count of a line; at zero the line is dropped (R214). -/
def State.countHit (s : State) (core line : Nat) : State :=
  match s.l1Find core line with
  | none => s
  | some l =>
    if l.rcnt = 0 then s
    else if l.rcnt = 1 then s.l1Drop core line
    else { s with l1 := updWhere (fun q => q.core == core && q.line == line) (fun q => { q with rcnt := q.rcnt - 1 }) s.l1 }

/-- Bytes of a line with some of them replaced. -/
def patch (data : List Byte) (o : Nat) : List Byte → List Byte
  | [] => data
  | b :: r => patch (modAt (fun _ => b) o data) (o + 1) r
def State.l1Patch (s : State) (core pa : Nat) (bs : List Byte) : State :=
  { s with l1 := updWhere (fun q => q.core == core && q.line == pa / 128) (fun q => { q with data := patch q.data (pa % 128) bs, rcnt := 0 }) s.l1 }

/-- Blocks of 64 bytes that a list of (address, length) covers whole lose their poison (R392). -/
def clearPoison (s : State) (ws : List (Nat × Nat)) : State :=
  let whole (b : Nat) : Bool := (List.range 64).all (fun k => ws.any (fun w => decide (w.1 ≤ 64 * b + k) && decide (64 * b + k < w.1 + w.2)))
  { s with poison := s.poison.filter (fun b => !whole b) }

/-- The pins that a TFETCH made on lines are dropped. -/
def State.dropPins (s : State) (covers : Nat → Bool) : State :=
  { s with cores := s.cores.map (fun c => (c.1, { c.2 with pins := c.2.pins.filter (fun p => !(covers p.line && p.op.isNone)) })) }
/-- An entry is replaced: a copy or a translation goes, or a slice evicts a line (R273, R274), whose dirty data it writes back
at the cost of the context that dirtied it (R288). -/
def State.replace (s : State) (c : Cached) (i : Nat) : State :=
  match c with
  | .l1 =>
    let k := i % s.l1.length
    if (match s.l1[k]? with | some l => (victim [l]).isSome | none => false) then { s with l1 := s.l1.eraseIdx k } else s
  | .icache => { s with icache := s.icache.eraseIdx (i % s.icache.length) }
  | .tlb => { s with tlb := s.tlb.eraseIdx (i % s.tlb.length) }
  | .walk => { s with walkc := s.walkc.eraseIdx (i % s.walkc.length) }
  | .l2 =>
    match s.lines[i % s.lines.length]? with
    | none => s
    | some l =>
      if !l.inL2 || s.pinned l.line then s
      else (s.writeBack l).dropLine l.line
/-- Dirty lines of tenants' pages that a compute die may hold (R373). -/
def tenantDirtyMax : Nat := 32768
/-- A line is about to become dirty: where it is of a tenant's page and the die holds as many such lines dirty as it may, the oldest is written
back first (R373). -/
def State.makeClean (s : State) (line : Nat) : State :=
  let ds := s.lines.filter (fun l => l.dirty && homeDie (l.line * 128) == homeDie (line * 128))
  if ds.length < tenantDirtyMax then s
  else
    let ts := ds.filter (fun l => tenantLine s l.line)
    if ts.length < tenantDirtyMax || !tenantLine s line then s
    else
      match ts.find? (fun l => ts.all (fun q => decide (l.dirtyAt ≤ q.dirtyAt))) with
      | none => s
      | some l => (s.writeBack l).setLine l.line (fun q => { q with dirty := false, old := [] })
/-- Writes of one agent performed at the home of one line (R273, R275, R280, R281): where its slice holds the line it is dirty there.
Answers the state and the GWCT without the acknowledgements; `rid` receives those that count. An invalidation goes where an earlier one has
not yet arrived, too, so that a FENCE covers the copies that still stand there (R296). -/
def State.perform (s : State) (core : Option Nat) (ctx line cls : Nat) (xf : Bool) (rid : Option (Nat × Nat))
    (ws : List (Nat × List Byte)) : State × Nat :=
  let pa := line * 128
  let home := homeDie pa
  let l0 := s.lineSt line
  let obj := s.inObject line
  let old := if l0.dirty then l0.old else Memory.bytes s.mem pa 128
  let s := if l0.dirty || !l0.inL2 then s else s.makeClean line
  let s : State := ws.foldl (fun (q : State) (w : Nat × List Byte) => q.wrBytes w.1 w.2) s
  let s := clearPoison s (ws.map (fun w => (w.1, w.2.length)))
  let s := match core with | some c => ws.foldl (fun (q : State) (w : Nat × List Byte) => q.l1Patch c w.1 w.2) s | none => s
  let ta := s.bw
  let hw := if l0.inL2 then l0.hw else max l0.hw (Amap.get 0 s.eh (sliceKey line))
  let g := if obj then ta else if cls = 1 then max ta hw else ta
  let spare := core.filter (fun c => (s.l1Find c line).isSome && cls == 0 && !obj)
  let own := match spare with | some c => dirBits home c | none => (0, 0)
  let icOnly := obj || cls != 0
  let late := s.invals.filter (fun v => v.line == line && (v.icOnly == icOnly || !v.icOnly))
  let cl := late.foldl (fun (m : BitVec 8) v => m ||| v.clusters) l0.clusters
  let di := late.foldl (fun (m : BitVec 8) v => m ||| v.dieBits) l0.dieBits
  let inv : List Inval :=
    if cl = 0 ∧ di = 0 then []
    else [{ iid := s.nextId, line := line, home := home, clusters := cl, dieBits := di, icOnly := icOnly, spare := spare,
            rid := if cls = 0 ∧ !obj ∨ xf then rid else none }]
  let s := s.setLine line (fun l =>
    let l := { l with wt := g, cp := l.cp || xf, rcnt := 0, clusters := own.1, dieBits := own.2 }
    if l0.inL2 then { l with dirty := true, dirtyBy := ctx, owner := ctx, old := old, dirtyAt := if l0.dirty then l0.dirtyAt else ta } else l)
  ({ s with invals := s.invals ++ inv, nextId := s.nextId + inv.length }, g)

/-- An invalidation reaches every L1 and instruction cache it covers (R274). -/
def State.invalidate (s : State) (v : Inval) : State :=
  let cov (c : Nat) : Bool := covered v.home v.clusters v.dieBits c
  { s with
    l1 := if v.icOnly then s.l1 else s.l1.filter (fun l => !(l.line == v.line && cov l.core && v.spare != some l.core)),
    icache := s.icache.filter (fun l => !(l.line == v.line && cov l.core)) }

/-! ## Scratchpad -/

def bankBytes : Nat := 16384
/-- Granules that n bytes from an offset touch. -/
def granules (o n : Nat) : List Nat := (List.range ((o + n - 1) / 16 - o / 16 + 1)).map (fun k => o / 16 + k)
/-- Tests of a granule's bit read it as it stood at the start of the FCLK cycle (R211). Where two instructions meet in one cycle, a bit that an
LDF.CLR has cleared is not found full by another (R220), nor one that has been set found empty (DESIGN CHOICE). -/
def Team.isFull (t : Team) (g : Nat) : Bool := t.fullWas.contains g
def Team.canClear (t : Team) (g : Nat) : Bool := t.fullWas.contains g && t.full.contains g
def Team.isEmpty (t : Team) (g : Nat) : Bool := !t.fullWas.contains g && !t.full.contains g
def setFull (v : Bool) (gs : List Nat) (l : List Nat) : List Nat :=
  let r := l.filter (fun g => !gs.contains g)
  if v then (r ++ gs.dedup).mergeSort (· ≤ ·) else r
def Team.fifo (t : Team) (o : Nat) : Bool := t.banks.getD (o / bankBytes) false
def Team.rdScratch (t : Team) (o n : Nat) : Nat := leNat (Memory.bytes t.scratch o n)
/-- Bytes written to scratchpad; a granule written whole loses its poison. -/
def Team.wrScratch (t : Team) (o : Nat) (bs : List Byte) : Team :=
  { t with scratch := Memory.store t.scratch o bs,
           spois := t.spois.filter (fun g => !(decide (o ≤ 16 * g) && decide (16 * g + 16 ≤ o + bs.length))) }
def Team.spoisoned (t : Team) (o n : Nat) : Bool := (granules o n).any t.spois.contains

/-- Where a local address leads (R209, R210, R255): the team and offset, or the TINFO of its PROT, or a team that is
being moved. -/
inductive LocalR
  | at_ (tid off : Nat) (cluster : Bool)
  | prot (info : Nat)
  | moving
  deriving DecidableEq, Repr

/-- A bank that a BANKCFG is to change holds the accesses issued after it (R254). -/
def Team.changes (t : Team) (o : Nat) : Bool := match t.bankPend with | some b => b.1 == o / bankBytes | none => false
/-- A local access of n bytes by a team (R210): `write`, and `plain` for LDL, STL and ATOML. What it finds in a bank that changes is checked
after the change (R254). -/
def localAddr (s : State) (t : Team) (a n : Nat) (write plain : Bool) : LocalR :=
  let off := a % 2 ^ 18
  let corei := a / 2 ^ 18 % 2 ^ 7
  let fits (q : Team) : Bool := decide (off + n ≤ bankBytes * q.banks.length) && !(plain && q.fifo off && !q.changes off)
  if 2 ^ 26 ≤ a then .prot 0
  else if a / 2 ^ 25 = 0 then
    if corei ≠ 0 ∨ !fits t then .prot 0 else .at_ t.tid off false
  else
    if !t.cwindows.any (fun w => w.valid && w.core == corei && decide (w.lo ≤ off) && decide (off + n ≤ w.hi) && (w.wr || !write)) then .prot 0
    else
      match s.teams.find? (fun q => q.ctx == t.ctx && q.st != .queued && q.firstCore % 128 == corei && clusterOf q.firstCore == clusterOf t.core && q.st != .ended) with
      | none => .prot 2
      | some q =>
        if q.st = .saved ∨ q.st = .saving then .moving
        else if clusterOf q.core ≠ clusterOf t.core then .prot 2
        else if fits q then .at_ q.tid off true else .prot 0

/-! ## Results of loads -/

/-- Registers that a memory operand of width code WID names. -/
def widRegs (w : Nat) : Nat := if w = 3 then 2 else if w = 4 then 4 else 1
/-- The writes of a load: the value of each lane to a V register, pair or quad, or to an S register. `bad` lanes keep
their old value and are marked poisoned (R432). -/
def valueWrites (width : Nat) (lanes bad : Mask) (full uniform dIsS : Bool) (dreg wid : Nat) (val : Nat → Nat) : List RegWrite :=
  if dIsS then
    if bad ≠ 0 then [.spoison dreg] else [.sr dreg (BitVec.ofNat 64 (val 0))]
  else if lanes = 0 then []
  else
    (List.range (widRegs wid)).flatMap (fun k =>
      let f (l : Nat) : Word := BitVec.ofNat 32 (val l / 2 ^ (32 * k))
      if bad ≠ 0 then [.vl (dreg + k) (lanes &&& ~~~bad) ((List.range 64).map f), .vpoison (dreg + k) (lanes &&& bad)]
      else if full then (if uniform then [.vr (dreg + k) (.uni (f 0))] else [.vr (dreg + k) (VReg.ofFn width f)])
      else [.vl (dreg + k) lanes ((List.range 64).map f)])

/-- A value read from memory in a page's element format, as LDE gives it (R219). -/
def ldeConv (conv : Nat) (daz : Bool) (v : Nat) : Nat :=
  match conv with
  | 1 => truncI 32 (sInt v 8)
  | 2 => toFp32 .fp16 (Fmt.fp16.flushIn daz v)
  | 3 => toFp32 .bf16 (Fmt.bf16.flushIn daz v)
  | 4 => toFp32 .e4m3 (Fmt.e4m3.flushIn daz v)
  | 5 => toFp32 .e5m2 (Fmt.e5m2.flushIn daz v)
  | _ => v

/-- The value a request brought to lane `l`: its own access, or the one that stands for every lane. -/
def Req.val (r : Req) (l : Nat) : Nat :=
  match r.vals.find? (fun p => p.1 == l || p.1 == 64) with | some p => p.2 | none => 0
def Req.writes (r : Req) (width : Nat) : List RegWrite :=
  valueWrites width r.lanes r.bad r.full r.uniform r.dIsS r.dreg r.wid3 r.val

/-- An atomic operation on n-byte values (R222, R223): the new value. -/
def atomNew (op n old x new : Nat) : Nat :=
  let b := 8 * n
  match op with
  | 0 => (old + x) % 2 ^ b
  | 1 => if sInt old b ≤ sInt x b then old else x
  | 2 => if sInt old b ≤ sInt x b then x else old
  | 3 => min old x
  | 4 => max old x
  | 5 => Nat.land old x
  | 6 => Nat.lor old x
  | 7 => Nat.xor old x
  | 8 => x
  | 9 => if old = x then new else old
  | 10 => (Fmt.fp32.add2 { mode := .rne } old x).1
  | 11 => (Fmt.bf16.add2 { mode := .rne } (old % 2 ^ 16) (x % 2 ^ 16)).1
      + 2 ^ 16 * (Fmt.bf16.add2 { mode := .rne } (old / 2 ^ 16) (x / 2 ^ 16)).1
  | 12 => Fmt.fp32.minMax false old x
  | _ => Fmt.fp32.minMax true old x

/-! ## Requests in flight -/

/-- Two accesses of one thread touch a byte in common; lane 64 stands for every lane. -/
def Acc.meets (a b : Acc) : Bool :=
  (a.lane == b.lane || a.lane == 64 || b.lane == 64) && decide (a.pa < b.pa + b.n) && decide (b.pa < a.pa + a.n)
/-- An earlier request of the group must be performed before a later access of the same thread to the same bytes (R48, R292). -/
def conflicts (s : State) (gid rid : Nat) (as : List Acc) : Bool :=
  s.reqs.any (fun r => r.gid == gid && !r.inCluster && decide (r.rid < rid)
    && r.parts.any (fun p => !p.performed && p.accs.any (fun a => as.any (fun b => a.meets b))))
def State.req (s : State) (rid : Nat) : Option Req := s.reqs.find? (fun r => r.rid == rid)
def State.setReq (s : State) (rid : Nat) (f : Req → Req) : State := { s with reqs := updWhere (fun r => r.rid == rid) f s.reqs }
def State.dropReq (s : State) (rid : Nat) : State := { s with reqs := s.reqs.filter (fun r => r.rid != rid) }
/-- Lanes of a request that an access stands for. -/
def Req.laneBits (r : Req) (a : Acc) : Mask := if a.lane = 64 then r.lanes else 1#64 <<< a.lane
/-- Accesses that were not performed (R432): their lanes, and the address of the lowest one. -/
def Req.fail (r : Req) (as : List Acc) : Req :=
  as.foldl (fun (r : Req) a =>
    { r with badAt := if r.bad = 0 ∨ Mask.low (r.laneBits a) < Mask.low r.bad then a.va else r.badAt, bad := r.bad ||| r.laneBits a }) r
/-- A fault is held on a counter's slot, or on the slot without one; a slot holds the earliest, and the arrivals deferred on the counter are
cancelled (R241, R432). -/
def Group.holdFault (g : Group) (k : Nat) (f : HeldFault) : Group :=
  let g := { g with deferred := g.deferred.filter (fun a => a.dc != k) }
  if g.held.any (fun p => p.1 == k) then { g with held := g.held.map (fun p => if p.1 = k then (k, { p.2 with lost := true }) else p) }
  else { g with held := g.held ++ [(k, f)] }
/-- A request that answers registers has all its parts: its result is ready, and its GWCTs join GW (R215). -/
def State.settle (s : State) (rid : Nat) : State :=
  match s.req rid with
  | none => s
  | some r =>
    let answers := match r.kind with | .load => true | .atom _ ret => ret | .store => false
    if !answers || !r.parts.all (fun p => p.done) then s
    else
      let gw := r.parts.foldl (fun m p => max m p.gwct) 0
      let width := match s.group r.gid with | some g => g.width | none => 64
      let s := s.ready r.gid r.rid (fun p => { p with writes := (r.writes width).map (RegWrite.restrict p.lanes) })
      let s := s.setGroup r.gid (fun g =>
        let g := if r.kind = .load then g else g.joinGw gw
        if r.acq then { g with floor := max g.floor r.wt } else g)
      s.dropReq rid

end Sys2Proof.Machine
end

