-- ==== Sys2Proof/Machine/Region.lean ====
section
/-! DEFINITION. The region table (R360 to R363), and the requests of a host to lent memory (R355 to R368). -/

namespace Sys2Proof.Machine

/-! ## What leaves the package -/

/-- An interrupt of a function (R356). -/
def State.msix (s : State) (port fn vector : Nat) : State := { s with out := s.out ++ [(2 ^ 61 + port * 2 ^ 16 + fn, [vector])] }
/-- The answer to a request from outside: its bytes, or 256 for poison. -/
def State.answer (s : State) (id : Nat) (bs : List Nat) : State := { s with out := s.out ++ [(2 ^ 62 + id, bs)] }
/-- An entry of a port's log (R368). -/
def State.portLog (s : State) (p kind addr : Nat) (late : Bool) : State :=
  let v := 2 ^ 63 + late.toNat * 2 ^ 62 + kind % 4 * 2 ^ 60 + field s.bw 10 20 * 2 ^ 40 + field addr 6 34 * 2 ^ 6
  { s with ports := modAt (fun (q : Port) => { q with log := modAt (fun _ => BitVec.ofNat 64 v) q.loghead q.log, loghead := (q.loghead + 1) % 16 }) p s.ports }.msix p 0 0

/-! ## Frames -/

/-- What a frame that a migration has left keeps of a line (R340): its lease high-water, until it has passed. -/
def Line.left (l : Line) : Line := { line := l.line, hw := l.hw }
/-- Nothing of the device lies in a run of frames, and no lease granted for a line there runs (R340). -/
def framesClear (s : State) (pfn n : Nat) : Bool :=
  !s.mem.any (fun c => decide (pfn * 4096 ≤ c.1) && decide (c.1 < (pfn + n) * 4096))
    && !s.lines.any (fun l => decide (pfn * 32 ≤ l.line) && decide (l.line < (pfn + n) * 32) && (l != l.left || decide (s.bw < l.hw)))
    && !s.migs.any (fun m => m.phase == 1 && decide (m.dst < pfn + n) && decide (pfn < m.dst + 2 ^ 18))
/-- The frame the tier manager takes (a free value), in the tier asked for and aligned to the page. -/
def pickFrame (k : Nat) (toT1 : Bool) (o : Nat) : Nat :=
  let r := (Config.freeWord k).toNat
  let n := 2 ^ o
  if toT1 then r % (Config.t2Base / 4096 / n) * n else (Config.t2Base / 4096 / n + r % ((Config.t2End - Config.t2Base) / 4096 / n)) * n
/-- A frame is held compressed (R341). -/
def State.packedAt (s : State) (pa : Nat) : Bool := s.pages.any (fun p => p.packed.contains (pa / 4096))

/-! ## Requests at the table -/

/-- A host request with a MetaValue (0 I, 1 S, 2 A) acts on the table; none where it must wait. -/
def regionAct (s : State) (port pa meta_ order : Nat) : Option State :=
  match s.regionAt pa with
  | none =>
    if meta_ = 0 then some s
    else if regionCap false ≤ (iodRegions s port false).length then none
    else
      let n := newSize s pa (min ((field (s.ports.getD port {}).tenctl.toNat 20 4)) (min order 9))
      some { s with regions := s.regions ++ [{ port := port, base := pa / n * n, size := n, st := if meta_ = 1 then .shared else .host, used := s.bw }] }
  | some r =>
    let r' := { r with used := s.bw }
    match r.st with
    | .shared => some (s.setRegion r [if meta_ = 2 then { r' with st := .host } else r'])
    | .host => some (s.setRegion r [r'])
    | .contested =>
      let i := pa % 4096 / 64
      let set (v : Nat) : List Nat := modAt (fun _ => v) i r.lines
      let l := r.lines.getD i 0
      some (s.setRegion r ({ r' with lines := if meta_ = 0 then set 0 else if meta_ = 2 then set 2 else if l = 2 then r.lines else set 1 }).norm)

/-! ## Host requests -/

/-- The L2s of the compute dies are not used while a compute reset runs (R374). -/
def State.l2Off (s : State) : Bool := s.pkg.reset != .idle
/-- A write from outside performed at its home with its invalidations (R302), and its GWCT, no less than its stamp (R303): at
the home slice, or at the memory controller during a compute reset. -/
def outsideWrite (s : State) (ctx pa cls : Nat) (xf : Bool) (stamp : Nat) (bs : List Byte) : State × Nat :=
  let line := pa / 128
  if s.l2Off then
    let s := clearPoison (s.wrBytes pa bs) [(pa, bs.length)]
    let g := max s.bw stamp
    (s.setLine line (fun l => { l with wt := g, cp := l.cp || xf }), g)
  else
    let id := s.nextId
    let r := ((s.pageWritten line).touchLine line ctx 0 .write true).perform none ctx line cls xf none [(pa, bs)]
    let s := (r.1.invals.filter (fun v => decide (id ≤ v.iid))).foldl (fun (q : State) v => q.invalidate v) r.1
    let g := max r.2 stamp
    ({ s with invals := s.invals.filter (fun v => decide (v.iid < id)) }.setLine line (fun l => { l with wt := g }), g)
/-- A write of a host; the agent is no context of the package. -/
def outsideStore (s : State) (pa : Nat) (bs : List Byte) : State := (outsideWrite s Config.contexts pa 0 false 0 bs).1
/-- Kinds of host request: bit 0 a write, bits 2:1 the MetaValue, bit 3 no data. -/
def HostReq.write (q : HostReq) : Bool := q.kind.testBit 0
def HostReq.meta_ (q : HostReq) : Nat := min (q.kind / 2 % 4) 2
def HostReq.noData (q : HostReq) : Bool := q.kind.testBit 3
/-- A request that is not performed: a read gets poison, a write is discarded and completed (R365, R367, R397). -/
def State.refuseHost (s : State) (q : HostReq) : State := s.answer q.hid (if q.write || q.noData then [] else List.replicate 64 256)
/-- The completions of host writes that are due (R302). -/
def State.ackHosts (s : State) : State :=
  let due (q : HostReq) : Bool := q.held == 4 && decide (q.ackAt ≤ s.bw)
  { (s.hostReqs.filter due).foldl (fun (s : State) q => s.answer q.hid []) s with hostReqs := s.hostReqs.filter (fun q => !due q) }
/-- A request performed at the home of its line (R361, R368). A write is completed to the host once BWCLK has passed its GWCT by 2 (R302). -/
def State.hostPerform (s : State) (q : HostReq) (pa : Nat) : State :=
  if q.noData then s.answer q.hid []
  else if q.write then
    let w := outsideWrite s Config.contexts pa 0 false 0 (leBytes 64 q.value)
    { w.1 with hostReqs := w.1.hostReqs ++ [{ q with pa := pa, held := 4, ackAt := w.2 + 2 }] }
  else if s.poisoned pa 64 then (s.refuseHost q).portLog q.port 3 q.addr false
  else s.answer q.hid ((s.rdBytes pa 64).map (fun b => b.toNat))
/-- A host request is tried: performed and gone, or held (`held`: 1 for the table, a snoop or an expansion, 2 untranslatable). -/
def State.hostTry (s : State) (q : HostReq) : State :=
  let gone (s : State) : State := { s with hostReqs := s.hostReqs.filter (fun r => r.hid != q.hid) }
  let hold (s : State) (h : Nat) : State := { s with hostReqs := s.hostReqs.map (fun (r : HostReq) => if r.hid = q.hid then { r with held := h } else r) }
  match tenantTr s q.port q.addr with
  | .ok pa _ o _ =>
    let before := s.hostReqs.any (fun r => r.hid != q.hid && decide (r.hid < q.hid) && r.held == 1 && r.pa / 4096 == pa / 4096 && r.pa != 0)
    let s := { s with hostReqs := s.hostReqs.map (fun (r : HostReq) => if r.hid = q.hid then { r with pa := pa } else r) }.fillTtlb q.port q.addr
    if before || snooped s pa 64 || s.packedAt pa then hold s 1
    else
      match regionAct s q.port pa q.meta_ o with
      | none => hold (s.recall q.port false pa) 1
      | some s => (gone s).hostPerform q pa
  | _ => hold s 2
/-- The L2s have not yet been reset, so that host requests wait (R374, R383). -/
def State.preSwitch (s : State) : Bool := match s.pkg.reset with | .started _ => true | _ => false
/-- Every held request is tried again, in arrival order (R362); before the switch of a compute reset they stay held (R383). -/
def State.serveHosts (s : State) : State := if s.preSwitch then s else (s.hostReqs.filter (fun r => r.held < 3)).foldl (fun (s : State) q => s.hostTry q) s
/-- A CXL port serves its host. -/
def portServes (s : State) (port : Nat) : Bool := let p : Port := s.ports.getD port {}; p.mode == 0 && p.up
/-- HOST_MEM_REQUEST (R357, R361): one 64-byte line at a tenant address; during a level-2 halt it is answered with poison (R397). -/
def execHostMemRequest (port kind addr value : Nat) (s : State) : Host.Outcome State Fault Refusal :=
  if !portServes s port then .next s
  else
    let q : HostReq := { hid := s.nextId, port := port, kind := kind, addr := addr / 64 * 64, value := value, at_ := s.bw }
    let s := { s with nextId := s.nextId + 1 }
    if s.pkg.halt then .next ((s.refuseHost q).portLog port 3 q.addr false)
    else if s.preSwitch then
      match tenantTr s port q.addr with
      | .ok pa _ _ _ => .next { s with hostReqs := s.hostReqs ++ [{ q with pa := pa, held := 1 }] }
      | _ => .next { s with hostReqs := s.hostReqs ++ [{ q with held := 2 }] }
    else .next ({ s with hostReqs := s.hostReqs ++ [q] }.hostTry q)
/-- The longest that a request may be held (R364), in ticks. -/
def hostBound (s : State) (q : HostReq) : Nat :=
  let long := q.held == 2 || s.packedAt q.pa || (s.regionAt q.pa).isNone || s.snoops.any (fun n => n.back && decide (n.base ≤ q.pa) && decide (q.pa < n.base + n.size))
  if s.pkg.reset != .idle then 8000 else if long then 2500 else 450
/-- HOST_DEADLINE (R365): 100 ns before its bound a request is answered with poison, or discarded, and logged LATE. An
untranslatable one stays with Finat, for later requests only. -/
def execHostDeadline (hid : Nat) (s : State) : Host.Outcome State Fault Refusal :=
  match s.hostReqs.find? (fun r => r.hid == hid && decide (r.held < 3)) with
  | none => .next s
  | some q =>
    if s.bw + 100 < q.at_ + hostBound s q then .next s
    else
      let s := { s with hostReqs := if q.held = 2 then s.hostReqs.map (fun (r : HostReq) => if r.hid = hid then { r with held := 3 } else r)
                                    else s.hostReqs.filter (fun r => r.hid != hid) }
      .next ((s.refuseHost q).portLog q.port (if q.write then 1 else 0) q.addr true)

/-- A 64-byte line comes back dirty from a snoop with bytes of the host (free values) (R361). -/
def State.dirtyBack (s : State) (pa : Nat) (drop : Bool) : State :=
  let k := s.choice
  let s := { s with choice := k + 1 }
  if Config.freeBool k && !drop then outsideStore s pa ((List.range 64).map (fun j => Config.outsideByte (pa + j) k)) else s
/-- BISNP_COMPLETE (R361 to R363): the host's copies of the range are gone or clean, and what waited goes on. -/
def execBisnpComplete (hid : Nat) (s : State) : Host.Outcome State Fault Refusal :=
  match s.snoops.find? (fun q => q.hid == hid) with
  | none => .next s
  | some q =>
    let holds (pa : Nat) : Nat := match s.regionAt pa with
      | some r => (match r.st with | .shared => 1 | .host => 2 | .contested => r.lines.getD (pa % 4096 / 64) 0)
      | none => 0
    let ls := (List.range (q.size / 64)).map (fun k => q.base + 64 * k)
    let s' := (ls.filter (fun pa => holds pa == 2)).foldl (fun (s : State) pa => s.dirtyBack pa q.drop) s
    let s' := { s' with snoops := s'.snoops.filter (fun x => x.hid != hid) }
    let s' : State := match s'.regionAt q.base with
      | none => s'
      | some r =>
        if q.back then s'.setRegion r []
        else
          let upd (l : List Nat) (pa : Nat) : List Nat := modAt (fun v => if q.inv then 0 else min v 1) (pa % 4096 / 64) l
          s'.setRegion r ({ r with lines := ls.foldl upd r.lines }).norm
    .next s'.serveHosts

/-! ## Finat and untranslatable requests (R366, R367) -/

/-- A table entry in memory: a leaf of a tenant's 4 KiB page, or the frame of a lower table (R283, R357). -/
def tenantLeaf (s : State) (port pfn : Nat) : Nat := 1 + 4 + pfn * 2 ^ 12 + (port + 1) * 2 ^ 55 + s.nodeId * 2 ^ 64
/-- A zeroed frame of T2, taken now; none where the free choice falls on one in use. -/
def State.takeFrame (s : State) : State × Option Nat :=
  let f := pickFrame s.choice false 0
  let s := { s with choice := s.choice + 1 }
  if framesClear s f 1 then ({ s with lines := s.lines.filter (fun l => l.line / 32 != f) ++ [{ line := f * 32, wt := s.bw }] }, some f) else (s, none)
/-- The tenant's leaf for a page is written, with the tables it lacks. -/
def fillLeaf (port vpn : Nat) : Nat → Nat → State → State
  | 0, tab, s =>
    match s.takeFrame with
    | (s, some f) => s.wr (tab + 16 * (vpn % 512)) 16 (tenantLeaf s port f)
    | (s, none) => s
  | k + 1, tab, s =>
    let a := tab + 16 * (vpn / 2 ^ (9 * (k + 1)) % 512)
    let e := s.rd a 16
    if e.testBit 0 && !pteBad s e (k + 1) vpn && !e.testBit 1 then fillLeaf port vpn k (field e 12 36 * 4096) s
    else
      match s.takeFrame with
      | (s, some f) => fillLeaf port vpn k (f * 4096) (s.wr a 16 (1 + f * 2 ^ 12))
      | (s, none) => s
/-- FINAT_UNTRANSLATABLE (R367). -/
def execFinatUntranslatable (hid : Nat) (s : State) : Host.Outcome State Fault Refusal :=
  match s.hostReqs.find? (fun r => r.hid == hid && (r.held == 2 || r.held == 3)) with
  | none => .next s
  | some q =>
    let p : Port := s.ports.getD q.port {}
    let fill := p.tenctl.getLsbD 2 && decide (q.addr < p.tenantSize)
    let there := match tenantTr s q.port q.addr with | .ok .. => true | _ => false
    let gone (s : State) : State := { s with hostReqs := s.hostReqs.filter (fun r => r.hid != hid) }
    if fill || there then
      let s := if there then s else fillLeaf q.port (q.addr / 4096) 3 p.ttroot s
      .next (if q.held = 3 then (gone s).serveHosts else s.serveHosts)
    else if q.held = 3 then .next (gone s)
    else .next (((gone s).refuseHost q).portLog q.port (if q.write then 1 else 0) q.addr false)

end Sys2Proof.Machine
end

