-- ==== Sys2Proof/Machine/Tensor.lean ====
section
/-! DEFINITION. Element formats and blocks (R23 to R26), the accesses of engines to device memory and scratchpad
(R186, R187, R234, R241), and shape records (R233). -/

namespace Sys2Proof.Machine

/-! ## Element formats: codes of R185 -/

def bfpW (f : Nat) : Nat := if 8 ≤ f ∧ f ≤ 14 then f - 6 else 0
def isBfp (f : Nat) : Bool := decide (8 ≤ f) && decide (f ≤ 14)
def isInt (f : Nat) : Bool := f == 4 || f == 7
/-- Bits of an element. -/
def elemBits (f : Nat) : Nat :=
  match f with
  | 0 => 16 | 1 => 16 | 2 => 8 | 3 => 8 | 4 => 8 | 5 => 1 | 6 => 32 | 7 => 32
  | _ => bfpW f
/-- One byte per element in scratchpad (R25). -/
def expanded (f space : Nat) : Bool := space != 0 && isBfp f && (bfpW f == 3 || decide (5 ≤ bfpW f ∧ bfpW f ≤ 7))
def blockSize (bsz : Nat) : Nat := 16 * 2 ^ bsz
/-- A page's FMT code as a record's (R283, R185). -/
def pageFmt (f : Nat) : Nat := [15, 4, 1, 0, 2, 3, 8, 9, 10, 11, 12, 13, 14, 5].getD f 15
/-- The floating-point format of a record code. -/
def recFmt (f : Nat) : Option Fmt :=
  match f with
  | 0 => some .bf16 | 1 => some .fp16 | 2 => some .e4m3 | 3 => some .e5m2 | 6 => some .fp32
  | _ => none
/-- q(E) × m as a value (R23). -/
def bfpVal (w e : Nat) (m : Int) : Fv :=
  if e = 255 then .nan else .fin (decide (m < 0)) m.natAbs ((e : Int) - 127 - ((w : Int) - 1))
/-- The value of an element (R13, R23, R25): floating-point or integer. `exp` is its block's exponent. -/
def elemVal (f space raw exp : Nat) : Fv :=
  match recFmt f with
  | some q => q.decode raw
  | none =>
    if f = 4 then intFv (sInt raw 8)
    else if f = 7 then intFv (sInt raw 32)
    else if f = 5 then intFv (raw % 2)
    else
      let w := bfpW f
      let m := if expanded f space then max (-(2 ^ (w - 1) : Int)) (min ((2 ^ (w - 1) : Int) - 1) (sInt raw 8)) else sInt raw w
      bfpVal w exp m
def elemInt (f raw : Nat) : Int := if f = 4 then sInt raw 8 else if f = 7 then sInt raw 32 else ((raw % 2 : Nat) : Int)

/-- Whether −2^(w−1) ≤ x / q(E) < 2^(w−1) for a finite value (R24). -/
def bfpFits (w e : Nat) (neg : Bool) (m : Nat) (x : Int) : Bool :=
  let q : Int := (e : Int) - 127 - ((w : Int) - 1)
  let lim : Int := q + ((w : Int) - 1)
  -- m × 2^x against 2^lim
  let a := m * 2 ^ (x - min x lim).toNat
  let b := 2 ^ (lim - min x lim).toNat
  if neg then decide (a ≤ b) else decide (a < b)
/-- The nearest integer to x / q(E), ties to even, and whether it is exact. -/
def bfpRound (w e : Nat) (neg : Bool) (m : Nat) (x : Int) : Int × Bool :=
  let q : Int := (e : Int) - 127 - ((w : Int) - 1)
  let d := x - q
  if 0 ≤ d then ((if neg then -1 else 1) * (m * 2 ^ d.toNat : Nat), true)
  else
    let k := (-d).toNat
    let n := m / 2 ^ k
    let r := m % 2 ^ k
    let h := 2 ^ (k - 1)
    let n' := if h < r ∨ (r = h ∧ n % 2 = 1) then n + 1 else n
    ((if neg then -1 else 1) * (n' : Int), r == 0)
/-- BlockEncode (R24): exponent, mantissas, the flags of the block and of each element, and whether each mantissa
saturated. -/
def blockEncode (w : Nat) (xs : List Fv) : Nat × List Int × FFlags × List (FFlags × Bool) :=
  if xs.any (fun x => x == .nan) then (255, xs.map (fun _ => 0), ffIV, xs.map (fun _ => (0, false)))
  else
    let ok (e : Nat) : Bool := xs.all (fun x => match x with | .fin n m q => bfpFits w e n m q | _ => true)
    let found := (List.range 255).find? ok
    let e := found.getD 254
    let lo : Int := -(2 ^ (w - 1) : Int)
    let hi : Int := (2 ^ (w - 1) : Int) - 1
    let one (x : Fv) : Int × FFlags × Bool :=
      match x with
      | .nan => (0, 0, false)
      | .inf n => (if n then lo else hi, ffOF ||| ffIX, true)
      | .fin n m q =>
        let r := bfpRound w e n m q
        let v := max lo (min hi r.1)
        (v, (if r.2 && v == r.1 then 0 else ffIX) ||| (if m != 0 && v == 0 then ffUF else 0), v != r.1)
    let rs := xs.map one
    (e, rs.map (fun r => r.1), if found.isNone then ffOF else 0, rs.map (fun r => (r.2.1, r.2.2)))
/-- The flags that BlockEncode sets (R24). -/
def blockFlags (enc : Nat × List Int × FFlags × List (FFlags × Bool)) : FFlags := enc.2.2.2.foldl (fun f e => f ||| e.1) enc.2.2.1

/-! ## Engine accesses -/

/-- Why an engine's access stops: a fault and its address, or a translation fault to be resolved. -/
inductive EErr
  | stop (code : Nat) (addr : Nat) (info : Nat)
  | hold (level va kind : Nat)
  deriving DecidableEq, Repr

/-- Who accesses: a core (2^20 plus its die for an engine, which keeps no TLB), a context, and the team whose scratchpad
SPACE 01 names (for an engine, the cluster that SPACE 10 names). `id` is the command's number, 0 for none; `was` is what an MMA's operands may still read (R195). -/
structure Agent where
  core : Nat
  ctx : Nat
  team : Nat
  who : Nat
  id : Nat := 0
  was : Option (List Host.Cell × List (Nat × Amap Byte)) := none
  deriving DecidableEq, Repr

/-- An engine of a die translates afresh (R286). -/
def noCore (die : Nat) : Nat := 2 ^ 20 + die
/-- The translation of one byte for an engine. -/
def eTr (s : State) (a : Agent) (k : AccK) (va : Nat) : Except EErr (Nat × Leaf) :=
  match accessTr s a.core a.ctx k va with
  | .ok pa l => .ok (pa, l)
  | .xlate i => .error (.stop cXLATE va i)
  | .prot i => .error (.stop cPROT va i)
  | .absent lv => if recoverable s a.ctx false va then .error (.hold lv va (k.bits ||| 16)) else .error (.stop cXLATE va 0)
/-- A byte at a physical address as the agent reads it: of an MMA's operand, old or new, each byte by itself, a free choice (R195). -/
def Agent.byte (a : Agent) (s : State) (pa : Nat) : Byte :=
  match a.was with
  | none => s.rdByte pa
  | some w => if !isWindow pa && Config.freeBool (a.id * 2 ^ 64 + pa) then Memory.read w.1 pa else s.rdByte pa
/-- The same of n bytes of a team's scratchpad. -/
def Agent.pad (a : Agent) (s : State) (tid off n : Nat) : Nat :=
  match a.was with
  | none => (s.team tid).rdScratch off n
  | some w =>
    let now : Amap Byte := (s.team tid).scratch
    let old : Amap Byte := match w.2.find? (fun p => p.1 == tid) with | some p => p.2 | none => now
    leNat ((List.range n).map (fun k => Memory.read (if Config.freeBool (a.id * 2 ^ 64 + 2 ^ 60 + tid * 2 ^ 20 + off + k) then old else now) (off + k)))
/-- A byte of device memory read by an engine. Where it must wait for a snoop it is held, with kind 64, or 65 for a write. -/
def eByte (s : State) (a : Agent) (va : Nat) : Except EErr Byte :=
  match eTr s a .read va with
  | .error e => .error e
  | .ok (pa, _) => if !gateOpen s pa false then .error (.hold 0 va 64) else if s.poisoned pa 1 then .error (.stop cPOISON va 0) else .ok (a.byte s pa)
/-- The level at which an instruction that reads a record waits: that of the translation fault, or for a host's copy (R302). -/
def parkLevel (level kind : Nat) : Nat := if 64 ≤ kind then snoopLevel else level
def eBytes (s : State) (a : Agent) (va : Nat) : Nat → Except EErr (List Byte)
  | 0 => .ok []
  | n + 1 =>
    match eByte s a va, eBytes s a (va + 1) n with
    | .ok b, .ok r => .ok (b :: r)
    | .error e, _ => .error e
    | _, .error e => .error e
/-- The page's format admits a record's (R187): none, or the same format and, for blocks, the same geometry. -/
def fmtAdmits (l : Leaf) (fmt bsz dir : Nat) : Bool :=
  l.fmt == 0 || (pageFmt l.fmt == fmt && (!isBfp fmt || (l.bg % 4 == bsz && l.bg / 4 == dir)))
/-- Where a cluster-local address of a copy engine leads (R349): the context's team placed first at the core of the
address, in cluster CL of the engine's die (`a.team`), within its claim. -/
def engineLocal (s : State) (a : Agent) (addr n : Nat) : Except EErr (Nat × Nat) :=
  let x := addr % 2 ^ 32
  let off := x % 2 ^ 18
  let home := (a.core - 2 ^ 20) * 1024 + a.team * 128 + x / 2 ^ 18 % 2 ^ 7
  match s.teams.find? (fun q => q.ctx == a.ctx && q.st != .queued && q.st != .ended && q.firstCore == home) with
  | none => .error (.stop cPROT addr 0)
  | some q =>
    if 2 ^ 26 ≤ x ∨ x / 2 ^ 25 = 0 ∨ bankBytes * q.banks.length < off + n then .error (.stop cPROT addr 0)
    else if q.st = .saved ∨ q.st = .saving then .error (.hold 0 addr 0)
    else .ok (q.tid, off)
/-- Where SPACE 01 or 10 leads, for n bytes. -/
def eLocal (s : State) (a : Agent) (addr n : Nat) (write : Bool) : Except EErr (Nat × Nat) :=
  -- a bank that changes holds the commands issued after its BANKCFG (R254)
  let changing (tid off : Nat) : Bool := match (s.team tid).bankPend with
    | some b => b.1 == off / bankBytes && a.id != 0 && decide (b.2.2 ≤ a.id) | none => false
  let r : Except EErr (Nat × Nat) :=
    if 2 ^ 20 ≤ a.core then engineLocal s a addr n
    else
      match localAddr s (s.team a.team) (addr % 2 ^ 32) n write false with
      | .at_ tid off _ => .ok (tid, off)
      | .prot i => .error (.stop cPROT addr i)
      | .moving => .error (.hold 0 addr 0)
  match r with
  | .ok (tid, off) => if changing tid off then .error (.hold 0 addr 0) else .ok (tid, off)
  | .error e => .error e
/-- n bytes of an operand (R186, R234), the page's format checked for SPACE 00. -/
def eRead (s : State) (a : Agent) (space addr n fmt bsz dir : Nat) : Except EErr Nat :=
  if space = 0 then
    match eTr s a .read addr with
    | .error e => .error e
    | .ok (_, l) =>
      if !fmtAdmits l fmt bsz dir then .error (.stop cPROT addr 0)
      else (match eBytes s a addr n with | .ok bs => .ok (leNat bs) | .error e => .error e)
  else
    match eLocal s a addr n false with
    | .error e => .error e
    | .ok (tid, off) => if (s.team tid).spoisoned off n then .error (.stop cPOISON addr 0) else .ok (a.pad s tid off n)

/-- What an engine's command has done so far: the state, the largest GWCT, its flags, and the bytes it wrote, the last first: to
device memory (0 and the address) or to the scratchpad of a team (one more than its number, and the offset). -/
structure Work where
  s : State
  gw : Nat := 0
  fl : FFlags := 0
  wrote : List (Nat × Nat × List Byte) := []
  deriving Repr

/-- A device write of an engine, with the invalidations it causes applied before the command completes (R240, R275);
copies in the engine's own core are dropped. The home of a line of another node gives the GWCT (R304, R409), a free value. -/
def eStore (w : Work) (a : Agent) (pa : Nat) (l : Leaf) (bs : List Byte) : Work :=
  if isWindow pa then
    let far := isRemote pa
    { w with s := { w.s with out := w.s.out ++ [(pa, bs.map (fun b => b.toNat))], choice := w.s.choice + far.toNat },
             gw := max w.gw (w.s.bw + if far then (Config.freeWord w.s.choice).toNat % 8193 + 40 else 0) }
  else
  let id := w.s.nextId
  let r := ((w.s.pageWritten (pa / 128)).touchLine (pa / 128) a.ctx 0 .write true).perform none a.ctx (pa / 128) (lineClass pa l) l.xf none [(pa, bs)]
  let s := (r.1.invals.filter (fun v => decide (id ≤ v.iid))).foldl (fun (q : State) v => q.invalidate v) r.1
  { w with s := { s with invals := s.invals.filter (fun v => decide (v.iid < id)) }.l1Drop a.core (pa / 128), gw := max w.gw r.2, wrote := (0, pa, bs) :: w.wrote }
/-- n bytes of an element written. -/
def eWrite (w : Work) (a : Agent) (space addr : Nat) (bs : List Byte) (fmt bsz dir : Nat) : Except EErr Work :=
  if space = 0 then
    match eTr w.s a .write addr with
    | .error e => .error e
    | .ok (pa, l) =>
      if !fmtAdmits l fmt bsz dir then .error (.stop cPROT addr 0)
      else if !gateOpen w.s pa true then .error (.hold 0 addr 65)
      else .ok (eStore w a pa l bs)
  else
    match eLocal w.s a addr bs.length true with
    | .error e => .error e
    | .ok (tid, off) =>
      .ok { w with s := w.s.setTeam tid (fun t => t.wrScratch off bs), wrote := (tid + 1, off, bs) :: w.wrote }

/-- Where an element lies in a row that begins at `r`: byte address, shift and bits (R186, R234). -/
def elemPos (f space r x : Nat) : Nat × Nat × Nat :=
  let b := elemBits f
  if expanded f space then (r + x, 0, 8)
  else if 8 ≤ b then (r + x * (b / 8), 0, b)
  else (r + x * b / 8, x * b % 8, b)
def readElem (s : State) (a : Agent) (f space r x bsz dir : Nat) : Except EErr Nat :=
  let p := elemPos f space r x
  match eRead s a space p.1 ((p.2.1 + p.2.2 + 7) / 8) f bsz dir with
  | .ok v => .ok (field v p.2.1 p.2.2)
  | .error e => .error e
def writeElem (w : Work) (a : Agent) (f space r x bsz dir raw : Nat) : Except EErr Work :=
  let p := elemPos f space r x
  let n := (p.2.1 + p.2.2 + 7) / 8
  if p.2.2 = 8 * n then eWrite w a space p.1 (leBytes n raw) f bsz dir
  else
    match eRead w.s a space p.1 n f bsz dir with
    | .error e => .error e
    | .ok v => eWrite w a space p.1 (leBytes n (v / 2 ^ (p.2.1 + p.2.2) * 2 ^ (p.2.1 + p.2.2) + raw % 2 ^ p.2.2 * 2 ^ p.2.1 + v % 2 ^ p.2.1)) f bsz dir

/-- An access that a translation fault holds joins or makes a fault record (R287), each command of an engine once; one that the region table
holds sends its snoop (R302). -/
def engineFault (s : State) (a : Agent) (level va kind : Nat) : State :=
  let asid := (s.ctx a.ctx).asid
  let die := if 2 ^ 20 ≤ a.core then a.core - 2 ^ 20 else dieOf a.core
  let here (f : FaultRec) : Bool := f.asid == asid && f.die == die && f.va.toNat / 4096 == va / 4096 && f.state == 0
  let me : Nat × Nat := (a.core, 16 * a.id + a.who)
  if 64 ≤ kind then (match eTr s a .read va with | .ok (pa, _) => (deviceGate s (pa / 128) (kind == 65) false).1 | .error _ => s)
  else if kind = 0 ∨ s.faults.any (fun f => here f && f.engines.contains me) then s
  else
    let s := s.addFault (if 2 ^ 20 ≤ a.core then die * 1024 else a.core) a.ctx kind va level a.who none
    { s with faults := updWhere here (fun f => { f with engines := f.engines ++ [me] }) s.faults }

/-! ## Shape records (R233) -/

structure Dim where
  stride : Nat := 0
  box : Nat := 1
  orig : Int := 0
  bound : Nat := 1
  deriving DecidableEq, Repr

structure Shape where
  base : Nat
  fmt : Nat
  space : Nat
  ndim : Nat
  bsz : Nat
  bdim : Nat
  expoff : Int
  dims : List Dim
  deriving DecidableEq, Repr

def dimOf (v d : Nat) : Dim :=
  let x := v / 2 ^ (112 + 80 * d)
  { stride := field x 48 32, box := field x 32 16, orig := sInt (field x 16 16) 16, bound := field x 0 16 }
/-- The shape of a record's bits; none where the record is invalid (R233). -/
def shapeOf (v : Nat) : Option Shape :=
  let nd := field v 70 3
  let fmt := field v 64 4
  let bsz := field v 73 2
  let ds := (List.range 5).map (fun d => if d < nd then dimOf v d else {})
  let bad := field v 76 36 != 0 || nd == 0 || decide (5 < nd) || field v 68 2 == 3 || fmt == 15 || bsz == 3
    || (bsz != 0 && !isBfp fmt)
    || (List.range 5).any (fun d => if d < nd then field v (112 + 80 * d) 16 == 0 || field v (112 + 80 * d + 32) 16 == 0
        else field v (112 + 80 * d) 80 != 0)
  if bad then none
  else some { base := field v 0 64, fmt := fmt, space := field v 68 2, ndim := nd, bsz := bsz, bdim := field v 75 1,
              expoff := sInt (field v 160 32) 32, dims := ds }
def Shape.dim (r : Shape) (d : Nat) : Dim := r.dims.getD d {}
def Shape.box (r : Shape) : List Nat := r.dims.map (fun d => d.box)
/-- Element coordinates of a box index. -/
def Shape.coord (r : Shape) (i : List Nat) : List Int := (List.range 5).map (fun d => (r.dim d).orig + (i.getD d 0 : Nat))
def Shape.inBounds (r : Shape) (c : List Int) : Bool :=
  (List.range 5).all (fun d => decide (0 ≤ c.getD d 0) && decide (c.getD d 0 < (r.dim d).bound))
/-- The row start of an element (R234). -/
def Shape.row (r : Shape) (c : List Int) : Nat :=
  (List.range 5).foldl (fun n d => if d = 0 then n else n + (c.getD d 0).toNat * (r.dim d).stride) r.base
/-- The address of the exponent of an element's block (R234). -/
def Shape.expAddr (r : Shape) (c : List Int) : Nat :=
  let b := blockSize r.bsz
  let x (d : Nat) : Nat := (c.getD d 0).toNat
  let n (d : Nat) : Nat := (r.dim d).bound
  let up (k : Nat) : Nat := (k + b - 1) / b
  let outer := x 2 + n 2 * (x 3 + n 3 * x 4)
  let i := if r.bdim = 0 then x 0 / b + up (n 0) * (x 1 + n 1 * outer) else x 0 + n 0 * (x 1 / b + up (n 1) * outer)
  ((r.base : Int) + r.expoff + i).toNat
/-- Every index of a box, dimension 0 fastest. -/
def boxIndices (box : List Nat) : List (List Nat) :=
  box.foldr (fun n acc => acc.flatMap (fun t => (List.range n).map (fun i => i :: t))) [[]]
/-- An element of a tensor and its block's exponent. -/
def Shape.read (r : Shape) (s : State) (a : Agent) (c : List Int) : Except EErr (Nat × Nat) :=
  match readElem s a r.fmt r.space (r.row c) (c.getD 0 0).toNat r.bsz r.bdim with
  | .error e => .error e
  | .ok v =>
    if !isBfp r.fmt then .ok (v, 0)
    else match eRead s a r.space (r.expAddr c) 1 r.fmt r.bsz r.bdim with
      | .ok e => .ok (v, e)
      | .error e => .error e
def Shape.write (r : Shape) (w : Work) (a : Agent) (c : List Int) (raw : Nat) : Except EErr Work :=
  writeElem w a r.fmt r.space (r.row c) (c.getD 0 0).toNat r.bsz r.bdim raw
/-- The physical lines that the box of a device tensor touches: pages it cannot translate are left out. -/
def Shape.pas (r : Shape) (s : State) (a : Agent) : List Nat :=
  ((boxIndices r.box).filterMap (fun i =>
    let c := r.coord i
    if !r.inBounds c then none
    else
      let p := elemPos r.fmt r.space (r.row c) (c.getD 0 0).toNat
      match eTr s a .read p.1 with | .ok (pa, _) => some pa | .error _ => none)).dedup
def Shape.vas (r : Shape) : List Nat :=
  ((boxIndices r.box).filterMap (fun i =>
    let c := r.coord i
    if !r.inBounds c then none else some (elemPos r.fmt r.space (r.row c) (c.getD 0 0).toNat).1)).dedup

end Sys2Proof.Machine
end

