-- ==== Sys2Proof/Machine/Matrix.lean ====
section
/-! DEFINITION. The matrix engine (R180 to R206): gangs and the Hurdle, tile records, MMA, loads and stores of tiles,
pinning, the exception counters, and the current-slew limiter (R259 to R261). -/

namespace Sys2Proof.Machine

def eArgs (x : Issue) : EArgs := match x.a with | .e a => a | _ => {}
def Team.tile (t : Team) (n : Nat) : Tile := Amap.get {} t.tiles n
def State.setTile (s : State) (tid n : Nat) (f : Tile → Tile) : State :=
  s.setTeam tid (fun t => { t with tiles := Amap.set {} t.tiles n (f (t.tile n)) })
def Tile.at_ (t : Tile) (i j : Nat) : Word := Amap.get 0 t.el (64 * i + j)
/-- The groups of a gang (GANGREG.CNT) and this group's position in it (R181). -/
def gangCnt (r : Word) : Nat := field r.toNat 16 3
def gangPos (r : Word) : Nat := field r.toNat 20 3

/-! ## Tile records (R185) -/

structure TRec where
  addr : Nat
  base : Nat
  rows : Nat
  cols : Nat
  rstride : Nat
  estride : Nat
  bsz : Nat
  preg : Nat
  perm : Bool
  trans : Bool
  space : Nat
  fmt : Nat
  expbase : Nat
  deriving DecidableEq, Repr

def trecOf (addr v : Nat) : TRec :=
  { addr := addr, base := field v 0 64, rows := field v 64 16, cols := field v 80 16, rstride := field v 96 32,
    estride := field v 128 32, bsz := field v 178 2, preg := field v 181 3, perm := v.testBit 184, trans := v.testBit 185,
    space := field v 186 2, fmt := field v 188 4, expbase := field v 192 64 }
/-- A record that R190 refuses as ILLOP whatever its use. -/
def trecBad (v : Nat) : Bool :=
  let r := trecOf 0 v
  field v 160 18 != 0 || v.testBit 180 || r.fmt == 15 || r.space == 3 || r.bsz == 3 || r.rows == 0 || r.cols == 0
    || decide (4096 < r.rows) || decide (4096 < r.cols) || (!r.perm && r.preg != 0)
    || (!isBfp r.fmt && (r.bsz != 0 || r.expbase != 0 || r.estride != 0))
/-- Values of one block, or of one chunk. -/
def TRec.block (r : TRec) : Nat := if isBfp r.fmt then blockSize r.bsz else 32
def TRec.rowBytes (r : TRec) : Nat := if expanded r.fmt r.space then r.cols else (r.cols * elemBits r.fmt + 7) / 8
/-- Byte ranges (address, length) of a record's extent: stored rows in ascending order, then the lines of its exponents (R186). `krow` tells
that blocks run along stored rows. -/
def TRec.spans (r : TRec) (krow : Bool) : List (Nat × Nat) :=
  let up (n : Nat) : Nat := (n + r.block - 1) / r.block
  (List.range r.rows).map (fun i => (r.base + i * r.rstride, r.rowBytes)) ++
    (if !isBfp r.fmt then []
     else if krow then (List.range r.rows).map (fun i => (r.expbase + i * r.estride, up r.cols))
     else (List.range (up r.rows)).map (fun q => (r.expbase + q * r.estride, r.cols)))
/-- What an operation of `n` lines of `k` values reads of an operand: a permuted operand may take any stored row. -/
def TRec.part (r : TRec) (krow : Bool) (n k : Nat) : TRec :=
  let r := { r with cols := min r.cols (if krow then k else n) }
  if r.perm then r else { r with rows := min r.rows (if krow then n else k) }
/-- The physical lines of byte ranges, none for one that does not translate. -/
def spanLines (s : State) (a : Agent) (sp : List (Nat × Nat)) : List (Option Nat) :=
  sp.flatMap (fun p => (List.range ((p.1 + p.2 - 1) / 128 - p.1 / 128 + 1)).map (fun k =>
    match eTr s a .read (max p.1 ((p.1 / 128 + k) * 128)) with | .ok (pa, _) => some (pa / 128) | .error _ => none))

/-- What the release checks of an operation give (R190): stage, code, address and TINFO of each cause, the translation
fault that holds the release, and the record. -/
structure RecChk where
  causes : List (Nat × Nat × Nat × Nat) := []
  hold : Option (Nat × Nat × Nat) := none
  bytes : Option (List Byte) := none
/-- The bytes of a record as a number. -/
def RecChk.val (c : RecChk) : Nat := leNat (c.bytes.getD [])
/-- The checks of one record; `bad` are the ILLOP cases of the instruction itself. -/
def recCheck (s : State) (a : Agent) (addr : Nat) (bad : TRec → Bool) : RecChk :=
  let al : List (Nat × Nat × Nat × Nat) := if addr % 32 = 0 then [] else [(3, cALIGN, addr, 0)]
  match eBytes s a addr 32 with
  | .error (.stop c _ i) => { causes := (if c = cPOISON then 5 else 4, c, addr, i) :: al }
  | .error (.hold lv va k) => { causes := al, hold := some (lv, va, k) }
  | .ok bs =>
    let v := leNat bs
    let r := trecOf addr v
    let ill := if trecBad v || bad r then [(2, cILLOP, addr, 0)] else []
    let mis := if (r.space == 0 || r.space == 1) && (r.base % 16 != 0 || r.rstride % 16 != 0) then [(3, cALIGN, r.base, 0)] else []
    { causes := al ++ ill ++ mis, bytes := some bs }
/-- A cluster-local operand lies in a window declared at launch (R193). -/
def windowsOk (s : State) (t : Team) (r : TRec) (krow write : Bool) : List (Nat × Nat × Nat × Nat) :=
  let out (a : Nat) : Bool := match localAddr s t (a % 2 ^ 32) 1 write false with | .prot _ => true | _ => false
  if r.space = 2 then
    match (r.spans krow).find? (fun p => out p.1 || out (p.1 + p.2 - 1)) with
    | some p => [(4, cPROT, p.1, 0)]
    | none => []
  else []

/-! ## Operands -/

/-- The raw element and block exponent at a stored row and column (R186). -/
def TRec.stored (r : TRec) (s : State) (a : Agent) (krow : Bool) (row col : Nat) : Except EErr (Nat × Nat) :=
  if r.rows ≤ row ∨ r.cols ≤ col then .ok (0, 0)
  else
    let dir := if krow then 0 else 1
    match readElem s a r.fmt r.space (r.base + row * r.rstride) col r.bsz dir with
    | .error e => .error e
    | .ok v =>
      if !isBfp r.fmt then .ok (v, 0)
      else
        let ea := if krow then r.expbase + row * r.estride + col / r.block else r.expbase + row / r.block * r.estride + col
        match eRead s a r.space ea 1 r.fmt r.bsz dir with
        | .error e => .error e
        | .ok e => .ok (v, e)
def TRec.value (r : TRec) (s : State) (a : Agent) (krow : Bool) (row col : Nat) : Except EErr Fv :=
  match r.stored s a krow row col with
  | .error e => .error e
  | .ok (v, e) => .ok (elemVal r.fmt r.space v e)
/-- The stored row that is delivered as row `i` (R194). -/
def TRec.src (r : TRec) (p : PReg) (i : Nat) : Nat := if r.perm then (if i < 2 ^ p.nlog then invAt p.perm i else i) else i

/-- The results of a list of reads, or the first error. -/
def collect {α : Type} (f : Nat → Except EErr α) : List Nat → Except EErr (List α)
  | [] => .ok []
  | i :: r =>
    match f i with
    | .error e => .error e
    | .ok v => match collect f r with | .error e => .error e | .ok vs => .ok (v :: vs)

/-- The lines of an operand, by row and column: `n` lines of `k` values (rows of A, columns of B). -/
def operand (s : State) (a : Agent) (r : TRec) (p : PReg) (isB : Bool) (n k : Nat) : Except EErr (List (List Fv)) :=
  let alongRow := r.trans == isB
  collect (fun i => collect (fun q =>
    let row := if alongRow then i else q
    let col := if alongRow then q else i
    r.value s a alongRow (r.src p row) col) (List.range k)) (List.range n)

/-! ## Sums (R27 to R29) and the exception counters (R202) -/

structure MxCnt where
  nanp : Nat := 0
  ovf : Nat := 0
  satur : Nat := 0
  inexact : Nat := 0
  deriving DecidableEq, Repr
def MxCnt.add (a b : MxCnt) : MxCnt :=
  { nanp := a.nanp + b.nanp, ovf := a.ovf + b.ovf, satur := a.satur + b.satur, inexact := a.inexact + b.inexact }
def MxCnt.one (nanp ovf satur inexact : Bool) : MxCnt :=
  { nanp := nanp.toNat, ovf := ovf.toNat, satur := satur.toNat, inexact := inexact.toNat }
/-- Counts added to a team's counters, each saturating at 0xFFFF. -/
def MxCnt.into (c : MxCnt) (mx : DWord) : DWord :=
  let f (k n : Nat) : Nat := min 0xFFFF (field mx.toNat (16 * k) 16 + n) * 2 ^ (16 * k)
  BitVec.ofNat 64 (f 0 c.nanp + f 1 c.ovf + f 2 c.satur + f 3 c.inexact)

/-- The exact sum of products (R27). -/
def sumFv : List Fv → Fv
  | [] => .fin false 0 0
  | p :: ps => ps.foldl (fun a b => (fvAdd .rne a b).1) p
/-- One chunk or block pair of one element (R27, R28, R202). -/
def chunkStep (c : Nat) (as bs : List Fv) : Nat × MxCnt :=
  let o : RoundOpt := { mode := .rne }
  let r1 := Fmt.fp32.roundFv o (sumFv (List.zipWith (fun a b => (fvMul a b).1) as bs))
  let r2 := Fmt.fp32.add2 o r1.1 c
  let old := Fmt.fp32.decode c
  let new := Fmt.fp32.decode r2.1
  let fin := match old with | .fin .. => true | _ => false
  let inf := match new with | .inf _ => true | _ => false
  (r2.1, MxCnt.one (old != .nan && new == .nan) (fin && inf) false ((r1.2 ||| r2.2).getLsbD 0))
def chunks (n : Nat) : Nat → List Fv → List Fv → Nat → Nat × MxCnt
  | 0, _, _, c => (c, {})
  | q + 1, as, bs, c =>
    let r := chunkStep c (as.take n) (bs.take n)
    let t := chunks n q (as.drop n) (bs.drop n) r.1
    (t.1, r.2.add t.2)
def fvToI : Fv → Int
  | .fin n m e => (if n then -1 else 1) * (m * 2 ^ e.toNat : Nat)
  | _ => 0
/-- One element of an MMA (R191): its new value and events. -/
def mmaElem (mode chunk k c : Nat) (as bs : List Fv) : Nat × MxCnt :=
  if mode = 3 ∨ mode = 5 ∨ mode = 6 then
    let term (a b : Fv) : Int :=
      let u := fvToI a; let v := fvToI b
      if mode = 3 then u * v else if mode = 5 then (if u = v then 0 else 1) else (if u = 1 ∧ v = 1 then 1 else 0)
    let t := sInt c 32 + (List.zipWith term as bs).foldl (· + ·) 0
    (truncI 32 t, MxCnt.one false (decide (t < -(2 ^ 31 : Int)) || decide ((2 ^ 31 : Int) ≤ t)) false false)
  else chunks chunk (k / chunk) as bs c
/-- The tile type of a mode (R189): INT32. -/
def modeInt (mode : Nat) : Bool := mode == 3 || mode == 5 || mode == 6
def modeFmt (mode f : Nat) : Bool :=
  match mode with
  | 0 => f == 0
  | 1 => f == 1
  | 2 => f == 2 || f == 3
  | 3 => f == 4
  | 4 => isBfp f
  | _ => f == 5

/-! ## The engine's queue (R204) -/

/-- An operation has neither completed nor left a queue of the core or of its die. -/
def State.outstanding (s : State) (core id : Nat) : Bool :=
  let c := s.core core
  c.mq.any (fun q => q.id == id) || c.copyq.any (fun q => q.id == id) || c.tfetch.any (fun q => q.id == id)
    || s.collectives.any (fun q => q.id == id)
/-- ACLR (R198). -/
def Tile.clear (int32 : Bool) : Tile := { int32 := int32 }
/-- Memory and scratchpad as they stand, for the operands of an MMA (R195). -/
def State.operandsNow (s : State) : List Host.Cell × List (Nat × Amap Byte) := (s.mem, s.teams.map (fun t => (t.tid, t.scratch)))
/-- What a marker held back is ordered before the MMAs behind it (R227, R195), and they start after it. -/
def State.operandsAfter (s : State) (core : Nat) : State :=
  s.setCore core (fun c => { c with mq := c.mq.map (fun q =>
    if q.was.isSome then { q with was := some s.operandsNow, after := (s.cluster (clusterOf core)).lclk } else q) })
/-- Bytes that an AST wrote, as the MMAs behind it must read them (R204). -/
def patchWas (ws : List (Nat × Nat × List Byte)) (was : List Host.Cell × List (Nat × Amap Byte)) : List Host.Cell × List (Nat × Amap Byte) :=
  ws.foldr (fun w m => if w.1 = 0 then (Memory.store m.1 w.2.1 w.2.2, m.2)
    else (m.1, m.2.map (fun p => if p.1 + 1 = w.1 then (p.1, Memory.store p.2 w.2.1 w.2.2) else p))) was
/-- Commands that act at once when they come to the head of the queue: ACLR, MXCLR and markers (R198, R203, R227). -/
def drainMq (core : Nat) : Nat → State → State
  | 0, s => s
  | n + 1, s =>
    match (s.core core).mq with
    | [] => s
    | q :: r =>
      let s' := s.setCore core (fun c => { c with mq := r })
      match q.kind with
      | .aclr => drainMq core n (s'.setTile q.team q.tile (fun _ => Tile.clear q.int32))
      | .mxclr => drainMq core n (s'.setTeam q.team (fun t => { t with
          mx := (List.range 4).foldl (fun (m : DWord) k => if q.mask.testBit k then m &&& ~~~(0xFFFF#64 <<< (16 * k)) else m) t.mx }))
      | .marker => if q.waits.any (fun i => s.outstanding core i) then s else drainMq core n (s'.operandsAfter core)
      | _ => s
def State.drain (s : State) (core : Nat) : State := drainMq core (s.core core).mq.length s
def State.enqueue (s : State) (core : Nat) (q : MCmd) : State :=
  (s.setCore core (fun c => { c with mq := c.mq ++ [q] })).drain core
/-- The type a tile has once the commands released so far have taken effect, and the fault it holds then (R190, R204). -/
def tileType (s : State) (core tid n : Nat) : Bool :=
  (s.core core).mq.foldl (fun b q => if q.team == tid && q.tile == n && (q.kind == .mma || q.kind == .aclr || q.kind == .ald) then q.int32 else b)
    ((s.team tid).tile n).int32
def tileFault (s : State) (core tid n : Nat) : Nat × DWord :=
  let t := (s.team tid).tile n
  if (s.core core).mq.any (fun q => q.team == tid && q.tile == n && q.kind == .aclr) then (0, 0) else (t.fcause, t.faddr)
/-- The deferred fault of a tile is raised (R196). -/
def deferred (s : State) (core tid n : Nat) (m : Mask) : List Cause :=
  let f := tileFault s core tid n
  if f.1 = 0 then [] else [{ stage := 2, code := f.1, tfm := m, taddr := f.2, tinfo := n }]
def writesTile (k : MKind) : Bool := k == .mma || k == .aclr || k == .ald

/-! ## The current-slew limiter (R259 to R261) -/

/-- Falling steps before the first without fillers (R260). -/
def fallSteps (dn : List Nat) : Nat := ((List.range 16).find? (fun f => dn.getD f 0 == 0)).getD 16
/-- Fillers of falling steps that begin after LCLK e, up to LCLK t. -/
def fillersTo (dn : List Nat) (e t : Nat) : Nat :=
  (List.range (fallSteps dn)).foldl (fun n f => n + min (dn.getD f 0) (t - (e + 4 * f))) 0
/-- The engine of a core is live in LCLK t (R259, R260, R263). -/
def engLive (dn : List Nat) (c : Core) (t : Nat) : Bool :=
  match c.eng with
  | .idle => false
  | .preramp => decide (t ≤ c.engEnd + 4 * fallSteps dn)
  | .falling => decide (t ≤ c.engEnd)
  | .live => c.mq.any (fun q => q.granted && !q.started) || decide (t ≤ c.engEnd + 4 * fallSteps dn)
/-- The engine of a core runs fillers or falling steps in LCLK t, with no operation to follow (R260, R263). -/
def engFalls (dn : List Nat) (c : Core) (t : Nat) : Bool :=
  engLive dn c t && !c.mq.any (fun q => q.granted && (!q.started || decide (t ≤ q.occEnd)))
/-- A table of the limiter: UP and DN of each step (R261). -/
def rampTab (k : Cluster) : List Nat × List Nat :=
  match k.profile with
  | 0 => ([1, 1, 2, 2, 4, 4, 8, 8, 16, 16, 32, 32, 64, 64, 128, 128], [4, 3, 2, 1, 0])
  | 1 => ([1, 1, 1, 1, 2, 2, 2, 2, 4, 4, 4, 4, 8, 16, 32, 128], [4, 4, 3, 3, 2, 2, 1, 1, 0])
  | 2 => ([4, 8, 16, 32, 64, 128, 128, 128, 128, 128, 128, 128, 128, 128, 128, 128], [2, 1, 0])
  | _ =>
    let e (i : Nat) : Nat := field (k.ramp.getD (i / 4) 0) (16 * (i % 4)) 16
    ((List.range 16).map (fun i => e i % 256), (List.range 16).map (fun i => field (e i) 8 3))
def coresOf (cluster : Nat) : List Nat := (List.range 128).map (fun i => cluster * 128 + i)
/-- Cores of a cluster that hold any state. -/
def liveCores (s : State) (cluster : Nat) : List Nat := (s.cores.map (fun p => p.1)).filter (fun c => clusterOf c == cluster)
/-- Requests that wait at the limiter: LCLK, core, and the command (none for a pre-ramp). -/
def startRequests (s : State) (cluster : Nat) : List (Nat × Nat × Option Nat) :=
  (liveCores s cluster).flatMap (fun c =>
    let k := s.core c
    k.preReq.map (fun p => (p.1, c, none))
      ++ (k.mq.filter (fun q => q.kind == .mma && !q.granted)).map (fun q => (q.reqAt, c, some q.id)))
def agentOf (g : Group) : Agent := { core := g.core, ctx := g.ctx, team := g.team, who := 1 }
/-- The record of a command, kept with its address before it. -/
def recOf (bs : List Byte) : TRec := trecOf (leNat (bs.take 8)) (leNat (bs.drop 8))
/-- What a command reads of its records, each with the way its blocks run. -/
def MCmd.reads (q : MCmd) : List (TRec × Bool) :=
  let a := recOf q.recA
  let b := recOf q.recB
  match q.kind with
  | .mma => [(a.part (!a.trans) q.m q.k, !a.trans), (b.part b.trans q.n q.k, b.trans)]
  | .ald => [({ a with rows := min a.rows (if a.trans then q.n else q.m), cols := min a.cols (if a.trans then q.m else q.n) }, true)]
  | _ => []
/-- Lines of device memory that a command reads, none for one that does not translate. -/
def MCmd.lines (q : MCmd) (s : State) (a : Agent) : List (Option Nat) :=
  q.reads.flatMap (fun p => if p.1.space = 0 then spanLines s a (p.1.spans p.2) else [])
/-- Both operands lie in scratchpad or in lines that the core holds pinned for others than this operation (R269). -/
def operandsPinned (s : State) (core : Nat) (q : MCmd) : Bool :=
  match s.group q.gid with
  | none => false
  | some g =>
    let held := (((s.core core).pinsAt (s.cluster (clusterOf core)).lclk).filter (fun p => p.op != some q.id)).map (fun p => p.line)
    (q.lines s (agentOf g)).all (fun l => match l with | some l => held.contains l | none => false)
/-- Pins of lines (R193): of the core's own die, and of at most 16,384 lines in all. -/
def State.pinLines (s : State) (core rec team : Nat) (op : Option Nat) (ls : List (Option Nat)) : State :=
  s.setCore core (fun c =>
    let free := 16384 - ((c.pins.map (fun p => p.line)).dedup).length
    let r := ls.foldl (fun (r : List Pin × Nat) l? => match l? with
      | none => r
      | some l =>
        if homeDie (l * 128) ≠ dieOf core ∨ r.1.any (fun p => p.line == l && p.op == op) then r
        else if r.1.any (fun p => p.line == l) then (r.1 ++ [{ line := l, recAt := rec, team := team, op := op }], r.2)
        else if r.2 = 0 then r
        else (r.1 ++ [{ line := l, recAt := rec, team := team, op := op }], r.2 - 1)) (c.pins, free)
    { c with pins := r.1 })
/-- The lines of an operation are pinned as they are fetched (R193). -/
def State.pinOp (s : State) (core : Nat) (q : MCmd) : State :=
  match s.group q.gid with
  | some g => s.pinLines core 0 q.team (some q.id) (q.lines s (agentOf g))
  | none => s
/-- An operation takes up its lines: pins that a TFETCH made on them are now its own (R193, R197). -/
def State.consume (s : State) (core : Nat) (q : MCmd) : State :=
  match s.group q.gid with
  | some g =>
    let ls := q.lines s (agentOf g)
    (s.pinOp core q).setCore core (fun c => { c with pins := c.pins.map (fun p => if p.op.isNone && ls.contains (some p.line) then { p with op := some q.id } else p) })
  | none => s
/-- A grant at LCLK t. -/
def State.grant (s : State) (t : Nat) (r : Nat × Nat × Option Nat) : State :=
  let dn := (s.cluster (clusterOf r.2.1)).dnTab
  let atHand (q : MCmd) : Bool := operandsPinned s r.2.1 q
  s.setCore r.2.1 (fun c =>
    match r.2.2 with
    | some id =>
      let last := match c.eng with
        | .falling => c.engEnd - 4 * fallSteps dn
        | .preramp => min c.engEnd t
        | .live => c.engEnd
        | .idle => 0
      { c with mq := updWhere (fun q => q.id == id) (fun q => { q with granted := true, grantAt := t, pinned := atHand q }) c.mq, eng := .live, engEnd := last }
    | none =>
      match c.preReq with
      | [] => c
      | p :: ps =>
        let c' := { c with preReq := ps }
        if engFalls dn c t then { c' with eng := .preramp, engEnd := max (t + 16 * p.2 - 1) (if c.eng = .preramp then c.engEnd else 0) }
        else if engLive dn c t then c'
        else { c' with eng := .preramp, engEnd := t + 16 * p.2 - 1 })
def requestBefore (a b : Nat × Nat × Option Nat) : Bool := decide (a.1 < b.1) || (a.1 == b.1 && decide (a.2.1 ≤ b.2.1))

/-- A step boundary of the limiter has come at which it acts (R259): it stands outside quiet, or a request waits; it takes none while a
lane mode changes (R250). -/
def limiterDue (s : State) (cluster : Nat) : Bool :=
  let k := s.cluster cluster
  !k.pend && decide (k.stepAt + 4 ≤ k.lclk) && (!k.quiet || !(startRequests s cluster).isEmpty)
/-- LIMITER_STEP (R259): the next step boundary of the cluster, once its LCLK has come. -/
def execLimiterStep (cluster : Nat) (s : State) : Host.Outcome State Fault Refusal :=
  let k := s.cluster cluster
  let b := k.stepAt + 4
  if !limiterDue s cluster then .next s
  else
    let reqs := (startRequests s cluster).filter (fun r => decide (r.1 ≤ b))
    let live := (liveCores s cluster).any (fun c => engLive k.dnTab (s.core c) b)
    if k.quiet && reqs.isEmpty then .next (s.setCluster cluster (fun k => { k with stepAt := b }))
    else if !k.quiet && !live && reqs.isEmpty then .next (s.setCluster cluster (fun k => { k with stepAt := b, quiet := true }))
    else
      let rise := if k.quiet then 0 else min (k.rise + 1) 15
      let tab := if k.quiet then rampTab k else (k.upTab, k.dnTab)
      let s := s.setCluster cluster (fun k => { k with stepAt := b, quiet := false, rise := rise, upTab := tab.1, dnTab := tab.2 })
      .next (((reqs.mergeSort requestBefore).take (tab.1.getD rise 1)).foldl (fun (s : State) r => s.grant b r) s)
/-- The next boundary of a limiter that is quiet and holds no request is the first at or after this LCLK (R259). -/
def State.wakeLimiter (s : State) (cluster : Nat) : State :=
  let k := s.cluster cluster
  if k.quiet && (startRequests s cluster).isEmpty && decide (k.stepAt + 4 < k.lclk) then s.setCluster cluster (fun k => { k with stepAt := (k.lclk - 1) / 4 * 4 })
  else s
/-- A released MMA asks for its start (R259): a continuation is granted at once. -/
def State.startRequest (s : State) (core id : Nat) : State :=
  let k := s.cluster (clusterOf core)
  let c := s.core core
  if !k.pend && engLive k.dnTab c k.lclk then
    let fill := if c.eng = .falling then fillersTo k.dnTab (c.engEnd - 4 * fallSteps k.dnTab) k.lclk else 0
    (s.grant k.lclk (k.lclk, core, some id)).setCluster (clusterOf core) (fun k => { k with fillers := k.fillers + fill })
  else s.setCore core (fun c => { c with mq := updWhere (fun q => q.id == id) (fun q => { q with reqAt := k.lclk }) c.mq })

/-! ## The Hurdle and the release of an MMA -/

def toCauses (m : Mask) (l : List (Nat × Nat × Nat × Nat)) : List Cause :=
  l.map (fun c => { stage := c.1, code := c.2.1, tfm := m, taddr := BitVec.ofNat 64 c.2.2.1, tinfo := c.2.2.2 })
/-- Products per occupied LCLK (R189, R192): eight times the cost of one. -/
def cost8 (mode fmtA : Nat) : Nat := match mode with | 0 => 64 | 1 => 64 | 2 => 32 | 3 => 32 | 4 => 8 * bfpW fmtA | _ => 1
def occupancy (mode fmtA m n k : Nat) : Nat := max 16 ((m * n * k * cost8 mode fmtA + 65535) / 65536)

/-- The release checks of an MMA (R190): its causes, the fault that holds it, or the command. -/
def mmaCheck (s : State) (g : Group) (h : HurdleSt) (m : Mask) : List Cause × Option (Nat × Nat × Nat) × MCmd :=
  let t := s.team g.team
  let n := h.z % 16
  let k := (h.z / 16 + 1) * 32
  let mode := h.mode % 16
  let a := agentOf g
  let d := if n < t.nt then deferred s g.core g.team n m else []
  let ra := recCheck s a h.xv.toNat (fun _ => false)
  let rb := recCheck s a h.yv.toNat (fun _ => false)
  let ta := trecOf h.xv.toNat ra.val
  let tb := trecOf h.yv.toNat rb.val
  let has (r : RecChk) : Bool := r.bytes.isSome
  let unfit (t : TRec) : Bool := !modeFmt mode t.fmt || (mode == 4 && k % blockSize t.bsz != 0)
  let bad := (has ra && unfit ta) || (has rb && unfit tb) || (has ra && has rb && mode == 4 && ta.bsz != tb.bsz)
    || (h.mode.testBit 8 && tileType s g.core g.team n != modeInt mode)
  let cs := ra.causes ++ rb.causes ++ (if decide (t.nt ≤ n) then [(2, cILLOP, 0, 0)] else []) ++ (if bad then [(2, cILLOP, h.xv.toNat, 0)] else [])
    ++ (if has ra && !trecBad ra.val then windowsOk s t ta (!ta.trans) false else [])
    ++ (if has rb && !trecBad rb.val then windowsOk s t tb tb.trans false else [])
  let q : MCmd :=
    { id := s.nextId, team := g.team, gid := g.gid, kind := .mma, tile := n, mode := mode, m := 16 * 2 ^ field h.mode 4 2,
      n := 16 * 2 ^ field h.mode 6 2, k := k, acc := h.mode.testBit 8, int32 := modeInt mode, recA := leBytes 8 h.xv.toNat ++ ra.bytes.getD [],
      recB := leBytes 8 h.yv.toNat ++ rb.bytes.getD [], pA := s.preg g.team ta.preg, pB := s.preg g.team tb.preg }
  if d ≠ [] then (d, none, q) else (toCauses m cs, ra.hold.orElse (fun _ => rb.hold), q)
/-- A release (R182): the command joins the queue, the counters rise, and the start is requested. -/
def State.releaseMma (s : State) (core : Nat) (q : MCmd) (members : List (Nat × Nat)) : State :=
  let s := members.foldl (fun (s : State) p => if p.2 < 6 then s.setGroup p.1 (fun g => g.addDc p.2) else s) s
  let s := { s with nextId := q.id + 1 }.setCore core (fun c => { c with mq := c.mq ++ [{ q with members := members, was := some s.operandsNow }] })
  ((s.wakeLimiter (clusterOf core)).startRequest core q.id).pinOp core q
def hurdleOf (x : Issue) : HurdleSt :=
  let a := eArgs x
  { wid := x.w.wid, gangreg := x.g.gangreg, mode := a.mode.toNat, z := a.z.toNat, xv := (x.opX).at64 0, yv := (x.opY).at64 0,
    q := a.q.toNat, dc := a.dc.toNat, mask := x.e.mask, order := x.s.nextId,
    at_ := (x.s.cluster (clusterOf x.g.core)).fclk }

/-- MMA (R182, R188): a solo group's is released at its issue; a gang's waits at the Hurdle. -/
def oMma (x : Issue) : Out :=
  if x.w.released then {}
  else if !x.g.hurdle.isEmpty then { hold := true }
  else
    let h := hurdleOf x
    let arrive : State → State := fun s => (s.setGroup x.g.gid (fun g => { g with hurdle := [h] })).setWarp x.g.gid x.w.wid
      (fun w => { w.waitOn .hurdle s.bw with released := false })
    if gangCnt x.g.gangreg ≠ 0 then Out.ofSrcs x [x.opX, x.opY] { stay := true, eff := arrive }
    else
      let c := mmaCheck x.s x.g h x.e.mask
      let o : Out :=
        match c.2.1 with
        | some (lv, va, k) => { causes := c.1, stay := true, eff := fun s => engineFault (arrive s) (agentOf x.g) lv va k }
        | none => { causes := c.1, eff := fun s => s.releaseMma x.g.core c.2.2 [(x.g.gid, (eArgs x).dc.toNat)] }
      Out.ofSrcs x [x.opX, x.opY] o

/-- The items of R183, in order. -/
def HurdleSt.items (h : HurdleSt) : List Nat := [h.gangreg.toNat % 2 ^ 16, h.mode, h.z, h.xv.toNat, h.yv.toNat, h.q]
/-- The trap of a group at its MMA. -/
def State.hurdleTrap (s : State) (g : Group) (c : Cause) : State :=
  match g.hurdle with
  | [] => s
  | h :: _ =>
    match g.warp h.wid with
    | none => s
    | some w =>
      match w.entries with
      | [] => s
      | e :: _ =>
        let s := s.setGroup g.gid (fun g => { g with hurdle := [] })
        (s.raise g (some w) (some e) { c with tfm := h.mask } e.pc).wakeGroup g.gid
/-- The groups whose MMAs at the Hurdle go with that of group `g`, in order of their index, and whether they are to be released now: all
have arrived, in an earlier FCLK cycle, and their counters can rise (R182, R137); a team that is saved keeps its arrivals (R206). -/
def gangOf (s : State) (g : Group) (h : HurdleSt) : List Group × Bool :=
  let gs := (if gangCnt h.gangreg = 0 then [g] else (s.groupsOf g.team).filter (fun q => h.gangreg.getLsbD q.index)).mergeSort (fun a b => decide (a.index ≤ b.index))
  let st := (s.team g.team).st
  (gs, (st == .resident || st == .draining) && gs.all (fun q => match q.hurdle with
    | [] => false
    | h :: _ => decide (h.at_ < (s.cluster (clusterOf q.core)).fclk) && !(decide (h.dc < 6) && q.dcFull h.dc)))
/-- What the Hurdle does with the MMAs of a gang: trap its groups, hold them on a translation fault, or release them. -/
inductive HurdlePlan
  | wait
  | trap (gs : List Group) (c : Cause)
  | hold (a : Agent) (level va kind : Nat)
  | go (gs : List Group) (core : Nat) (q : MCmd)
/-- The comparison of R183 and the checks of R190. Traps wait while a member's warp is frozen by its group's handler; a group that has stopped
takes none. -/
def hurdlePlan (s : State) (g0 : Group) : HurdlePlan :=
  match g0.hurdle with
  | [] => .wait
  | h0 :: _ =>
    let q := gangOf s g0 h0
    let gs := q.1
    let frozen := gs.any (fun g => !g.stopped && (match g.hurdle with | h :: _ => !g.mayRun h.wid | [] => false))
    let trap (c : Cause) : HurdlePlan := if frozen then .wait else .trap (gs.filter (fun g => !g.stopped)) c
    match gs, q.2 with
    | low :: _, true =>
      let lh := match low.hurdle with | h :: _ => h | [] => h0
      let differ (g : Group) : List Nat := match g.hurdle with
        | [] => []
        | h :: _ => (List.range 6).filter (fun i => h.items.getD i 0 != lh.items.getD i 0)
      let bad := gs.filter (fun g => !(differ g).isEmpty)
      if !bad.isEmpty then
        trap { stage := 6, code := cGANG, tfm := 0,
               tinfo := bad.foldl (fun n g => n + 2 ^ g.index) 0 + 2 ^ 16 * ((bad.map (fun g => (differ g).headD 0)).min?.getD 0) }
      else
        let c := mmaCheck s low lh lh.mask
        (match pickCause c.1, c.2.1 with
         | some k, _ => trap k
         | none, some (lv, va, k) => .hold (agentOf low) lv va k
         | none, none => .go gs low.core c.2.2)
    | _, _ => .wait
/-- HURDLE_RELEASE (R182, R183, R190). -/
def execHurdleRelease (gid : Nat) (s : State) : Host.Outcome State Fault Refusal :=
  match s.group gid with
  | none => .next s
  | some g0 =>
    match hurdlePlan s g0 with
    | .wait => .next s
    | .trap gs c => .next (gs.foldl (fun (s : State) g => s.hurdleTrap g c) s)
    | .hold a lv va k => .next (engineFault s a lv va k)
    | .go gs core q =>
      let s := s.releaseMma core q (gs.map (fun g => (g.gid, match g.hurdle with | h :: _ => h.dc | [] => 6)))
      .next (gs.foldl (fun (s : State) g => match g.hurdle with
        | h :: _ => (s.setGroup g.gid (fun g => { g with hurdle := [] })).release g.gid h.wid
        | [] => s) s)

/-- GANG (R181). -/
def oGang (x : Issue) : Out :=
  let p := x.opX
  let v := (p.at64 0).toNat
  let mask := v % 2 ^ 16
  let idx := (List.range 16).filter (fun i => mask.testBit i)
  let role (i : Nat) : Bool := match (x.s.groupsOf x.g.team).find? (fun g => g.index == i) with | some g => g.role == 1 | none => false
  let bad := decide (2 ^ 16 ≤ v) || (mask != 0 && (!idx.contains x.g.index || decide (idx.length < 2) || decide (6 < idx.length)
    || idx.any (fun i => decide (x.tm.ngrp ≤ i) || !role i)))
  let reg := if mask = 0 then 0 else mask + idx.length * 2 ^ 16 + (idx.filter (fun i => decide (i < x.g.index))).length * 2 ^ 20
  let cs := needUni x p ++ (if bad && p.uni then [x.ill] else [])
  Out.ofSrcs x [p]
    { causes := cs, hold := cs.isEmpty && p.causes.isEmpty && !x.g.hurdle.isEmpty,
      eff := fun s => s.setGroup x.g.gid (fun g => { g with gangreg := BitVec.ofNat 32 reg }) }

/-! ## The start and end of an operation -/

/-- The LCLK in which the next operation of a core's queue occupies the engine (R192, R259, R269): one whose operands were at hand eight LCLK
after its grant, any other when its first chunk comes, by the sixtieth LCLK at the latest; never before the end of the occupancy in course. -/
def startLclk (s : State) (core : Nat) (q : MCmd) (chunk : Nat) : Nat :=
  max (max (if q.pinned then q.grantAt + 8 else min chunk (q.grantAt + 60)) ((s.core core).engEnd + 1)) q.after
def firstLclk (s : State) (core : Nat) (q : MCmd) : Nat := startLclk s core q (max (s.cluster (clusterOf core)).lclk (q.grantAt + 1))
/-- The last LCLK at which it may start. -/
def lastLclk (s : State) (core : Nat) (q : MCmd) : Nat := startLclk s core q (q.grantAt + 60)
/-- The operation that is next to occupy the engine of a core: it is granted, and no marker stands before it. -/
def nextStart (s : State) (core : Nat) : Option MCmd :=
  let mq := (s.core core).mq
  match mq.find? (fun q => q.kind == .mma && !q.started) with
  | none => none
  | some q => if !q.granted || (mq.takeWhile (fun p => p.id != q.id)).any (fun p => p.kind == .marker) then none else some q
/-- MMA_OCCUPANCY_START (R192, R259, R269): the next granted operation occupies the engine and takes up its lines. -/
def execMmaOccupancyStart (core : Nat) (s0 : State) : Host.Outcome State Fault Refusal :=
  let s := s0.drain core
  match nextStart s core with
  | none => .next s
  | some q =>
    let first := firstLclk s core q
    if (s.cluster (clusterOf core)).lclk < first then .next s
    else
      let e := first + occupancy q.mode (recOf q.recA).fmt q.m q.n q.k - 1
      .next ((s.setCore core (fun c => { c with eng := .live, engEnd := e, mq := updWhere (fun p => p.id == q.id) (fun p => { p with started := true, occEnd := e }) c.mq })).consume core q)

/-- The result of an MMA (R191): the elements of its region, and its events. -/
def mmaResult (s : State) (a : Agent) (q : MCmd) : Except EErr (List (Nat × Word) × MxCnt) :=
  let ra := recOf q.recA
  let rb := recOf q.recB
  match operand s a ra q.pA false q.m q.k, operand s a rb q.pB true q.n q.k with
  | .error e, _ => .error e
  | _, .error e => .error e
  | .ok as, .ok bs =>
    let t := (s.team q.team).tile q.tile
    .ok ((List.range q.m).foldl (fun acc i => (List.range q.n).foldl (fun (acc : List (Nat × Word) × MxCnt) j =>
      let r := mmaElem q.mode ra.block q.k (if q.acc then (t.at_ i j).toNat else 0) (as.getD i []) (bs.getD j [])
      ((64 * i + j, BitVec.ofNat 32 r.1) :: acc.1, acc.2.add r.2)) acc) ([], {}))
def Tile.put (t : Tile) (l : List (Nat × Word)) (int32 : Bool) : Tile :=
  { t with el := l.foldl (fun (m : Amap Word) p => Amap.set 0 m p.1 p.2) t.el, int32 := int32 }

/-- The pins of an operation are released (R193). -/
def Core.unpin (c : Core) (q : MCmd) : Core := { c with pins := c.pins.filter (fun p => p.op != some q.id) }
/-- An operation leaves the queue: its counters fall (R192). -/
def State.finishOp (s : State) (core : Nat) (q : MCmd) : State :=
  let s := q.members.foldl (fun (s : State) p => if p.2 < 6 then
    s.setGroup p.1 (fun g => (g.subDc p.2).wake s.bw) else s) s
  (s.setCore core (fun c => { c with mq := c.mq.filter (fun p => p.id != q.id) })).drain core
/-- The end of occupancy without a continuation (R260). -/
def State.fall (s : State) (core : Nat) : State :=
  let k := s.cluster (clusterOf core)
  let c := s.core core
  if c.eng = .live ∧ c.engEnd < k.lclk ∧ !c.mq.any (fun q => q.granted && (!q.started || decide (k.lclk ≤ q.occEnd))) then
    s.setCore core (fun c => { c with eng := .falling, engEnd := c.engEnd + 4 * fallSteps k.dnTab })
  else s

/-- What an operation at the head of the queue does when it completes without fault: none where it is not yet due. -/
def headOp (s : State) (core : Nat) (kind : MKind) : Option (MCmd × Group) :=
  match (s.core core).mq with
  | [] => none
  | q :: _ =>
    match s.group q.gid with
    | none => none
    | some g => if q.kind = kind then some (q, g) else none
/-- A fault found during an operation (R196): a recoverable one makes its record and holds the engine; any other is
marked on the tile, and the operation's occupancy ends now. -/
def State.opFault (s : State) (core : Nat) (q : MCmd) (a : Agent) (e : EErr) : State :=
  match e with
  | .hold lv va k => (engineFault s a lv va k).setCore core (fun c => { c with mq := updWhere (fun p => p.id == q.id) (fun p => { p with held := true }) c.mq })
  | .stop code va _ =>
    let t := (s.cluster (clusterOf core)).lclk
    let end_ := if q.started then min q.occEnd t else q.occEnd
    let s := (s.dropDenied none (s.ctx a.ctx).asid va).setTile q.team q.tile (fun t => { t with fcause := code, faddr := BitVec.ofNat 64 va })
    s.setCore core (fun c =>
      let last := if q.started && c.engEnd == q.occEnd then end_ else c.engEnd
      { c with engEnd := last, mq := updWhere (fun p => p.id == q.id) (fun p => { p with fault := some (code, BitVec.ofNat 64 va), occEnd := end_ }) c.mq })

/-- The lines an operation has read from device memory (R288, R345). -/
def State.countOp (s : State) (a : Agent) (q : MCmd) : State := s.readLines a.ctx ((q.lines s a).filterMap id).dedup

/-- MMA_COMPLETE (R192, R203): 20 LCLK after its occupancy the head operation writes its region. -/
def execMmaComplete (core : Nat) (s0 : State) : Host.Outcome State Fault Refusal :=
  let s := s0.drain core
  match headOp s core .mma with
  | none => .next s
  | some (q, g) =>
    if !q.started || decide ((s.cluster (clusterOf core)).lclk < q.occEnd + 20) then .next s
    else
      let fin (s : State) : State := ((s.setCore core (fun c => c.unpin q)).fall core).finishOp core q
      match q.fault with
      | some _ => .next (fin s)
      | none =>
        match mmaResult s { agentOf g with id := q.id, was := q.was } q with
        | .error e => .next (s.opFault core q (agentOf g) e)
        | .ok r =>
          let s := (s.setTile q.team q.tile (fun t => t.put r.1 q.int32)).countOp (agentOf g) q
          .next (fin (s.setTeam q.team (fun t => { t with mx := r.2.into t.mx })))

/-! ## ALD and AST -/

/-- The value a stored element loads into a tile (R199). -/
def aldBits (fmt space raw exp : Nat) : Nat :=
  if isInt fmt then truncI 32 (elemInt fmt raw)
  else if fmt = 6 then raw
  else (Fmt.fp32.roundFv { mode := .rne } (elemVal fmt space raw exp)).1
/-- The elements an ALD loads. -/
def aldResult (s : State) (a : Agent) (q : MCmd) : Except EErr (List (Nat × Word)) :=
  let r := recOf q.recA
  match collect (fun i => collect (fun j =>
    let row := if r.trans then j else i
    let col := if r.trans then i else j
    match r.stored s a true row col with
    | .error e => .error e
    | .ok (v, e) => .ok (64 * i + j, (BitVec.ofNat 32 (aldBits r.fmt r.space v e) : Word))) (List.range q.n)) (List.range q.m) with
  | .error e => .error e
  | .ok l => .ok l.flatten
/-- ALD_COMPLETE (R199). -/
def execAldComplete (core : Nat) (s0 : State) : Host.Outcome State Fault Refusal :=
  let s := s0.drain core
  match headOp s core .ald with
  | none => .next s
  | some (q, g) =>
    match q.fault with
    | some _ => .next (s.finishOp core q)
    | none =>
      match aldResult s { agentOf g with id := q.id } q with
      | .error e => .next (s.opFault core q (agentOf g) e)
      | .ok l => .next (((s.setTile q.team q.tile (fun t => { t.put l q.int32 with fcause := 0, faddr := 0 })).countOp (agentOf g) q).finishOp core q)

/-- A value of an FP32 tile converted for a store (R200, R202). -/
def astConv (f : Fmt) (sat : Bool) (x : Nat) (scale : Fv) : Nat × MxCnt :=
  let v := Fmt.fp32.decode x
  let r := convert f { mode := .rne, sat := sat } v scale
  let plain := convert f { mode := .rne } v scale
  let inf := match (fvMul v scale).1 with | .inf _ => true | _ => false
  (r.1, MxCnt.one (v != .nan && f.decode r.1 == .nan) (r.2.getLsbD 2) (sat && (plain.2.getLsbD 2 || inf)) (r.2.getLsbD 0))
/-- A value of an INT32 tile converted for a store. -/
def astInt (fmt : Nat) (sat : Bool) (x : Nat) : Nat × MxCnt :=
  if fmt = 7 then (x, {})
  else
    let v := sInt x 32
    let out := decide (v < -128) || decide (127 < v)
    (truncI 8 (if sat then max (-128) (min 127 v) else v), MxCnt.one false (out && !sat) (out && sat) false)
/-- An AST in course: what it has done, its events, and the fault at which it stopped. -/
structure AstW where
  w : Work
  cnt : MxCnt := {}
  err : Option EErr := none
/-- One write of an AST, with the events it counts when it is made; after a fault there are no more. -/
def AstW.put (k : AstW) (c : MxCnt) (f : Work → Except EErr Work) : AstW :=
  match k.err with
  | some _ => k
  | none => match f k.w with | .ok w => { k with w := w, cnt := k.cnt.add c } | .error e => { k with err := some e }
/-- One stored row of an AST: its columns, each with its element, as the writes of mantissas, elements and exponents (R200, R202). -/
def astRow (q : MCmd) (r : TRec) (a : Agent) (row : Nat) (xs : List (Nat × Nat)) (k : AstW) : AstW :=
  let at_ := r.base + row * r.rstride
  let scale := Fmt.fp32.decode q.scale.toNat
  if !isBfp r.fmt then
    xs.foldl (fun (k : AstW) p =>
      let v := if q.int32 then astInt r.fmt q.sat p.2 else match recFmt r.fmt with | some f => astConv f q.sat p.2 scale | none => (0, {})
      k.put v.2 (fun w => writeElem w a r.fmt r.space at_ p.1 r.bsz 0 v.1)) k
  else
    let width := bfpW r.fmt
    let bits := if expanded r.fmt r.space then 8 else width
    ((xs.map (fun p => p.1 / r.block)).dedup).foldl (fun (k : AstW) b =>
      let ps := xs.filter (fun p => p.1 / r.block == b)
      let enc := blockEncode width (ps.map (fun p => (fvMul (Fmt.fp32.decode p.2) scale).1))
      let k := (List.zip ps (List.zip enc.2.1 enc.2.2.2)).foldl (fun (k : AstW) p =>
        k.put (MxCnt.one false false p.2.2.2 (p.2.2.1.getLsbD 0)) (fun w => writeElem w a r.fmt r.space at_ p.1.1 r.bsz 0 (truncI bits p.2.1))) k
      k.put (MxCnt.one (enc.1 == 255) (enc.1 == 254 && (blockFlags enc).getLsbD 2) false false)
        (fun w => eWrite w a r.space (r.expbase + row * r.estride + b) (leBytes 1 enc.1) r.fmt r.bsz 0)) k
/-- The writes of an AST, in ascending stored rows (R196, R200). -/
def astRun (s : State) (a : Agent) (q : MCmd) : AstW :=
  let r := recOf q.recA
  let t := (s.team q.team).tile q.tile
  let rows := (List.range (if r.trans then q.n else q.m)).filter (fun i => decide (i < r.rows))
  let cols := (List.range (if r.trans then q.m else q.n)).filter (fun i => decide (i < r.cols))
  rows.foldl (fun k row => astRow q r a row (cols.map (fun col => (col, (if r.trans then t.at_ col row else t.at_ row col).toNat))) k) { w := { s := s } }
/-- What an AST has written and counted: GW rises, and the MMAs behind it read what it wrote (R200, R203, R204). -/
def State.astDone (s : State) (core : Nat) (q : MCmd) (k : AstW) : State :=
  let s := ((s.setGroup q.gid (fun g => g.joinGw k.w.gw)).setTeam q.team (fun t => { t with mx := k.cnt.into t.mx }))
  s.setCore core (fun c => { c with mq := c.mq.map (fun p => { p with was := p.was.map (patchWas k.w.wrote) }) })
/-- AST_COMPLETE (R200, R202): the stores are made, AMAX and GW are updated, and the counter falls. -/
def execAstComplete (core : Nat) (s0 : State) : Host.Outcome State Fault Refusal :=
  let s := s0.drain core
  match headOp s core .ast with
  | none => .next s
  | some (q, g) =>
    match q.fault with
    | some _ => .next (s.finishOp core q)
    | none =>
      let k := astRun s { agentOf g with id := q.id } q
      match k.err with
      | some (.hold lv va kind) => .next (engineFault s (agentOf g) lv va kind)
      | some e => .next ((k.w.s.astDone core q k).opFault core q (agentOf g) e)
      | none =>
        let t := (s.team q.team).tile q.tile
        let mags := if q.int32 then [] else (List.range q.m).flatMap (fun i => (List.range q.n).map (fun j => (t.at_ i j).toNat))
        .next (((k.w.s.astDone core q k).setGroup q.gid (fun g => (g.commit q.by_ 0 mags).joinGw s.bw)).finishOp core q)

/-- TILE_DEFERRED_FAULT (R196): a fault met by the operation at the head of the queue before it is due to complete. -/
def execTileDeferredFault (core : Nat) (s0 : State) : Host.Outcome State Fault Refusal :=
  let s := s0.drain core
  match headOp s core .mma with
  | some (q, g) =>
    if !q.started || q.fault.isSome then .next s
    else
      (match mmaResult s { agentOf g with id := q.id, was := q.was } q with
       | .error e => .next (s.opFault core q (agentOf g) e)
       | .ok _ => .next s)
  | none =>
    match headOp s core .ald with
    | none => .next s
    | some (q, g) =>
      if q.fault.isSome then .next s
      else
        match aldResult s { agentOf g with id := q.id } q with
        | .error e => .next (s.opFault core q (agentOf g) e)
        | .ok _ => .next s

/-- The record of ALD, AST and TFETCH, checked at issue (R190, R197, R199, R200). -/
def sideOut (x : Issue) (srcs : List Opr) (tile : Option Nat) (bad : TRec → Bool) (write : Bool) (go : List Byte → State → State) : Out :=
  let addr := ((x.opX).at64 0).toNat
  let m := x.e.mask
  let d := match tile with | some n => if n < x.tm.nt then deferred x.s x.g.core x.g.team n m else [] | none => []
  let miss := match tile with | some n => if x.tm.nt ≤ n then [x.ill] else [] | none => []
  let r := recCheck x.s (agentOf x.g) addr bad
  let ws := if r.bytes.isSome && !trecBad r.val then windowsOk x.s x.tm (trecOf addr r.val) true write else []
  let cs := if d ≠ [] then d else miss ++ toCauses m (r.causes ++ ws)
  let o : Out :=
    match r.hold with
    | some (lv, va, k) =>
      { causes := cs, stay := true,
        eff := fun s => (engineFault s (agentOf x.g) lv va k).setWarp x.g.gid x.w.wid (fun w => { w with wait := .other }) }
    | none =>
      { causes := cs,
        eff := fun s =>
          let dc := (eArgs x).dc.toNat
          let s := if dc < 6 then s.setGroup x.g.gid (fun g => g.addDc dc) else s
          go (leBytes 8 addr ++ r.bytes.getD []) s }
  Out.ofSrcs x srcs o
/-- The command of ALD and AST. -/
def sideCmd (x : Issue) (kind : MKind) (bs : List Byte) (s : State) : MCmd :=
  let a := eArgs x
  { id := s.nextId, team := x.g.team, gid := x.g.gid, kind := kind, tile := a.z.toNat % 16, m := 16 * 2 ^ (a.mode.extractLsb' 4 2).toNat,
    n := 16 * 2 ^ (a.mode.extractLsb' 6 2).toNat, recA := bs, recB := bs, members := [(x.g.gid, a.dc.toNat)], by_ := x.e.mask }
/-- ALD (R199). -/
def oAld (x : Issue) : Out :=
  let n := (eArgs x).z.toNat % 16
  sideOut x [x.opX] (some n) (fun r => r.perm || r.fmt == 5) false (fun bs s =>
    { s with nextId := s.nextId + 1 }.enqueue x.g.core { sideCmd x .ald bs s with int32 := isInt (recOf bs).fmt })
/-- AST (R200). -/
def oAst (x : Issue) : Out :=
  let n := (eArgs x).z.toNat % 16
  let y := x.opY
  let isI := tileType x.s x.g.core x.g.team n
  let bad (r : TRec) : Bool :=
    r.perm || r.fmt == 5 || decide (r.rstride < r.rowBytes) || (isBfp r.fmt && r.cols % r.block != 0)
      || (if isI then !isInt r.fmt || y.at32 0 != 0x3F800000#32 else isInt r.fmt)
  sideOut x [x.opX, y] (some n) bad true (fun bs s =>
    { s with nextId := s.nextId + 1 }.enqueue x.g.core { sideCmd x .ast bs s with int32 := isI, sat := (eArgs x).mode.getLsbD 8, scale := y.at32 0 })
/-- TFETCH (R197). -/
def oTfetch (x : Issue) : Out :=
  sideOut x [x.opX] none (fun r => r.space != 0) false (fun bs s =>
    let q : CopyCmd := { id := s.nextId, gid := x.g.gid, kind := 10 + (eArgs x).mode.toNat, recAddr := (x.opX).at64 0, dc := (eArgs x).dc.toNat, record := bs, queue := 17, by_ := x.e.mask }
    { s with nextId := s.nextId + 1 }.setCore x.g.core (fun c => { c with tfetch := c.tfetch ++ [q] }))
/-- TFETCH_COMPLETE (R193, R197): pins are made up to 2 MiB, or those of the record that no operation has consumed are released. The
exponents of a BFP record are pinned with its rows, as blocks along stored rows lay them (DESIGN CHOICE: the record does not say how its
operand runs). -/
def execTfetchComplete (core : Nat) (s : State) : Host.Outcome State Fault Refusal :=
  match (s.core core).tfetch with
  | [] => .next s
  | q :: rest =>
    let s' := s.setCore core (fun c => { c with tfetch := rest })
    if q.marker then (if q.waits.any (fun i => s.outstanding core i) then .next s else .next s')
    else
      match s.group q.gid with
      | none => .next s'
      | some g =>
        let r := recOf q.record
        let s'' :=
          if q.kind = 11 then s'.setCore core (fun c => { c with pins := c.pins.filter (fun p => !(p.op.isNone && p.recAt == r.addr && p.team == g.team)) })
          else s'.pinLines core r.addr g.team none (spanLines s (agentOf g) (r.spans true))
        .next (if q.dc < 6 then s''.setGroup q.gid (fun g => (g.subDc q.dc).wake s.bw) else s'')

/-! ## ACLR, AMOV, the counters -/

def oAclr (x : Issue) : Out :=
  let n := x.m.toNat % 16
  { causes := if x.tm.nt ≤ n then [x.ill] else [],
    eff := fun s => { s with nextId := s.nextId + 1 }.enqueue x.g.core
      { id := s.nextId, team := x.g.team, gid := x.g.gid, kind := .aclr, tile := n, int32 := x.mb 4 } }
def oMxclr (x : Issue) : Out :=
  if x.act = 0 then {}
  else
    { eff := fun s => { s with nextId := s.nextId + 1 }.enqueue x.g.core
        { id := s.nextId, team := x.g.team, gid := x.g.gid, kind := .mxclr, tile := 16, mask := x.m.toNat % 16 } }
/-- The number of the first operation that came after this instruction began to wait. -/
def waitLimit (x : Issue) : Nat := match x.w.snap with | n :: _ => n | [] => x.s.nextId
/-- GANGREG when this instruction issued (R184). -/
def gangAtIssue (x : Issue) : Word := match x.w.snap with | [_, g] => BitVec.ofNat 32 g | _ => x.g.gangreg
/-- The instruction waits in place, remembering when it began and the GANGREG it found. -/
def waitQueue (x : Issue) : Out :=
  { stay := true, eff := fun s => s.setWarp x.g.gid x.w.wid (fun w => { w with wait := .other, snap := [waitLimit x, (gangAtIssue x).toNat] }) }
/-- AMOV (R201). -/
def oAmov (x : Issue) : Out :=
  let p := x.opX
  let n := x.m.toNat % 16
  let r := (p.at32 0).toNat
  let col := x.mb 4
  let cnt := gangCnt (gangAtIssue x)
  let pos := gangPos (gangAtIssue x)
  let t := x.tm.tile n
  let busy := (x.s.core x.g.core).mq.any (fun q => q.team == x.g.team && q.tile == n && writesTile q.kind && decide (q.id < waitLimit x))
  let bad := decide (x.tm.nt ≤ n) || decide (64 ≤ r) || (cnt != 0 && !col && r % cnt != pos)
  let f (l : Nat) : Word := if col then (if cnt ≠ 0 ∧ l % cnt ≠ pos then 0 else t.at_ l r) else t.at_ r l
  let cs := needUni x p ++ (if bad && p.uni then [x.ill] else [])
  if cs.isEmpty && p.causes.isEmpty && busy then waitQueue x
  else
    let d := if t.fcause = 0 then [] else [{ stage := 2, code := t.fcause, tfm := x.e.mask, taddr := t.faddr, tinfo := n }]
    lateOut x 1 [p] { causes := if cs.isEmpty then d else cs, writes := x.put32 .z none f }
/-- Tile status (R180). -/
def tileStat (s : State) (core tid n : Nat) : Nat :=
  let t := (s.team tid).tile n
  t.int32.toNat + 2 * ((s.core core).mq.any (fun q => q.team == tid && q.tile == n && writesTile q.kind)).toNat + 256 * t.fcause
/-- MXRD (R203). -/
def oMxrd (x : Issue) : Out :=
  let stat := x.mb 0
  let n := x.m.toNat / 2 % 16
  let busy := (x.s.core x.g.core).mq.any (fun q => q.team == x.g.team && q.kind != .marker && decide (q.id < waitLimit x))
  let v : DWord := if stat then BitVec.ofNat 64 (tileStat x.s x.g.core x.g.team n) else x.tm.mx
  if !stat && busy then waitQueue x
  else lateOut x 2 [] { causes := if stat && decide (x.tm.nt ≤ n) then [x.ill] else [], writes := x.put64 true (fun _ => v) }

/-! ## Power steps of an engine -/

/-- FALLING_STEPS_END (R260): the engine stops being live. -/
def execFallingStepsEnd (core : Nat) (s : State) : Host.Outcome State Fault Refusal :=
  let s := s.fall core
  let k := s.cluster (clusterOf core)
  let c := s.core core
  if c.eng = .falling ∧ c.engEnd < k.lclk then
    .next ((s.setCore core (fun c => { c with eng := .idle })).setCluster (clusterOf core) (fun k =>
      { k with fillers := k.fillers + fillersTo k.dnTab (c.engEnd - 4 * fallSteps k.dnTab) (c.engEnd) }))
  else .next s
/-- PRERAMP_EXPIRE (R263): the pre-ramp's fillers run out and the falling steps begin. -/
def execPrerampExpire (core : Nat) (s : State) : Host.Outcome State Fault Refusal :=
  let k := s.cluster (clusterOf core)
  let c := s.core core
  if c.eng = .preramp ∧ c.engEnd < k.lclk then
    .next (s.setCore core (fun c => { c with eng := .falling, engEnd := c.engEnd + 4 * fallSteps k.dnTab }))
  else .next s

/-- GANG (R181). -/
def execGang (a : RArgs) (s : State) : Host.Outcome State Fault Refusal := runIssue s (.gang a) oGang
/-- MMA (R188). -/
def execMma (a : EArgs) (s : State) : Host.Outcome State Fault Refusal := runIssue s (.mma a) oMma
/-- ACLR (R198). -/
def execAclr (a : RArgs) (s : State) : Host.Outcome State Fault Refusal := runIssue s (.aclr a) oAclr
/-- ALD (R199). -/
def execAld (a : EArgs) (s : State) : Host.Outcome State Fault Refusal := runIssue s (.ald a) oAld
/-- AST (R200). -/
def execAst (a : EArgs) (s : State) : Host.Outcome State Fault Refusal := runIssue s (.ast a) oAst
/-- AMOV (R201). -/
def execAmov (a : RArgs) (s : State) : Host.Outcome State Fault Refusal := runIssue s (.amov a) oAmov
/-- MXRD (R203). -/
def execMxrd (a : RArgs) (s : State) : Host.Outcome State Fault Refusal := runIssue s (.mxrd a) oMxrd
/-- MXCLR (R203). -/
def execMxclr (a : RArgs) (s : State) : Host.Outcome State Fault Refusal := runIssue s (.mxclr a) oMxclr
/-- TFETCH (R197). -/
def execTfetch (a : EArgs) (s : State) : Host.Outcome State Fault Refusal := runIssue s (.tfetch a) oTfetch

end Sys2Proof.Machine
end

