-- ==== Sys2Proof/Machine/Copy.lean ====
section
/-! DEFINITION. The core copy unit (R235 to R241), and the movement of a box that it shares with the copy engines. -/

namespace Sys2Proof.Machine

/-! ## A copy, as its records say -/

/-- A copy ready to move elements: kind 0 COPY, 1 COPYG, 2 COPYS, 3 FILL. -/
structure CopyJob where
  kind : Nat
  a : Agent
  src : Shape
  dst : Shape
  scale : Nat := 0x3F800000
  rm : Rm := .rne
  sat : Bool := false
  trans : Bool := false
  zf : Bool := false
  perm : Option PReg := none
  idx : List (Nat × Nat) := []
  fill : Nat := 0
  empty : Bool := false
  deriving DecidableEq, Repr

/-- Fields of a copy record (R235). -/
def crSrc (v : Nat) : Nat := field v 0 64
def crDst (v : Nat) : Nat := field v 64 64
/-- A copy record that is invalid for its command (R235, R238, R239). -/
def copyRecBad (kind v : Nat) : Bool :=
  let perm := v.testBit 165
  field v 169 343 != 0 || (!perm && field v 166 3 != 0)
    || ((kind == 1 || kind == 2) && (perm || v.testBit 163))
    || (kind == 3 && (crSrc v != 0 || field v 128 41 != 0))
/-- The boxes pair (R237, R238). -/
def boxesPair (j : CopyJob) (width : Nat) : Bool :=
  let sb := j.src.box
  let db := j.dst.box
  if j.kind = 3 then true
  else if j.kind = 0 then
    (if j.trans then sb.getD 1 1 :: sb.getD 0 1 :: sb.drop 2 else sb) == db
  else sb == db && (sb.drop 2).all (· == 1) && decide (sb.getD 1 1 ≤ width)
/-- Bits are copied unchanged (R237); a block format also when the blocks of both sides coincide. -/
def rawCopy (j : CopyJob) : Bool :=
  let f := j.src.fmt
  f == j.dst.fmt && j.scale == 0x3F800000 && !j.sat
    && (!isBfp f || (j.src.bsz == j.dst.bsz && j.src.bdim == j.dst.bdim && !j.trans && (j.perm.isNone || j.dst.bdim == 0)
      && (let d := j.dst.bdim; let b := blockSize j.dst.bsz
          (j.src.dim d).orig % b == 0 && (j.dst.dim d).orig % b == 0) && (j.kind == 0 || j.dst.bdim == 0)))
/-- The format pair can be converted (R237). -/
def formatsPair (j : CopyJob) : Bool :=
  let f := j.src.fmt
  let g := j.dst.fmt
  if j.kind = 3 then !isBfp g
  else if f = 5 ∨ g = 5 then f == 5 && g == 5
  else if isInt f && isInt g then j.scale == 0x3F800000
  else true
/-- A block destination covers whole blocks along BDIM (R237); ORIG_1 of an indexed destination is ignored (R238). -/
def wholeBlocks (j : CopyJob) : Bool :=
  if !isBfp j.dst.fmt || j.kind == 3 then true
  else
    let d := j.dst.dim j.dst.bdim
    let orig : Int := if j.kind = 2 ∧ j.dst.bdim = 1 then 0 else d.orig
    let b : Int := blockSize j.dst.bsz
    orig % b == 0 && (((d.box : Int) % b == 0) || (orig + d.box == (d.bound : Int)))

/-- The job of a command from its records; where they are invalid, the address named by the fault (R241). -/
def copyJob (kind recAddr width : Nat) (a : Agent) (v sv dv : Nat) (preg : Option PReg) (idx : List (Nat × Nat)) (fill : Nat) (empty : Bool) :
    Except Nat CopyJob :=
  if copyRecBad kind v then .error recAddr
  else
    let blank : Shape := { base := 0, fmt := 0, space := 0, ndim := 1, bsz := 0, bdim := 0, expoff := 0, dims := [] }
    match (if kind = 3 then some blank else shapeOf sv), shapeOf dv with
    | none, _ => .error (crSrc v)
    | _, none => .error (crDst v)
    | some src, some dst =>
      let j : CopyJob :=
        { kind := kind, a := a, src := src, dst := dst, scale := if kind = 3 then 0x3F800000 else field v 128 32, rm := Rm.ofBits (BitVec.ofNat 2 (field v 160 2)),
          sat := v.testBit 162, trans := v.testBit 163, zf := v.testBit 164, perm := if v.testBit 165 then preg else none, idx := idx,
          fill := fill, empty := empty }
      if boxesPair j width && formatsPair j && wholeBlocks j then .ok j else .error recAddr

/-! ## Elements -/

/-- One destination element: its coordinates, and those of its source (none: zero). -/
abbrev Pair := Option (List Int) × List Int
/-- The elements a job delivers, in order (R237, R238, R239). -/
def CopyJob.pairs (j : CopyJob) : List Pair :=
  if j.kind = 3 then
    (boxIndices j.dst.box).filterMap (fun i => let c := j.dst.coord i; if j.dst.inBounds c then some (none, c) else none)
  else if j.kind = 0 then
    (boxIndices j.src.box).filterMap (fun i =>
      let s := j.src.coord i
      let r := match j.perm with | some p => p.at_ (i.getD 1 0) | none => i.getD 1 0
      let i0 := i.getD 0 0
      let k := if j.trans then r :: i0 :: i.drop 2 else i0 :: r :: i.drop 2
      let d := j.dst.coord k
      if !j.dst.inBounds d then none
      else if j.src.inBounds s then some (some s, d)
      else if j.zf then some (none, d) else none)
  else
    let rows := j.idx
    let n0 := (j.dst.dim 0).box
    rows.flatMap (fun p => (List.range n0).filterMap (fun i0 =>
      let side := if j.kind = 1 then j.dst else j.src
      let ind := if j.kind = 1 then j.src else j.dst
      let own := side.coord [i0, p.1]
      let other : List Int := modAt (fun _ => (p.2 : Int)) 1 (ind.coord [i0])
      let s := if j.kind = 1 then other else own
      let d := if j.kind = 1 then own else other
      if !j.dst.inBounds d then none
      else if j.src.inBounds s then some (some s, d)
      else if j.zf then some (none, d) else none))

/-- Of the elements that go to one place the last, which prevails (R238). -/
def lastOf : List Pair → List Pair
  | [] => []
  | p :: r => if r.any (fun q => q.2 == p.2) then lastOf r else p :: lastOf r
/-- Elements that are written together: one by one, or, where blocks are encoded, the elements of one block. A block is encoded from the
elements delivered to it; those that are skipped or lie past the extent take no part (DESIGN CHOICE). -/
def CopyJob.units (j : CopyJob) : List (List Pair) :=
  let ps := if j.kind = 2 then lastOf j.pairs else j.pairs
  if isBfp j.dst.fmt && !rawCopy j then
    let keys := (ps.map (fun p => j.dst.expAddr p.2)).dedup
    keys.map (fun k => ps.filter (fun p => j.dst.expAddr p.2 == k))
  else ps.map (fun p => [p])

/-- Why a job stops before its end: a fault with its TINFO, a translation fault to be resolved, or a full FIFO granule. -/
inductive Stop
  | fault (code addr info : Nat)
  | hold (level va kind : Nat)
  | full
  deriving DecidableEq, Repr
def EErr.stopOf : EErr → Stop
  | .stop c a i => .fault c a i
  | .hold lv va k => .hold lv va k

/-- The conversion of one element into a format that is not a block format (R237). -/
def convElem (j : CopyJob) (raw : Nat) (v : Fv) : Nat × FFlags :=
  let g := j.dst.fmt
  match recFmt g with
  | some f => convert f { mode := j.rm, sat := j.sat } v (Fmt.fp32.decode j.scale)
  | none =>
    let bits := elemBits g
    if isInt j.src.fmt then
      let i := elemInt j.src.fmt raw
      (truncI bits (if j.sat then max (-(2 ^ (bits - 1) : Int)) (min ((2 ^ (bits - 1) : Int) - 1) i) else i), 0)
    else if g = 5 then (raw % 2, 0)
    else
      let p := fvMul v (Fmt.fp32.decode j.scale)
      let r := fvToInt j.rm true bits p.1
      (r.1.toNat % 2 ^ bits, p.2 ||| r.2)
/-- Bits copied unchanged, packed or expanded as the two sides hold them (R25). -/
def moveRaw (j : CopyJob) (raw : Nat) : Nat × FFlags :=
  let f := j.src.fmt
  let w := bfpW f
  match expanded f j.src.space, expanded f j.dst.space with
  | false, true => (truncI 8 (sInt raw w), 0)
  | true, false =>
    let v := sInt raw 8
    let c := max (-(2 ^ (w - 1) : Int)) (min ((2 ^ (w - 1) : Int) - 1) v)
    (truncI w c, if c = v then 0 else ffIX)
  | _, _ => (raw, 0)

/-- One element or block moved. -/
def moveUnit (j : CopyJob) (w : Work) (ps : List Pair) : Except EErr Work :=
  let readOne (p : Pair) : Except EErr (Nat × Nat) := match p.1 with | some c => j.src.read w.s j.a c | none => .ok (0, 0)
  match collect (fun i => readOne (ps.getD i (none, []))) (List.range ps.length) with
  | .error e => .error e
  | .ok vs =>
    let xs := List.zip ps vs
    let val (x : Pair × (Nat × Nat)) : Fv := if x.1.1.isNone then .fin false 0 0 else elemVal j.src.fmt j.src.space x.2.1 x.2.2
    if j.kind = 3 then
      xs.foldl (fun (acc : Except EErr Work) x => match acc with | .error e => .error e | .ok w => j.dst.write w j.a x.1.2 (j.fill % 2 ^ elemBits j.dst.fmt)) (.ok w)
    else if isBfp j.dst.fmt && !rawCopy j then
      let bw := bfpW j.dst.fmt
      let enc := blockEncode bw (xs.map (fun x => (fvMul (val x) (Fmt.fp32.decode j.scale)).1))
      let fl := enc.2.2.2.foldl (fun (m : FFlags) q => m ||| q.1) enc.2.2.1
      let body := (List.zip xs enc.2.1).foldl (fun (acc : Except EErr Work) x =>
        match acc with | .error e => .error e | .ok w => j.dst.write w j.a x.1.1.2 (truncI (if expanded j.dst.fmt j.dst.space then 8 else bw) x.2)) (.ok w)
      match body with
      | .error e => .error e
      | .ok w' =>
        match ps with
        | [] => .ok w'
        | p :: _ =>
          match eWrite w' j.a j.dst.space (j.dst.expAddr p.2) (leBytes 1 enc.1) j.dst.fmt j.dst.bsz j.dst.bdim with
          | .error e => .error e
          | .ok w'' => .ok { w'' with fl := w''.fl ||| fl }
    else
      xs.foldl (fun (acc : Except EErr Work) x =>
        match acc with
        | .error e => .error e
        | .ok w =>
          let r := if rawCopy j then moveRaw j x.2.1 else convElem j x.2.1 (val x)
          match j.dst.write w j.a x.1.2 r.1 with
          | .error e => .error e
          | .ok w =>
            let w := { w with fl := w.fl ||| r.2 }
            if isBfp j.dst.fmt then eWrite w j.a j.dst.space (j.dst.expAddr x.1.2) (leBytes 1 x.2.2) j.dst.fmt j.dst.bsz j.dst.bdim
            else .ok w) (.ok w)
/-- The bytes that an element's write covers: address and length, and its exponent's. -/
def CopyJob.places (j : CopyJob) (p : Pair) : List (Nat × Nat) :=
  let q := elemPos j.dst.fmt j.dst.space (j.dst.row p.2) (p.2.getD 0 0).toNat
  (q.1, (q.2.1 + q.2.2 + 7) / 8) :: (if isBfp j.dst.fmt then [(j.dst.expAddr p.2, 1)] else [])
/-- The granules of local addresses that a place covers. -/
def placeGranules (q : Nat × Nat) : List Nat := granules (q.1 % 2 ^ 32) q.2
/-- What the unit writes at once, one after the other: to device memory an element or a block, to scratchpad the bytes of a granule, granules in
ascending order of local address (R246). -/
inductive Write1
  | unit (u : List Pair)
  | granule (k : Nat) (us : List (List Pair))
def CopyJob.writes (j : CopyJob) (at_ : Nat) : Option Write1 × Nat :=
  let us := j.units
  if j.dst.space = 0 then ((us[at_]?).map Write1.unit, us.length)
  else
    let ks := ((us.flatMap (fun u => u.flatMap (fun p => (j.places p).flatMap placeGranules))).dedup).mergeSort (· ≤ ·)
    ((ks[at_]?).map (fun k => .granule k (us.filter (fun u => u.any (fun p => (j.places p).any (fun q => (placeGranules q).contains k))))), ks.length)
/-- Units moved one after the other. -/
def moveUnits (j : CopyJob) (w : Work) : List (List Pair) → Except EErr Work
  | [] => .ok w
  | u :: us => match moveUnit j w u with | .error e => .error e | .ok w => moveUnits j w us
/-- Where a granule of local addresses lies: its team, and its number there. -/
def granuleAt (s : State) (j : CopyJob) (k : Nat) (us : List (List Pair)) : Except EErr (Nat × Nat) :=
  match (us.flatMap (fun u => u.flatMap j.places)).find? (fun q => (placeGranules q).contains k) with
  | none => .error (.hold 0 0 0)
  | some q =>
    match eLocal s j.a q.1 q.2 true with
    | .ok (tid, off) => .ok (tid, off / 16 + (k - q.1 % 2 ^ 32 / 16))
    | .error e => .error e
/-- The bytes that a job has placed in a granule of a team, by place. -/
def Work.granule (w : Work) (tid g : Nat) : List (Nat × Byte) :=
  (List.range 16).filterMap (fun i =>
    let o := 16 * g + i
    (w.wrote.find? (fun x => x.1 == tid + 1 && decide (x.2.1 ≤ o) && decide (o < x.2.1 + x.2.2.length))).map (fun x => (o, x.2.2.getD (o - x.2.1) 0)))
/-- The one write of a granule (R246), with its full-empty bit (R211, R239). -/
def Team.putGranule (t : Team) (g : Nat) (bs : List (Nat × Byte)) (empty : Bool) : Team :=
  { t with scratch := bs.foldl (fun (m : Amap Byte) b => Memory.store m b.1 [b.2]) t.scratch, full := setFull (!empty) [g] t.full,
           spois := if bs.length = 16 then t.spois.filter (· != g) else t.spois }
/-- How far a job has come: what it has done, how many writes it has made, why it stops, and whether that was the last. -/
structure Moved where
  w : Work
  at_ : Nat
  stop : Option Stop := none
  done : Bool := false
/-- A job goes on by one write. A granule of a FIFO bank that is full holds it, but not EMPTY (R240). -/
def runJob (s : State) (j : CopyJob) (at_ gw : Nat) (fl : FFlags) : Moved :=
  let w : Work := { s := s, gw := gw, fl := fl }
  let n := j.writes at_
  match n.1 with
  | none => { w := w, at_ := at_, done := true }
  | some (.unit u) =>
    (match moveUnit j w u with
     | .error e => { w := w, at_ := at_, stop := some e.stopOf }
     | .ok w' => { w := w', at_ := at_ + 1, done := decide (n.2 ≤ at_ + 1) })
  | some (.granule k us) =>
    match moveUnits j w us, granuleAt s j k us with
    | .error e, _ => { w := w, at_ := at_, stop := some e.stopOf }
    | _, .error e => { w := w, at_ := at_, stop := some e.stopOf }
    | .ok w', .ok (tid, g) =>
      if !j.empty && (s.team tid).fifo (16 * g) && !(s.team tid).isEmpty g then { w := w, at_ := at_, stop := some .full }
      else { w := { w with s := s.setTeam tid (fun t => t.putGranule g (w'.granule tid g) j.empty), gw := w'.gw, fl := w'.fl }, at_ := at_ + 1, done := decide (n.2 ≤ at_ + 1) }

/-- Lines of device memory that a job reads. -/
def CopyJob.srcLines (s : State) (j : CopyJob) : List Nat := if j.kind = 3 ∨ j.src.space ≠ 0 then [] else ((j.src.pas s j.a).map (· / 128)).dedup

/-! ## Commands of the core copy unit -/

/-- What reading a command's records gives (R236): the copy record and both shapes. -/
def readRecords (s : State) (a : Agent) (kind recAddr : Nat) : Except Stop (List Byte × List Byte × List Byte) :=
  if recAddr % 64 ≠ 0 then .error (.fault cILLOP recAddr 0)
  else
    match eBytes s a recAddr 64 with
    | .error e => .error e.stopOf
    | .ok r =>
      let v := leNat r
      let shape (addr : Nat) : Except Stop (List Byte) :=
        if addr % 64 ≠ 0 then .error (.fault cILLOP addr 0)
        else match eBytes s a addr 64 with | .error e => .error e.stopOf | .ok b => .ok b
      if copyRecBad kind v then .error (.fault cILLOP recAddr 0)
      else
        match (if kind = 3 then .ok [] else shape (crSrc v)), shape (crDst v) with
        | .error e, _ => .error e
        | _, .error e => .error e
        | .ok sb, .ok db => .ok (r, sb, db)
def copyAgent (g : Group) : Agent := { core := g.core, ctx := g.ctx, team := g.team, who := 2 }
/-- Rows of a gather or scatter: each active lane with its index (R238). -/
def CopyCmd.rows (q : CopyCmd) (n : Nat) : List (Nat × Nat) :=
  ((Mask.lanes q.mask).filter (fun l => decide (l < n))).map (fun l => (l, q.idx.getD l 0))
/-- The job of a started command. -/
def CopyCmd.job (q : CopyCmd) (g : Group) : Except Nat CopyJob :=
  let box1 := match shapeOf (leNat q.dst) with | some d => (d.dim 1).box | none => 0
  copyJob q.kind q.recAddr.toNat g.width { copyAgent g with id := q.id } (leNat q.record) (leNat q.src) (leNat q.dst) q.preg (q.rows box1) q.fill.toNat q.empty

/-- The head of a copy-unit queue, markers that are due left aside (R227, R240). -/
def copyHead (s : State) (core queue : Nat) : State × Option CopyCmd :=
  let due (q : CopyCmd) : Bool := q.marker && q.queue == queue && !q.waits.any (fun i => s.outstanding core i)
  let gone := ((s.core core).copyq.filter (fun q => q.queue == queue)).takeWhile due
  let s := s.setCore core (fun c => { c with copyq := c.copyq.filter (fun q => !(q.queue == queue && gone.any (fun p => p.id == q.id))) })
  (s, ((s.core core).copyq.find? (fun q => q.queue == queue)).bind (fun q => if q.marker then none else some q))
def State.setCopy (s : State) (core id : Nat) (f : CopyCmd → CopyCmd) : State :=
  s.setCore core (fun c => { c with copyq := updWhere (fun q => q.id == id) f c.copyq })
/-- A command leaves its queue: GW and FSR receive what it did, and its counter falls (R237, R240). -/
def finishCopy (s : State) (core : Nat) (q : CopyCmd) (gw : Nat) (fl : FFlags) : State :=
  let s := s.setGroup q.gid (fun g => (((g.joinGw gw).commit q.by_ (fl.zeroExtend 32) []).subDc q.dc).wake s.bw)
  (s.setCore core (fun c => { c with copyq := c.copyq.filter (fun p => p.id != q.id) })).drain core
/-- A command's fault is held on its counter (R241). -/
def faultCopy (s : State) (core : Nat) (q : CopyCmd) (gw : Nat) (fl : FFlags) (code addr info : Nat) : State :=
  let s := s.setGroup q.gid (fun g => g.holdFault q.dc { cause := code, addr := BitVec.ofNat 64 addr, queue := q.queue, info := info })
  finishCopy (s.dropDenied none (match s.group q.gid with | some g => (s.ctx g.ctx).asid | none => 0) addr) core q gw fl

/-- COPY_COMMAND_START (R236, R240): the command at the head of a queue reads its records and its P register. -/
def execCopyCommandStart (core queue : Nat) (s0 : State) : Host.Outcome State Fault Refusal :=
  let h := copyHead s0 core queue
  let s := h.1
  match h.2 with
  | none => .next s
  | some q =>
    match s.group q.gid with
    | none => .next s
    | some g =>
      if q.started then .next s
      else
        match readRecords s (copyAgent g) q.kind q.recAddr.toNat with
        | .error (.hold lv va k) => .next (engineFault s (copyAgent g) lv va k)
        | .error _ => .next s
        | .ok (r, sb, db) =>
          let v := leNat r
          let p := if v.testBit 165 then some (s.preg g.team (field v 166 3)) else none
          .next (s.setCopy core q.id (fun q => { q with started := true, record := r, src := sb, dst := db, preg := p }))
/-- What a started command comes to now. -/
def copyOutcome (s : State) (g : Group) (q : CopyCmd) : Moved :=
  match q.job g with
  | .error addr => { w := { s := s, gw := q.gw, fl := q.fl }, at_ := q.at_, stop := some (.fault cILLOP addr 0) }
  | .ok j => runJob s j q.at_ q.gw q.fl
/-- Accesses to scratchpads that the group issued before the command are still on their way (R240). -/
def padBusy (s : State) (q : CopyCmd) : Bool :=
  s.reqs.any (fun r => r.gid == q.gid && r.inCluster && decide (r.rid < q.id) && r.parts.any (fun p => !p.performed))
/-- COPY_COMMAND_COMPLETE (R237 to R240, R246): the command moves what it writes next, and completes with its last write. -/
def execCopyCommandComplete (core queue : Nat) (s0 : State) : Host.Outcome State Fault Refusal :=
  let h := copyHead s0 core queue
  let s := h.1
  match h.2 with
  | none => .next s
  | some q =>
    match s.group q.gid with
    | none => .next s
    | some g =>
      if !q.started || padBusy s q then .next s
      else
        let r := copyOutcome s g q
        match r.stop with
        | some (.fault ..) => .next s
        | some .full => .next s
        | some (.hold lv va k) => .next (engineFault s { copyAgent g with id := q.id } lv va k)
        | none =>
          if r.done then
            let lines := match q.job g with | .ok j => j.srcLines r.w.s | .error _ => []
            .next (finishCopy (r.w.s.readLines g.ctx lines) core q r.w.gw r.w.fl)
          else .next (r.w.s.setCopy core q.id (fun q => { q with at_ := r.at_, gw := r.w.gw, fl := r.w.fl }))
/-- COPY_COMMAND_FAULT (R241): a fault that cannot be resolved stops the command at the faulting element. -/
def execCopyCommandFault (core queue : Nat) (s0 : State) : Host.Outcome State Fault Refusal :=
  let h := copyHead s0 core queue
  let s := h.1
  match h.2 with
  | none => .next s
  | some q =>
    match s.group q.gid with
    | none => .next s
    | some g =>
      if q.started then
        let r := copyOutcome s g q
        match r.stop with
        | some (.fault code addr info) => if padBusy s q then .next s else .next (faultCopy r.w.s core q r.w.gw r.w.fl code addr info)
        | _ => .next s
      else
        match readRecords s (copyAgent g) q.kind q.recAddr.toNat with
        | .error (.fault code addr info) => .next (faultCopy s core q 0 0 code addr info)
        | _ => .next s

/-- A command joins its queue (R236): the unit takes the lanes and the Y operand of its issue. -/
def copyOut (x : Issue) (kind : Nat) (srcs : List Opr) (y : Opr) (causes : List Cause) : Out :=
  let a := eArgs x
  let q : CopyCmd :=
    { id := x.s.nextId, gid := x.g.gid, kind := kind, recAddr := (x.opX).at64 0, mask := x.e.mask,
      idx := if kind = 1 ∨ kind = 2 then (List.range 64).map (fun l => (y.at32 l).toNat) else [], fill := y.at32 0,
      empty := kind == 3 && a.mode.getLsbD 0, dc := a.dc.toNat, queue := a.q.toNat, by_ := x.e.mask }
  Out.ofSrcs x srcs
    { causes := causes,
      eff := fun s => { (s.setGroup x.g.gid (fun g => g.addDc a.dc.toNat)).setCore x.g.core (fun c => { c with copyq := c.copyq ++ [q] }) with
        nextId := x.s.nextId + 1 } }
def oCopy (x : Issue) : Out := copyOut x 0 [x.opX] {} []
def oCopyg (x : Issue) : Out := copyOut x 1 [x.opX, x.opY] x.opY []
def oCopys (x : Issue) : Out := copyOut x 2 [x.opX, x.opY] x.opY []
def oFill (x : Issue) : Out := copyOut x 3 [x.opX, x.opY] x.opY (needUni x x.opY)

/-- COPY (R237). -/
def execCopy (a : EArgs) (s : State) : Host.Outcome State Fault Refusal := runIssue s (.copy a) oCopy
/-- COPYG (R238). -/
def execCopyg (a : EArgs) (s : State) : Host.Outcome State Fault Refusal := runIssue s (.copyg a) oCopyg
/-- COPYS (R238). -/
def execCopys (a : EArgs) (s : State) : Host.Outcome State Fault Refusal := runIssue s (.copys a) oCopys
/-- FILL (R239). -/
def execFill (a : EArgs) (s : State) : Host.Outcome State Fault Refusal := runIssue s (.fill a) oFill

end Sys2Proof.Machine
end

