-- ==== Sys2Proof/Machine/Objects.lean ====
section
/-! DEFINITION. Coherence objects (R228 to R230, R278 to R280), and placement with the tier manager's steps (R231, R232,
R337 to R345). -/

namespace Sys2Proof.Machine

/-! ## The Fold table -/

/-- The dies whose tables hold an object. -/
def foldDies (pkg : Bool) (die : Nat) : List Nat := if pkg then List.range 8 else [die]
def State.foldAt (s : State) (die index : Nat) : FoldEntry :=
  findD { die := die, index := index } (fun f => f.die == die && f.index == index) s.fold
def State.setFold (s : State) (die index : Nat) (f : FoldEntry → FoldEntry) : State :=
  let e := f (s.foldAt die index)
  { s with fold := s.fold.filter (fun q => !(q.die == die && q.index == index)) ++ [e] }
/-- The 64 bits MFSP reads of an entry (R278). -/
def FoldEntry.bits (f : FoldEntry) : Nat :=
  (if f.live then 2 ^ 63 + f.decl * 2 ^ 60 + f.pkg.toNat * 2 ^ 59 + f.pm1 * 2 ^ 47 + f.arr * 2 ^ 39 + f.phase else 0) + f.gen * 2 ^ 55

/-- A shape record read by an instruction: its shape, its causes, or a recoverable fault. -/
structure ShapeChk where
  shape : Option Shape := none
  causes : List Cause := []
  hold : Option (Nat × Nat) := none
def shapeAt (x : Issue) (addr : Nat) : ShapeChk :=
  let c (st code info : Nat) : Cause := { stage := st, code := code, tfm := x.e.mask, taddr := BitVec.ofNat 64 addr, tinfo := info }
  if addr % 64 ≠ 0 then { causes := [c 3 cALIGN 0] }
  else
    match eBytes x.s (agentOf x.g) addr 64 with
    | .error (.stop code _ i) => { causes := [c (if code = cPOISON then 5 else 4) code i] }
    | .error (.hold lv va k) => { hold := some (parkLevel lv k, va) }
    | .ok bs =>
      match shapeOf (leNat bs) with
      | none => { causes := [c 2 cILLOP 0] }
      | some r => if r.space ≠ 0 then { causes := [c 2 cILLOP 0] } else { shape := some r }
/-- Lines that hold bytes of the box (R278). -/
def boxLines (s : State) (a : Agent) (r : Shape) : List Nat :=
  ((boxIndices r.box).flatMap (fun i =>
    let c := r.coord i
    if !r.inBounds c then []
    else
      let p := elemPos r.fmt r.space (r.row c) (c.getD 0 0).toNat
      let n := (p.2.1 + p.2.2 + 7) / 8
      ([p.1, p.1 + n - 1] ++ (if isBfp r.fmt then [r.expAddr c] else [])).filterMap (fun va =>
        match eTr s a .read va with | .ok (pa, _) => some (pa / 128) | .error _ => none))).dedup

/-- L1 copies of lines dropped in a scope (R279, R280). -/
def State.dropCopies (s : State) (dies : List Nat) (lines : List Nat) : State :=
  { s with l1 := s.l1.filter (fun l => !(dies.contains (dieOf l.core) && lines.contains l.line)) }

/-- OBJDECL (R228). -/
def oObjdecl (x : Issue) : Out :=
  let a := eArgs x
  let addr := ((x.opX).at64 0).toNat
  let r := shapeAt x addr
  let pkg := a.mode.extractLsb' 0 3 == 4#3
  let die := dieOf x.g.core
  let dies := foldDies pkg die
  let lines := match r.shape with | some sh => boxLines x.s (agentOf x.g) sh | none => []
  let overlap := x.s.fold.any (fun f => f.live && f.lines.any lines.contains)
  let idx := (List.range 4096).find? (fun i => dies.all (fun d => !(x.s.foldAt d i).live))
  let gen := match idx with | some i => (x.s.foldAt die i).gen | none => 0
  let handle : Nat :=
    if overlap then 2 ^ 63 + 2 ^ 56
    else match idx with
      | none => 2 ^ 63
      | some i => die * 2 ^ 16 + gen * 2 ^ 12 + i
  let made (s : State) : State :=
    match overlap, idx with
    | false, some i =>
      let s := dies.foldl (fun (s : State) d => s.setFold d i (fun f =>
        { f with live := true, decl := die, pkg := pkg, pm1 := (a.mode.extractLsb' 3 8).toNat, arr := 0, phase := 0, lines := lines })) s
      { s.dropCopies dies lines with views := s.views.filter (fun v => !(dies.contains v.die && v.index == i)) }
    | _, _ => s
  Out.ofSrcs x [x.opX]
    { causes := r.causes, parks := (match r.hold with | some (lv, va) => (Mask.lanes x.e.mask).map (fun l => (l, va, lv)) | none => []),
      writes := [.sr (fnum a.y) (BitVec.ofNat 64 handle)], eff := made }

/-- An object named by a handle (R228), with the TINFO of its ILLOP (R230). -/
def objErr (s : State) (g : Group) (v : Nat) : Option Nat :=
  let f := s.foldAt (field v 16 3) (field v 0 12)
  if v.testBit 63 then some 1
  else if f.gen ≠ field v 12 4 then some 2
  else if !f.live ∨ (!f.pkg ∧ field v 16 3 ≠ dieOf g.core) then some 3
  else none
/-- The group's writes to an object have not all returned, or BWCLK has not passed GW + 2 (R229). -/
def objBusy (s : State) (g : Group) (f : FoldEntry) : Bool :=
  s.reqs.any (fun r => r.gid == g.gid && !r.inCluster && r.kind != .load && r.parts.any (fun p => f.lines.contains p.line))
    || decide (s.bw < g.gw + 2)
/-- The warp waits in place and tests again. -/
def waitTest (x : Issue) (w : Wait) : Out :=
  { stay := true, eff := fun s => s.setWarp x.g.gid x.w.wid (fun q => { q with wait := w }) }
/-- PHASE (R229): the warp arrives once, and receives the new phase when its core has seen it. -/
def oPhase (x : Issue) : Out :=
  let p := x.opX
  let v := (p.at64 0).toNat
  let f := x.s.foldAt (field v 16 3) (field v 0 12)
  let i := field v 0 12
  let cs := needUni x p ++ (match objErr x.s x.g v with | some k => [x.ill 0 k] | none => [])
  if x.w.released then { writes := [.sr (fnum x.fd) (BitVec.ofNat 64 (x.w.snap.headD 0))] }
  else if !cs.isEmpty then Out.ofSrcs x [p] { causes := cs }
  else if objBusy x.s x.g f then Out.ofSrcs x [p] (waitTest x .other)
  else
    let full := decide (f.pm1 + 1 ≤ f.arr + 1)
    Out.ofSrcs x [p]
      { stay := true,
        eff := fun s =>
          let s := (foldDies f.pkg f.die).foldl (fun (s : State) d => s.setFold d i (fun q =>
            if full then { q with arr := 0, phase := (q.phase + 1) % 2 ^ 32 } else { q with arr := q.arr + 1 })) s
          s.setWarp x.g.gid x.w.wid (fun w => { w with wait := .phase (dieOf x.g.core) i f.phase, released := false }) }
/-- A warp of the machine waits in a PHASE of an object. -/
def phaseWaiting (s : State) (dies : List Nat) (i : Nat) : Bool :=
  s.groups.any (fun g => dies.contains (dieOf g.core) && g.warps.any (fun w => match w.wait with | .phase _ o _ => o == i | _ => false))
/-- OBJREL (R230). -/
def oObjrel (x : Issue) : Out :=
  let p := x.opX
  let v := (p.at64 0).toNat
  let f := x.s.foldAt (field v 16 3) (field v 0 12)
  let i := field v 0 12
  let dies := foldDies f.pkg f.die
  let err := match objErr x.s x.g v with | some k => some k | none => if phaseWaiting x.s dies i then some 4 else none
  let cs := needUni x p ++ (match err with | some k => [x.ill 0 k] | none => [])
  if !cs.isEmpty then Out.ofSrcs x [p] { causes := cs }
  else if objBusy x.s x.g f then Out.ofSrcs x [p] (waitTest x .other)
  else
    Out.ofSrcs x [p]
      { eff := fun s =>
          let s := dies.foldl (fun (s : State) d => s.setFold d i (fun q => { q with live := false, gen := (q.gen + 1) % 16, pm1 := 0, arr := 0, phase := 0, lines := [] })) s
          { s.dropCopies (List.range 8) f.lines with views := s.views.filter (fun w => !(dies.contains w.die && w.index == i)) } }

/-- PHASE_VIEW_UPDATE (R279): a core applies an object's phase to its view, and then releases the PHASEs that waited for it. -/
def execPhaseViewUpdate (core die obj : Nat) (s : State) : Host.Outcome State Fault Refusal :=
  let f := s.foldAt die obj
  if !f.live || die != dieOf core then .next s
  else
    let s : State := { s with views := s.views.filter (fun (v : PhaseView) => !(v.core == core && v.die == die && v.index == obj)) ++ [{ core := core, die := die, index := obj, phase := f.phase }] }
    .next ((s.groups.filter (fun g => g.core == core)).foldl (fun (s : State) g => g.warps.foldl (fun (s : State) w =>
      match w.wait with
      | .phase _ o ph => if o = obj ∧ ph ≠ f.phase then
          (s.setWarp g.gid w.wid (fun w => { w with snap := [(ph + 1) % 2 ^ 32] })).release g.gid w.wid else s
      | _ => s) s) s)

/-! ## Pages and tiers -/

/-- The tier that a migration leads to. -/
def Migration.toT1 (m : Migration) : Bool := if m.phase = 0 then m.dst == 0 else inT1 m.dst
/-- Migrations of a page to a tier are given up: the page stays at its frame (R338). -/
def State.dropMoves (s : State) (ctx v : Nat) (toT1 : Bool) : State :=
  { s with migs := s.migs.filter (fun m => !(m.ctx == ctx && m.vpage == v && m.toT1 == toT1)) }
/-- A pin keeps the page from the tier a migration leads to (R231, R338). -/
def pinKeeps (s : State) (m : Migration) : Bool := match (s.page m.ctx m.vpage).pin with | some t => (t == 0) != m.toT1 | none => false
/-- One page of a PLACE (R231, R338): pinned where the budget admits it, and moved when it stands in the other tier. Answers
the state and whether the request waits for the page. -/
def placePage (s : State) (ctx tier : Nat) (pin : Bool) (v : Nat) : State × Bool :=
  match pageLeaf s ctx (v * 4096) with
  | none => (s, false)
  | some (l, o, v0) =>
    if 18 ≤ o then (s, false)
    else if tier = 2 then (((s.setPage ctx v0 (fun p => { p with pin := none })).setT1held ctx), false)
    else
      let st := s.page ctx v0
      let toT1 := tier == 0
      let other := match st.pin with | some t => t != tier | none => false
      if other then (s, false)
      else if pin && toT1 && st.pin.isNone && !st.held && overBudget s ctx (2 ^ o) then (s, false)
      else
        let s := if pin then ((s.setPage ctx v0 (fun p => { p with pin := some tier })).setT1held ctx).dropMoves ctx v0 (!toT1) else s
        if inT1 l.pfn = toT1 then (s, false)
        else if migrating s ctx v0 then (s, true)
        else (s.askMove ctx v0 toT1, true)
def placePages (ctx tier : Nat) (pin : Bool) : List Nat → State → State × List Nat
  | [], s => (s, [])
  | v :: r, s =>
    let q := placePage s ctx tier pin v
    let t := placePages ctx tier pin r q.1
    (t.1, if q.2 then v :: t.2 else t.2)
/-- The pages of a box, each named once by its first page number. -/
def boxPages (s : State) (ctx : Nat) (r : Shape) : List Nat :=
  (r.vas.filterMap (fun va => (pageLeaf s ctx va).map (fun p => p.2.2))).dedup
/-- PLACE (R231). -/
def oPlace (x : Issue) : Out :=
  let a := eArgs x
  let addr := ((x.opX).at64 0).toNat
  let tier := (a.mode.extractLsb' 0 2).toNat
  Out.ofSrcs x [x.opX]
    { eff := fun s =>
        let pages := match (if addr % 64 = 0 then (match eBytes s (agentOf x.g) addr 64 with | .ok bs => shapeOf (leNat bs) | .error _ => none) else none) with
          | some r => if r.space = 0 then boxPages s x.g.ctx r else []
          | none => []
        let q := placePages x.g.ctx tier (a.mode.getLsbD 2) pages s
        let s := q.1
        let dc := a.dc.toNat
        let op : PlaceOp := { rid := s.nextId, gid := x.g.gid, dc := dc, ctx := x.g.ctx, tier := tier, pin := a.mode.getLsbD 2, pages := q.2 }
        let s := if dc < 6 then s.setGroup x.g.gid (fun g => g.addDc dc) else s
        { s with places := s.places ++ [op], nextId := s.nextId + 1 } }
/-- PLACE_COMPLETE (R231, R351): every page stands in the tier or was refused. -/
def execPlaceComplete (rid : Nat) (s : State) : Host.Outcome State Fault Refusal :=
  match s.places.find? (fun p => p.rid == rid) with
  | none => .next s
  | some p =>
    if p.pages.any (fun v => migrating s p.ctx v) then .next s
    else
      let s := { s with places := s.places.filter (fun q => q.rid != rid) }
      match p.engine with
      | some (d, e) => .next (s.ceGo (8 * d + e) 1)
      | none => .next (if p.dc < 6 then s.setGroup p.gid (fun g => (g.subDc p.dc).wake s.bw) else s)

/-! ## Layer windows (R343) -/

structure LayerWin where
  base : Nat
  lsize : Nat
  lstride : Nat
  nlayer : Nat
  depth : Nat
  reads : Nat
  evdone : Nat
  evres : Nat
  cur : Nat
  act : Bool
  deriving DecidableEq, Repr
def layerWinOf (v : Nat) : LayerWin :=
  { base := field v 0 64, lsize := field v 64 32, lstride := field v 96 32, nlayer := field v 128 16, depth := field v 144 4,
    reads := field v 148 4, evdone := field v 160 16, evres := field v 176 16, cur := field v 192 16, act := v.testBit 211 }
/-- A window record that faults an XSTRM (R352). -/
def layerBad (v : Nat) : Bool :=
  let w := layerWinOf v
  field v 152 8 != 0 || field v 212 300 != 0 || w.act || w.nlayer == 0 || w.depth == 0 || w.lsize == 0 || w.lsize % 4096 != 0
    || w.lstride % 4096 != 0 || decide (w.lstride < w.lsize) || w.base % 4096 != 0
/-- The pages of layer `l`, by their first page number, in ascending address. -/
def layerPages (s : State) (ctx : Nat) (w : LayerWin) (l : Nat) : List Nat :=
  ((List.range (w.lsize / 4096)).filterMap (fun k => (pageLeaf s ctx (w.base + l * w.lstride + 4096 * k)).map (fun p => p.2.2))).dedup
/-- The pages that PLACEW waits on: those of the window that are not pinned in T2 (R232, R342). -/
def windowPages (s : State) (ctx : Nat) (w : LayerWin) : List Nat :=
  ((List.range (min (w.cur + w.depth) w.nlayer - w.cur)).flatMap (fun k => layerPages s ctx w (w.cur + k))).dedup.filter
    (fun v => (s.page ctx v).pin != some 1)
/-- PLACEW (R232): the window is read once; the warp tests again after each migration or posting. -/
def oPlacew (x : Issue) : Out :=
  let addr := ((x.opX).at64 0).toNat
  let c (st code info : Nat) : Cause := { stage := st, code := code, tfm := x.e.mask, taddr := BitVec.ofNat 64 addr, tinfo := info }
  let test (evres : Nat) (pages : List Nat) : Out :=
    match (x.s.event x.g.ctx evres).stream with
    | some k => { causes := [c 6 cSTREAM k] }
    | none =>
      let away := pages.any (fun v => match pageLeaf x.s x.g.ctx (v * 4096) with
        | some (l, _, _) => !inT1 l.pfn && (x.s.page x.g.ctx v).pin != some 1 | none => false)
      if away then
        { stay := true, eff := fun s => s.setWarp x.g.gid x.w.wid (fun w => { w with wait := .placew, pass := 1, snap := evres :: pages }) }
      else {}
  let o : Out :=
    match x.w.pass, x.w.snap with
    | 1, ev :: ps => test ev ps
    | _, _ =>
      if addr % 64 ≠ 0 then { causes := [c 3 cALIGN 0] }
      else
        match eBytes x.s (agentOf x.g) addr 64 with
        | .error (.stop code _ i) => { causes := [c (if code = cPOISON then 5 else 4) code i] }
        | .error (.hold lv va k) => { parks := (Mask.lanes x.e.mask).map (fun l => (l, va, parkLevel lv k)) }
        | .ok bs =>
          let w := layerWinOf (leNat bs)
          test w.evres (windowPages x.s x.g.ctx w)
  Out.ofSrcs x [x.opX] o

/-! ## Migration (R339, R340) -/

/-- The manager's own policy (R338, R357) asks for a move: `mid` is then 2^64 plus the direction, the table (a context, or
128 plus a port) from bit 1 and the page number from bit 9. It moves no page that is pinned or held. -/
def policyMove (s : State) (mid : Nat) : State :=
  let ctx := mid / 2 % 256
  let v := (mid - 2 ^ 64) / 512
  let auto := if ctx < 128 then (s.ctx ctx).tierpol.testBit 1 else ((s.ports.getD (ctx - 128) {}).tenctl.getLsbD 0)
  let st := s.page ctx v
  if mid < 2 ^ 64 ∨ !auto ∨ st.pin.isSome ∨ st.held ∨ migrating s ctx v ∨ s.migs.any (fun m => m.mid == mid) then s
  else { s with migs := s.migs ++ [{ mid := mid, ctx := ctx, vpage := v, src := 0, dst := mid % 2 }] }
/-- MIGRATION_START (R339, R340): the copy phase begins, and TFETCH pins of the page are dropped. A pinned page stays (R338). -/
def execMigrationStart (mid : Nat) (s0 : State) : Host.Outcome State Fault Refusal :=
  let s := policyMove s0 mid
  match s.migs.find? (fun m => m.mid == mid) with
  | none => .next s
  | some m =>
    if m.phase ≠ 0 || s.migs.any (fun q => q.ctx == m.ctx && q.vpage == m.vpage && q.mid != mid && q.phase == 1) then .next s
    else
      match pageLeaf s m.ctx (m.vpage * 4096) with
      | none => .next { s with migs := s.migs.filter (fun q => q.mid != mid) }
      | some (l, o, v0) =>
        let toT1 := m.dst == 0
        if inT1 l.pfn = toT1 ∨ v0 ≠ m.vpage ∨ 18 ≤ o ∨ pinKeeps s m then .next { s with migs := s.migs.filter (fun q => q.mid != mid) }.wakePlacew
        else
          let k := s.free
          let f := pickFrame k.1 toT1 o
          if !framesClear k.2 f (2 ^ o) then .next k.2
          else
            let inPage (line : Nat) : Bool := decide (l.pfn * 32 ≤ line) && decide (line < (l.pfn + 2 ^ o) * 32)
            let s := k.2
            .next ({ s with migs := updWhere (fun q => q.mid == mid) (fun q => { q with phase := 1, src := l.pfn, dst := f }) s.migs }.dropPins inPage)

/-- The entry that maps a page, at its level. -/
def pteAddr (s : State) (vpn level : Nat) : Nat → Nat → Nat
  | 0, tab => tab + 16 * (vpn % 512)
  | k + 1, tab =>
    if level = k + 1 then tab + 16 * (vpn / 2 ^ (9 * (k + 1)) % 512)
    else pteAddr s vpn level k (field (pteAt s tab vpn (k + 1)) 12 36 * 4096)
/-- A new frame is written into the entries of a page (a run of 64 KiB has sixteen). -/
def State.setPfn (s : State) (ctx v0 o pfn : Nat) : State :=
  let level := if o = 4 then 0 else o / 9
  (List.range (if o = 4 then 16 else 1)).foldl (fun (s : State) j =>
    let t := tableOf s ctx
    let a := pteAddr s (v0 + j) level t.1 t.2
    let e := s.rd a 16
    let low := e % 2 ^ 12
    s.wr a 16 (low + (pfn + j) * 2 ^ 12 + e / 2 ^ 48 * 2 ^ 48)) s
/-- A line of the old frame as it stands at the new one (R340). -/
def Line.moved (l : Line) (line : Nat) : Line := { l with line := line, clusters := 0, dieBits := 0, rcnt := 0 }
/-- MIGRATION_SWITCH (R339, R340): bytes, poison and line state pass to the new frame, the old one keeping its leases until they have passed; the entry names it, every TLB drops the
page, and requests not yet performed go to the new frame. -/
def execMigrationSwitch (mid : Nat) (s : State) : Host.Outcome State Fault Refusal :=
  match s.migs.find? (fun m => m.mid == mid) with
  | none => .next s
  | some m =>
    match pageLeaf s m.ctx (m.vpage * 4096) with
    | none => if m.phase = 1 then .next { s with migs := s.migs.filter (fun q => q.mid != mid) } else .next s
    | some (l, o, v0) =>
      if m.phase ≠ 1 then .next s
      else if v0 ≠ m.vpage ∨ l.pfn ≠ m.src ∨ pinKeeps s m then .next { s with migs := s.migs.filter (fun q => q.mid != mid) }
      else
        let n := 2 ^ o
        let inLine (x : Nat) : Bool := decide (m.src * 32 ≤ x) && decide (x < (m.src + n) * 32)
        let inNew (x : Nat) : Bool := decide (m.dst * 32 ≤ x) && decide (x < (m.dst + n) * 32)
        if s.pins.any (fun p => p.op.isSome && inLine p.line) || snooped s (m.src * 4096) (n * 4096) then .next s
        else
          let shift (a u : Nat) : Nat := a - m.src * 4096 / u + m.dst * 4096 / u
          let asid := (s.ctx m.ctx).asid
          let copy (mem : List Host.Cell) : List Host.Cell :=
            (Memory.store mem (m.dst * 4096) (Memory.bytes mem (m.src * 4096) (n * 4096))).filter (fun c => !inLine (c.1 / 128))
          let s : State := { s with mem := copy s.mem, cores := s.cores.map (fun c => (c.1, { c.2 with mq := c.2.mq.map (fun (q : MCmd) =>
            { q with was := q.was.map (fun w => (copy w.1, w.2)) }) })) }
          let s := (s.setPfn m.ctx v0 o m.dst).setPage m.ctx v0 (fun p => { p with packed := [] })
          let move (r : Req) : Req := { r with parts := r.parts.map (fun p =>
            if !r.inCluster && !p.done && inLine p.line then
              { p with line := shift p.line 128, accs := p.accs.map (fun a => { a with pa := shift a.pa 1 }) } else p) }
          let s : State := { s with
            poison := s.poison.filter (fun b => !inLine (b / 2)) ++ (s.poison.filter (fun b => inLine (b / 2))).map (fun b => shift b 64),
            lines := (s.lines.filter (fun l => !inLine l.line && !inNew l.line)) ++ (s.lines.filter (fun l => inLine l.line)).map (fun l => l.moved (shift l.line 128))
              ++ (s.lines.filter (fun l => inLine l.line && decide (s.bw < l.hw))).map Line.left,
            invals := s.invals.map (fun v => if inLine v.line then { v with line := shift v.line 128, rid := v.rid.map (fun r => (r.1, shift r.2 128)) } else v),
            l1 := s.l1.filter (fun l => !inLine l.line),
            icache := s.icache.filter (fun l => !inLine l.line),
            fold := s.fold.map (fun f => { f with lines := f.lines.map (fun x => if inLine x then shift x 128 else x) }),
            tlb := s.tlb.filter (fun t => !((decide (t.leaf.pfn < m.src + n) && decide (m.src < t.leaf.pfn + 2 ^ t.order))
              || (decide (m.ctx < 128) && t.asid == asid && decide (t.vpn < v0 + n) && decide (v0 < t.vpn + 2 ^ t.order)))),
            walkc := s.walkc.filter (fun w => !(decide (m.ctx < 128) && w.asid == asid && v0 / 2 ^ (9 * (w.level + 1)) == w.idx)),
            ports := s.ports.map (fun (p : Port) => { p with ttlb := p.ttlb.filter (fun t => !(decide (m.src ≤ t.leaf.pfn) && decide (t.leaf.pfn < m.src + n))) }),
            regions := s.regions.map (fun (r : Region) => if inLine (r.base / 128) then { r with base := shift r.base 1 } else r),
            reqs := s.reqs.map move,
            inbound := s.inbound.map (fun (q : Inbound) =>
              { q with parts := q.parts.map (fun p => if !p.done && inLine (p.pa / 128) then { p with pa := shift p.pa 1 } else p) }),
            migs := s.migs.filter (fun q => q.mid != mid) }
          let die := homeDie (m.src * 4096)
          .next ((if m.mid < 2 ^ 64 then s.setCtx m.ctx (fun c => { c with bwmeter := modAt (· + n * 4096) die c.bwmeter }) else s).dropPins inLine).wakePlacew.serveHosts

/-! ## Compression (R341) -/

/-- COMPRESSION: the manager compresses the 4 KiB units of a T2 page of a context or a tenant (128 plus its port); `page` is
that number plus 256 times the page number. No byte that an access returns changes. -/
def execCompression (page : Nat) (s : State) : Host.Outcome State Fault Refusal :=
  let ctx := page % 256
  let on := if ctx < 128 then decide (ctx < Config.contexts) && (s.ctx ctx).tierpol.testBit 0 else (s.ports.getD (ctx - 128) {}).tenctl.getLsbD 1
  match pageLeaf s ctx (page / 256 * 4096) with
  | none => .next s
  | some (l, o, v0) =>
    if inT1 l.pfn ∨ !on then .next s
    else .next (s.setPage ctx v0 (fun p => { p with packed := (List.range (2 ^ o)).map (fun k => l.pfn + k) }))

/-- PHASE (R229). -/
def execPhase (a : RArgs) (s : State) : Host.Outcome State Fault Refusal := runIssue s (.phase a) oPhase
/-- OBJDECL (R228). -/
def execObjdecl (a : EArgs) (s : State) : Host.Outcome State Fault Refusal := runIssue s (.objdecl a) oObjdecl
/-- OBJREL (R230). -/
def execObjrel (a : RArgs) (s : State) : Host.Outcome State Fault Refusal := runIssue s (.objrel a) oObjrel
/-- PLACE (R231). -/
def execPlace (a : EArgs) (s : State) : Host.Outcome State Fault Refusal := runIssue s (.place a) oPlace
/-- PLACEW (R232). -/
def execPlacew (a : EArgs) (s : State) : Host.Outcome State Fault Refusal := runIssue s (.placew a) oPlacew

end Sys2Proof.Machine
end

