-- ==== Sys2Proof/Machine/System.lean ====
section
/-! DEFINITION. The cluster's instructions and steps (R248 to R265): lane mode, hints, sleep and power gating; BANKCFG (R253),
TLBINV (R289), and the resume of a halted group (R399). -/

namespace Sys2Proof.Machine

/-! ## BANKCFG -/

/-- BANKCFG (R253, R254): the warp waits until the bank has changed. Another BANKCFG of the team is held meanwhile. -/
def oBankcfg (x : Issue) : Out :=
  let k := x.m.toNat % 16
  let mode := x.m.toNat / 16
  let n := x.tm.banks.length
  if x.w.released then {}
  else if x.tm.bankPend.isSome then { hold := true }
  else if n ≤ k ∨ (mode = 0 ∧ k + 1 ≠ n) then { causes := [x.ill] }
  else if mode ≠ 0 ∧ x.tm.banks.getD k false = (mode == 2) then {}
  else
    { stay := true,
      eff := fun s => (s.setTeam x.g.team (fun t => { t with bankPend := some (k, mode, s.nextId) })).setWarp x.g.gid x.w.wid
        (fun w => { w with wait := .bank, released := false }) }

/-! ## Hints and sleep -/

/-- PWRHINT (R263, R267): PRERAMP asks for a grant unless the engine is live; fillers of a live engine run where no operation occupies it. END
begins the falling steps of a pre-ramp. -/
def oPwrhint (x : Issue) : Out :=
  let n := match x.a with | .i a => a.imm.toNat | _ => 0
  let core := x.g.core
  { eff := fun s =>
      let k := s.cluster (clusterOf core)
      let c := s.core core
      if n % 16 = 1 then
        (if engFalls k.dnTab c k.lclk then
           s.setCore core (fun c => { c with eng := .preramp, engEnd := max (k.lclk + n / 16 * 16) (if c.eng = .preramp then c.engEnd else 0) })
         else if engLive k.dnTab c k.lclk then s
         else (s.wakeLimiter (clusterOf core)).setCore core (fun c => { c with preReq := c.preReq ++ [(k.lclk, n / 16)] }))
      else if c.eng = .preramp ∧ k.lclk ≤ c.engEnd then
        s.setCore core (fun c => { c with eng := .falling, engEnd := k.lclk + 4 * fallSteps k.dnTab })
      else s }
/-- SLEEP (R264). -/
def oSleep (x : Issue) : Out :=
  let n := match x.a with | .i a => a.imm.toNat | _ => 0
  if n = 0 ∨ x.w.released then {} else holdAt x (.sleep (x.s.bw + n))
/-- SLEEP_WAKE (R264): never before BWCLK reaches the wake time. -/
def execSleepWake (gid wid : Nat) (s : State) : Host.Outcome State Fault Refusal :=
  match s.group gid with
  | none => .next s
  | some g =>
    match g.warp wid with
    | none => .next s
    | some w =>
      match w.wait with
      | .sleep u => if u ≤ s.bw then .next (s.release gid wid) else .next s
      | _ => .next s

/-! ## Lane mode (R250) -/

/-- A write of LMODE. -/
def Cluster.setLmode (k : Cluster) (m : Nat) : Cluster :=
  if m = 3 then k
  else if k.pend then { k with heldMode := some m }
  else if m = k.lmode then k
  else { k with pend := true, draining := true, newMode := m }
/-- An engine of the cluster occupies its core, or runs fillers or falling steps, in this LCLK. -/
def enginesBusy (s : State) (cluster : Nat) : Bool :=
  let k := s.cluster cluster
  (liveCores s cluster).any (fun c =>
    let q := s.core c
    q.mq.any (fun m => m.started && decide (k.lclk ≤ m.occEnd)) || engFalls k.dnTab q k.lclk)
/-- LANE_MODE_CHANGE: what has been dispatched completes, and the relock of 256 FCLK begins. -/
def execLaneModeChange (cluster : Nat) (s : State) : Host.Outcome State Fault Refusal :=
  let k := s.cluster cluster
  if !k.pend || !k.draining || enginesBusy s cluster then .next s
  else .next (s.setCluster cluster (fun k => { k with draining := false, relockAt := k.fclk + 256 }))
/-- LANE_RELOCK_DONE (R248, R250): PEND clears under the new mode, and a write held meanwhile applies. -/
def execLaneRelockDone (cluster : Nat) (s : State) : Host.Outcome State Fault Refusal :=
  let k := s.cluster cluster
  if !k.pend || k.draining || decide (k.fclk < k.relockAt) then .next s
  else
    let done : Cluster :=
      { k with pend := false, lmode := k.newMode, lclk := if k.newMode = 2 then (k.lclk + 1) / 2 * 2 else k.lclk, heldMode := none,
               stepAt := k.lclk / 4 * 4 }
    .next (s.setCluster cluster (fun _ => match k.heldMode with | some m => done.setLmode m | none => done))

/-! ## Power gating (R265). GATECTL.STATE: 0 ON, 1 ARMED, 2 ENTER, 3 OFF, 4 WAKE -/

/-- A group stands on a core: it is resident. -/
def resident (g : Group) : Bool := g.st != .ended && g.st != .saved && g.st != .placed
/-- A cluster is idle. -/
def clusterIdle (s : State) (cluster : Nat) : Bool :=
  let k := s.cluster cluster
  !s.groups.any (fun g => clusterOf g.core == cluster && resident g)
    && !s.teams.any (fun t => clusterOf t.core == cluster && (t.st == .resident || t.st == .draining || t.st == .saving || t.st == .flushing || t.st == .dying))
    && !k.cbars.any (fun b => b.2.1.cnt != 0)
    && !(liveCores s cluster).any (fun c => engLive k.dnTab (s.core c) k.lclk)
    && !s.reqs.any (fun r => r.inCluster && clusterOf r.core == cluster)
/-- ON and ARMED follow idleness. -/
def State.arm (s : State) (cluster : Nat) : State :=
  let k := s.cluster cluster
  let idle := clusterIdle s cluster
  if k.gate = 0 ∧ idle ∧ k.gateEn then s.setCluster cluster (fun k => { k with gate := 1, idleAt := s.bw })
  else if k.gate = 1 ∧ !idle then s.setCluster cluster (fun k => { k with gate := 0 })
  else s
/-- GATE_IDLE_TIMEOUT: an idle cluster arms; when it has been idle for IDLEUS it enters gating. -/
def execGateIdleTimeout (cluster : Nat) (s : State) : Host.Outcome State Fault Refusal :=
  let s := s.arm cluster
  let k := s.cluster cluster
  if k.gate = 1 ∧ k.idleAt + 1000 * k.idleus ≤ s.bw then .next (s.setCluster cluster (fun k => { k with gate := 2 })) else .next s
/-- GATE_ENTER_DONE: caches and TLBs are invalidated and the cluster commits to OFF. -/
def execGateEnterDone (cluster : Nat) (s : State) : Host.Outcome State Fault Refusal :=
  let k := s.cluster cluster
  if k.gate ≠ 2 then .next s
  else if !clusterIdle s cluster then .next (s.setCluster cluster (fun k => { k with gate := 0 }))
  else
    let s : State := { s with
      l1 := s.l1.filter (fun l => clusterOf l.core != cluster), icache := s.icache.filter (fun l => clusterOf l.core != cluster),
      tlb := s.tlb.filter (fun t => if t.second then t.who != cluster else clusterOf t.who != cluster) }
    .next (s.setCluster cluster (fun k => { k with gate := 3 }))
/-- GATE_WAKE_DONE: the island is powered and relocked. -/
def execGateWakeDone (cluster : Nat) (s : State) : Host.Outcome State Fault Refusal :=
  if (s.cluster cluster).gate = 4 then .next (s.setCluster cluster (fun k => { k with gate := 0 })) else .next s
/-- A dispatch meets the gate: whether it proceeds, and the state after it. -/
def State.dispatchGate (s : State) (cluster : Nat) : State × Bool :=
  match (s.cluster cluster).gate with
  | 3 => (s.setCluster cluster (fun k => { k with gate := 4 }), false)
  | 4 => (s, false)
  | _ => (s.setCluster cluster (fun k => { k with gate := 0 }), true)

/-! ## TLBINV (R289) -/

/-- A core lies in the reach: 0 its cluster, 1 the die, 2 the package. -/
def inReach (reach core c : Nat) : Bool :=
  match reach with
  | 0 => clusterOf c == clusterOf core
  | 1 => dieOf c == dieOf core
  | _ => true
/-- Drop what translates matching pages: kind 0 a page of an ASID, 1 an ASID, 2 everything. -/
def State.dropTlb (s : State) (kind reach core asid va : Nat) : State :=
  let covers (t : TlbEntry) : Bool := kind == 2 || (t.asid == asid && (kind == 1 || va / 4096 / 2 ^ t.order * 2 ^ t.order == t.vpn))
  let here (t : TlbEntry) : Bool := if t.second then inReach reach core (t.who * 128) else inReach reach core t.who
  let walks (w : WalkEntry) : Bool := kind == 2 || (w.asid == asid && (kind == 1 || va / 4096 / 2 ^ (9 * (w.level + 1)) == w.idx))
  { s with tlb := s.tlb.filter (fun t => !(covers t && here t)),
           walkc := s.walkc.filter (fun w => !(walks w && (reach == 2 || w.die == dieOf core))) }
/-- The pages of the largest entry in reach that covers a page: the first, and how many; the page itself where there is none. -/
def coverOf (s : State) (reach core asid va : Nat) : Nat × Nat :=
  let hit (t : TlbEntry) : Bool :=
    t.asid == asid && va / 4096 / 2 ^ t.order * 2 ^ t.order == t.vpn && (if t.second then inReach reach core (t.who * 128) else inReach reach core t.who)
  (s.tlb.filter hit).foldl (fun b t => if b.2 < 2 ^ t.order then (t.vpn, 2 ^ t.order) else b) (va / 4096, 1)
/-- Accesses, TFU operations, copy commands and transfers in reach, begun before `upto`, that translated through a dropped entry of the pages
`cov` (of an ASID or of every one, whatever the page, for the other kinds) and have not been performed. -/
def translatedBusy (s : State) (kind reach core asid upto : Nat) (cov : Nat × Nat) : Bool :=
  let page (va : Nat) : Bool := kind != 0 || (decide (cov.1 ≤ va / 4096) && decide (va / 4096 < cov.1 + cov.2))
  let ctxOk (ctx : Nat) : Bool := kind == 2 || (s.ctx ctx).asid == asid
  let jobHas (j : CopyJob) : Bool := (j.src.space == 0 && j.src.vas.any page) || (j.dst.space == 0 && j.dst.vas.any page)
  s.reqs.any (fun r => decide (r.rid < upto) && !r.inCluster && inReach reach core r.core && ctxOk r.ctx
      && r.parts.any (fun p => !p.performed && p.accs.any (fun a => page a.va)))
    || s.cores.any (fun c => inReach reach core c.1
        && (c.2.copyq.any (fun q => q.started && decide (q.id < upto) && (match s.group q.gid with
              | some g => ctxOk g.ctx && (match q.job g with | .ok j => jobHas j | .error _ => false) | none => false))
          || c.2.mq.any (fun q => q.started && !q.done && decide (q.id < upto) && ctxOk (s.team q.team).ctx
              && q.reads.any (fun r => r.1.space == 0 && (r.1.spans r.2).any (fun x => (List.range (x.2 / 4096 + 2)).any (fun k => page (x.1 + min (4096 * k) (x.2 - 1))))))))
    || (List.range 64).any (fun k => inReach reach core (k / 8 * 1024) && (match (s.ce k).xfer with
        | some q => decide (q.id < upto) && ctxOk (s.ce k).ctx && (match copyJob q.kind q.recAddr.toNat (2 ^ 32) { core := noCore (k / 8), ctx := (s.ce k).ctx, team := q.queue, who := 3 }
            (leNat q.record) (leNat q.src) (leNat q.dst) q.preg [] 0 false with | .ok j => jobHas j | .error _ => false)
        | none => false))
/-- TLBINV: a fence at the reach, the drop, and the wait for accesses in flight. -/
def oTlbinv (x : Issue) : Out :=
  let kind := x.m.toNat % 4
  let reach := x.m.toNat / 4 % 4
  let p := x.opX; let q := x.opY
  let va := (p.at64 0).toNat
  let asid := (q.at64 0).toNat
  let bad := decide (2 ^ 12 ≤ asid) || (kind != 0 && va != 0) || (kind == 2 && asid != 0)
  let cs := needUni x p ++ needUni x q ++ (if bad && p.uni && q.uni then [x.ill] else [])
  let o : Out :=
    if !cs.isEmpty then { causes := cs }
    else
      match x.w.pass, x.w.snap with
      | 0, _ => { stay := true, eff := waitFence x (2 + reach) }
      | 1, _ => { stay := true, eff := fun s => (s.dropTlb kind reach x.g.core asid va).setWarp x.g.gid x.w.wid
                    (fun w => { w with wait := .other, pass := 2, snap := [s.nextId, (coverOf s reach x.g.core asid va).1, (coverOf s reach x.g.core asid va).2] }) }
      | _, lim :: cov =>
        if translatedBusy x.s kind reach x.g.core asid lim (cov.getD 0 0, cov.getD 1 0) then
          { stay := true, eff := fun s => s.setWarp x.g.gid x.w.wid (fun w => { w with wait := .other }) }
        else {}
      | _, [] => {}
  Out.ofSrcs x [p, q] o

/-! ## Debug resume -/

/-- DBGRES (R399): the group that the write names goes on, if HALT.GROUP halted it on this die. -/
def State.dbgResume (s : State) (die value : Nat) : State :=
  let id := field value 0 37
  let ctx := field value 40 7
  let hit (g : Group) : Bool := g.halted && g.ctx == ctx && dieOf g.core == die && (g.teamid * 16 + g.index) % 2 ^ 37 == id
  if field value 37 3 ≠ 0 ∨ field value 47 17 ≠ 0 then s
  else { s with groups := s.groups.map (fun g => if hit g then { g with halted := false } else g) }
/-- DBGRES_WRITE. -/
def execDbgresWrite (die value : Nat) (s : State) : Host.Outcome State Fault Refusal := .next (s.dbgResume die value)

/-- BANKCFG (R253). -/
def execBankcfg (a : RArgs) (s : State) : Host.Outcome State Fault Refusal := runIssue s (.bankcfg a) oBankcfg
/-- PWRHINT (R263). -/
def execPwrhint (a : IArgs) (s : State) : Host.Outcome State Fault Refusal := runIssue s (.pwrhint a) oPwrhint
/-- SLEEP (R264). -/
def execSleep (a : IArgs) (s : State) : Host.Outcome State Fault Refusal := runIssue s (.sleep a) oSleep
/-- TLBINV (R289). -/
def execTlbinv (a : RArgs) (s : State) : Host.Outcome State Fault Refusal := runIssue s (.tlbinv a) oTlbinv

end Sys2Proof.Machine
end

