-- ==== Sys2Proof/Machine/Slot.lean ====
section
/-! DEFINITION. The image of a saved team in its slot (R327), and how it is read back (R328). -/

namespace Sys2Proof.Machine

/-! ## What a slot holds (R327) -/

/-- n bytes of a section that the spec does not lay out, at offset `o` of the slot. -/
def freeBytes (s : State) (o n : Nat) : List Byte := (List.range n).map (fun k => Config.saveByte (o + k) s.choice)
/-- A V register by shape tag (R40). -/
def vregBytes (r : VReg) : List Byte :=
  match r with
  | .uni b => leBytes 1 0 ++ leBytes 4 b.toNat
  | .aff b t => leBytes 1 1 ++ leBytes 4 b.toNat ++ leBytes 4 t.toNat
  | .gen _ => leBytes 1 2 ++ (List.range 64).flatMap (fun l => leBytes 4 (r.lane l).toNat)
/-- A tile: its elements, its status (R180) and its kept fault address. -/
def tileBytes (t : Tile) : List Byte :=
  (List.range 4096).flatMap (fun i => leBytes 4 (Amap.get 0 t.el i).toNat) ++ leBytes 8 (256 * t.fcause + t.int32.toNat) ++ leBytes 8 t.faddr.toNat
/-- V0 to V255 of a group, and S0 to S63. -/
def Group.vBytes (g : Group) : List Byte := (List.range 256).flatMap (fun r => vregBytes (g.vreg r))
def Group.sBytes (g : Group) : List Byte := (List.range 64).flatMap (fun r => leBytes 8 (g.sreg r).toNat)
/-- LIMB, RPC, GW and the acquire floor of a group. -/
def Group.lastBytes (g : Group) : List Byte :=
  leBytes 8 g.limb.toNat ++ leBytes 8 ((g.warps.map (fun w => w.rpc.toNat)).headD 0) ++ leBytes 8 g.gw ++ leBytes 8 g.floor
/-- A settings image (R170). -/
def pregBytes (p : PReg) : List Byte := (List.range 64).flatMap (fun l => leBytes 4 (p.image l).toNat)
/-- A stage's byte (R159). -/
def Stage.byte (x : Stage) : List Byte := leBytes 1 (x.phase.toNat * 128 + x.pend)
/-- Bytes of a pending result's record. -/
def Pending.size (p : Pending) : Nat :=
  32 + (p.dst.foldl (fun n d => n + match d with
    | .v _ => 4 * Mask.count p.lanes
    | .s _ => 8
    | .cc => 32
    | .p _ => 256) 31) / 32 * 32
def Group.frontierSize (g : Group) : Nat :=
  g.warps.foldl (fun n w => n + 32 * w.entries.length + w.pend.foldl (fun m p => m + p.size) 0) 8
/-- A barrier's word (R157). -/
def Barrier.word (b : Barrier) : Nat := b.arrived.toNat % 2 ^ 16 + b.cnt * 2 ^ 16 + b.exp * 2 ^ 32 + b.all.toNat * 2 ^ 37 + b.gen * 2 ^ 40
/-- Barriers, stages by ring (R159), and cluster-barrier arrivals. -/
def syncBytes (s : State) (o : Nat) (t : Team) : List Byte :=
  (List.range 16).flatMap (fun b => leBytes 8 (Amap.get {} t.barriers b).word)
    ++ (List.range 64).flatMap (fun k =>
        let r := match t.rings.find? (fun p => p.1 == k / 8) with | some p => p.2.stages[k % 8]? | none => none
        (r.map Stage.byte).getD [0])
    ++ freeBytes s (o + 192) 16
def bankImage (t : Team) (b : Nat) : List Byte :=
  Memory.bytes t.scratch (bankBytes * b) bankBytes
    ++ (List.range 128).flatMap (fun k => leBytes 1 ((List.range 8).foldl (fun n i => n + (t.full.contains (1024 * b + 8 * k + i)).toNat * 2 ^ i) 0))
/-- Sections one after another; each is told its offset. -/
def catSections : List (Nat → List Byte) → List Byte → List Byte
  | [], a => a
  | f :: r, a => catSections r (a ++ f a.length)
/-- A team's groups in index order. -/
def indexed (s : State) (t : Team) : List Group := (s.groupsOf t.tid).mergeSort (fun a b => decide (a.index ≤ b.index))
/-- The image of a team. -/
def slotImage (s : State) (t : Team) : List Byte :=
  let gs := indexed s t
  catSections
    ([(fun o => freeBytes s o 256)]
      ++ (List.range t.nt).map (fun n => fun _ => tileBytes (Amap.get {} t.tiles n))
      ++ [(fun o => leBytes 8 t.mx.toNat ++ freeBytes s o 512)]
      ++ gs.map (fun g => fun _ => g.vBytes)
      ++ gs.map (fun g => fun o => g.sBytes ++ freeBytes s o 512)
      ++ gs.map (fun g => fun o => freeBytes s o g.frontierSize)
      ++ [(fun o => syncBytes s o t)]
      ++ (List.range 8).map (fun p => fun _ => pregBytes (Amap.get {} t.pregs p))
      ++ gs.map (fun g => fun _ => g.lastBytes)
      ++ (List.range t.banks.length).map (fun b => fun _ => bankImage t b)) []
/-- A write of a die's own to device memory of a context: bytes whose page does not admit it are not written. -/
def dieWrite (die ctx : Nat) (s : State) (va : Nat) (bs : List Byte) : State :=
  let a : Agent := { core := noCore die, ctx := ctx, team := 0, who := 0 }
  match eTr s a .write va with
  | .ok (pa, l) => (eStore { s := s } a pa l bs).s
  | .error _ => s
/-- A list in chunks of 64. -/
def chunks64 (n : Nat) (l : List Byte) : List (List Byte) := (List.range n).map (fun k => (l.drop (64 * k)).take 64)
/-- The image goes to its slot (R326). -/
def State.saveImage (s : State) (t : Team) (slot : Nat) : State :=
  let img := slotImage s t
  let base := (s.ctx t.ctx).savepool + 2 ^ 21 * slot
  ((chunks64 ((img.length + 63) / 64) img).zipIdx).foldl (fun (s : State) c => dieWrite (dieOf t.core) t.ctx s (base + 64 * c.2) c.1) s
/-- Slot k of a context's pool (R327). -/
def slotBase (s : State) (ctx k : Nat) : Nat := (s.ctx ctx).savepool + 2 ^ 21 * k

/-! ## Reading a slot back (R328) -/

/-- A field as its bytes in the slot give it: unchanged where they stand as the team's own. -/
def reload {α : Type} (enc : α → List Byte) (dec : List Byte → α) (bs : List Byte) (x : α) : α := if enc x = bs then x else dec bs
/-- Number n of w bytes each in a list of bytes. -/
def numAt (w : Nat) (bs : List Byte) (n : Nat) : Nat := leNat ((bs.drop (w * n)).take w)
/-- n V registers by their tag bytes (R40). -/
def vregsOf : Nat → List Byte → List VReg
  | 0, _ => []
  | n + 1, bs =>
    let w (k : Nat) : Word := BitVec.ofNat 32 (numAt 4 (bs.drop 1) k)
    match (bs.headD 0).toNat % 4 with
    | 0 => .uni (w 0) :: vregsOf n (bs.drop 5)
    | 1 => .aff (w 0) (w 1) :: vregsOf n (bs.drop 9)
    | _ => .gen ((List.range 64).map w) :: vregsOf n (bs.drop 257)
def tileOf (bs : List Byte) : Tile :=
  let st := leNat ((bs.drop 16384).take 8)
  { el := (List.range 4096).foldl (fun m i => Amap.set 0 m i (BitVec.ofNat 32 (numAt 4 bs i))) [], int32 := st.testBit 0, fcause := field st 8 8,
    faddr := BitVec.ofNat 64 (leNat ((bs.drop 16392).take 8)) }
def barrierOf (v : Nat) : Barrier := { arrived := BitVec.ofNat 32 (field v 0 16), cnt := field v 16 5, exp := field v 32 5, all := v.testBit 37, gen := field v 40 8 }
def pregOf (bs : List Byte) : PReg :=
  let v := leNat bs
  { nlog := max 1 (min 8 (field v 1920 4)), img := BitVec.ofNat 2048 (v % 2 ^ 1920) }
/-- A group's sections 4, 5 and 9. -/
def Group.reload (vb sb lb : List Byte) (g : Group) : Group :=
  let g := if g.vBytes = vb then g else (vregsOf 256 vb).zipIdx.foldl (fun g p => g.setV p.2 p.1) g
  let g := if g.sBytes = sb then g else (List.range 64).foldl (fun g r => g.setS r (BitVec.ofNat 64 (numAt 8 sb r))) g
  if g.lastBytes = lb then g
  else
    { g with limb := BitVec.ofNat 32 (numAt 8 lb 0), gw := numAt 8 lb 2, floor := numAt 8 lb 3,
             warps := modAt (fun w => { w with rpc := BitVec.ofNat 32 (numAt 8 lb 1) }) 0 g.warps }
/-- A bank with its full-empty bits. -/
def Team.reloadBank (t : Team) (b : Nat) (bs : List Byte) : Team :=
  if bankImage t b = bs then t
  else
    let bits := bs.drop bankBytes
    let on := (List.range 1024).filter (fun k => (bits.getD (k / 8) 0).getLsbD (k % 8))
    { t with scratch := Memory.store t.scratch (bankBytes * b) (bs.take bankBytes),
             full := setFull true (on.map (1024 * b + ·)) (setFull false ((List.range 1024).map (1024 * b + ·)) t.full) }
/-- A team's sections 2, 3, 7, 8 and 10, each at its place in the slot. -/
def Team.reload (t : Team) (piece : Nat → Nat → List Byte) (o3 o7 o8 o10 : Nat) : Team :=
  let tiles := (List.range t.nt).foldl (fun m n => Amap.set {} m n (Machine.reload tileBytes tileOf (piece (256 + 16400 * n) 16400) (Amap.get {} m n))) t.tiles
  let bars := (List.range 16).foldl (fun m b => Amap.set {} m b
    (Machine.reload (fun x => leBytes 8 (Barrier.word x)) (fun bs => barrierOf (leNat bs)) (piece (o7 + 8 * b) 8) (Amap.get {} m b))) t.barriers
  let rings := t.rings.map (fun r => (r.1, { r.2 with stages := r.2.stages.zipIdx.map (fun x =>
    Machine.reload Stage.byte (fun bs => { x.1 with phase := (leNat bs).testBit 7, pend := leNat bs % 32 }) (piece (o7 + 128 + 8 * r.1 + x.2) 1) x.1) }))
  let pregs := (List.range 8).foldl (fun m p => Amap.set {} m p (Machine.reload pregBytes pregOf (piece (o8 + 256 * p) 256) (Amap.get {} m p))) t.pregs
  (List.range t.banks.length).foldl (fun t b => t.reloadBank b (piece (o10 + 16512 * b) 16512))
    { t with tiles := tiles, mx := BitVec.ofNat 64 (leNat (piece o3 8)), barriers := bars, rings := rings, pregs := pregs }
/-- The bytes of a team's slot as the die reads them, where a page does not admit it those that the team holds. -/
def State.slotBytes (s : State) (t : Team) (own : List Byte) : State × List Byte :=
  let a : Agent := { core := noCore t.die, ctx := t.ctx, team := 0, who := 0 }
  ((chunks64 ((own.length + 63) / 64) own).zipIdx).foldl (fun r c =>
    match eTr r.1 a .read (t.saveAt + 64 * c.2) with
    | .ok (pa, _) => (r.1.readLine (pa / 128) t.ctx, r.2 ++ r.1.rdBytes pa c.1.length)
    | .error _ => (r.1, r.2 ++ c.1)) (s, [])
/-- The sections that the spec lays out are read back (R328); the others stand as they were saved. -/
def State.loadImage (s : State) (t : Team) : State :=
  let own := slotImage s t
  let r := s.slotBytes t own
  let gs := indexed s t
  let sum (l : List Nat) : Nat := l.foldl (· + ·) 0
  let vl := gs.map (fun g => g.vBytes.length)
  let o3 := 256 + 16400 * t.nt
  let o5 := o3 + 520 + sum vl
  let o7 := o5 + 1024 * gs.length + sum (gs.map Group.frontierSize)
  let o9 := o7 + 208 + 2048
  let piece (o n : Nat) : List Byte := (r.2.drop o).take n
  let s := gs.zipIdx.foldl (fun (s : State) p =>
    s.setGroup p.1.gid (Group.reload (piece (o3 + 520 + sum (vl.take p.2)) (vl.getD p.2 0)) (piece (o5 + 1024 * p.2) 512) (piece (o9 + 32 * p.2) 32))) r.1
  s.setTeam t.tid (fun t => t.reload piece o3 o7 (o7 + 208) (o9 + 32 * gs.length))

end Sys2Proof.Machine
end

