-- ==== Sys2Proof/Machine/Launch.lean ====
section
/-! DEFINITION. Launching (R308 to R311), the distributor (R312), the life of teams, groups and grids (R313 to R315), and
spawning (R316, R317). -/

namespace Sys2Proof.Machine

/-! ## The launch record -/

/-- The ring that bits of RINGS configure. -/
def ringOf (f : Nat) : Ring := { e := f / 16 % 16 + 1, stages := List.replicate (f % 16) { phase := false, pend := f / 16 % 16 + 1 } }
def launchFields (v : Nat) : LaunchRec :=
  { code := BitVec.ofNat 64 (field v 0 64), entV := field v 64 32, entM := field v 96 32, entC := field v 128 32, teams := field v 160 32,
    arg := BitVec.ofNat 64 (field v 192 64), bind := BitVec.ofNat 64 (field v 256 64), seed := BitVec.ofNat 64 (field v 320 64),
    est := field v 384 32, evdone := field v 416 16, even := v.testBit 432, idem := v.testBit 433, pri := field v 434 3, place := field v 437 2,
    percore := field v 439 5, ngrp := field v 448 4 + 1, width := (field v 452 4 + 1) * 4, ncopy := field v 456 5, nmat := field v 461 5,
    nvec := field v 466 5, budC := field v 471 9, budM := field v 480 9, budV := field v 489 9, banks := field v 498 4, fifo := field v 502 11,
    tiles := field v 513 5,
    rings := (List.range 8).filterMap (fun r => let f := field v (518 + 9 * r) 9; if f % 16 = 0 then none else some (r, ringOf f)) }
/-- Rows a team of the record reserves (R132). -/
def LaunchRec.rows (r : LaunchRec) : Nat := r.ncopy * r.budC + r.nmat * r.budM + r.nvec * r.budV
/-- A launch record that R310 refuses, whatever its binding table holds. -/
def launchBad (v : Nat) : Bool :=
  let r := launchFields v
  let role (n b e : Nat) : Bool := n == 0 && (b != 0 || e != 0)
  let ring (k : Nat) : Bool := let f := field v (518 + 9 * k) 9; (f % 16 == 0 && f / 16 % 16 != 0) || decide (9 ≤ f % 16) || decide (256 ≤ f)
  field v 590 434 != 0 || field v 444 4 != 0 || r.teams == 0 || r.place == 3 || r.ncopy + r.nmat + r.nvec != r.ngrp
    || role r.ncopy r.budC r.entC || role r.nmat r.budM r.entM || role r.nvec r.budV r.entV
    || r.entC % 8 != 0 || r.entM % 8 != 0 || r.entV % 8 != 0 || decide (11 < r.banks) || decide (16 < r.tiles)
    || decide (256 < r.budC) || decide (256 < r.budM) || decide (256 < r.budV)
    || (List.range 8).any ring || decide (1024 < r.rows) || r.fifo / 2 ^ r.banks != 0 || r.bind.toNat % 64 != 0
/-- Entry k of a binding table (R309). -/
def bindWindow (e : Nat) : Window := { valid := e.testBit 97, base := BitVec.ofNat 64 (field e 0 64), size := field e 64 33 }
def bindCluster (e : Nat) : CWindow := { valid := e.testBit 63, lo := field e 0 18, hi := field e 32 18 + 1, core := field e 56 7, wr := e.testBit 64 }
def bindBad (t : Nat) : Bool :=
  (List.range 8).any (fun k => let e := field t (128 * k) 128; field e 98 30 != 0 || decide (2 ^ 32 < field e 64 33))
    || (List.range 4).any (fun k => let e := field t (128 * (8 + k)) 128; field e 18 14 != 0 || field e 50 6 != 0 || field e 65 63 != 0)
/-- The record of the bits `v`, with its binding table of the bits `t`; none where R310 refuses it. -/
def launchRec (v t : Nat) : Option LaunchRec :=
  let r := launchFields v
  if launchBad v then none
  else if r.bind = 0 then some r
  else if bindBad t then none
  else some { r with windows := (List.range 8).map (fun k => bindWindow (field t (128 * k) 128)),
                     cwindows := (List.range 4).map (fun k => bindCluster (field t (128 * (8 + k)) 128)) }
/-- The bits of a record, and of its binding table where it names one and is not refused, as an agent reads them. -/
def readLaunch (s : State) (a : Agent) (addr : Nat) : Except EErr (Nat × Nat) :=
  match eBytes s a addr 128 with
  | .error e => .error e
  | .ok bs =>
    let v := leNat bs
    if launchBad v || (launchFields v).bind == 0#64 then .ok (v, 0)
    else
      match eBytes s a (launchFields v).bind.toNat 192 with
      | .error e => .error e
      | .ok tb => .ok (v, leNat tb)

/-! ## Grids and their queues -/

/-- The die that PLACE 01 or 10 has fixed. -/
def Grid.home (g : Grid) : Option Nat := if g.record.place = 1 then g.fixed.map (· / 8) else if g.record.place = 2 then g.fixed else none
/-- Teams of the j-th die's share that have not been placed (R311). -/
def Grid.left (g : Grid) (j : Nat) : Nat := (g.record.teams + g.dies.length - 1 - j) / g.dies.length - g.next.getD j 0
/-- Shares that die d places. -/
def Grid.shares (g : Grid) (d : Nat) : List Nat :=
  (List.range g.dies.length).filter (fun j => (match g.home with | some h => h == d | none => g.dies.getD j 8 == d) && g.left j != 0)
def Grid.unplacedOn (g : Grid) (d : Nat) : Nat := (g.shares d).foldl (fun n j => n + g.left j) 0
def Grid.unplaced (g : Grid) : Nat := (List.range g.dies.length).foldl (fun n j => n + g.left j) 0
/-- The lowest TEAMID that die d may place next, with its share. -/
def Grid.nextOn (g : Grid) (d : Nat) : Option (Nat × Nat) :=
  (g.shares d).foldl (fun (b : Option (Nat × Nat)) j =>
    let t := j + g.next.getD j 0 * g.dies.length
    match b with
    | some q => if q.1 ≤ t then b else some (t, j)
    | none => some (t, j)) none
/-- A die's queue holds 64 grids (R311). -/
def queueFull (s : State) (d : Nat) : Bool := decide (64 ≤ (s.grids.filter (fun g => g.unplacedOn d != 0)).length)
/-- The dies a mask names: of a mask of 0 the issuing die. -/
def maskDies (m die : Nat) : List Nat := if m = 0 then [die] else (List.range 8).filter (fun d => m.testBit d)
/-- A grid enters the queues with its launch stamp (R311). -/
def State.enqueueGrid (s : State) (ctx addr : Nat) (r : LaunchRec) (dies : List Nat) (launcher : Option (Nat × Nat)) (stamp : Nat) : State :=
  let g : Grid := { id := s.nextId, ctx := ctx, record := r, addr := BitVec.ofNat 64 addr, stamp := stamp, dies := dies, next := dies.map (fun _ => 0),
                    launcher := launcher, queuedAt := s.nextId }
  { s with grids := s.grids ++ [g], nextId := s.nextId + 1 }

/-- LAUNCH (R311): the record is read and checked once; the warp keeps its bits, and the instant at which the fence completed, while it waits. -/
def oLaunch (x : Issue) : Out :=
  let a := eArgs x
  let addr := ((x.opX).at64 0).toNat
  let xctx := a.mode.getLsbD 8
  let y := x.opY
  let tgt := if xctx then (y.at64 0).toNat else x.g.ctx
  let dies := maskDies (a.mode.toNat % 256) (dieOf x.g.core)
  let c (st code info va : Nat) : Cause := { stage := st, code := code, tfm := x.e.mask, taddr := BitVec.ofNat 64 va, tinfo := info }
  let deny := xctx && (!(x.s.ctx x.g.ctx).priv || decide (Config.contexts ≤ tgt) || !(x.s.ctx tgt).enable)
  let pre := (if xctx then needUni x y else []) ++ (if deny then [c 4 cPROT 0 0] else []) ++ (if addr % 64 = 0 then [] else [c 3 cALIGN 0 addr])
  let refused : Out := { causes := [c 2 cILLOP 0 addr] }
  let o : Out :=
    match x.w.pass, x.w.snap with
    | 1, [v, t, stamp] =>
      (match launchRec v t with
       | none => refused
       | some r =>
         if dies.any (queueFull x.s) then { hold := true }
         else
           let dc := a.dc.toNat
           { eff := fun s =>
               let s := s.enqueueGrid tgt addr r dies (if dc < 6 then some (x.g.gid, dc) else none) stamp
               if dc < 6 then s.setGroup x.g.gid (fun g => g.addDc dc) else s })
    | _, _ =>
    if !pre.isEmpty then { causes := pre }
    else
      match readLaunch x.s (agentOf x.g) addr with
      | .error (.stop code va i) => { causes := [c (if code = cPOISON then 5 else 4) code i va] }
      | .error (.hold lv va k) => { parks := (Mask.lanes x.e.mask).map (fun l => (l, va, parkLevel lv k)) }
      | .ok (v, t) =>
        if (launchRec v t).isNone then refused
        else { stay := true, eff := fun s => (waitFence x 4 s).setWarp x.g.gid x.w.wid (fun w => { w with snap := [v, t] }) }
  Out.ofSrcs x (if xctx then [x.opX, y] else [x.opX]) o

/-! ## Teams -/

/-- A role's budget (R308). -/
def LaunchRec.budget (r : LaunchRec) (role : Nat) : Nat := if role = 0 then r.budC else if role = 1 then r.budM else r.budV
/-- The role of group index g: 0 COPY, 1 MATRIX, 2 VECTOR (R313). -/
def LaunchRec.role (r : LaunchRec) (g : Nat) : Nat := if g < r.ncopy then 0 else if g < r.ncopy + r.nmat then 1 else 2
/-- A team's parts in their launch state, without its groups. -/
def newTeam (tid teamid die : Nat) (g : Grid) : Team :=
  { tid := tid, grid := g.id, ctx := g.ctx, die := die, teamid := teamid, st := .queued, ngrp := g.record.ngrp, rings := g.record.rings, nt := g.record.tiles,
    banks := (List.range g.record.banks).map (fun k => g.record.fifo.testBit k), windows := g.record.windows, cwindows := g.record.cwindows, arg := g.record.arg }
/-- A spawned team has one group and no banks, tiles or rings (R317). -/
def newSpawned (tid teamid die : Nat) (g : Grid) (threads : List (List Word)) : Team :=
  { newTeam tid teamid die g with spawned := true, ngrp := 1, rings := [], nt := 0, banks := [], cwindows := [], threads := threads }
/-- A group not yet started. -/
def newGroup (gid tid index : Nat) (g : Grid) (teamid : Nat) : Group :=
  { gid := gid, team := tid, grid := g.id, ctx := g.ctx, core := 0, index := index, role := g.record.role index, width := g.record.width,
    budget := g.record.budget (g.record.role index), st := .placed, teamid := teamid, gridsz := g.record.teams, gw := g.stamp, floor := g.stamp }
def newGroups (tid first : Nat) (g : Grid) (teamid : Nat) : List Group :=
  (List.range g.record.ngrp).map (fun k => newGroup (first + k) tid k g teamid)

/-- What a team needs of a core (R312). -/
structure Need where
  groups : Nat
  rows : Nat
  banks : Nat
  tiles : Nat
  grid : Nat
  percore : Nat
  cluster : Option Nat
  deriving DecidableEq, Repr
/-- A waiting team: one that has a record already (spawned, flushed or saved), or the next of a share. -/
inductive Cand
  | old (tid : Nat)
  | fresh (grid teamid share : Nat)
  deriving DecidableEq, Repr

/-- A cluster barrier binds a saved team to its cluster (R257). -/
def boundCluster (s : State) (t : Team) : Option Nat :=
  let k := s.cluster (clusterOf t.core)
  if (s.groupsOf t.tid).any (fun g => k.cbars.any (fun b => b.2.2.contains g.gid) || k.relAt.any (fun r => r.1 == g.gid)) then some (clusterOf t.core) else none
def Cand.need (s : State) (g : Grid) : Cand → Need
  | .old tid =>
    let t := s.team tid
    let gs := (s.groupsOf tid).filter (fun q => q.st != .ended)
    { groups := gs.length, rows := gs.foldl (fun n q => n + q.budget) 0, banks := t.banks.length, tiles := t.nt, grid := g.id, percore := g.record.percore,
      cluster := match (if t.st = .saved then boundCluster s t else none) with | some k => some k | none => if g.record.place = 1 then g.fixed else none }
  | .fresh .. =>
    { groups := g.record.ngrp, rows := g.record.rows, banks := g.record.banks, tiles := g.record.tiles, grid := g.id, percore := g.record.percore,
      cluster := if g.record.place = 1 then g.fixed else none }
/-- Teams that stand on a core, one left aside. -/
def teamsOn (s : State) (skip core : Nat) : List Team := s.teams.filter (fun t => t.core == core && t.stands && t.tid != skip)
def groupsOn (s : State) (skip core : Nat) : List Group :=
  (teamsOn s skip core).flatMap (fun t => (s.groupsOf t.tid).filter (fun g => g.st != .ended))
/-- A cluster or core is present (R398). -/
def corePresent (s : State) (core : Nat) : Bool :=
  (s.cap 0).getLsbD (clusterOf core) && (s.cap (0x100 + 2 * clusterOf core + core % 128 / 64)).getLsbD (core % 64)
/-- A team fits a core (R312). -/
def fitsCore (s : State) (skip : Nat) (n : Need) (core : Nat) : Bool :=
  let ts := teamsOn s skip core
  let gs := groupsOn s skip core
  corePresent s core && decide (gs.length + n.groups ≤ Config.groupsPerCore) && decide (gs.foldl (fun k g => k + g.budget) 0 + n.rows ≤ Config.vrfRows)
    && decide ((ts.flatMap (fun t => t.bankNos)).length + n.banks ≤ 11) && decide (ts.foldl (fun k t => k + t.nt) 0 + n.tiles ≤ 16)
    && (n.percore == 0 || decide ((ts.filter (fun t => t.grid == n.grid)).length < n.percore))
/-- The first of a list that is least by a measure. -/
def least (f : Nat → Nat) : List Nat → Option Nat
  | [] => none
  | x :: r => match least f r with | some y => if f x ≤ f y then some x else some y | none => some x
/-- The core the distributor of a die takes (R312): in the cluster of fewest resident groups that has room, the core of
fewest. -/
def chooseCore (s : State) (d skip : Nat) (n : Need) : Option Nat :=
  let size (core : Nat) : Nat := (groupsOn s skip core).length
  let cl := (List.range 8).filterMap (fun c =>
    let k := 8 * d + c
    if n.cluster.isSome && n.cluster != some k then none
    else if (coresOf k).any (fitsCore s skip n) then some k else none)
  match least (fun k => ((s.teams.filter (fun t => clusterOf t.core == k && t.stands && t.tid != skip)).foldl
      (fun n t => n + ((s.groupsOf t.tid).filter (fun g => g.st != .ended)).length) 0)) cl with
  | none => none
  | some k => least size ((coresOf k).filter (fitsCore s skip n))

/-- Grids of a context in the order of R312. -/
def gridOrder (s : State) (ctx : Nat) : List Grid :=
  (s.grids.filter (fun g => g.ctx == ctx)).mergeSort (fun a b => decide (b.record.pri < a.record.pri) || (a.record.pri == b.record.pri && decide (a.queuedAt ≤ b.queuedAt)))
/-- The waiting teams of a context on a die, in order, each with its priority (R312). -/
def candidates (s : State) (d ctx : Nat) : List (Nat × Cand × Grid) :=
  let gs := gridOrder s ctx
  let mine (p : Team → Bool) (g : Grid) : List (Nat × Cand × Grid) :=
    ((s.teams.filter (fun t => t.grid == g.id && t.die == d && p t)).mergeSort (fun a b => decide (a.teamid ≤ b.teamid))).map (fun t => (g.record.pri, .old t.tid, g))
  let back (t : Team) : Bool := t.st == .saved && t.requeued
  gs.flatMap (fun g => mine (fun t => t.spawned && back t) g ++ mine (fun t => t.spawned && t.st == .queued) g)
    ++ gs.flatMap (fun g =>
      mine (fun t => !t.spawned && back t) g ++ mine (fun t => !t.spawned && t.st == .queued) g
        ++ (match g.nextOn d with | some p => [(g.record.pri, .fresh g.id p.1 p.2, g)] | none => []))
/-- The first waiting team that fits, teams behind a blocked one of their priority left aside (R312). -/
def pickTeam (s : State) (d skip : Nat) : List Nat → List (Nat × Cand × Grid) → Option (Cand × Grid × Nat)
  | _, [] => none
  | blocked, (p, c, g) :: r =>
    if blocked.contains p then pickTeam s d skip blocked r
    else
      match chooseCore s d skip (c.need s g) with
      | some k => some (c, g, k)
      | none => pickTeam s d skip (p :: blocked) r
/-- The distributor may place teams of a context on a die (R305, R329, R374). -/
def mayPlace (s : State) (d ctx : Nat) : Bool :=
  (s.ctx ctx).enable && !(s.dies.getD d {}).saveBlock.contains ctx && s.pkg.reset == .idle && !s.pkg.halt
def nextPlacement (s : State) (d ctx : Nat) : Option (Cand × Grid × Nat) :=
  if mayPlace s d ctx then pickTeam s d 0 [] (candidates s d ctx) else none
/-- The context whose turn it is (R312). -/
def turnOf (s : State) (d : Nat) : Option Nat :=
  let t := (s.dies.getD d {}).turn
  ((List.range Config.contexts).map (fun k => (t + 1 + k) % Config.contexts)).find? (fun c => (nextPlacement s d c).isSome)

/-- The L1 invalidates the ways of the banks that are claimed (R252). -/
def State.reclaim (s : State) (core : Nat) : State :=
  let banks := claimedBanks s core
  { s with l1 := s.l1.filter (fun l => !(l.core == core && banks.contains l.bank)) }
/-- The lowest-numbered banks of a core that no team standing there claims (R252). -/
def takeBanks (s : State) (core n : Nat) : List Nat := ((cacheBanks s core).filter (· != 0)).take n
/-- The parked entries of a team that is restored replay (R326). -/
def State.replay (s : State) (gids : List Nat) : State :=
  { s with
    faults := s.faults.map (fun f => { f with warps := f.warps.filter (fun p => !gids.contains p.1) }),
    groups := s.groups.map (fun g => if gids.contains g.gid then { g with warps := g.warps.map (fun w => { w with parked := false, held := false }) } else g) }
/-- A team takes its place on a core (R312, R328): a new or restarted one waits for its groups to start, a saved one goes on. -/
def State.seat (s : State) (tid core : Nat) : State :=
  let t := s.team tid
  let saved := t.st == .saved
  let f := (s.cluster (clusterOf core)).fclk
  let s := if saved then s.loadImage t else s
  let s := s.setTeam tid (fun t =>
    { t with st := .resident, core := core, firstCore := if saved then t.firstCore else core, placedAt := f, die := dieOf core, slot := none,
             requeued := false, mode := 0, bankNos := takeBanks s core t.banks.length })
  let s : State := { s with groups := s.groups.map (fun (g : Group) =>
    if g.team = tid ∧ g.st ≠ GState.ended then
      { g with core := core, st := if saved && g.st != .placed then .ready else .placed, since := s.bw, lastIssue := s.bw, cyc := none, issued := [], commits := [],
               seatedAt := if saved && t.core != core then s.bw else g.seatedAt } else g) }
  (if saved then s.replay ((s.groupsOf tid).map (fun g => g.gid)) else s).reclaim core
def State.placeCand (s : State) (d core : Nat) (c : Cand) (g : Grid) : State :=
  let s := s.setGrid g.id (fun q => if q.fixed.isSome then q else { q with fixed := if q.record.place = 1 then some (clusterOf core) else if q.record.place = 2 then some d else none })
  match c with
  | .old tid => s.seat tid core
  | .fresh _ teamid share =>
    let tid := s.nextId
    let s : State := { s with
      teams := s.teams ++ [newTeam tid teamid d g], groups := s.groups ++ newGroups tid (tid + 1) g teamid, nextId := tid + 1 + g.record.ngrp }
    (s.setGrid g.id (fun q => { q with next := modAt (· + 1) share q.next })).seat tid core
/-- TEAM_PLACE (R312, R265): the die's next team goes to its core; `slot` is the context and `core` the core that the
distributor's rules name. -/
def execTeamPlace (die slot core : Nat) (s : State) : Host.Outcome State Fault Refusal :=
  if turnOf s die ≠ some slot then .next s
  else
    match nextPlacement s die slot with
    | none => .next s
    | some (c, g, k) =>
      if k ≠ core then .next s
      else
        let gate := s.dispatchGate (clusterOf core)
        if gate.2 then .next ({ gate.1.placeCand die core c g with dies := modAt (fun (q : Die) => { q with turn := slot }) die s.dies })
        else .next gate.1

/-! ## Groups -/

/-- The entry header of a group (R313). -/
def entryHeader (r : LaunchRec) (role : Nat) : DWord := r.code + BitVec.ofNat 64 (if role = 0 then r.entC else if role = 1 then r.entM else r.entV)
/-- RNG of a new group (R313, R176). -/
def seedRng (seed : DWord) (groupid : Nat) : DWord :=
  let v := seed ^^^ BitVec.ofNat 64 (groupid * 0x9E3779B97F4A7C15)
  if v = 0 then 0x9E3779B97F4A7C15 else v
/-- A group in its launch state (R313, R317): its threads stand at the entry with PRIO `prio`. -/
def Group.launched (g : Group) (t : Team) (r : LaunchRec) (h : DWord) (prio : BitVec 8) (now : Nat) : Group :=
  let n := t.threads.length
  let width := if t.spawned then (n + 3) / 4 * 4 else g.width
  let mask := if t.spawned then Mask.width n else Mask.width width
  let nv := match t.threads with | a :: _ => a.length | [] => 0
  { gid := g.gid, team := g.team, grid := g.grid, ctx := g.ctx, core := g.core, index := g.index, role := g.role, width := width, budget := g.budget,
    teamid := g.teamid, gridsz := g.gridsz, gw := g.gw, floor := g.floor, st := .ready, since := now, lastIssue := now,
    s := Amap.set 0 [] 0 r.arg, rng := seedRng r.seed (g.teamid * 16 + g.index),
    v := (List.range nv).map (fun k => (k, VReg.ofFn width (fun l => (t.threads.getD l []).getD k 0))),
    warps := [{ wid := 0, entries := [{ prio := prio, pc := h + 8, mask := mask, h := h }], lastIssue := now }] }
/-- GROUP_START (R313). -/
def execGroupStart (gid : Nat) (s : State) : Host.Outcome State Fault Refusal :=
  match s.group gid with
  | none => .next s
  | some g =>
    match s.grid g.grid with
    | none => .next s
    | some q =>
      let t := s.team g.team
      if g.st ≠ .placed ∨ !t.stands then .next s
      else
        let h := if t.spawned then t.entry else entryHeader q.record g.role
        let prio := match fetchVia false s g.core g.ctx false 0 h with | .word w => if hdrMark w then hdrPrio w else 0 | _ => 0
        .next (s.setGroup gid (fun g => g.launched t q.record h prio s.bw))

/-- A group's waiters leave the events they wait on. -/
def State.dropWaiters (s : State) (gid : Nat) : State :=
  let t : State := { s with events := (s.events.map (fun e => { e with waiters := e.waiters.filter (fun w => w.eng || w.a != gid) })).filter Event.live }
  t.wakeEvfull
/-- Work of a group that an engine or the memory has still to do. -/
def asyncBusy (s : State) (g : Group) : Bool :=
  let c := s.core g.core
  s.reqs.any (fun r => r.gid == g.gid) || c.copyq.any (fun q => q.gid == g.gid && !q.marker) || c.mq.any (fun q => q.gid == g.gid || q.members.any (fun m => m.1 == g.gid))
    || c.tfetch.any (fun q => q.gid == g.gid && !q.marker) || c.crook.any (fun q => q.gid == g.gid)
    || s.places.any (fun p => p.gid == g.gid && p.engine.isNone) || s.signals.any (fun q => q.gid == g.gid)
/-- A group may end (R114, R315), or its killed team leaves nothing to wait for (R331). -/
def mayEnd (s : State) (g : Group) : Bool :=
  let t := s.team g.team
  (g.st != .placed && g.st != .saved && g.warps.isEmpty && g.dc.all (· == 0) && g.held.isEmpty)
    || (t.st == .dying && (g.stopped || g.halted || g.warps.isEmpty) && !asyncBusy s g)
/-- The group has ended (R315, R157): its rows are free, and barriers opened with n = 0 expect one fewer. -/
def State.endGroup (s : State) (g : Group) : State :=
  let s := (s.dropWaiters g.gid).setGrid g.grid (fun q => { q with gw := max q.gw g.gw })
  let s := s.setTeam g.team (fun t => { t with barriers := t.barriers.map (fun b => if b.2.all && b.2.cnt != 0 then (b.1, { b.2 with exp := b.2.exp - 1 }) else b) })
  let s := s.setCtx g.ctx (fun c => { c with leftAt := modAt (fun _ => s.bw) (dieOf g.core) c.leftAt })
  s.setGroup g.gid (fun g => { g with st := .ended, warps := [], coll := 0 })
/-- A grid has ended: every team placed has ended and none is to come (R315, R317). -/
def gridDone (s : State) (g : Grid) : Bool :=
  g.unplaced == 0 && !s.teams.any (fun t => t.grid == g.id) && !s.bins.any (fun b => b.grid == g.id)
/-- EVDONE of a grid that has ended may be posted (R301, R315): every write of its groups has returned, and BWCLK has passed GW + 2. -/
def evdoneReady (s : State) (g : Grid) : Bool :=
  !s.groups.any (fun q => q.grid == g.id) && decide (g.gw + 2 ≤ s.bw) && eventRoom s g.ctx g.record.evdone false
/-- The end of a grid (R311, R315): its LAUNCH counter falls. A grid with an EVDONE to post stays until it has posted it. -/
def State.closeGrid (s : State) (id : Nat) : State :=
  match s.grid id with
  | none => s
  | some g =>
    if !gridDone s g then s
    else
      let s := match g.launcher with
        | some (gid, dc) => ((s.setGrid id (fun q => { q with launcher := none })).setGroup gid (fun q => q.subDc dc)).wakeGroup gid
        | none => s
      if g.record.even && !g.killed then s else { s with grids := s.grids.filter (fun q => q.id != id) }
/-- Groups of teams that have gone stay until their last writes have returned, and then join the GW of their grid. -/
def State.sweepGroups (s : State) : State :=
  let gone := s.groups.filter (fun g => g.st == .ended && !s.teams.any (fun t => t.tid == g.team) && !asyncBusy s g)
  gone.foldl (fun (s : State) g => s.setGrid g.grid (fun q => { q with gw := max q.gw g.gw })) { s with groups := s.groups.filter (fun g => !gone.any (fun q => q.gid == g.gid)) }
/-- EVDONE is posted for the grids that have ended. -/
def State.postDone (s : State) : State :=
  let s := s.sweepGroups
  (s.grids.filter (fun g => gridDone s g)).foldl (fun (s : State) g =>
    if evdoneReady s g then { s with grids := s.grids.filter (fun q => q.id != g.id) }.postEvent g.ctx g.record.evdone 1 false s.bw else s) s
/-- A team leaves the machine: its banks, tiles and pins are released. -/
def State.removeTeam (s : State) (t : Team) : State :=
  let s : State := { s with
    teams := s.teams.filter (fun q => q.tid != t.tid), groups := s.groups.filter (fun q => q.team != t.tid || asyncBusy s q),
    saves := if t.st = .draining then s.saves.map (fun o => if o.die == t.die && o.ctx == t.ctx && !o.load then { o with drained := o.drained + 1 } else o) else s.saves }
  (s.setCore t.core (fun c => { c with pins := c.pins.filter (fun p => p.team != t.tid) })).arm (clusterOf t.core)
/-- The end of a team and of its grid (R315). -/
def State.closeTeam (s : State) (tid : Nat) : State :=
  let t := s.team tid
  if t.tid ≠ tid ∨ !(s.groupsOf tid).all (fun g => g.st == .ended) ∨ (s.core t.core).mq.any (fun q => q.team == tid && q.kind != .marker) then s
  else (s.removeTeam t).closeGrid t.grid
/-- GROUP_END (R315). -/
def execGroupEnd (gid : Nat) (s : State) : Host.Outcome State Fault Refusal :=
  match s.group gid with
  | none => .next s
  | some g =>
    if g.st = .ended then .next (s.closeTeam g.team)
    else if mayEnd s g then .next ((s.endGroup g).closeTeam g.team)
    else .next s

/-! ## Spawning (R316, R317) -/

/-- Room for one more thread of a context and entry. -/
def Bin.takes (b : Bin) (die ctx : Nat) (h : DWord) : Bool := b.die == die && b.ctx == ctx && b.entry == h && decide (b.threads.length < 64)
/-- A thread joins the bin of its key, or a free bin; none when every bin is busy. -/
def State.joinBin (s : State) (die ctx grid gw : Nat) (h : DWord) (n : Nat) (t : List Word) : Option State :=
  if s.bins.any (fun b => b.takes die ctx h) then
    let i := s.bins.findIdx (fun b => b.takes die ctx h)
    some { s with bins := modAt (fun (b : Bin) => { b with threads := b.threads ++ [t], gw := max b.gw gw }) i s.bins }
  else if 256 ≤ (s.bins.filter (fun b => b.die == die)).length then none
  else some { s with bins := s.bins ++ [{ die := die, ctx := ctx, entry := h, grid := grid, n := n, threads := [t], start := s.bw, gw := gw }] }
/-- A bin launches its group (R317): a one-group team of the spawning grid joins the die's queue. -/
def State.launchBin (s : State) (b : Bin) : State :=
  let s : State := { s with bins := s.bins.erase b }
  match s.grid b.grid with
  | none => s
  | some g =>
    let teamid := 2 ^ 32 + g.spawnedN % 2 ^ 32
    let tid := s.nextId
    let t : Team := { newSpawned tid teamid b.die g b.threads with entry := b.entry, queuedAt := s.bw, binGw := s.bw }
    let q : Group := { newGroup (tid + 1) tid 0 g teamid with role := 2, budget := g.record.budV, width := (b.threads.length + 3) / 4 * 4, gw := s.bw, floor := s.bw }
    { s with teams := s.teams ++ [t], groups := s.groups ++ [q], nextId := tid + 2,
             grids := updWhere (fun r => r.id == g.id) (fun r => { r with spawnedN := r.spawnedN + 1 }) s.grids }
/-- A bin is due: it is full, its timer has reached SPAWNT, or its context is being saved; and its instant is not earlier than
the spawning warps' GW. -/
def binDue (s : State) (b : Bin) : Bool :=
  (decide (64 ≤ b.threads.length) || decide (b.start + fclkTicks s (b.die * 1024) (s.ctx b.ctx).spawnt ≤ s.bw) || (s.dies.getD b.die {}).saveBlock.contains b.ctx)
    && decide (b.gw ≤ s.bw)
/-- Full bins, and bins of a context being saved, launch at once (R317). -/
def State.launchFull (s : State) (die : Nat) : State :=
  (s.bins.filter (fun b => b.die == die && binDue s b)).foldl (fun (s : State) b => s.launchBin b) s
/-- The lanes of a SPAWN, lowest first. -/
def spawnAll (die ctx grid gw n : Nat) (h : DWord) (arg : Nat → List Word) : List Nat → State → Option State
  | [], s => some s
  | l :: r, s =>
    match s.joinBin die ctx grid gw h n (arg l) with
    | none => none
    | some s => spawnAll die ctx grid gw n h arg r s
/-- SPAWN (R316). -/
def oSpawn (x : Issue) : Out :=
  let a := eArgs x
  let n := a.mode.toNat
  let y := a.y.toNat
  let die := dieOf x.g.core
  let budget := match x.s.grid x.g.grid with | some q => q.record.budV | none => 0
  let arg (l : Nat) : List Word := (List.range n).map (fun k => (x.g.vreg (y + k)).lane l)
  let go (s : State) : Option State := spawnAll die x.g.ctx x.g.grid x.g.gw n ((x.opX).at64 0) arg (Mask.lanes x.e.mask) s
  let excess : List Cause := if budget < n then [{ stage := 2, code := cREGBUDGET, tfm := x.e.mask, tinfo := budget }] else []
  Out.ofSrcs x [x.opX]
    { causes := excess ++ (List.range n).flatMap (fun k => poisV x (y + k) 1), hold := excess.isEmpty && (go x.s).isNone,
      eff := fun s => match go s with | some s => s.launchFull die | none => s }
/-- SPAWN_BIN_TIMEOUT (R317). -/
def execSpawnBinTimeout (die bin : Nat) (s : State) : Host.Outcome State Fault Refusal :=
  match (s.bins.filter (fun b => b.die == die))[bin]? with
  | none => .next s
  | some b => if binDue s b then .next (s.launchBin b) else .next s

/-- LAUNCH (R311). -/
def execLaunch (a : EArgs) (s : State) : Host.Outcome State Fault Refusal := runIssue s (.launch a) oLaunch
/-- SPAWN (R316). -/
def execSpawn (a : EArgs) (s : State) : Host.Outcome State Fault Refusal := runIssue s (.spawn a) oSpawn

end Sys2Proof.Machine
end

