-- ==== Sys2Proof/Machine/Remote.lean ====
section
/-! DEFINITION. The routes of the Droveway (R402 to R407), and accesses of other nodes to this node's memory (R408, R410). -/

namespace Sys2Proof.Machine

/-! ## Reaching a node -/

/-- Links that are up. -/
def upLinks (s : State) : Nat := (List.range 36).foldl (fun n j => if (s.links.getD j {}).width != 0 then n + 2 ^ j else n) 0
/-- The links of a node's mask that are up (R405, R406). -/
def routeMask (s : State) (n : Nat) : Nat := Nat.land ((Amap.get 0 s.pkg.routes n).toNat % 2 ^ 36) (upLinks s)
def reachable (s : State) (n : Nat) : Bool := n == s.nodeId || (s.pkg.sync && routeMask s n != 0)
/-- RPOL, EXPEN and EXPCTX of NODECFG. -/
def State.rpol (s : State) : Bool := s.pkg.nodecfg.getLsbD 29
def State.expctx (s : State) : Nat := field s.pkg.nodecfg.toNat 21 7

/-! ## Requests of other nodes -/

/-- Kinds: 0 load, 1 the fill of an S line, 2 store, 3 + 2 op + ret an atomic. `tidx` is the log of the size with 8 times the
requester's tag; the value of a cas carries its new value above bit 64. -/
def Remote.size (q : Remote) : Nat := if q.kind = 1 then 128 else 2 ^ (q.tidx % 8)
def Remote.reads (q : Remote) : Bool := decide (q.kind < 2)
/-- A remote fault (R410): POISON or XLATE by RPOL. -/
def State.remoteFault (s : State) (q : Remote) : State := s.answer (2 ^ 40 + q.tidx / 8 * 2 ^ 14 + q.src) [if s.rpol then 257 else 256]
def State.remoteAnswer (s : State) (q : Remote) (bs : List Nat) : State := s.answer (2 ^ 40 + q.tidx / 8 * 2 ^ 14 + q.src) bs
/-- A leaf that admits the access (R408). -/
def exportOk (s : State) (q : Remote) (l : Leaf) : Bool := l.node == s.nodeId && l.ten == 0 && !l.x && !l.xf && (l.w || q.reads)
/-- The access performed at its home; a write's answer is its GWCT, and a fill's its bytes and its lease. -/
def State.remotePerform (s : State) (q : Remote) (pa : Nat) (l : Leaf) : State :=
  let n := q.size
  let write (s : State) (v : Nat) : State × Nat := outsideWrite s s.expctx pa l.coh false 0 (leBytes n v)
  if pa % n ≠ 0 ∨ (q.kind ≠ 2 ∧ s.poisoned pa n) then s.remoteFault q
  else if q.kind = 0 then s.remoteAnswer q ((s.rdBytes pa n).map (fun b => b.toNat))
  else if q.kind = 1 then
    let exp := s.bw + leaseLen l.lc
    (s.setLine (pa / 128) (fun x => { x with hw := max x.hw exp })).remoteAnswer q (exp :: (s.rdBytes pa n).map (fun b => b.toNat))
  else if q.kind = 2 then let w := write s q.value; w.1.remoteAnswer q [w.2]
  else
    let old := s.rd pa n
    let w := write s (atomNew ((q.kind - 3) / 2) n old (q.value % 2 ^ 64) (q.value / 2 ^ 64))
    w.1.remoteAnswer q (w.2 :: if q.kind % 2 = 0 then [old] else [])
/-- A remote access is tried (R408, R410): through the tables of EXPCTX, rooted at level 3. -/
def State.remoteTry (s : State) (q : Remote) : State :=
  let c := s.ctx s.expctx
  let hold (s : State) : State := if s.remotes.any (fun r => r.id == q.id) then s else { s with remotes := s.remotes ++ [q] }
  let gone (s : State) : State := { s with remotes := s.remotes.filter (fun r => r.id != q.id) }
  if !s.pkg.nodecfg.getLsbD 28 || decide (2 ^ 48 ≤ q.va) || decide (Config.contexts ≤ s.expctx) then gone (s.remoteFault q)
  else
    match walk s (q.va / 4096) 3 c.ptroot with
    | .leaf l _ v0 =>
      if exportOk s q l && s.packedAt (leafPa l v0 q.va) then hold s
      else if exportOk s q l then gone (s.remotePerform q (leafPa l v0 q.va) l) else gone (s.remoteFault q)
    | .absent lv =>
      if c.fsvc && !s.denied c.asid q.va then
        (if s.remotes.any (fun r => r.id == q.id) && s.faults.any (fun f => f.asid == c.asid && f.va.toNat / 4096 == q.va / 4096 && f.state == 0) then s
         else hold (s.addFault 0 s.expctx ((if q.reads then 1 else if q.kind = 2 then 2 else 8) + 32) q.va lv 0 none))
      else gone ((s.dropDenied none c.asid q.va).remoteFault q)
    | _ => gone (s.remoteFault q)
/-- Held accesses are tried again when a record has ended. -/
def State.retryRemotes (s : State) : State := s.remotes.foldl (fun (s : State) q => s.remoteTry q) s
/-- UNIT_EXPANSION: a unit that an access waits for is expanded. -/
def execUnitExpansion (page unit_ : Nat) (s : State) : Host.Outcome State Fault Refusal :=
  let ctx := page % 256
  .next (s.setPage ctx (page / 256) (fun p => { p with packed := p.packed.filter (fun f => f != unit_) })).serveHosts.retryRemotes
/-- REMOTE_REQUEST (R408): an access of node `src`. Kind 256 brings a signal packet (R412): `va` holds CTX in [6:0], KIND in
[8:7], CLR in [9], EV in [31:16], COUNT in [63:32] and the sending context in [70:64], and `value` its stamp. -/
def execRemoteRequest (src kind va tidx value : Nat) (s : State) : Host.Outcome State Fault Refusal :=
  if !reachable s src ∨ src = s.nodeId then .next s
  else if kind = 256 then
    let g : Signal := { sid := s.nextId, gid := 2 ^ 64, dc := 6, kind := field va 7 2, node := s.nodeId, ctx := field va 0 7, ev := field va 16 16,
                        value := BitVec.ofNat 64 (field va 32 32), port := src, clr := va.testBit 9, stamp := value, seq := s.nextId, src := field va 64 7 }
    .next { s with signals := s.signals ++ [g], nextId := s.nextId + 1 }
  else .next ({ s with nextId := s.nextId + 1 }.remoteTry { id := s.nextId, src := src, kind := kind, va := va, tidx := tidx, value := value })

end Sys2Proof.Machine
end

