-- ==== Sys2Proof/Machine/Sched.lean ====
section
/-! DEFINITION. Stalls and the watchdog (R320 to R322), pre-emption and the save path (R325 to R328), CTXSAVE and CTXLOAD
(R329, R330), and the ends of fault records (R287). -/

namespace Sys2Proof.Machine

/-! ## Stalled contexts -/

/-- The wait that stalls a warp (R320) with the watchdog's TINFO and TADDR (R322). -/
def warpStall (s : State) (g : Group) (w : Warp) : Option (Nat × Nat) :=
  if w.parked || w.held || w.released then none
  else
    match w.wait with
    | .bar b _ _ => if w.fence.isSome then none else some (1, b)
    | .cbar b _ _ => if w.fence.isSome then none else some (2, b)
    | .waitph r k _ => some (3, 8 * r + k)
    | .event _ ev _ _ ext => if ext then none else some (4, ev)
    | .evfull ev ext => if ext then none else some (4, ev)
    | .ldf => some (5, w.snap.headD 0)
    | .stf => some (5, w.snap.headD 0)
    | .hurdle => some (6, 0)
    | .xrd => some (7, 0)
    | .none =>
      (match w.first with
       | some e =>
         if e.cl.isSome then none
         else
           (match fetchWord s g.core g.ctx g.inPriv e.mask e.h with
            | .word h => if hdrMark h && hdrRf h && !g.inHandler && rfBlocked g w.wid e then some (0, 0) else none
            | _ => none)
       | none => none)
    | _ => none
/-- The warps of a group that its handler does not freeze. -/
def Group.thawed (g : Group) : List Warp := g.warps.filter (fun w => g.mayRun w.wid)
/-- A group is stalled (R320). -/
def groupStalled (s : State) (g : Group) : Bool :=
  !g.stopped && !g.halted && !g.thawed.isEmpty && g.thawed.all (fun w => (warpStall s g w).isSome)
/-- When the stall of a warp or group began. -/
def Warp.stallAt (w : Warp) : Nat := w.waitAt.getD w.lastIssue
def Group.stallAt (g : Group) : Nat := g.thawed.foldl (fun m w => max m w.stallAt) 0
/-- The groups of a context that stand on a die. -/
def residentOn (s : State) (die ctx : Nat) : List Group := s.groups.filter (fun g => g.ctx == ctx && dieOf g.core == die && resident g && (s.team g.team).stands)
/-- When the context's stall on a die began; none while it is not stalled there. -/
def stallStart (s : State) (die ctx : Nat) : Option Nat :=
  let gs := residentOn s die ctx
  if gs.isEmpty || !gs.all (groupStalled s) then none else some (gs.foldl (fun m g => max m g.stallAt) ((s.ctx ctx).leftAt.getD die 0))

/-! ## Withdrawing a wait (R322) -/

/-- A group's arrival at a barrier is taken back. -/
def Barrier.less (b : Barrier) (index : Nat) : Barrier :=
  if b.cnt ≤ 1 then { gen := b.gen } else { b with cnt := b.cnt - 1, arrived := b.arrived &&& ~~~(1#32 <<< index) }
def State.withdrawBar (s : State) (g : Group) (b : Nat) : State :=
  s.setTeam g.team (fun t => { t with barriers := Amap.set {} t.barriers b ((Amap.get {} t.barriers b).less g.index) })
/-- Arrivals of a group at cluster barriers are taken back. -/
def State.withdrawCbars (s : State) (g : Group) : State :=
  s.setCluster (clusterOf g.core) (fun k => { k with
    relAt := k.relAt.filter (fun r => r.1 != g.gid),
    cbars := k.cbars.map (fun c => if c.2.2.contains g.gid then
      (c.1, (if c.2.1.cnt ≤ 1 then { gen := c.2.1.gen } else { c.2.1 with cnt := c.2.1.cnt - 1 }, c.2.2.erase g.gid)) else c) })
/-- The wait of a trapping warp is withdrawn. -/
def State.withdraw (s : State) (g : Group) (w : Warp) : State :=
  match w.wait with
  | .bar b _ _ => if w.arrived then s.withdrawBar g b else s
  | .cbar .. => if w.arrived then s.withdrawCbars g else s
  | .event .. =>
    { s with events := (s.events.map (fun e => { e with waiters := e.waiters.filter (fun q => q.eng || q.a != g.gid || q.b != w.wid) })).filter Event.live }
  | .hurdle => s.setGroup g.gid (fun g => { g with hurdle := [] })
  | _ => s

/-- DLK in a stalled group: its warp of the lowest slice traps (R322). -/
def State.deadlock (s : State) (g : Group) : State :=
  let best := g.thawed.foldl (fun (b : Option Warp) w => match b with
    | some q => if Mask.low q.lanes ≤ Mask.low w.lanes then b else some w
    | none => some w) none
  match best with
  | none => s
  | some w =>
    match w.entries, warpStall s g w with
    | e :: _, some (kind, addr) =>
      let s := s.withdraw g w
      (s.raise ((s.group g.gid).getD g) (some w) (some e) { stage := 6, code := cDLK, tfm := e.mask, taddr := BitVec.ofNat 64 addr, tinfo := kind } e.pc).wakeGroup g.gid
    | _, _ => s
/-- WATCHDOG_EXPIRE (R322): a context stalled for WDOG microseconds on a die takes DLK in every stalled group there; a save
that has begun proceeds instead (R332). -/
def execWatchdogExpire (die ctx : Nat) (s : State) : Host.Outcome State Fault Refusal :=
  match stallStart s die ctx with
  | none => .next s
  | some t =>
    let saving := s.teams.any (fun q => q.ctx == ctx && q.stands && dieOf q.core == die && q.st == .saving)
    if s.bw < t + 1000 * (s.ctx ctx).wdog ∨ saving then .next s
    else .next ((residentOn s die ctx).foldl (fun (s : State) g => s.deadlock g) (s.setCtx ctx (fun c => { c with dlkcnt := min (c.dlkcnt + 1) (2 ^ 32 - 1) })))

/-! ## A slot for a team (R327) -/

/-- The lowest slot of the pool that no team of the context holds; none where the image would pass 2 MiB. -/
def freeSlot (s : State) (t : Team) : Option Nat :=
  if 2 ^ 21 < (slotImage s t).length then none
  else (List.range (s.ctx t.ctx).slots).find? (fun k => !s.teams.any (fun q => q.ctx == t.ctx && (if q.st = .saved then q.saveAt == slotBase s t.ctx k else q.slot == some k)))

/-! ## Pre-emption (R325, R333) -/

/-- Progress p (R325). -/
def progressOf (s : State) (t : Team) : Nat := t.progress + ((s.cluster (clusterOf t.core)).fclk - t.placedAt)
/-- What the die chooses for a team. -/
inductive Pre
  | drain
  | flush
  | save (slot : Nat)
  deriving DecidableEq, Repr
/-- The launch record of a team. -/
def recordOf (s : State) (t : Team) : LaunchRec := match s.grid t.grid with | some g => g.record | none => {}
/-- The choice under a mode: 0 adaptive, 1 always save, 2 forced, 3 save-and-admit. -/
def preChoice (s : State) (t : Team) (mode dr fl : Nat) : Pre :=
  let r := recordOf s t
  let p := progressOf s t
  let over_ : Pre := if r.idem then .flush else .drain
  let stopped := (s.groupsOf t.tid).any (fun g => g.stopped && g.st != .ended)
  if stopped then .flush
  else if mode = 0 ∧ r.est ≠ 0 ∧ r.est - p < dr then .drain
  else if mode = 0 ∧ r.idem ∧ p < fl then .flush
  else match freeSlot s t with | some k => .save k | none => over_
/-- A team's pre-emption begins: the thresholds are those of PREEMPT now (R333). -/
def State.preempt (s : State) (t : Team) (mode : Nat) : State :=
  let c := s.ctx t.ctx
  s.setTeam t.tid (fun q =>
    let q := { q with mode := mode }
    match preChoice s t mode c.drain c.flush with
    | .drain => { q with st := .draining, drainAt := (s.cluster (clusterOf t.core)).fclk + c.drain }
    | .flush => { q with st := .flushing }
    | .save k => { q with st := .saving, slot := some k })
/-- DRAIN_TIMEOUT (R325): a team that has drained for another DRAIN FCLK is saved, or flushed where it can be and has no slot. -/
def execDrainTimeout (team : Nat) (s : State) : Host.Outcome State Fault Refusal :=
  let t := s.team team
  if t.tid ≠ team ∨ t.st ≠ .draining ∨ (s.cluster (clusterOf t.core)).fclk < t.drainAt then .next s
  else
    match preChoice s t 1 0 0 with
    | .drain => .next s
    | .flush => .next (s.setTeam team (fun q => { q with st := .flushing }))
    | .save k => .next (s.setTeam team (fun q => { q with st := .saving, slot := some k }))

/-! ## The save path and the flush -/

/-- Work that engines and memory have still to do for a team. -/
def teamBusy (s : State) (t : Team) : Bool :=
  (s.groupsOf t.tid).any (fun g => asyncBusy s g || (g.st != .ended && g.coll != 0)) || t.bankPend.isSome
/-- A group may be saved (R325, R326): counters at zero, deferred arrivals applied, no handler but under a forced save, and
never a privileged one. -/
def maySave (t : Team) (g : Group) : Bool :=
  g.st == .ended || (g.dc.all (· == 0) && g.deferred.isEmpty && (g.handlers.isEmpty || (t.mode == 2 && !g.handlers.any (fun h => h.priv))))
/-- What a saved warp keeps: a fence that has not completed runs again (R299, R326), and an unfinished stage with it. -/
def Warp.saved (w : Warp) : Warp :=
  if w.fence.isNone then w
  else match w.wait with
    | .bar .. => { w with fence := none, pass := 0 }
    | .cbar .. => { w with fence := none, pass := 0 }
    | _ => { w with fence := none, wait := .none, pass := 0, snap := [], released := false }
/-- Counts of a CTXSAVE on a die. -/
def State.countSave (s : State) (die ctx : Nat) (f : SaveOp → SaveOp) : State :=
  { s with saves := s.saves.map (fun o => if o.die == die && o.ctx == ctx && !o.load then f o else o) }
/-- What a team leaves behind on its core. -/
def State.leaveCore (s : State) (t : Team) : State :=
  let s := s.setCtx t.ctx (fun c => { c with leftAt := modAt (fun _ => s.bw) (dieOf t.core) c.leftAt })
  (s.setCore t.core (fun c => { c with pins := c.pins.filter (fun p => p.team != t.tid) })).arm (clusterOf t.core)
/-- The team is saved. -/
def State.saveTeam (s : State) (t : Team) (slot : Nat) : State :=
  let p := progressOf s t
  let s := s.saveImage t slot
  let s := s.setTeam t.tid (fun q => { q with st := .saved, progress := p, requeued := t.mode == 3, saveAt := slotBase s t.ctx slot, bankNos := [] })
  let s : State := { s with groups := s.groups.map (fun (g : Group) => if g.team = t.tid ∧ g.st ≠ GState.ended then
    { g with st := if g.st = .placed then .placed else .saved, warps := g.warps.map Warp.saved } else g) }
  (s.leaveCore t).countSave (dieOf t.core) t.ctx (fun o => { o with saved := o.saved + 1 })
/-- The team's state is discarded: what it waited on forgets it, and grids it launched no longer answer it. -/
def State.discard (s : State) (t : Team) : State :=
  let gs := s.groupsOf t.tid
  let s := gs.foldl (fun (s : State) g => (s.dropWaiters g.gid).withdrawCbars g) s
  let mine (o : Option (Nat × Nat)) : Bool := match o with | some l => gs.any (fun g => g.gid == l.1) | none => false
  { s with grids := s.grids.map (fun (q : Grid) => if mine q.launcher then { q with launcher := none } else q) }
/-- The team is flushed and restarts (R325); one that cannot restart ends. -/
def State.flushTeam (s : State) (t : Team) : State :=
  let s := (s.countSave (dieOf t.core) t.ctx (fun o => { o with flushed := o.flushed + 1 })).discard t
  match s.grid t.grid with
  | none => s.removeTeam t
  | some g =>
    if g.record.idem then
      let n := if t.spawned then 1 else g.record.ngrp
      let new : Team := if t.spawned then { newSpawned t.tid t.teamid t.die g t.threads with entry := t.entry, queuedAt := s.bw, binGw := t.binGw } else newTeam t.tid t.teamid t.die g
      let one : Group := newGroup s.nextId t.tid 0 g t.teamid
      let gs : List Group :=
        if t.spawned then [{ one with role := 2, budget := g.record.budV, width := (t.threads.length + 3) / 4 * 4, gw := t.binGw, floor := t.binGw }]
        else newGroups t.tid s.nextId g t.teamid
      let s := s.leaveCore t
      { s with teams := s.teams.map (fun (q : Team) => if q.tid = t.tid then new else q), groups := s.groups.filter (fun (q : Group) => q.team != t.tid) ++ gs,
               nextId := s.nextId + n }
    else
      let s := (s.groupsOf t.tid).foldl (fun (s : State) q => if q.st = .ended then s else s.endGroup q) s
      (s.setTeam t.tid (fun q => { q with st := .ended })).closeTeam t.tid
/-- The next waiting team of a context, one team left aside, takes its place at once (R321). -/
def State.nextIn (s : State) (die ctx skip : Nat) : State :=
  if !mayPlace s die ctx then s
  else
    match pickTeam s die 0 [] ((candidates s die ctx).filter (fun c => c.2.1 != .old skip)) with
    | some (c, g, k) => let gate := s.dispatchGate (clusterOf k); if gate.2 then gate.1.placeCand die k c g else gate.1
    | none => s
/-- TEAM_SAVE (R325 to R328): a team whose issue has stopped is saved, or flushed and restarted. -/
def execTeamSave (team : Nat) (s : State) : Host.Outcome State Fault Refusal :=
  let t := s.team team
  let gs := s.groupsOf team
  let stopped := gs.any (fun g => g.stopped && g.st != .ended)
  if t.tid ≠ team ∨ teamBusy s t ∨ gs.any (fun g => g.inPriv && !g.stopped) then .next s
  else
    match t.st, t.slot with
    | .flushing, _ => .next (s.flushTeam t)
    | .saving, some k =>
      if stopped then .next (s.flushTeam t)
      else if !gs.all (maySave t) then .next s
      else
        let s := s.saveTeam t k
        .next (if t.mode = 3 then s.nextIn (dieOf t.core) t.ctx team else s)
    | _, _ => .next s

/-! ## Save and admit (R321) -/

/-- Teams of a context that are stalled on a die, the earliest stall first. -/
def stalledTeams (s : State) (die ctx : Nat) : List Team :=
  let at_ (t : Team) : Nat := ((s.groupsOf t.tid).filter resident).foldl (fun m g => max m g.stallAt) 0
  (s.teams.filter (fun t => t.ctx == ctx && t.st == .resident && dieOf t.core == die
      && (s.groupsOf t.tid).all (fun g => g.st == .ended || (resident g && groupStalled s g)))).mergeSort
    (fun a b => decide (at_ a < at_ b) || (at_ a == at_ b && (decide (a.core % 128 < b.core % 128) || (a.core % 128 == b.core % 128 && decide (a.core ≤ b.core)))))
/-- SAVE_AND_ADMIT. -/
def execSaveAndAdmit (die ctx : Nat) (s : State) : Host.Outcome State Fault Refusal :=
  match stallStart s die ctx with
  | none => .next s
  | some t0 =>
    let last := match (s.dies.getD die {}).admitAt.find? (fun p => p.1 == ctx) with | some p => p.2 | none => 0
    let wait := fclkTicks s (die * 1024) 4096
    let ts := stalledTeams s die ctx
    if s.bw < max t0 last + wait ∨ !mayPlace s die ctx ∨ (nextPlacement s die ctx).isSome then .next s
    else
      match candidates s die ctx, ts with
      | (_, c, g) :: _, t :: _ =>
        if !ts.any (fun q => (chooseCore s die q.tid (c.need s g)).isSome) then .next s
        else
          match freeSlot s t with
          | none => .next s
          | some k =>
            .next ({ s with dies := modAt (fun (d : Die) => { d with admitAt := (ctx, s.bw) :: d.admitAt.filter (fun p => p.1 != ctx) }) die s.dies }.setTeam t.tid
              (fun q => { q with st := .saving, slot := some k, mode := 3 }))
      | _, _ => .next s

/-! ## CTXSAVE and CTXLOAD -/

/-- The causes common to both: alignment of the summary, and the context number. -/
def ctxopCauses (x : Issue) : List Cause :=
  let addr := (x.opX).at64 0
  (if addr.toNat % 64 = 0 then [] else [{ stage := 3, code := cALIGN, tfm := x.e.mask, taddr := addr }]) ++ needUni x x.opY
    ++ (if (x.opY).uni && decide (96 < ((x.opY).at64 0).toNat) then [x.ill] else [])
/-- One operation for each die of the mask. -/
def saveOps (x : Issue) (load : Bool) (s : State) : State :=
  let a := eArgs x
  let ctx := ((x.opY).at64 0).toNat
  let dc := a.dc.toNat
  let ops : List SaveOp := (maskDies (a.mode.toNat % 256) (dieOf x.g.core)).map (fun d =>
    { id := s.nextId, die := d, ctx := ctx, gid := x.g.gid, dc := dc, addr := (x.opX).at64 0, mode := a.mode.toNat / 256 % 4, load := load })
  let s : State := { s with saves := s.saves ++ ops, nextId := s.nextId + 1 }
  if dc < 6 then s.setGroup x.g.gid (fun g => g.addDc dc) else s
/-- A die stops placing a context and pre-empts its resident teams; the context's bins launch (R317, R329). -/
def State.stopContext (s : State) (ctx mode die : Nat) : State :=
  let s : State := { s with dies := modAt (fun (d : Die) => if d.saveBlock.contains ctx then d else { d with saveBlock := ctx :: d.saveBlock }) die s.dies }
  let s := s.launchFull die
  (s.teams.filter (fun t => t.ctx == ctx && t.st == .resident && dieOf t.core == die)).foldl (fun (s : State) t => s.preempt t mode) s
/-- CTXSAVE (R329). -/
def oCtxsave (x : Issue) : Out :=
  let a := eArgs x
  let ctx := ((x.opY).at64 0).toNat
  Out.ofSrcs x [x.opX, x.opY]
    { causes := ctxopCauses x,
      eff := fun s => (maskDies (a.mode.toNat % 256) (dieOf x.g.core)).foldl (fun (s : State) d => s.stopContext ctx (a.mode.toNat / 256 % 4) d) (saveOps x false s) }
/-- CTXLOAD (R330): each die performs it in turn with the saves of the context there. -/
def oCtxload (x : Issue) : Out := Out.ofSrcs x [x.opX, x.opY] { causes := ctxopCauses x, eff := saveOps x true }

/-- Teams of a context that wait on a die. -/
def queuedOn (s : State) (die ctx : Nat) : Nat :=
  (s.grids.filter (fun g => g.ctx == ctx)).foldl (fun n g => n + g.unplacedOn die) 0
    + (s.teams.filter (fun t => t.ctx == ctx && t.die == die && (t.st == .queued || (t.st == .saved && t.requeued)))).length
/-- The saved teams of the context that stand in its pool wait for a place again, on die d (R330). -/
def State.requeue (s : State) (die ctx : Nat) : State × Nat :=
  let inPool (t : Team) : Bool := (List.range (s.ctx ctx).slots).any (fun k => t.saveAt == slotBase s ctx k)
  let hit (t : Team) : Bool := t.ctx == ctx && t.st == .saved && !t.requeued && inPool t
  ({ s with teams := s.teams.map (fun (t : Team) => if hit t then { t with requeued := true, die := die } else t),
            dies := modAt (fun (d : Die) => { d with saveBlock := d.saveBlock.erase ctx }) die s.dies }, (s.teams.filter hit).length)
/-- CTXSAVE_SUMMARY (R329, R330): the die's oldest operation on a context ends once every team has left: its summary is
written, and the counter falls after the last die's. -/
def execCtxsaveSummary (die ctx : Nat) (s : State) : Host.Outcome State Fault Refusal :=
  match s.saves.find? (fun o => o.die == die && o.ctx == ctx) with
  | none => .next s
  | some o =>
    if !o.load && s.teams.any (fun t => t.ctx == ctx && t.stands && dieOf t.core == die) then .next s
    else
      let q := if o.load then s.requeue die ctx else (s, 0)
      let words := if o.load then [q.2] else [o.saved, o.drained, o.flushed, queuedOn s die ctx]
      let who := match s.group o.gid with | some g => g.ctx | none => 0
      let s := dieWrite die who q.1 (o.addr.toNat + 64 * die) ((List.range 16).flatMap (fun k => leBytes 4 (words.getD k 0)))
      let s : State := { s with saves := s.saves.filter (fun p => !(p.id == o.id && p.die == die)) }
      if s.saves.any (fun p => p.id == o.id) ∨ 6 ≤ o.dc then .next s
      else .next ((s.setGroup o.gid (fun g => g.subDc o.dc)).wakeGroup o.gid)

/-! ## Fault records (R287) -/

/-- The warps of a record are ready again and replay (R125). -/
def State.unpark (s : State) (f : FaultRec) : State :=
  f.warps.foldl (fun (s : State) p => (s.setWarp p.1 p.2 (fun w => { w with parked := false, held := false })).wakeGroup p.1) s
/-- A record leaves the queue of its die: the oldest that waits enters. -/
def State.nextFault (s : State) (die : Nat) : State :=
  match s.faults.find? (fun f => f.die == die && !f.queued && f.state == 0) with
  | none => s
  | some f => { s with faults := updWhere (fun q => q.id == f.id) (fun q => { q with queued := true }) s.faults }
/-- RESOLVE: the record ends and its warps replay. -/
def execResolve (die record : Nat) (s : State) : Host.Outcome State Fault Refusal :=
  match s.faults.find? (fun f => f.die == die && f.id == record && f.queued && f.state == 0) with
  | none => .next s
  | some f => .next (({ s with faults := s.faults.filter (fun q => q.id != f.id) }.nextFault die).unpark f).retryRemotes
/-- DENY: the replays raise XLATE; the record stands until they have. -/
def execDeny (die record : Nat) (s : State) : Host.Outcome State Fault Refusal :=
  match s.faults.find? (fun f => f.die == die && f.id == record && f.queued && f.state == 0) with
  | none => .next s
  | some f =>
    .next (({ s with faults := updWhere (fun q => q.id == f.id) (fun q => { q with state := 2, queued := false }) s.faults }.nextFault die).unpark f).retryRemotes

/-- CTXSAVE (R329). -/
def execCtxsave (a : EArgs) (s : State) : Host.Outcome State Fault Refusal := runIssue s (.ctxsave a) oCtxsave
/-- CTXLOAD (R330). -/
def execCtxload (a : EArgs) (s : State) : Host.Outcome State Fault Refusal := runIssue s (.ctxload a) oCtxload

end Sys2Proof.Machine
end

