-- ==== Sys2Proof/Machine/Engine.lean ====
section
/-! DEFINITION. The copy engines (R346 to R354): their words, transfers, layer windows, start and stop; and BANKCFG's change of a
bank (R254), which waits for them. -/

namespace Sys2Proof.Machine

/-! ## Agents and results -/

def ceAgent (s : State) (k cl id : Nat) : Agent := { core := noCore (k / 8), ctx := (s.ce k).ctx, team := cl, who := 3, id := id }
/-- An engine is present (R398). -/
def cePresent (s : State) (k : Nat) : Bool := (s.cap 0x200).getLsbD k
/-- The engine stops with a fault (R352). -/
def State.ceTrap (s : State) (k cause addr : Nat) : State := s.ceFault 64 k cause (BitVec.ofNat 64 addr)
/-- What a stop of an access means for an engine: a fault, a record for the fault service, or nothing yet. -/
def State.ceStopped (s : State) (k : Nat) (a : Agent) (st : Stop) : State :=
  match st with
  | .fault code addr _ => (s.dropDenied none (s.ctx a.ctx).asid addr).ceTrap k code addr
  | .hold lv va kind => engineFault s a lv va kind
  | .full => s
/-- The engine runs, with nothing in progress. -/
def ceIdleRun (c : CopyEngine) : Bool := c.state == 1 && !c.waiting && c.xfer.isNone && c.window.isNone
/-- A word's meaning at the engine whose turn it is. -/
def runWord (s : State) (f : Nat → CopyEngine → State) : Host.Outcome State Fault Refusal :=
  match s.engine with
  | none => .next s
  | some k => if ceIdleRun (s.ce k) then .next (f k (s.ce k)) else .next s

/-! ## Transfers -/

/-- A copy record's permutation register for an engine, which has none: a free one. -/
def freePreg (n : Nat) : PReg :=
  { nlog := (Config.freeWord n).toNat % 8 + 1,
    img := (List.range 30).foldl (fun (b : BitVec 2048) j => b ||| ((Config.freeWord (n + 1 + j)).zeroExtend 2048 <<< (64 * j))) 0 }
/-- XCOPY and XGATH (R349): the transfer starts with its records and its index list read. -/
def startXfer (kind : Nat) (step : Bool) (c : BitVec 2) (cl : BitVec 3) (ra : BitVec 51) (idx : Option (BitVec 57)) (s : State) (k : Nat) (e : CopyEngine) : State :=
  let a := ceAgent s k cl.toNat (s.nextId + 1)
  let recAddr := 64 * ra.toNat + (if step then 64 * e.i.getD c.toNat 0 else 0)
  match readRecords s a kind recAddr with
  | .error (.fault code addr i) => if code = cILLOP then s.ceTrap k cILLOP e.pc.toNat else s.ceStopped k a (.fault code addr i)
  | .error st => s.ceStopped k a st
  | .ok (r, sb, db) =>
    match shapeOf (leNat sb), shapeOf (leNat db) with
    | some src, some dst =>
      if src.space = 1 ∨ dst.space = 1 then s.ceTrap k cPROT e.pc.toNat
      else
        match (match idx with | some i => eBytes s a i.toNat (4 * (dst.dim 1).box) | none => .ok []) with
        | .error er => s.ceStopped k a er.stopOf
        | .ok ib =>
          let q : CopyCmd :=
            { id := s.nextId + 1, gid := k, kind := kind, recAddr := BitVec.ofNat 64 recAddr, started := true, record := r, src := sb, dst := db, queue := cl.toNat,
              idx := (List.range (ib.length / 4)).map (fun j => leNat ((ib.drop (4 * j)).take 4)),
              preg := if (leNat r).testBit 165 then some (freePreg s.choice) else none }
          { s.setCe k (fun c => { c with xfer := some q }) with nextId := s.nextId + 2, choice := s.choice + 32 }
    | _, _ => s.ceTrap k cILLOP e.pc.toNat
/-- The job of an engine's transfer: every row of its list, whatever a group's width. -/
def ceJob (s : State) (k : Nat) (q : CopyCmd) : Except Nat CopyJob :=
  copyJob q.kind q.recAddr.toNat (2 ^ 32) (ceAgent s k q.queue q.id) (leNat q.record) (leNat q.src) (leNat q.dst) q.preg
    ((List.range q.idx.length).map (fun j => (j, q.idx.getD j 0))) 0 false
/-- The transfer in progress goes on by one write, and completes with its last (R349). -/
def State.ceMove (s : State) (k : Nat) (q : CopyCmd) : State :=
  let e := s.ce k
  match ceJob s k q with
  | .error _ => s.ceTrap k cILLOP e.pc.toNat
  | .ok j =>
    let r := runJob s j q.at_ q.gw q.fl
    let s := r.w.s.setCe k (fun c => { c with gw := max c.gw r.w.gw, xfer := some { q with at_ := r.at_, gw := r.w.gw, fl := r.w.fl } })
    match r.stop with
    | some st => s.ceStopped k j.a st
    | none =>
      if r.done then ((s.readLines (s.ce k).ctx (j.srcLines s)).setCe k (fun c => { c with flags := c.flags ||| r.w.fl })).ceGo k (if q.kind = 1 then 2 else 1)
      else s

/-! ## Layer windows (R343 to R345) -/

/-- A write of the engine to device memory. -/
def ceStore (s : State) (k va : Nat) (bs : List Byte) : Except EErr State :=
  let a := ceAgent s k 0 0
  match eTr s a .write va with
  | .error e => .error e
  | .ok (pa, l) =>
    if !gateOpen s pa true then .error (.hold 0 va 65) else
    let w := eStore { s := s } a pa l bs
    .ok (w.s.setCe k (fun c => { c with gw := max c.gw w.gw }))
/-- CUR, ENG and ACT written to the window's record. -/
def winPut (s : State) (k va cur : Nat) (act : Bool) : Except EErr State :=
  ceStore s k (va + 24) (leBytes 2 cur ++ leBytes 1 (k % 8 + if act then 8 else 0))
/-- The waiters of an engine leave the events of its context. -/
def State.ceLeave (s : State) (k : Nat) : State :=
  { s with events := (s.events.map (fun e => { e with waiters := e.waiters.filter (fun w => !(w.eng && w.a == k)) })).filter Event.live }
/-- One page of a layer is promoted (R344): whether the engine goes on to the next page, and whether it waits for budget. -/
def promotePage (s : State) (ctx v reads : Nat) : State × Bool × Bool :=
  match pageLeaf s ctx (v * 4096) with
  | none => (s, true, false)
  | some (l, o, v0) =>
    let st := s.page ctx v0
    if st.pin.isSome ∨ 18 ≤ o then (s, true, false)
    else if migrating s ctx v0 then (s, false, false)
    else if st.held then (if inT1 l.pfn then (s, true, false) else (s.askMove ctx v0 true, false, false))
    else if overBudget s ctx (2 ^ o) then (s, false, true)
    else
      let s := (s.setPage ctx v0 (fun p => { p with held := true, promoted := true, rcp := reads, readLines := [] })).setT1held ctx
      if inT1 l.pfn then (s, true, false) else (s.askMove ctx v0 true, false, false)
/-- XSTRM goes on by one step (R344). -/
def State.strmStep (s : State) (k : Nat) : State :=
  let c := s.ce k
  let w := layerWinOf c.record
  match c.window with
  | none => s
  | some va =>
    let err (e : EErr) : State := s.ceStopped k (ceAgent s k 0 0) e.stopOf
    if c.taken then
      let s' := (layerPages s c.ctx w c.layer).foldl (fun (q : State) v => if (q.page c.ctx v).rcp = 0 then q.demotePage c.ctx v else q) s
      match winPut s' k va (c.layer + 1) true with
      | .error e => err e
      | .ok s => s.setCe k (fun c => { c with taken := false, layer := c.layer + 1 })
    else if c.stopReq then
      match winPut s k va c.layer false with
      | .error e => err e
      | .ok s => s.setCe k (fun c => { c with window := none, waiting := false, state := 0, stopReq := false })
    else if w.nlayer ≤ c.layer then
      match winPut s k va c.layer false with
      | .error e => err e
      | .ok s =>
        let all := (List.range w.nlayer).flatMap (layerPages s c.ctx w)
        let s := (all.foldl (fun (q : State) v => q.setPage c.ctx v (fun p => { p with held := false, promoted := false, rcp := 0, readLines := [] })) s).setT1held c.ctx
        (s.setCe k (fun c => { c with window := none })).ceGo k 1
    else if c.promoted < min (c.layer + w.depth) w.nlayer then
      match (layerPages s c.ctx w c.promoted)[c.page]? with
      | some v =>
        let r := promotePage s c.ctx v w.reads
        r.1.setCe k (fun c => { c with state := if r.2.2 then 2 else 1, page := if r.2.1 then c.page + 1 else c.page })
      | none =>
        if s.bw < c.gw + 2 ∨ !eventRoom s c.ctx w.evres false then s
        else (s.setCe k (fun c => { c with promoted := c.promoted + 1, page := 0 })).postEvent c.ctx w.evres 1 false s.bw
    else if c.waiting then s
    else
      let e := s.event c.ctx w.evdone
      if e.stream.isSome then s.ceTrap k cSTREAM c.pc.toNat
      else if 1 ≤ e.count then (s.setEvent { e with count := e.count - 1 }).setCe k (fun c => { c with taken := true })
      else if !eventRoom s c.ctx w.evdone true then s
      else (s.setEvent { e with waiters := e.waiters ++ [{ eng := true, a := k, v := 1, dec := true }] }).setCe k (fun c => { c with waiting := true, state := 2 })

/-! ## The words (R348 to R351) -/

/-- XCOPY (R349). -/
def execXcopy (step : Bool) (c : BitVec 2) (cl : BitVec 3) (ra : BitVec 51) (s : State) : Host.Outcome State Fault Refusal :=
  runWord s (startXfer 0 step c cl ra none s)
/-- XGATH (R349). -/
def execXgath (step : Bool) (c : BitVec 2) (cl : BitVec 3) (ra : BitVec 51) (idx : BitVec 57) (s : State) : Host.Outcome State Fault Refusal :=
  runWord s (startXfer 1 step c cl ra (some idx) s)
/-- XWAIT (R350, R319). -/
def execXwait (dec : Bool) (v : BitVec 32) (ev : BitVec 16) (s : State) : Host.Outcome State Fault Refusal :=
  runWord s (fun k c =>
    let e := s.event c.ctx ev.toNat
    if e.stream.isSome then s.ceTrap k cSTREAM c.pc.toNat
    else if v.toNat ≤ e.count then (if dec then s.setEvent { e with count := e.count - v.toNat } else s).ceGo k 1
    else if !eventRoom s c.ctx ev.toNat true then s
    else (s.setEvent { e with waiters := e.waiters ++ [{ eng := true, a := k, v := v.toNat, dec := dec }] }).setCe k (fun c => { c with waiting := true, state := 2 }))
/-- XSIG (R350, R301). -/
def execXsig (clr : Bool) (y : BitVec 32) (ev : BitVec 16) (s : State) : Host.Outcome State Fault Refusal :=
  runWord s (fun k c =>
    if s.bw < c.gw + 2 ∨ !eventRoom s c.ctx ev.toNat false then s else (s.ceGo k 1).postEvent c.ctx ev.toNat y.toNat clr s.bw)
/-- The engine goes on at a target, which must lie within the address space (R350). -/
def State.ceJump (s : State) (k : Nat) (pc : DWord) (off : BitVec 36) : State :=
  let t := pc + off.signExtend 64 * 8
  if 2 ^ 57 ≤ t.toNat then s.ceTrap k cXLATE t.toNat else s.setCe k (fun c => { c with pc := t })
/-- XLOOP (R350). -/
def execXloop (c : BitVec 2) (n : BitVec 16) (off : BitVec 36) (s : State) : Host.Outcome State Fault Refusal :=
  runWord s (fun k e =>
    let j := c.toNat
    let fresh := !e.lact.getLsbD j
    let l := if fresh then n.toNat - 1 else e.l.getD j 0
    let i := if fresh then 0 else e.i.getD j 0
    let put (lact : BitVec 4) (l i : Nat) : State := s.setCe k (fun e => { e with lact := lact, l := modAt (fun _ => l) j e.l, i := modAt (fun _ => i) j e.i })
    let bit : BitVec 4 := 1#4 <<< j
    if 0 < l then (put (e.lact ||| bit) (l - 1) (i + 1)).ceJump k e.pc off else (put (e.lact &&& ~~~bit) l 0).ceGo k 1)
/-- XJMP (R350). -/
def execXjmp (off : BitVec 36) (s : State) : Host.Outcome State Fault Refusal := runWord s (fun k c => s.ceJump k c.pc off)
/-- XPLACE (R351, R231): the engine goes on at PLACE_COMPLETE. -/
def execXplace (pin : Bool) (tier : BitVec 2) (ra : BitVec 51) (s : State) : Host.Outcome State Fault Refusal :=
  runWord s (fun k c =>
    let a := ceAgent s k 0 0
    match eBytes s a (64 * ra.toNat) 64 with
    | .error (.hold lv va kind) => engineFault s a lv va kind
    | r =>
      let pages := match (match r with | .ok bs => shapeOf (leNat bs) | .error _ => none) with
        | some r => if r.space = 0 then boxPages s c.ctx r else []
        | none => []
      let q := placePages c.ctx tier.toNat pin pages s
      let op : PlaceOp := { rid := q.1.nextId, gid := 0, dc := 6, engine := some (k / 8, k % 8), ctx := c.ctx, tier := tier.toNat, pin := pin, pages := q.2 }
      let s : State := { q.1 with places := q.1.places ++ [op], nextId := q.1.nextId + 1 }
      s.setCe k (fun c => { c with waiting := true }))
/-- XSTRM (R351, R344): the record is checked, and ACT and ENG are written. -/
def execXstrm (ra : BitVec 51) (s : State) : Host.Outcome State Fault Refusal :=
  runWord s (fun k _ =>
    let a := ceAgent s k 0 0
    let va := 64 * ra.toNat
    match eBytes s a va 64 with
    | .error e => s.ceStopped k a e.stopOf
    | .ok bs =>
      let v := leNat bs
      let w := layerWinOf v
      let open_ (s : State) : State := s.setCe k (fun c => { c with window := some va, record := v, layer := w.cur, promoted := w.cur, page := 0, taken := false })
      if layerBad v then (open_ s).ceTrap k cILLOP va
      else
        match winPut s k va w.cur true with
        | .error (.stop code addr i) => (open_ s).ceStopped k a (.fault code addr i)
        | .error e => s.ceStopped k a e.stopOf
        | .ok s => open_ s)
/-- XFENCE (R351). -/
def execXfence (s : State) : Host.Outcome State Fault Refusal := runWord s (fun k c => if s.bw < c.gw + 2 then s else s.ceGo k 1)
/-- XEND (R351). -/
def execXend (post : Bool) (ev : BitVec 16) (s : State) : Host.Outcome State Fault Refusal :=
  runWord s (fun k c =>
    if post && (decide (s.bw < c.gw + 2) || !eventRoom s c.ctx ev.toNat false) then s
    else
      let s := s.setCe k (fun c => { c with state := 0, stopReq := false })
      if post then s.postEvent c.ctx ev.toNat 1 false s.bw else s)

/-! ## Fetch, start, stop and completion -/

/-- A word of an engine's stream: as it was fetched ahead, or as memory holds it (R347). -/
def ceWordAt (s : State) (k va : Nat) : Except EErr DWord :=
  match (s.ce k).ahead.find? (fun w => w.1 == va) with
  | some w => .ok w.2
  | none => (eBytes s (ceAgent s k 0 0) va 8).map (fun b => BitVec.ofNat 64 (leNat b))
/-- What an engine fetched ahead stands while it lies no more than 64 bytes past the word it performs (R347). -/
def State.ceTrim (s : State) (k : Nat) : State :=
  s.setCe k (fun c => { c with ahead := c.ahead.filter (fun w => decide (c.pc.toNat ≤ w.1) && decide (w.1 ≤ c.pc.toNat + 64)) })
/-- A running engine fetches one of the eight words after the word it performs (R347); one that it cannot read it leaves for its turn. -/
def State.ceAhead (s : State) (k j : Nat) : State :=
  let c := s.ce k
  let va := c.pc.toNat + 8 * (j % 8 + 1)
  if c.state != 1 && c.state != 2 then s
  else
    match eBytes s (ceAgent s k 0 0) va 8 with
    | .ok b => s.setCe k (fun c => { c with ahead := (va, BitVec.ofNat 64 (leNat b)) :: c.ahead.filter (fun w => w.1 != va) })
    | .error _ => s
/-- What an engine does next (R347, R352): a word to perform, or the state after a fetch that gives none. -/
inductive CeFetch
  | word (i : Instr)
  | done (s : State)
def ceFetch (s : State) (k : Nat) : CeFetch :=
  let c := s.ce k
  let a := ceAgent s k 0 0
  if !ceIdleRun c then .done s
  else
    match ceWordAt s k c.pc.toNat with
    | .error e => .done (s.ceStopped k a e.stopOf)
    | .ok w =>
      let second : Except EErr DWord := if w.extractLsb' 59 5 = 1#5 then ceWordAt s k (c.pc.toNat + 8) else .ok 0
      match second with
      | .error e => .done (s.ceStopped k a e.stopOf)
      | .ok w2 =>
        match decodeCe w w2 with
        | .ok i => .word i
        | .error _ => .done (s.ceTrap k cILLOP c.pc.toNat)
/-- START (R347). -/
def State.ceStart (s : State) (k : Nat) : State :=
  let c := s.ce k
  if !cePresent s k || (c.state != 0 && c.state != 3) then s
  else s.setCe k (fun c => { c with cause := 0, lact := 0, l := [0, 0, 0, 0], i := [0, 0, 0, 0], state := 1, xfer := none, window := none, taken := false, stopReq := false, waiting := false, ahead := [] })
/-- STOP (R347). -/
def State.ceStop (s : State) (k : Nat) : State :=
  let c := s.ce k
  if c.state ≠ 1 ∧ c.state ≠ 2 then s
  else
    let s := s.ceLeave k
    if c.xfer.isSome || c.window.isSome then s.setCe k (fun c => { c with stopReq := true, waiting := false })
    else { s with places := s.places.filter (fun p => p.engine != some (k / 8, k % 8)) }.setCe k (fun c => { c with state := 0, waiting := false })
/-- CE_START. -/
def execCeStart (die engine : Nat) (s : State) : Host.Outcome State Fault Refusal := .next (s.ceStart (8 * die + engine))
/-- CE_STOP. -/
def execCeStop (die engine : Nat) (s : State) : Host.Outcome State Fault Refusal := .next (s.ceStop (8 * die + engine))
/-- CE_TRANSFER_COMPLETE (R349, R344): the transfer or the window of an engine goes on. -/
def execCeTransferComplete (die engine : Nat) (s : State) : Host.Outcome State Fault Refusal :=
  let k := 8 * die + engine
  match (s.ce k).xfer with
  | some q => .next (s.ceMove k q)
  | none => .next (s.strmStep k)

/-! ## The change of a bank (R254) -/

/-- A transfer reads or writes a bank. -/
def jobTouches (s : State) (j : CopyJob) (tid bank : Nat) : Bool :=
  let a := { j.a with id := 0 }
  let hit (r : Shape) (c : List Int) : Bool :=
    let p := elemPos r.fmt r.space (r.row c) (c.getD 0 0).toNat
    r.space != 0 && (match eLocal s a p.1 ((p.2.1 + p.2.2 + 7) / 8) false with | .ok (t, off) => t == tid && off / bankBytes == bank | .error _ => false)
  j.pairs.any (fun p => hit j.dst p.2 || (match p.1 with | some c => hit j.src c | none => false))
/-- A command of the core copy unit, with its records as they stand. -/
def cmdTouches (s : State) (q : CopyCmd) (tid bank : Nat) : Bool :=
  match s.group q.gid with
  | none => false
  | some g =>
    let full : Option CopyCmd := if q.started then some q
      else match readRecords s (copyAgent g) q.kind q.recAddr.toNat with | .ok (r, sb, db) => some { q with record := r, src := sb, dst := db } | .error _ => none
    match full with
    | none => false
    | some q => match q.job g with | .ok j => jobTouches s j tid bank | .error _ => false
/-- Accesses to a bank issued before its BANKCFG that have not been performed. -/
def bankBusy (s : State) (t : Team) (bank upto : Nat) : Bool :=
  let k := clusterOf t.core
  (liveCores s k).any (fun c =>
      let q := s.core c
      q.copyq.any (fun p => !p.marker && decide (p.id < upto) && cmdTouches s p t.tid bank)
        || q.mq.any (fun m => decide (m.id < upto) && m.kind != .marker && !m.done && [recOf m.recA, recOf m.recB].any (fun r => r.space == 2 || (r.space == 1 && m.team == t.tid))))
    || s.reqs.any (fun r => r.inCluster && decide (r.rid < upto) && r.parts.any (fun p => p.node == t.tid && !p.performed && p.accs.any (fun a => a.pa / bankBytes == bank)))
    || (List.range 8).any (fun e =>
        let n := k / 8 * 8 + e
        match (s.ce n).xfer with
        | some q => decide (q.id < upto) && (match ceJob s n q with | .ok j => jobTouches s j t.tid bank | .error _ => false)
        | none => false)
/-- The warps of a team that wait for a bank go on. -/
def State.releaseBank (s : State) (tid : Nat) : State :=
  (s.groupsOf tid).foldl (fun (s : State) g => g.warps.foldl (fun (s : State) w => if w.wait = .bank then s.release g.gid w.wid else s) s) s
/-- BANKCFG_CHANGE: the bank enters its mode, zero and empty; CACHE releases it. -/
def execBankcfgChange (team : Nat) (s : State) : Host.Outcome State Fault Refusal :=
  let t := s.team team
  match t.bankPend with
  | none => .next s
  | some (k, mode, upto) =>
    if t.tid ≠ team ∨ bankBusy s t k upto then .next s
    else
      let inBank (o : Nat) : Bool := o / bankBytes == k
      .next ((s.setTeam team (fun t =>
        { t with bankPend := none, banks := if mode = 0 then t.banks.take k else modAt (fun _ => mode == 2) k t.banks,
                 bankNos := if mode = 0 then t.bankNos.take k else t.bankNos, fullWas := t.fullWas.filter (fun g => !inBank (16 * g)),
                 scratch := t.scratch.filter (fun p => !inBank p.1), full := t.full.filter (fun g => !inBank (16 * g)),
                 spois := t.spois.filter (fun g => !inBank (16 * g)) })).releaseBank team)

/-! ## HALT (R331) -/

/-- The teams of a context on a die end: their groups stop and their state is discarded once their asynchronous work is done. -/
def State.kill (s : State) (die ctx issuer : Nat) : State :=
  let here (t : Team) : Bool := t.ctx == ctx && (if t.stands then dieOf t.core == die else t.die == die)
  let mine := s.teams.filter here
  let gs (g : Group) : Bool := mine.any (fun t => t.tid == g.team)
  let s := (s.groups.filter gs).foldl (fun (s : State) g => (s.dropWaiters g.gid).withdrawCbars g) s
  let s := (List.range 8).foldl (fun (s : State) e => if (s.ce (8 * die + e)).ctx = ctx then s.ceStop (8 * die + e) else s) s
  let s : State := { s with
    bins := s.bins.filter (fun b => !(b.die == die && b.ctx == ctx)),
    teams := s.teams.map (fun (t : Team) => if here t then { t with st := if t.stands then .dying else .ended, slot := none } else t),
    groups := s.groups.map (fun (g : Group) =>
      if !gs g then g
      else if !(s.team g.team).stands then { g with st := .ended, warps := [] }
      else if g.gid = issuer then { g with haltDue := true } else { g with stopped := true }),
    grids := s.grids.map (fun (q : Grid) =>
      if q.ctx ≠ ctx then q
      else { q with killed := q.killed || mine.any (fun t => t.grid == q.id) || q.unplacedOn die != 0,
                    next := (List.range q.dies.length).map (fun j => if (q.shares die).contains j then q.next.getD j 0 + q.left j else q.next.getD j 0) }) }
  let gone := mine.filter (fun t => !t.stands)
  let s := gone.foldl (fun (s : State) t => s.closeTeam t.tid) s
  (s.grids.filter (fun q => q.ctx == ctx)).foldl (fun (s : State) q => s.closeGrid q.id) s
/-- HALT: GROUP at the end of the clause, CONTEXT clears ENABLE, KILL ends the context's teams on the die. -/
def oHalt (x : Issue) : Out :=
  let kind := x.m.toNat % 4
  let p := x.opX
  let ctx := (p.at64 0).toNat
  if kind = 0 then { eff := fun s => s.setGroup x.g.gid (fun g => { g with haltDue := true }) }
  else
    Out.ofSrcs x [p]
      { causes := needUni x p ++ (if p.uni && decide (96 < ctx) then [x.ill] else []),
        eff := fun s =>
          if kind = 1 then
            { s.setCtx ctx (fun c => { c with enable := false }) with groups := s.groups.map (fun (g : Group) => if g.ctx = ctx then { g with ctxStop := true } else g) }
          else s.kill (dieOf x.g.core) ctx x.g.gid }
/-- HALT (R331). -/
def execHalt (a : RArgs) (s : State) : Host.Outcome State Fault Refusal := runIssue s (.halt a) oHalt

end Sys2Proof.Machine
end

