-- ==== Sys2Proof/Machine/Collective.lean ====
section
/-! DEFINITION. The collective units (R413 to R415). -/

namespace Sys2Proof.Machine

/-! ## Records and queues -/

structure CollRec where
  flag : Nat
  members : Nat
  dst : Nat
  src : Nat
  len : Nat
  evdone : Nat
  even : Bool
  nmem : Nat
  rank : Nat
  tag : Nat
  tmo : Nat
  dtype : Nat
  op : Nat
  deriving DecidableEq, Repr
def collRec (v : Nat) : CollRec :=
  { flag := field v 448 64, members := field v 384 64, dst := field v 320 64, src := field v 256 64, len := field v 224 32, evdone := field v 208 16,
    even := v.testBit 207, nmem := field v 176 16, rank := field v 160 16, tag := field v 128 32, tmo := field v 96 32, dtype := field v 4 4, op := field v 0 4 }
def CollRec.elem (r : CollRec) : Nat := if r.dtype = 1 then 2 else 4
/-- An invalid record (R413, R414). -/
def collBad (v : Nat) : Bool :=
  let r := collRec v
  field v 192 15 != 0 || field v 8 88 != 0 || r.len == 0 || r.len % 4 != 0 || r.nmem == 0 || decide (16384 ≤ r.nmem) || decide (r.nmem < r.rank)
    || decide (4 ≤ r.dtype) || decide (4 ≤ r.op) || r.flag % 8 != 0 || (r.op == 2 && r.len % ((r.nmem + 1) * r.elem) != 0)
def collAgent (die ctx : Nat) : Agent := { core := noCore die, ctx := ctx, team := 0, who := 4 }
/-- Records in the queue of a context on a die: sixteen at most. -/
def collQueue (s : State) (die ctx : Nat) : List Collective := s.collectives.filter (fun q => q.die == die && q.ctx == ctx && !q.marker)
/-- A doorbell store (R413): whether it is accepted. -/
def State.doorbell (s : State) (die ctx value size : Nat) : State × Bool :=
  if size ≠ 8 ∨ value % 64 ≠ 0 then ({ s with pkg := { s.pkg with cbad := min (s.pkg.cbad + 1) 0xFFFF } }, true)
  else if 16 ≤ (collQueue s die ctx).length then (s, false)
  else
    let q : Collective := { id := s.nextId, die := die, ctx := ctx, addr := BitVec.ofNat 64 value, at_ := s.bw }
    ({ s with collectives := s.collectives ++ [q], nextId := s.nextId + 1 }, true)
/-- Free entries, as a load of the doorbell reads them. -/
def collFree (s : State) (die ctx : Nat) : Nat := 16 - (collQueue s die ctx).length
/-- COLLECTIVE_DOORBELL. -/
def execCollectiveDoorbell (die ctx value : Nat) (s : State) : Host.Outcome State Fault Refusal := .next (s.doorbell die ctx value 8).1

/-- The head of a queue, with the markers that are due gone (R227). -/
def collHead (s : State) (die ctx : Nat) : State × Option Collective :=
  let mine (q : Collective) : Bool := q.die == die && q.ctx == ctx
  let busy (i : Nat) : Bool := s.collectives.any (fun q => q.id == i && !q.marker)
    || s.cores.any (fun c => c.2.mq.any (fun q => q.id == i) || c.2.copyq.any (fun q => q.id == i) || c.2.tfetch.any (fun q => q.id == i))
  let gone := (s.collectives.filter mine).takeWhile (fun q => q.marker && !q.waits.any busy)
  let s : State := { s with collectives := s.collectives.filter (fun q => !(mine q && q.marker && gone.any (fun g => g.id == q.id))) }
  (s, (s.collectives.find? mine).bind (fun q => if q.marker then none else some q))
def State.setColl (s : State) (id : Nat) (f : Collective → Collective) : State :=
  { s with collectives := updWhere (fun q => q.id == id && !q.marker) f s.collectives }

/-! ## The fold (R414) -/

/-- R(i) of the elements of the ranks in order. -/
def foldElem (dtype : Nat) (xs : List Nat) : Nat :=
  let wide (x : Nat) : Nat := if dtype = 1 then x * 2 ^ 16 else x
  match xs with
  | [] => 0
  | x :: r =>
    let v := r.foldl (fun a b => match dtype with
      | 2 => (a + b) % 2 ^ 32
      | 3 => Fmt.fp32.minMax true a b
      | _ => (Fmt.fp32.add2 { mode := .rne } a (wide b)).1) (wide x)
    if dtype = 1 then (Fmt.bf16.roundFv { mode := .rne } (Fmt.fp32.decode v)).1 else v
/-- Element i of every rank's data. -/
def elemsAt (data : List (List Byte)) (sz i : Nat) : List Nat := data.map (fun d => leNat ((d.drop (sz * i)).take sz))
/-- The bytes of rank r's DST. -/
def collResult (r : CollRec) (data : List (List Byte)) : List Byte :=
  let sz := r.elem
  let n := r.len / sz
  let red (lo k : Nat) : List Byte := (List.range k).flatMap (fun i => leBytes sz (foldElem r.dtype (elemsAt data sz (lo + i))))
  match r.op with
  | 0 => red 0 n
  | 1 => data.flatten
  | 2 => red (r.rank * (n / (r.nmem + 1))) (n / (r.nmem + 1))
  | _ => data.headD []

/-! ## Completion (R415) -/

/-- Bytes written by the unit, one after another; the largest GWCT. -/
def unitWrite (a : Agent) : List Byte → Nat → State → Nat → Except EErr (State × Nat)
  | [], _, s, g => .ok (s, g)
  | b :: r, va, s, g =>
    match eTr s a .write va with
    | .error e => .error e
    | .ok (pa, l) =>
      if !gateOpen s pa true then .error (.hold 0 va 65) else
      let w := eStore { s := s } a pa l [b]
      unitWrite a r (va + 1) w.s (max g w.gw)
/-- The record completes with a code, 0 for success: FLAG is written, stamped under R303, once the region table lets it (R302). -/
def State.collDone (s : State) (q : Collective) (r : CollRec) (code gw : Nat) : State :=
  let a := collAgent q.die q.ctx
  let v := if code = 0 then 1 else 2 ^ 63 + code * 2 ^ 56
  let gated := r.flag != 0 && (match eTr s a .write r.flag with | .ok (pa, _) => !gateOpen s pa true | .error _ => false)
  if gated then engineFault s a 0 r.flag 65 else
  let w : State × Nat :=
    if r.flag = 0 then (s, gw)
    else match eTr s a .write r.flag with
      | .ok (pa, l) =>
        let w := eStore { s := s } a pa l (leBytes 8 v)
        let g := max w.gw gw
        (w.s.setLine (pa / 128) (fun x => { x with wt := max x.wt g }), g)
      | .error _ => (s, gw)
  if r.even then w.1.setColl q.id (fun c => { c with done := true, fail := code, gw := w.2 })
  else { w.1 with collectives := w.1.collectives.filter (fun c => c.id != q.id || c.marker) }
/-- A member's queue stands at a record of the same context and TAG that has not yet joined. -/
def memberHead (s : State) (die ctx tag : Nat) : Option (Collective × CollRec) :=
  match (collHead s die ctx).2 with
  | none => none
  | some q =>
    match eBytes s (collAgent die ctx) q.addr.toNat 64 with
    | .ok bs => let r := collRec (leNat bs); if r.tag = tag ∧ !q.done ∧ q.data = none ∧ q.fail = 0 then some (q, r) else none
    | .error _ => none
/-- The member table: node and die of each rank; none where an entry has another bit set. -/
def memberTable (bs : List Byte) (m : Nat) : Option (List (Nat × Nat)) :=
  let es := (List.range m).map (fun k => leNat ((bs.drop (4 * k)).take 4))
  if es.any (fun e => field e 14 2 != 0 || field e 19 13 != 0) then none else some (es.map (fun e => (field e 0 14, field e 16 3)))
/-- Why a join does not complete: a code, a hold, or a member that has not joined. -/
inductive Join
  | code (c : Nat)
  | hold (a : Agent) (level va kind : Nat)
  | wait
  | data (l : List (List Byte))
/-- The source of each member, in rank order (BROADCAST has no use for any but that of rank 0): on this node those of the queues that have joined; elsewhere free bytes. -/
def joinData (s : State) (ctx : Nat) (r : CollRec) (tab : List Byte) : List (Nat × Nat) → Join
  | [] => .data []
  | (node, die) :: rest =>
    match joinData s ctx r tab rest with
    | .data l =>
      if node ≠ s.nodeId then
        if !reachable s node then .code 4
        else .data ((List.range r.len).map (fun k => Config.outsideByte (node * 2 ^ 40 + die * 2 ^ 36 + k) s.choice) :: l)
      else
        match memberHead s die ctx r.tag with
        | none => .wait
        | some (_, o) =>
          let a := collAgent die ctx
          if o.op ≠ r.op ∨ o.dtype ≠ r.dtype ∨ o.len ≠ r.len ∨ o.nmem ≠ r.nmem then .code 1
          else
            match eBytes s a o.members (4 * (o.nmem + 1)), (if o.op = 3 ∧ o.rank ≠ 0 then .ok [] else eBytes s a o.src o.len) with
            | .error (.hold lv va k), _ => .hold a lv va k
            | _, .error (.hold lv va k) => .hold a lv va k
            | .error _, _ => .code 3
            | _, .error _ => .code 3
            | .ok t, .ok b => if t ≠ tab then .code 1 else .data (b :: l)
    | j => j
/-- Members of this node get the data, or a failure that concerns them all. -/
def State.tellMembers (s : State) (ctx tag : Nat) (ms : List (Nat × Nat)) (f : Collective → Collective) : State :=
  ((ms.filter (fun m => m.1 == s.nodeId)).dedup.filterMap (fun m => memberHead s m.2 ctx tag)).foldl (fun (s : State) p => s.setColl p.1.id f) s
/-- COLLECTIVE_COMPLETE (R414, R415): the record at the head of a queue goes on: it joins, writes its DST and its flag, and posts
its event. `result` is 3 where a member of another node reports a fault, 1 where its record differs. -/
def execCollectiveComplete (die ctx result : Nat) (s0 : State) : Host.Outcome State Fault Refusal :=
  let h := collHead s0 die ctx
  let s := h.1
  let a := collAgent die ctx
  match h.2 with
  | none => .next s
  | some q =>
    let pop (s : State) : State := { s with collectives := s.collectives.filter (fun c => c.id != q.id || c.marker) }
    match eBytes s a q.addr.toNat 64 with
    | .error (.hold lv va k) => .next (engineFault s a lv va k)
    | .error _ => .next (pop s)
    | .ok bs =>
      let v := leNat bs
      let r := collRec v
      if q.done then
        if s.bw < q.gw + 2 ∨ !eventRoom s ctx r.evdone false then .next s else .next ((pop s).postEvent ctx r.evdone 1 false s.bw)
      else if collBad v then .next (s.collDone q r 1 0)
      else if q.fail ≠ 0 then .next (s.collDone q r q.fail 0)
      else
        match q.data with
        | some data =>
          (match unitWrite a (collResult r data) r.dst s 0 with
           | .error (.hold lv va k) => .next (engineFault s a lv va k)
           | .error _ => .next (s.collDone q r 3 0)
           | .ok (s, g) => .next (s.collDone q r 0 g))
        | none =>
          match eBytes s a r.members (4 * (r.nmem + 1)) with
          | .error (.hold lv va k) => .next (engineFault s a lv va k)
          | .error _ => .next (s.collDone q r 3 0)
          | .ok tab =>
            match memberTable tab (r.nmem + 1) with
            | none => .next (s.collDone q r 1 0)
            | some ms =>
              let far := ms.any (fun m => m.1 != s.nodeId)
              if far && (result == 3 || result == 1) then .next ((s.tellMembers ctx r.tag ms (fun c => { c with fail := result })).setColl q.id (fun c => { c with fail := result }))
              else
                match joinData s ctx r tab ms with
                | .wait => .next s
                | .hold b lv va k => .next (engineFault s b lv va k)
                | .code c => .next ((s.tellMembers ctx r.tag ms (fun x => { x with fail := c })).setColl q.id (fun x => { x with fail := c }))
                | .data l =>
                  .next { (s.tellMembers ctx r.tag ms (fun c => { c with data := some l })).setColl q.id (fun c => { c with data := some l }) with choice := s.choice + 1 }
/-- COLLECTIVE_TIMEOUT (R415): TMO has expired before every member joined. -/
def execCollectiveTimeout (die ctx : Nat) (s0 : State) : Host.Outcome State Fault Refusal :=
  let h := collHead s0 die ctx
  let s := h.1
  match h.2 with
  | none => .next s
  | some q =>
    match eBytes s (collAgent die ctx) q.addr.toNat 64 with
    | .error _ => .next s
    | .ok bs =>
      let r := collRec (leNat bs)
      if q.done || q.data.isSome || q.fail != 0 || r.tmo == 0 || decide (s.bw < q.at_ + 1000 * r.tmo) then .next s
      else .next (s.collDone q r 2 0)

end Sys2Proof.Machine
end

