-- ==== Sys2Proof/Machine/MemInstr.lean ====
section
/-! DEFINITION. The memory instructions (R212 to R227): loads, stores, atomics, prefetch, fences, and publication. -/

namespace Sys2Proof.Machine

def mArgs (x : Issue) : MArgs := match x.a with | .m a => a | _ => {}
/-- Bytes of the access. -/
def mBytes (x : Issue) : Nat := 2 ^ (mArgs x).wid.toNat
def mScope (x : Issue) : Nat := (mArgs x).scope.toNat
def mOff (x : Issue) : Int := (mArgs x).off.toInt
/-- EA(l) (R212). -/
def eaOf (x : Issue) (p : Opr) (scale l : Nat) : Nat := truncI 64 ((p.at64 l).toNat + mOff x * scale)
def localEa (x : Issue) (p : Opr) (l : Nat) : Nat := truncI 32 ((p.at32 l).toNat + mOff x * mBytes x)

/-- A translated access of one lane; lane 64 stands for every active lane. -/
structure Tgt where
  lane : Nat
  va : Nat
  pa : Nat
  n : Nat
  leaf : Leaf
  deriving DecidableEq, Repr

/-- What the checks of an access gave (R50, R52). -/
structure Chk where
  tgts : List Tgt := []
  causes : List Cause := []
  parks : List (Nat × Nat × Nat) := []
  deriving DecidableEq, Repr

/-- The address of a local access: a scalar form executes once and reads LANEID as in lane 0 (R68). -/
def Issue.localX (x : Issue) : Opr :=
  if isS x.fd && x.n.d.isDst then { x.opX with lo := .uni (x.opX.lo.lane 0), hi := .uni (x.opX.hi.lane 0) } else x.opX

/-- Lanes an access stands for. -/
def laneMask (x : Issue) (l : Nat) : Mask := if l = 64 then x.act else 1#64 <<< l
def laneBit (x : Issue) (l : Nat) : Nat := if l = 64 then Mask.low x.act else l
/-- The checks of a device access by lanes `ls` (R50): alignment, translation, permission. -/
def devCheck (x : Issue) (k : AccK) (n : Nat) (ea : Nat → Nat) : List Nat → Chk
  | [] => {}
  | l :: ls =>
    let r := devCheck x k n ea ls
    let va := ea (laneBit x l)
    let c (st code info : Nat) : Cause := { stage := st, code := code, tfm := laneMask x l, taddr := BitVec.ofNat 64 va, tinfo := info }
    if va % n ≠ 0 then { r with causes := c 3 cALIGN 0 :: r.causes }
    else
      match accessTr x.s x.g.core x.g.ctx k va with
      | .xlate i => { r with causes := c 4 cXLATE i :: r.causes }
      | .prot i => { r with causes := c 4 cPROT i :: r.causes }
      | .absent lv =>
        if recoverable x.s x.g.ctx x.priv va then
          { r with parks := (Mask.lanes (laneMask x l)).map (fun j => (j, va, lv)) ++ r.parks }
        else { r with causes := c 4 cXLATE 0 :: r.causes }
      | .ok pa leaf => { r with tgts := { lane := l, va := va, pa := pa, n := n, leaf := leaf } :: r.tgts }
/-- The lanes of an access: one for all of them where the address is uniform. -/
def accLanes (x : Issue) (uni : Bool) : List Nat := if x.act = 0 then [] else if uni then [64] else Mask.lanes x.act
/-- POISON of the bytes a load reads (R50, R266, R392), as they stand when it issues. -/
def poisonCauses (x : Issue) (ts : List Tgt) : List Cause :=
  ts.filterMap (fun t =>
    let copy := match x.s.l1Find x.g.core (t.pa / 128) with | some l => l.bad && t.leaf.coh != 2 | none => false
    if copy || x.s.poisoned t.pa t.n then some { stage := 5, code := cPOISON, tfm := laneMask x t.lane, taddr := BitVec.ofNat 64 t.va } else none)

/-- The parts of a request, one for each line and node. -/
def partsOf (x : Issue) (ts : List Tgt) (acc : Tgt → Acc) : List Part :=
  let a := mArgs x
  let pol := (a.cp.extractLsb' 2 2).toNat
  ts.foldl (fun (ps : List Part) t =>
    let line := t.pa / 128
    if ps.any (fun p => p.line == line && p.node == t.leaf.node) then
      ps.map (fun p => if p.line = line ∧ p.node = t.leaf.node then { p with accs := p.accs ++ [acc t] } else p)
    else ps ++ [{ line := line, accs := [acc t], cls := lineClass t.pa t.leaf, lc := t.leaf.lc, xf := t.leaf.xf, node := t.leaf.node,
                  fills := pol != 2, pol := pol, l2na := a.cp.getLsbD 1, rcnt := a.rcnt.toNat }]) []
/-- Contradictions between the hints of a load, store or PREF and the page of a line (R213): an L1 hint on a U page, and a read count on a
line that is not allocated at L1, which L2 takes (R214). Atomics carry no hints. -/
def contradictions (x : Issue) (ts : List Tgt) : Nat :=
  let cp := (mArgs x).cp
  let n (u : Bool) : Nat := ((ts.filter (fun t => u == (lineClass t.pa t.leaf == 2))).map (fun t => t.pa / 128)).eraseDups.length
  if x.n.opc = 0x309 ∨ x.n.opc = 0x30B then 0
  else n true * ((cp.extractLsb' 2 2 != 0#2).toNat + (cp.getLsbD 0).toNat) + n false * (cp.extractLsb' 2 2 == 2#2 && cp.getLsbD 0).toNat
/-- Each adds one to the core's policy-contradiction counter (R213). -/
def State.countPolicy (s : State) (core n : Nat) : State :=
  if n = 0 then s else s.setCore core (fun c => { c with policy := c.policy + n })
/-- The TLB entries that the access brings in, and the contradictions it counts. -/
def fillTlbs (x : Issue) (ts : List Tgt) (s : State) : State :=
  (ts.foldl (fun (q : State) t => q.fillTlb x.g.core x.g.ctx t.va) s).countPolicy x.g.core (contradictions x ts)

/-- A load of the group waits for an acquire of it (R218). -/
def acqBusy (x : Issue) : Bool := x.s.reqs.any (fun r => r.gid == x.g.gid && r.acq)
/-- A request's shape for the destination of this instruction. -/
def newReq (x : Issue) (kind : RKind) (parts : List Part) (uni : Bool) : Req :=
  { rid := x.s.nextId, gid := x.g.gid, wid := x.w.wid, core := x.g.core, ctx := x.g.ctx, kind := kind, parts := parts,
    wid3 := (mArgs x).wid.toNat, scope := mScope x, lanes := x.act, full := x.full, uniform := uni, dreg := if isS x.fd then fnum x.fd else x.fd.toNat,
    dIsS := isS x.fd, daz := x.g.fcr.getLsbD 3, dc := (mArgs x).dc.toNat }
/-- Writes that stand for a load's result while it is on its way (R42, R73). -/
def resultShape (x : Issue) (uni : Bool) : List RegWrite :=
  valueWrites x.g.width x.act 0 x.full uni (isS x.fd) (if isS x.fd then fnum x.fd else x.fd.toNat) (mArgs x).wid.toNat (fun _ => 0)
def mDst (x : Issue) : List RegId := if isS x.fd then [.s (fnum x.fd)] else (List.range (widRegs (mArgs x).wid.toNat)).map (fun k => .v (x.fd.toNat + k))

/-- The value an L1 copy holds for an access, where the copy may serve it. -/
def l1Val (x : Issue) (p : Part) (acq : Bool) : Option (List (Nat × Nat)) :=
  if acq || p.cls == 2 || conflicts x.s x.g.gid x.s.nextId p.accs then none
  else
    match x.s.l1Find x.g.core p.line with
    | none => none
    | some l =>
      if l1Serves x.s x.g l then
        some (p.accs.map (fun a => (a.lane, ldeConv a.conv (x.g.fcr.getLsbD 3) (leNat ((l.data.drop (a.pa % 128)).take a.n)))))
      else none

/-- A load of checked targets (R217, R275): from L1 copies where every line hits, else a request for the lines that miss. -/
def loadOut (x : Issue) (p : Opr) (uni : Bool) (c : Chk) (conv : Tgt → Nat) : Out :=
  let acq := mScope x != 0
  let parts := partsOf x c.tgts (fun t => { lane := t.lane, va := t.va, pa := t.pa, n := t.n, conv := conv t })
  let hits := parts.filterMap (fun q => l1Val x q acq)
  let miss := parts.filter (fun q => (l1Val x q acq).isNone)
  let r : Req := { newReq x .load miss uni with vals := hits.flatten, acq := acq }
  let count (s : State) : State := parts.foldl (fun (s : State) q => if (l1Val x q acq).isSome then s.countHit x.g.core q.line else s) (fillTlbs x c.tgts s)
  let o : Out := { hold := acqBusy x, causes := c.causes ++ poisonCauses x c.tgts, parks := c.parks, dly := true, dst := mDst x }
  if x.act = 0 then { lateOut x 1 [] {} with dst := mDst x }
  else if miss.isEmpty then Out.ofSrcs x [p] { o with writes := r.writes x.g.width, eff := count }
  else
    Out.ofSrcs x [p]
      { o with writes := resultShape x uni, ready := false, req := some x.s.nextId,
               eff := fun s => { count s with reqs := s.reqs ++ [r], nextId := s.nextId + 1 } }

def oLd (x : Issue) : Out :=
  let p := x.opX
  loadOut x p p.uni (devCheck x .read (mBytes x) (eaOf x p (mBytes x)) (accLanes x p.uni)) (fun _ => 0)

/-- Bytes and conversion code of a page's element format (R219); none where LDE and STE raise PROT. -/
def elemFmt (f : Nat) : Option Nat := if f = 0 then some 4 else if f = 1 ∨ f = 4 ∨ f = 5 then some 1 else if f = 2 ∨ f = 3 then some 2 else none
/-- The checks of LDE and STE (R219): the format is that of the page that holds X, and the element's page must agree. -/
def elemCheck (x : Issue) (k : AccK) (p : Opr) (ls : List Nat) : Chk :=
  ls.foldr (fun l r =>
    let base := devCheck x k 1 (fun j => (p.at64 j).toNat) [l]
    match base.tgts with
    | t :: _ =>
      (match elemFmt t.leaf.fmt with
       | none => { r with causes := { stage := 4, code := cPROT, tfm := laneMask x l, taddr := BitVec.ofNat 64 t.va, tinfo := 1 } :: r.causes }
       | some b =>
         let q := devCheck x k b (eaOf x p b) [l]
         let bad := q.tgts.any (fun u => u.leaf.fmt != t.leaf.fmt)
         { tgts := q.tgts ++ r.tgts, parks := q.parks ++ r.parks,
           causes := q.causes ++ (if bad then [{ stage := 4, code := cPROT, tfm := laneMask x l, taddr := BitVec.ofNat 64 t.va, tinfo := 1 }] else []) ++ r.causes })
    | [] => { r with causes := base.causes ++ r.causes, parks := base.parks ++ r.parks }) {}
def oLde (x : Issue) : Out :=
  let p := x.opX
  loadOut x p p.uni (elemCheck x .read p (accLanes x p.uni)) (fun t => t.leaf.fmt)

/-! ## Stores -/

/-- The data of lane l: 32, 64 or 128 bits (R216). -/
def storeData (x : Issue) (d : Opr) (l : Nat) : Nat :=
  if (mArgs x).wid = 4 then
    (d.at64 l).toNat + ((x.g.vreg (x.fd.toNat + 2)).lane l).toNat * 2 ^ 64 + ((x.g.vreg (x.fd.toNat + 3)).lane l).toNat * 2 ^ 96
  else if (mArgs x).wid = 3 then (d.at64 l).toNat
  else (d.at32 l).toNat % 2 ^ (8 * mBytes x)

/-- A store or atomic that sends a request: the fence of a release first (R218), then the request, counted on DC. -/
def sendOut (x : Issue) (srcs : List Opr) (c : Chk) (o : Out) (r : Req) : Out :=
  if x.act = 0 then {}
  else
    let o := Out.ofSrcs x srcs { o with causes := o.causes ++ c.causes, parks := o.parks ++ c.parks }
    if o.causes.isEmpty && o.parks.isEmpty && mScope x != 0 && x.w.pass == 0 then { stay := true, eff := waitFence x (mScope x) }
    else
      { o with
        hold := o.hold || acqBusy x, kind := o.kind,
        eff := fun s =>
          let s := fillTlbs x c.tgts (o.eff s)
          let s := if r.dc < 6 then s.setGroup x.g.gid (fun g => g.addDc r.dc) else s
          { s with reqs := s.reqs ++ [r], nextId := s.nextId + 1 } }

def oSt (x : Issue) : Out :=
  let p := x.opX; let d := x.opD
  let uni := p.uni && d.uni && (mArgs x).wid != 4
  let c := devCheck x .write (mBytes x) (eaOf x p (mBytes x)) (accLanes x uni)
  let parts := partsOf x c.tgts (fun t => { lane := t.lane, va := t.va, pa := t.pa, n := t.n, data := storeData x d (laneBit x t.lane) })
  sendOut x [p, d] c { kind := 2 } (newReq x .store parts uni)
/-- STE's conversion (R219). -/
def steVal (x : Issue) (fmt v : Nat) : Nat × FFlags :=
  let o : RoundOpt := { mode := Rm.ofBits (x.g.fcr.extractLsb' 0 2), flush := x.g.fcr.getLsbD 2 }
  let f (q : Fmt) : Nat × FFlags := convert q o (Fmt.fp32.decode (Fmt.fp32.flushIn x.fin v)) (.fin false 1 0)
  match fmt with
  | 1 => (truncI 8 (max (-128) (min 127 (sInt v 32))), 0)
  | 2 => f .fp16
  | 3 => f .bf16
  | 4 => f .e4m3
  | 5 => f .e5m2
  | _ => (v, 0)
def oSte (x : Issue) : Out :=
  let p := x.opX; let d := x.opD
  let c := elemCheck x .write p (accLanes x false)
  let val (t : Tgt) : Nat × FFlags := steVal x t.leaf.fmt (d.at32 t.lane).toNat
  let parts := partsOf x c.tgts (fun t => { lane := t.lane, va := t.va, pa := t.pa, n := t.n, data := (val t).1 })
  sendOut x [p, d] c { kind := 2, fl := fun l => match c.tgts.find? (fun t => t.lane == l) with | some t => (val t).2 | none => 0 }
    (newReq x .store parts false)

/-! ## Local accesses -/

/-- A checked local access: lane, team, offset. -/
structure LTgt where
  lane : Nat
  a : Nat
  tid : Nat
  off : Nat
  cluster : Bool
  deriving DecidableEq, Repr

/-- The checks of a local access (R210, R255), and whether it must wait for a team that moves or a bank that changes. -/
def localCheck (x : Issue) (n : Nat) (write plain : Bool) (ea : Nat → Nat) : List Nat → List LTgt × List Cause × Bool
  | [] => ([], [], false)
  | l :: ls =>
    let r := localCheck x n write plain ea ls
    let a := ea (laneBit x l)
    let c (st code info : Nat) : Cause := { stage := st, code := code, tfm := laneMask x l, taddr := BitVec.ofNat 64 a, tinfo := info }
    if a % n ≠ 0 then (r.1, c 3 cALIGN 0 :: r.2.1, r.2.2)
    else
      match localAddr x.s x.tm a n write plain with
      | .prot i => (r.1, c 4 cPROT i :: r.2.1, r.2.2)
      | .moving => (r.1, r.2.1, true)
      | .at_ tid off cl =>
        ({ lane := l, a := a, tid := tid, off := off, cluster := cl } :: r.1, r.2.1, r.2.2 || (x.s.team tid).changes off)
def localPoison (x : Issue) (n : Nat) (ts : List LTgt) : List Cause :=
  ts.filterMap (fun t => if (x.s.team t.tid).spoisoned t.off n then
    some { stage := 5, code := cPOISON, tfm := laneMask x t.lane, taddr := BitVec.ofNat 64 t.a } else none)
/-- Parts of a cluster-local request, one for each target team (R255). -/
def clusterParts (ts : List LTgt) (n : Nat) (acc : LTgt → Acc) : List Part :=
  ts.foldl (fun (ps : List Part) t =>
    if ps.any (fun p => p.node == t.tid) then ps.map (fun p => if p.node = t.tid then { p with accs := p.accs ++ [{ acc t with n := n }] } else p)
    else ps ++ [{ line := 0, accs := [{ acc t with n := n }], cls := 0, node := t.tid }]) []
def lAcc (t : LTgt) (data new : Nat) : Acc := { lane := t.lane, va := t.a, pa := t.off, n := 1, data := data, new := new }
/-- Requests of this group that are on their way to scratchpads of other teams. -/
def clusterBusy (x : Issue) : Bool := x.s.reqs.any (fun r => r.gid == x.g.gid && r.inCluster)

def oLdl (x : Issue) : Out :=
  let p := x.localX
  let n := mBytes x
  let r := localCheck x n false true (localEa x p) (accLanes x p.uni)
  let base : Out := { hold := (r.2.2 || acqBusy x) && r.2.1.isEmpty, causes := r.2.1 ++ localPoison x n (r.1.filter (fun t => !t.cluster)), dst := mDst x, dly := true }
  if x.act = 0 then { lateOut x 1 [] {} with dst := mDst x }
  else if r.1.any (fun t => t.cluster) then
    let own := (r.1.filter (fun t => !t.cluster)).map (fun t => (t.lane, (x.s.team t.tid).rdScratch t.off n))
    let q : Req := { newReq x .load (clusterParts (r.1.filter (fun t => t.cluster)) n (fun t => lAcc t 0 0)) p.uni with inCluster := true, vals := own }
    Out.ofSrcs x [p] { base with writes := resultShape x p.uni, ready := false, req := some x.s.nextId,
                                 eff := fun s => { s with reqs := s.reqs ++ [q], nextId := s.nextId + 1 } }
  else
    let q : Req := { newReq x .load [] p.uni with vals := r.1.map (fun t => (t.lane, (x.s.team t.tid).rdScratch t.off n)) }
    Out.ofSrcs x [p] { base with writes := q.writes x.g.width }

/-- Bytes written to the scratchpad of a team, lanes in ascending order (R217). -/
def wrLocal (ts : List LTgt) (n : Nat) (data : Nat → Nat) (s : State) : State :=
  ts.foldl (fun (s : State) t => s.setTeam t.tid (fun q => q.wrScratch t.off (leBytes n (data t.lane)))) s
def oStl (x : Issue) : Out :=
  let p := x.opX; let d := x.opD
  let n := mBytes x
  let r := localCheck x n true true (localEa x p) (accLanes x false)
  let far := r.1.filter (fun t => t.cluster)
  let near := r.1.filter (fun t => !t.cluster)
  let q : Req := { newReq x .store (clusterParts far n (fun t => lAcc t (storeData x d t.lane) 0)) false with inCluster := true }
  if x.act = 0 then {}
  else
    Out.ofSrcs x [p, d]
      { hold := r.2.2 && r.2.1.isEmpty, causes := r.2.1, kind := 2,
        eff := fun s =>
          let s := (wrLocal near n (storeData x d) s).setGroup x.g.gid (fun g => g.joinGw s.bw)
          if far.isEmpty then s
          else
            let s := if q.dc < 6 then s.setGroup x.g.gid (fun g => g.addDc q.dc) else s
            { s with reqs := s.reqs ++ [q], nextId := s.nextId + 1 } }

/-- The address a blocked LDF or STF names to the watchdog (R322). -/
def waitAddr (ts : List LTgt) (p : LTgt → Bool) : List Nat := match ts.find? p with | some t => [t.a] | none => []
/-- LDF (R220): the warp waits until every granule is full, then reads, and with CLR empties the granules. -/
def oLdf (x : Issue) : Out :=
  let p := x.localX
  let n := mBytes x
  let r := localCheck x n false false (localEa x p) (accLanes x p.uni)
  let cs := r.2.1 ++ localPoison x n r.1
  let clr := (mArgs x).cp.getLsbD 0
  let open_ (t : LTgt) : Bool := (granules t.off n).all (fun g => if clr then (x.s.team t.tid).canClear g else (x.s.team t.tid).isFull g)
  let ready := r.1.all open_
  let held := (r.2.2 || acqBusy x || (clusterBusy x && r.1.any (fun t => t.cluster))) && r.2.1.isEmpty
  let q : Req := { newReq x .load [] p.uni with vals := r.1.map (fun t => (t.lane, (x.s.team t.tid).rdScratch t.off n)) }
  if x.act = 0 then { lateOut x 1 [] {} with dst := mDst x }
  else if ready then
    Out.ofSrcs x [p]
      { hold := held, causes := cs, dst := mDst x, dly := true, writes := q.writes x.g.width,
        eff := fun s => if clr then
            r.1.foldl (fun (s : State) t => s.setTeam t.tid (fun q => { q with full := setFull false (granules t.off n) q.full })) s
          else s }
  else Out.ofSrcs x [p] { hold := held, causes := r.2.1, stay := true, eff := fun s => s.setWarp x.g.gid x.w.wid (fun w => { w.waitOn .ldf s.bw with snap := waitAddr r.1 (fun t => !open_ t) }) }
/-- STF (R220): in a FIFO bank it waits for empty granules; it writes and sets the granules full. -/
def oStf (x : Issue) : Out :=
  let p := x.opX; let d := x.opD
  let n := mBytes x
  let r := localCheck x n true false (localEa x p) (accLanes x false)
  let held := (r.2.2 || (clusterBusy x && r.1.any (fun t => t.cluster))) && r.2.1.isEmpty
  let ready := r.1.all (fun t => !(x.s.team t.tid).fifo t.off || (granules t.off n).all (x.s.team t.tid).isEmpty)
  if x.act = 0 then {}
  else if ready then
    Out.ofSrcs x [p, d]
      { hold := held, causes := r.2.1, kind := 2,
        eff := fun s =>
          r.1.foldl (fun (s : State) t => s.setTeam t.tid (fun q => { q with full := setFull true (granules t.off n) q.full }))
            ((wrLocal r.1 n (storeData x d) s).setGroup x.g.gid (fun g => g.joinGw s.bw)) }
  else Out.ofSrcs x [p, d] { hold := held, causes := r.2.1, stay := true, eff := fun s => s.setWarp x.g.gid x.w.wid (fun w => { w.waitOn .stf s.bw with snap := waitAddr r.1 (fun t => !(granules t.off n).all (x.s.team t.tid).isEmpty) }) }

/-- LDW (R221). -/
def oLdw (x : Issue) : Out :=
  let p := x.localX
  let n := mBytes x
  let off := (mArgs x).off.toNat
  let k := off / 128
  let c := sInt off 7
  let w := x.tm.windows.getD k {}
  let o (l : Nat) : Int := (p.at32 l).toNat + c * n
  let ls := accLanes x p.uni
  let rd (l : Nat) := if o l < 0 then (0, ([] : List Cause), true, none) else winRead x (laneMask x l) w (o l).toNat n
  let mis := ls.filter (fun l => (o (laneBit x l)) % n ≠ 0)
  let rs := ls.map (fun l => (l, rd (laneBit x l)))
  let q : Req := { newReq x .load [] p.uni with vals := rs.map (fun r => (r.1, r.2.1)) }
  if x.act = 0 then { lateOut x 1 [] {} with dst := mDst x }
  else if !w.valid then Out.ofSrcs x [p] { causes := [{ stage := 2, code := cPWUNBOUND, tfm := x.act, tinfo := k }] }
  else
    Out.ofSrcs x [p]
      { hold := acqBusy x,
        vas := ls.flatMap (fun l => if o (laneBit x l) < 0 then [] else winVas w (o (laneBit x l)).toNat n),
        causes := mis.map (fun l => { stage := 3, code := cALIGN, tfm := laneMask x l, taddr := BitVec.ofInt 64 (o (laneBit x l)) })
          ++ rs.flatMap (fun r => r.2.2.1),
        parks := rs.flatMap (fun r => match r.2.2.2.2 with
          | some (lv, va) => (Mask.lanes (laneMask x r.1)).map (fun j => (j, va, lv)) | none => []),
        wob := rs.any (fun r => r.2.2.2.1), dly := true, dst := mDst x, writes := q.writes x.g.width }

/-! ## Atomics and reductions -/

def mReturns (x : Issue) : Bool := x.n.d.use == .upd
/-- The new value of a cas (R223). -/
def casNew (x : Issue) : Opr :=
  let w64 := (mArgs x).wid == 3#3
  readField x (if w64 then 2 else 1) (x.fd + (if isS x.fd || !w64 then 1 else 2))
def atomOp (x : Issue) : Nat := (mArgs x).rcnt.toNat
/-- The lanes of an atomic: each active lane performs its own; the scalar form performs one (R68). -/
def atomLanes (x : Issue) : List Nat := if mReturns x && isS x.fd then (if x.act = 0 then [] else [64]) else accLanes x false
def oAtomG (kind : Bool) (x : Issue) : Out :=
  let p := x.opX; let d := x.opD
  let e : Opr := if atomOp x = 9 && kind then casNew x else {}
  let ret := kind && mReturns x
  let c := devCheck x .atomic (mBytes x) (eaOf x p (mBytes x)) (atomLanes x)
  let v (o : Opr) (l : Nat) : Nat := if (mArgs x).wid = 3 then (o.at64 l).toNat else (o.at32 l).toNat
  let parts := partsOf x c.tgts (fun t => { lane := t.lane, va := t.va, pa := t.pa, n := t.n, data := v d (laneBit x t.lane), new := v e (laneBit x t.lane) })
  let r : Req := { newReq x (.atom (atomOp x) ret) parts false with acq := ret && mScope x != 0 }
  let o := sendOut x [p, d, e] c { kind := 8 } r
  if ret then
    if x.act = 0 then { lateOut x 1 [] {} with dst := mDst x }
    else if o.stay then o
    else { o with dly := true, ready := false, req := some x.s.nextId, dst := mDst x, writes := resultShape x false }
  else o
def oAtom (x : Issue) : Out := oAtomG true x
def oRedm (x : Issue) : Out := oAtomG false x

/-- Atomics of lanes on one scratchpad, in ascending order: the old values, the lanes not performed (R432), the team. -/
def localAtoms (n op : Nat) : List (Nat × Nat × Nat × Nat) → Team → List (Nat × Nat) × List Nat × Team
  | [], t => ([], [], t)
  | (l, off, d, e) :: r, t =>
    if t.spoisoned off n then let q := localAtoms n op r t; (q.1, l :: q.2.1, q.2.2)
    else
      let old := t.rdScratch off n
      let q := localAtoms n op r (t.wrScratch off (leBytes n (atomNew op n old d e)))
      ((l, old) :: q.1, q.2)
def oAtoml (x : Issue) : Out :=
  let p := x.localX; let d := x.opD
  let n := mBytes x
  let e : Opr := if atomOp x = 9 then casNew x else {}
  let ret := mReturns x
  let r := localCheck x n true true (localEa x p) (atomLanes x)
  let v (o : Opr) (l : Nat) : Nat := if (mArgs x).wid = 3 then (o.at64 l).toNat else (o.at32 l).toNat
  let near := (r.1.filter (fun t => !t.cluster)).map (fun t => (t.lane, t.off, v d (laneBit x t.lane), v e (laneBit x t.lane)))
  let far := r.1.filter (fun t => t.cluster)
  let res := localAtoms n (atomOp x) near x.tm
  let bad := res.2.1.foldl (fun (m : Mask) l => m ||| laneMask x l) 0
  let q : Req := { newReq x (.atom (atomOp x) ret) (clusterParts far n (fun t => lAcc t (v d (laneBit x t.lane)) (v e (laneBit x t.lane)))) false with
    inCluster := true, vals := res.1, bad := if ret then bad else 0 }
  let hold : HeldFault := { cause := cPOISON, addr := BitVec.ofNat 64 (match r.1.find? (fun t => t.lane == res.2.1.headD 64) with | some t => t.a | none => 0), queue := 0 }
  let base : Out :=
    { hold := (r.2.2 || acqBusy x) && r.2.1.isEmpty, causes := r.2.1, kind := 8,
      eff := fun s =>
        let s := (s.setTeam x.g.team (fun _ => res.2.2)).setGroup x.g.gid (fun g =>
          let g := g.joinGw s.bw
          if ret || bad == 0 then g else g.holdFault q.dc hold)
        if far.isEmpty then s
        else
          let s := if q.dc < 6 then s.setGroup x.g.gid (fun g => g.addDc q.dc) else s
          { s with reqs := s.reqs ++ [q], nextId := s.nextId + 1 } }
  if x.act = 0 then (if ret then { lateOut x 1 [] {} with dst := mDst x } else {})
  else if ret then
    let rq := if far.isEmpty then none else some x.s.nextId
    let ws := if far.isEmpty then q.writes x.g.width else resultShape x false
    Out.ofSrcs x [p, d, e] { base with dly := true, dst := mDst x, ready := far.isEmpty, req := rq, writes := ws }
  else Out.ofSrcs x [p, d, e] base

/-! ## Prefetch, fences, publication -/

/-- PREF (R224): the lines that can be reached are filled; every fault is dropped. -/
def oPref (x : Issue) : Out :=
  let p := x.opX
  let c := devCheck x .read 1 (eaOf x p 1) (accLanes x p.uni)
  let parts := partsOf x c.tgts (fun t => { lane := t.lane, va := t.va, pa := t.pa, n := 1 })
  let parts := parts.filter (fun q => (l1Val x q false).isNone)
  let r : Req := { newReq x .load parts p.uni with lanes := 0, pref := true }
  { Out.ofSrcs x [p] {} with
    eff := fun s => if parts.isEmpty then s else { fillTlbs x c.tgts s with reqs := s.reqs ++ [r], nextId := s.nextId + 1 } }

/-- FENCE (R225, R432). -/
def oFence (x : Issue) : Out :=
  if x.act = 0 then {}
  else
    let hc := heldIn x.g x.e.mask (fun k => k == 6)
    if x.w.pass ≠ 0 then { causes := hc }
    else if hc.isEmpty then { stay := true, eff := waitFence x (mScope x) } else { causes := hc }

/-- The pages of a virtual range with the bytes of each: page address, first and last byte. -/
def pagesOf (a len : Nat) : List Nat := (List.range ((a + len - 1) / 4096 - a / 4096 + 1)).map (fun k => (a / 4096 + k) * 4096)
/-- A line lies in the image of a virtual range. -/
def rangeHas (ps : List (Nat × Nat)) (a len line : Nat) : Bool :=
  ps.any (fun p => decide (p.2 / 128 ≤ line) && decide (line < p.2 / 128 + 32)
    && (let v := p.1 + (line * 128 - p.2); decide (a / 128 * 128 ≤ v) && decide (v < a + len)))
/-- A core lies within a scope of an issuing core (R295). -/
def inScope (scope core c : Nat) : Bool :=
  match scope with
  | 0 => c == core
  | 1 => c == core
  | 2 => clusterOf c == clusterOf core
  | 3 => dieOf c == dieOf core
  | _ => true
/-- CPUB (R226): a fence, then the marks of the range clear and the instruction caches in scope drop its lines. -/
def oCpub (x : Issue) : Out :=
  let p := x.opX; let d := x.opD
  let a := (p.at64 0).toNat
  let len := (d.at64 0).toNat
  let bad := decide (len < 1) || decide (2 ^ 32 < len)
  let trs := if bad then [] else (pagesOf a len).map (fun va => (va, accessTr x.s x.g.core x.g.ctx .read va))
  let xl := trs.filterMap (fun q => match q.2 with
    | .ok .. => none
    | .prot i => some { stage := 4, code := cPROT, tfm := x.act, taddr := BitVec.ofNat 64 q.1, tinfo := i }
    | .xlate i => some { stage := 4, code := cXLATE, tfm := x.act, taddr := BitVec.ofNat 64 q.1, tinfo := i }
    | .absent _ => some { stage := 4, code := cXLATE, tfm := x.act, taddr := BitVec.ofNat 64 q.1 })
  let ps := trs.filterMap (fun q => match q.2 with | .ok pa _ => some (q.1, pa) | _ => none)
  if x.act = 0 then {}
  else
    let cs := needUni x p ++ needUni x d ++ (if bad then [x.ill] else [])
    let first := match pickCause xl with | some c => [c] | none => []
    if x.w.pass = 0 ∧ cs = [] ∧ xl = [] then Out.ofSrcs x [p, d] { stay := true, eff := waitFence x (mScope x) }
    else
      Out.ofSrcs x [p, d]
        { causes := cs ++ first,
          eff := fun s =>
            { s with
              lines := s.lines.map (fun l => if l.cp && rangeHas ps a len l.line then { l with cp := false } else l),
              icache := s.icache.filter (fun l => !(inScope (mScope x) x.g.core l.core && rangeHas ps a len l.line)) } }

/-- Operations of the named queues that have not been performed (R227). -/
def queueOps (s : State) (core ctx m : Nat) : List Nat :=
  let c := s.core core
  (c.copyq.filter (fun q => m.testBit q.queue)).map (fun q => q.id)
    ++ (if m.testBit 16 then c.mq.map (fun q => q.id) else [])
    ++ (if m.testBit 17 then c.tfetch.map (fun q => q.id) else [])
    ++ (if m.testBit 18 then (s.collectives.filter (fun q => q.die == dieOf core && q.ctx == ctx)).map (fun q => q.id) else [])
/-- QFENCE places a marker in each named queue (R227). -/
def oQfence (x : Issue) : Out :=
  let p := x.opX
  let m := (p.at64 0).toNat
  let bad := m == 0 || decide (2 ^ 19 ≤ m)
  Out.ofSrcs x [p]
    { causes := needUni x p ++ (if bad && p.uni then [x.ill] else []),
      eff := fun s =>
        let ws := queueOps s x.g.core x.g.ctx m
        let mark (k : Nat) : CopyCmd := { id := s.nextId, gid := x.g.gid, kind := 9, recAddr := 0, marker := true, waits := ws, queue := k }
        let mm : MCmd := { id := s.nextId, team := x.g.team, gid := x.g.gid, kind := .marker, waits := ws }
        let s1 := s.setCore x.g.core (fun c =>
          { c with copyq := c.copyq ++ (List.range 16).filterMap (fun k => if m.testBit k then some (mark k) else none),
                   mq := if m.testBit 16 then c.mq ++ [mm] else c.mq,
                   tfetch := if m.testBit 17 then c.tfetch ++ [mark 17] else c.tfetch })
        let col : Collective := { id := s.nextId, die := dieOf x.g.core, ctx := x.g.ctx, addr := 0, marker := true, waits := ws }
        { s1 with nextId := s.nextId + 1, collectives := if m.testBit 18 then s.collectives ++ [col] else s.collectives } }

/-! ## Steps -/

/-- L1_INVALIDATE (R274, R275): the acknowledgement joins the GWCT of the store that sent it. -/
def execL1Invalidate (iid : Nat) (s : State) : Host.Outcome State Fault Refusal :=
  match s.invals.find? (fun v => v.iid == iid) with
  | none => .next s
  | some v =>
    let s := { s.invalidate v with invals := s.invals.filter (fun q => q.iid != iid) }
    match v.rid with
    | none => .next s
    | some (rid, line) =>
      let s := s.setReq rid (fun r => { r with parts := r.parts.map (fun p =>
        if p.line = line then { p with done := true, gwct := max p.gwct s.bw } else p) })
      .next ((s.setLine line (fun l => { l with wt := max l.wt s.bw })).settle rid)

/-- STORE_COMPLETE (R215): the GWCT returns, the counter falls, and a fault of lanes not performed is held (R432); a remote
one without a counter is counted in WFAULT (R410). -/
def execStoreComplete (rid : Nat) (s : State) : Host.Outcome State Fault Refusal :=
  match s.req rid with
  | none => .next s
  | some r =>
    let answers := match r.kind with | .load => true | .atom _ ret => ret | .store => false
    if answers || !r.parts.all (fun p => p.done) then .next s
    else
      let gw := r.parts.foldl (fun m p => max m p.gwct) 0
      let lost := r.bad != 0 && r.far && r.dc == 6
      let s : State := if lost then { s with pkg := { s.pkg with wfault := min (s.pkg.wfault + 1) 0xFFFF } } else s
      .next ((s.setGroup r.gid (fun g =>
        let g := g.joinGw gw
        let g := if r.dc < 6 then g.subDc r.dc else g
        let g := if r.bad = 0 || lost then g else g.holdFault r.dc { cause := r.cause, addr := BitVec.ofNat 64 r.badAt, queue := 0, info := r.info }
        g.wake s.bw)).dropReq rid)

/-- The waiting LDF or STF of a warp may test its granules again once some bit it waits on may have changed. -/
def waitRelease (wt : Wait) (gid wid : Nat) (s : State) : Host.Outcome State Fault Refusal :=
  match s.group gid with
  | none => .next s
  | some g =>
    match g.warp wid with
    | none => .next s
    | some w => if w.wait = wt then .next ((s.setWarp gid wid (fun w => { w with wait := .none })).wakeGroup gid) else .next s
/-- LDF_RELEASE (R220). -/
def execLdfRelease (gid wid : Nat) (s : State) : Host.Outcome State Fault Refusal := waitRelease .ldf gid wid s
/-- STF_RELEASE (R220). -/
def execStfRelease (gid wid : Nat) (s : State) : Host.Outcome State Fault Refusal := waitRelease .stf gid wid s

/-- Cluster-local accesses of one part, performed at the target team's bank (R255). Where that team has ended or left the cluster the
access raises PROT: held like a lane not performed (R432), and, of an answering form, seen in its poisoned lanes (DESIGN CHOICE). -/
def clusterPart (r : Req) (p : Part) (s : State) : State :=
  let t := s.team p.node
  let n := match p.accs with | a :: _ => a.n | [] => 1
  let gone := t.st == .ended || t.tid != p.node || clusterOf t.core != clusterOf r.core
  let mark (q : Req) : Req :=
    { q with parts := q.parts.map (fun z => if z.node = p.node then { z with done := true, performed := true, gwct := s.bw } else z) }
  if gone then s.setReq r.rid (fun q => mark { q.fail p.accs with cause := cPROT, info := 2 })
  else
    match r.kind with
    | .load =>
      s.setReq r.rid (fun q => mark ({ q with vals := q.vals ++ p.accs.map (fun (a : Acc) => (a.lane, t.rdScratch a.pa n)) }.fail
        (p.accs.filter (fun (a : Acc) => t.spoisoned a.pa n))))
    | .store =>
      (s.setTeam p.node (fun t => p.accs.foldl (fun (t : Team) (a : Acc) => t.wrScratch a.pa (leBytes n a.data)) t)).setReq r.rid mark
    | .atom op _ =>
      let res := localAtoms n op (p.accs.map (fun (a : Acc) => (a.lane, a.pa, a.data, a.new))) t
      (s.setTeam p.node (fun _ => res.2.2)).setReq r.rid (fun q =>
        mark ({ q with vals := q.vals ++ res.1 }.fail (p.accs.filter (fun (a : Acc) => res.2.1.contains a.lane))))
/-- CLUSTER_WINDOW_ACCESS (R255): accesses of one group to one team in issue order; a team that moves holds them. -/
def execClusterWindowAccess (rid : Nat) (s : State) : Host.Outcome State Fault Refusal :=
  match s.req rid with
  | none => .next s
  | some r =>
    if !r.inCluster then .next s
    else
      let early (p : Part) : Bool := s.reqs.any (fun q => q.gid == r.gid && q.inCluster && decide (q.rid < r.rid) && q.parts.any (fun z => z.node == p.node && !z.performed))
      let moving (p : Part) : Bool := (s.team p.node).st == .saved || (s.team p.node).st == .saving
      match r.parts.find? (fun p => !p.performed && !early p && !moving p) with
      | none => .next s
      | some p => .next ((clusterPart r p s).settle rid)

/-- LOOKAHEAD_RESULT (R73, R152): a result whose window has closed, and which has arrived, is written: its lanes' part of it, and what it
writes for the group once (R150). -/
def execLookaheadResult (gid wid rid : Nat) (s : State) : Host.Outcome State Fault Refusal :=
  match s.group gid with
  | none => .next s
  | some g =>
    match g.warp wid with
    | none => .next s
    | some w =>
      match w.pend.find? (fun p => p.rid == rid && p.ready && p.left == 0 && !p.rep) with
      | none => .next s
      | some p =>
        let frozen := g.inHandler && !g.mayRun wid
        let earlier := p.red && g.warps.any (fun q => (g.mayRun q.wid || frozen) && q.pend.any (fun z => z.red && decide (z.rid < p.rid)))
        if earlier || frozen then .next s
        else
          let s := s.setWarp gid wid (fun w => { w with pend := w.pend.erase p })
          let s := s.applyWs gid g.team p.writes
          .next ((s.setGroup gid (fun g => ((g.seen p.writes).wroteShared rid).commit p.lanes (p.flags.foldl (· ||| ·) 0) [])).wakeGroup gid)

/-- LD (R217). -/
def execLd (a : MArgs) (s : State) : Host.Outcome State Fault Refusal := runIssue s (.ld a) oLd
/-- ST (R217). -/
def execSt (a : MArgs) (s : State) : Host.Outcome State Fault Refusal := runIssue s (.st a) oSt
/-- LDE (R219). -/
def execLde (a : MArgs) (s : State) : Host.Outcome State Fault Refusal := runIssue s (.lde a) oLde
/-- STE (R219). -/
def execSte (a : MArgs) (s : State) : Host.Outcome State Fault Refusal := runIssue s (.ste a) oSte
/-- LDL (R217). -/
def execLdl (a : MArgs) (s : State) : Host.Outcome State Fault Refusal := runIssue s (.ldl a) oLdl
/-- STL (R217). -/
def execStl (a : MArgs) (s : State) : Host.Outcome State Fault Refusal := runIssue s (.stl a) oStl
/-- LDF (R220). -/
def execLdf (a : MArgs) (s : State) : Host.Outcome State Fault Refusal := runIssue s (.ldf a) oLdf
/-- STF (R220). -/
def execStf (a : MArgs) (s : State) : Host.Outcome State Fault Refusal := runIssue s (.stf a) oStf
/-- LDW (R221). -/
def execLdw (a : MArgs) (s : State) : Host.Outcome State Fault Refusal := runIssue s (.ldw a) oLdw
/-- ATOM (R223). -/
def execAtom (a : MArgs) (s : State) : Host.Outcome State Fault Refusal := runIssue s (.atom a) oAtom
/-- ATOML (R223). -/
def execAtoml (a : MArgs) (s : State) : Host.Outcome State Fault Refusal := runIssue s (.atoml a) oAtoml
/-- REDM (R223). -/
def execRedm (a : MArgs) (s : State) : Host.Outcome State Fault Refusal := runIssue s (.redm a) oRedm
/-- PREF (R224). -/
def execPref (a : MArgs) (s : State) : Host.Outcome State Fault Refusal := runIssue s (.pref a) oPref
/-- FENCE (R225). -/
def execFence (a : MArgs) (s : State) : Host.Outcome State Fault Refusal := runIssue s (.fence a) oFence
/-- CPUB (R226). -/
def execCpub (a : MArgs) (s : State) : Host.Outcome State Fault Refusal := runIssue s (.cpub a) oCpub
/-- QFENCE (R227). -/
def execQfence (a : RArgs) (s : State) : Host.Outcome State Fault Refusal := runIssue s (.qfence a) oQfence

end Sys2Proof.Machine
end

