-- ==== Sys2Proof/Machine/HomeStep.lean ====
section
/-! DEFINITION. HOME_REQUEST: what a home, a window or another node does with one part of a request (R272 to R288, R371,
R408 to R413), the timeouts of what leaves the package, and CFLUSH (R290). -/

namespace Sys2Proof.Machine

/-- A part that has been performed, and is done unless acknowledgements of invalidations are still to come. -/
def Req.partDone (r : Req) (i gw : Nat) (done : Bool) : Req :=
  { r with parts := modAt (fun p => { p with performed := true, done := done, gwct := gw }) i r.parts }
/-- A request brings values to registers. -/
def RKind.answers : RKind → Bool
  | .load => true
  | .atom _ ret => ret
  | .store => false

/-! ## At a home of this package -/

/-- Atomics of lanes on one line in ascending order (R223): old values, the bytes written, the lanes not performed, from the
memory each finds. -/
def lineAtoms (s : State) (op : Nat) : List Acc → List Host.Cell → List (Nat × Nat) × List (Nat × List Byte) × List Acc
  | [], _ => ([], [], [])
  | a :: r, m =>
    if s.poisoned a.pa a.n then let q := lineAtoms s op r m; (q.1, q.2.1, a :: q.2.2)
    else
      let old := leNat (Memory.bytes m a.pa a.n)
      let new := leBytes a.n (atomNew op a.n old a.data a.new)
      let q := lineAtoms s op r (Memory.store m a.pa new)
      ((a.lane, old) :: q.1, (a.pa, new) :: q.2.1, q.2.2)
/-- Writes of a core performed at a home: the state, the GWCT so far, and whether no acknowledgement is awaited. -/
def State.homeWrite (s : State) (r : Req) (p : Part) (ws : List (Nat × List Byte)) : State × Nat × Bool :=
  if ws.isEmpty then (s, s.bw, true)
  else
    let w := (s.pageWritten p.line).perform (some r.core) r.ctx p.line p.cls p.xf (some (r.rid, p.line)) ws
    (w.1, w.2, !w.1.invals.any (fun v => v.rid == some (r.rid, p.line)))
/-- The place of a core's requests in the order of a slice (R273): its own die first, then by die, and by cluster. -/
def slicePlace (line core : Nat) : Nat := (if dieOf core = homeDie (line * 128) then 0 else dieOf core + 1) * 8 + clusterOf core % 8
/-- The slice has performed, in the cycle that runs, a request to the line that comes after those of the core. -/
def State.passed (s : State) (line core : Nat) : Bool := s.served.any (fun q => q.1 == line && decide (slicePlace line core < q.2))
/-- What a load brings to its core's L1 (R213, R275, R292): the line, where its hints and class let it and the slice that keeps its directory
holds it, or else nothing, an earlier copy going. -/
def State.bringL1 (s : State) (r : Req) (p : Part) : State :=
  if p.fills && p.cls != 2 && !s.poisoned (p.line * 128) 128 && (p.cls == 1 || (s.lineSt p.line).inL2) then s.fillL1 r.core p p.rcnt
  else s.l1Drop r.core p.line
/-- A part at its home: held on a compressed page (R341) or by the region table (R361), else performed. -/
def State.homeLocal (s : State) (r : Req) (i : Nat) (p : Part) : State :=
  if s.packedAt (p.line * 128) then s
  else
    let gate := deviceGate s p.line (r.kind != .load) false
    if !gate.2 then gate.1
    else
      let fills := r.kind == RKind.load && p.fills && p.cls != 2
      let s : State := { gate.1 with served := gate.1.served ++ [(p.line, slicePlace p.line r.core)] }.touchLine p.line r.ctx (if fills then 0 else p.rcnt)
        (if r.kind != RKind.load then Touch.write else if r.pref then .pref else .load) (fills || !p.l2na)
      match r.kind with
      | .load =>
        let bad := p.accs.filter (fun a => s.poisoned a.pa a.n)
        let vals := p.accs.map (fun a => (a.lane, ldeConv a.conv r.daz (s.rd a.pa a.n)))
        let wt := (s.lineSt p.line).wt
        let s := s.bringL1 r p
        ((s.countReads [p.line]).setReq r.rid (fun q =>
          ({ q with vals := q.vals ++ vals, wt := max q.wt wt }.fail bad).partDone i 0 true)).settle r.rid
      | .store =>
        let w := s.homeWrite r p (p.accs.map (fun a => (a.pa, leBytes a.n a.data)))
        (w.1.setReq r.rid (fun q => q.partDone i w.2.1 w.2.2)).settle r.rid
      | .atom op _ =>
        let wt := (s.lineSt p.line).wt
        let q := lineAtoms s op p.accs s.mem
        let w := s.homeWrite r p q.2.1
        (w.1.setReq r.rid (fun z => ({ z with vals := z.vals ++ q.1, wt := max z.wt wt }.fail q.2.2).partDone i w.2.1 w.2.2)).settle r.rid

/-! ## Beyond the package's memory -/

/-- The first event of a request that leaves the package sends it. -/
def State.sendReq (s : State) (rid : Nat) : State := s.setReq rid (fun q => { q with sent := true, sentAt := s.bw })
/-- Free bytes brought back for each access. -/
def freeVals (s : State) (r : Req) (p : Part) : List (Nat × Nat) :=
  p.accs.map (fun a => (a.lane, ldeConv a.conv r.daz (leNat (s.rdBytes a.pa a.n))))
/-- The port of an outbound window, and the die of a doorbell. -/
def outPort (pa : Nat) : Nat := (pa - outBase) / outSize
def isOutbound (pa : Nat) : Bool := decide (outBase ≤ pa) && decide (pa < outBase + 8 * outSize)
/-- The data that a store, or an atomic with its operation number above it, sends out of the package. -/
def Req.outData (r : Req) (a : Acc) : List Nat :=
  (leBytes a.n a.data).map (fun b => b.toNat) ++ (match r.kind with | .atom op _ => (256 + op) :: (leBytes a.n a.new).map (fun b => b.toNat) | _ => [])
/-- The outbound window of a port (R371): a store is accepted, and a load is sent and comes back with free bytes, or with an
error. -/
def State.homeOutbound (s : State) (r : Req) (i : Nat) (p : Part) : State :=
  if !r.kind.answers then
    ({ s with out := s.out ++ p.accs.map (fun (a : Acc) => (a.pa, r.outData a)) }.setReq r.rid (fun q => q.partDone i s.bw true)).settle r.rid
  else if !r.sent then
    ({ s with out := s.out ++ (if r.kind = RKind.load then [] else p.accs.map (fun (a : Acc) => (a.pa, r.outData a))) }).sendReq r.rid
  else
    let bad := if Config.freeBool s.choice then p.accs else []
    let vals := freeVals s r p
    ({ s with choice := s.choice + 1 }.setReq r.rid (fun q => ({ q with vals := q.vals ++ vals }.fail bad).partDone i s.bw true)).settle r.rid
/-- The collective doorbell of a die (R413): its accesses one by one; a store into a full queue waits. -/
def State.homeDoorbell (s : State) (r : Req) (i : Nat) (p : Part) : State :=
  let die := (p.line * 128 - doorBase) / 4096
  match p.accs with
  | [] => (s.setReq r.rid (fun q => q.partDone i s.bw true)).settle r.rid
  | a :: as =>
    let free := collFree s die r.ctx
    let d : State × Bool := match r.kind with
      | .load => (s, true)
      | .store => s.doorbell die r.ctx a.data a.n
      | .atom .. => s.doorbell die r.ctx 0 0
    if !d.2 then d.1
    else
      (d.1.setReq r.rid (fun q =>
        let q := { q with vals := q.vals ++ [(a.lane, ldeConv a.conv r.daz (free % 2 ^ (8 * a.n)))],
                          parts := modAt (fun z => { z with accs := as }) i q.parts }
        if as.isEmpty then q.partDone i s.bw true else q)).settle r.rid
/-- A remote fault (R410): the lanes of a load or returning atomic are not performed; a write is discarded, for its counter
to report. `xl` is the remote fault policy. -/
def Req.remoteFault (r : Req) (i gw : Nat) (p : Part) (xl : Bool) : Req :=
  { r.fail p.accs with cause := if xl then cXLATE else cPOISON, far := true }.partDone i gw true
/-- A line of another node (R408 to R410): sent, then answered with free bytes and times, or with a remote fault. -/
def State.homeRemote (s : State) (r : Req) (i : Nat) (p : Part) : State :=
  if !r.sent then s.sendReq r.rid
  else if !reachable s (p.line * 128 / 2 ^ 48 - 1) then s
  else
    let k := s.choice
    let s := { s with choice := k + 4 }
    let gw := s.bw + (Config.freeWord (k + 3)).toNat % 8193 + 40
    if Config.freeBool k then (s.setReq r.rid (fun q => q.remoteFault i 0 p (Config.freeBool (k + 1)))).settle r.rid
    else
      let vals := freeVals s r p
      let wt := (Config.freeWord (k + 2)).toNat % (s.bw + 8193) + 40
      (s.setReq r.rid (fun q =>
        { q with vals := q.vals ++ vals, wt := max q.wt wt }.partDone i (if r.kind = RKind.load then 0 else gw) true)).settle r.rid

/-- HOME_REQUEST (R273, R292): one part of a request is performed, after the same thread's earlier accesses to its bytes. -/
def execHomeRequest (rid part : Nat) (s : State) : Host.Outcome State Fault Refusal :=
  match s.req rid with
  | none => .next s
  | some r =>
    match r.parts[part]? with
    | none => .next s
    | some p =>
      if r.inCluster || p.performed || conflicts s r.gid r.rid p.accs then .next s
      else
        let pa := p.line * 128
        if isRemote pa then .next (s.homeRemote r part p)
        else if isOutbound pa then .next (s.homeOutbound r part p)
        else if isWindow pa then .next (s.homeDoorbell r part p)
        else if s.passed p.line r.core then .next s
        else .next (s.homeLocal r part p)

/-- Parts not yet performed that meet a test end, each by `f`. -/
def State.endParts (s : State) (r : Req) (test : Part → Bool) (f : Nat → Part → Req → Req) : State :=
  (s.setReq r.rid (fun q => (r.parts.zipIdx.filter (fun x => !x.1.performed && test x.1)).foldl (fun (q : Req) x => f x.2 x.1 q) q)).settle r.rid
/-- OUTBOUND_LOAD_TIMEOUT (R371): 50 µs after it was sent, a load raises POISON. -/
def execOutboundLoadTimeout (rid : Nat) (s : State) : Host.Outcome State Fault Refusal :=
  match s.req rid with
  | none => .next s
  | some r =>
    if !r.sent || !r.kind.answers || decide (s.bw < r.sentAt + 50000) then .next s
    else .next (s.endParts r (fun p => isOutbound (p.line * 128)) (fun i p q => (q.fail p.accs).partDone i s.bw true))
/-- UNREACHABLE_TIMEOUT (R406): 50 µs after it was sent, a request to an unreachable node is a remote fault under this node's
RPOL. -/
def execUnreachableTimeout (rid : Nat) (s : State) : Host.Outcome State Fault Refusal :=
  match s.req rid with
  | none => .next s
  | some r =>
    if !r.sent || decide (s.bw < r.sentAt + 50000) then .next s
    else .next (s.endParts r (fun p => isRemote (p.line * 128) && !reachable s (p.line * 128 / 2 ^ 48 - 1)) (fun i p q => q.remoteFault i 0 p s.rpol))

/-- COLLECTIVE_DOORBELL_READ (R413): the free entries of the loading context's queue answer a load of the doorbell. -/
def execCollectiveDoorbellRead (die ctx rid : Nat) (s : State) : Host.Outcome State Fault Refusal :=
  match s.req rid with
  | none => .next s
  | some r =>
    match r.parts.zipIdx.find? (fun x => !x.1.performed && x.1.line * 128 == doorBase + die * 4096) with
    | none => .next s
    | some (p, i) => if r.ctx ≠ ctx ∨ r.kind ≠ .load ∨ conflicts s r.gid r.rid p.accs then .next s else .next (s.homeDoorbell r i p)

/-! ## CFLUSH (R290) -/

/-- Operations released hold the lines they have pinned until they have consumed them (R193). -/
def opHolds (s : State) (covers : Nat → Bool) : Bool := s.pins.any (fun p => p.op.isSome && covers p.line)
/-- One covered line at its home: WB 0, WBINV 1, DISCARD 2. -/
def State.flushLine (s : State) (op : Nat) (l : Line) : State :=
  let n := l.line
  let s := if l.dirty && op != 2 then s.charge l.dirtyBy (homeDie (n * 128)) 128 else s
  let s := if l.dirty && op == 2 then s.wrBytes (n * 128) l.old else s
  if op = 0 then s.setLine n (fun l => { l with dirty := false, old := [] }) else s.dropLine n
/-- The lines of regions that a range covers, for the recall of a host's copies (R363). -/
def flushGates (s : State) (covers : Nat → Bool) : List Nat :=
  (s.regions.flatMap (fun r => (List.range (r.size / 128)).map (fun k => r.base / 128 + k))).filter covers
/-- CFLUSH: first the host's copies at SYSTEM scope, then the operations that hold lines, then every covered line. -/
def flushRange (x : Issue) (op : Nat) (covers : Nat → Bool) (s : State) : State × Bool :=
  let scope := mScope x
  let blocked (s : State) (line : Nat) : Bool := !(deviceGate s line (op != 0) (op == 2)).2
  match (if scope = 6 then (flushGates s covers).find? (blocked s) else none) with
  | some line => ((deviceGate s line (op != 0) (op == 2)).1, false)
  | none =>
    let s : State := if op = 0 then s else s.dropPins covers
    if op != 0 && opHolds s covers then (s, false)
    else
      let s : State := if op = 0 then s else { s with l1 := s.l1.filter (fun l => !(inScope scope x.g.core l.core && covers l.line)) }
      ((s.lines.filter (fun l => covers l.line && l.inL2)).foldl (fun (s : State) l => s.flushLine op l) s, true)
def oCflush (x : Issue) : Out :=
  let p := x.opX; let d := x.opD
  let a := (p.at64 0).toNat
  let len := (d.at64 0).toNat
  let op := ((mArgs x).cp.extractLsb' 2 2).toNat
  let bad := decide (len < 1) || decide (2 ^ 32 < len)
  let trs := if bad then [] else (pagesOf a len).map (fun va => (va, accessTr x.s x.g.core x.g.ctx (if op = 2 then .write else .read) va))
  let c (code va info : Nat) : Cause := { stage := 4, code := code, tfm := x.act, taddr := BitVec.ofNat 64 va, tinfo := info }
  let xl := trs.filterMap (fun q => match q.2 with
    | .ok .. => none
    | .prot i => some (c cPROT q.1 i)
    | .xlate i => some (c cXLATE q.1 i)
    | .absent _ => some (c cXLATE q.1 0))
  let ps := trs.filterMap (fun q => match q.2 with | .ok pa _ => some (q.1, pa) | _ => none)
  let covers (line : Nat) : Bool := (!isWindow (line * 128) || isRemote (line * 128)) && rangeHas ps a len line
  -- the homes of other nodes' pages are told (R408)
  let told := (ps.filter (fun p => isRemote p.2)).map (fun p => (p.2, [512 + op]))
  let r := flushRange x op covers x.s
  let first := match pickCause xl with | some c => [c] | none => []
  if x.act = 0 then {}
  else
    Out.ofSrcs x [p, d]
      { causes := needUni x p ++ needUni x d ++ (if bad then [x.ill] else []) ++ first, stay := !r.2,
        eff := fun s => let q := (flushRange x op covers s).1
                        if r.2 then { q with out := q.out ++ told } else q.setWarp x.g.gid x.w.wid (fun w => w.waitOn .other s.bw) }
/-- CFLUSH (R290). -/
def execCflush (a : MArgs) (s : State) : Host.Outcome State Fault Refusal := runIssue s (.cflush a) oCflush

end Sys2Proof.Machine
end

