-- ==== Sys2Proof/Machine/Fabric.lean ====
section
/-! DEFINITION. The fabric (R402 to R412): links, the domain skew, and signals to events and to the rings of host tenants
(R369, R370, R411, R412). -/

namespace Sys2Proof.Machine

/-! ## Links -/

def State.setLink (s : State) (j : Nat) (f : Link → Link) : State := { s with links := modAt f j s.links }
/-- The width a link has when it is whole (R398): 0 absent, 1 four lanes, 2 eight lanes. -/
def linkCap (s : State) (j : Nat) : Nat := min 2 (field (s.cap (0x300 + j / 32)).toNat (2 * j % 64) 2)
/-- LINK_UP (R403, R406): the link is used again for the routes whose masks name it; which node it meets is a free value. -/
def execLinkUp (link : Nat) (s : State) : Host.Outcome State Fault Refusal :=
  if 36 ≤ link ∨ (s.links.getD link {}).width ≠ 0 ∨ linkCap s link = 0 then .next s
  else
    let k := s.free
    .next (k.2.setLink link (fun l => { l with width := linkCap s link, peer := (Config.freeWord k.1).toNat % 2 ^ 14 }))
/-- A flit that fails its check is sent again, once and in order, and is counted (R403). -/
def State.retried (s : State) (link : Nat) : State :=
  if (s.links.getD link {}).width = 0 then s else s.setLink link (fun l => { l with retry := min 0xFFFF (l.retry + 1) })
/-- LINK_NARROW (R406): eight lanes become four; the flits sent again meanwhile are counted, and how many is a free value. -/
def execLinkNarrow (link : Nat) (s : State) : Host.Outcome State Fault Refusal :=
  if (s.links.getD link {}).width ≠ 2 then .next s
  else
    let k := s.free
    .next (k.2.setLink link (fun l => { l with width := 1, retry := min 0xFFFF (l.retry + (Config.freeWord k.1).toNat % 2 ^ 16) }))
/-- LINK_DOWN (R406): it leaves every mask; its packets go again on the links that remain, delivered once and in order. -/
def execLinkDown (link : Nat) (s : State) : Host.Outcome State Fault Refusal := .next (s.setLink link (fun l => { l with width := 0 }))
/-- SYNC_LOST (R407): Finat takes every link down. -/
def execSyncLost (s : State) : Host.Outcome State Fault Refusal :=
  .next { s with pkg := { s.pkg with sync := false }, links := s.links.map (fun l => { l with width := 0 }) }
/-- SYNC_HELD (R407). -/
def execSyncHeld (s : State) : Host.Outcome State Fault Refusal := .next { s with pkg := { s.pkg with sync := true } }

/-! ## SIGNAL (R411) -/

structure SigRec where
  count : Nat
  ev : Nat
  clr : Bool
  kind : Nat
  ctx : Nat
  node : Nat
  deriving DecidableEq, Repr
def sigRec (v : Nat) : SigRec := { count := field v 96 32, ev := field v 80 16, clr := v.testBit 73, kind := field v 71 2, ctx := field v 64 7, node := field v 0 14 }
/-- A reserved bit, an invalid KIND or a CTX out of range: ILLOP. -/
def sigBad (v : Nat) : Bool :=
  let r := sigRec v
  field v 74 6 != 0 || field v 14 50 != 0 || decide (2 ≤ r.kind) || (if r.kind = 0 then decide (97 ≤ r.ctx) else r.ctx == 0 || decide (9 ≤ r.ctx))
/-- An unprivileged context may not send it: PROT. -/
def sigDenied (s : State) (ctx : Nat) (r : SigRec) : Bool :=
  !(s.ctx ctx).priv && (if r.kind = 0 then r.ctx != ctx else r.node != s.nodeId || !(s.ctx ctx).tenmask.getLsbD r.ctx)
def oSignal (x : Issue) : Out :=
  let a := eArgs x
  let addr := ((x.opX).at64 0).toNat
  let dc := a.dc.toNat
  let c (st code info va : Nat) : Cause := { stage := st, code := code, tfm := x.e.mask, taddr := BitVec.ofNat 64 va, tinfo := info }
  let o : Out :=
    if addr % 16 ≠ 0 then { causes := [c 3 cALIGN 0 addr] }
    else
      match eBytes x.s (agentOf x.g) addr 16 with
      | .error (.stop code va i) => { causes := [c (if code = cPOISON then 5 else 4) code i va] }
      | .error (.hold lv va k) => { parks := (Mask.lanes x.e.mask).map (fun l => (l, va, parkLevel lv k)) }
      | .ok bs =>
        let v := leNat bs
        let r := sigRec v
        if sigBad v then { causes := [c 2 cILLOP 0 addr] }
        else if sigDenied x.s x.g.ctx r then { causes := [c 4 cPROT 0 addr] }
        else
          { eff := fun s =>
              let g : Signal := { sid := s.nextId, gid := x.g.gid, dc := dc, kind := r.kind, node := r.node, ctx := r.ctx, ev := r.ev,
                                  value := BitVec.ofNat 64 r.count, clr := r.clr, stamp := x.g.gw, seq := s.nextId, src := x.g.ctx }
              let s : State := { s with signals := s.signals ++ [g], nextId := s.nextId + 1 }
              if dc < 6 then s.setGroup x.g.gid (fun g => g.addDc dc) else s }
  if x.act = 0 then {} else Out.ofSrcs x [x.opX] o
/-- SIGNAL (R411). -/
def execSignal (a : EArgs) (s : State) : Host.Outcome State Fault Refusal := runIssue s (.signal a) oSignal

/-! ## Delivery (R412) -/

def State.setSignal (s : State) (sid : Nat) (f : Signal → Signal) : State := { s with signals := updWhere (fun g => g.sid == sid) f s.signals }
/-- A signal that is not applied is counted in SIGDROP. -/
def State.dropSignal (s : State) (sid : Nat) : State :=
  { s.setSignal sid (fun g => { g with posted := true, applied := true }) with pkg := { s.pkg with sigdrop := min 0xFFFF (s.pkg.sigdrop + 1) } }
/-- The posting may be made (R301): the group's writes before it have returned, and its skew has passed. -/
def sigReady (s : State) (g : Signal) : Bool :=
  let k := if g.node = s.nodeId then 2 else 40
  let gw := match s.group g.gid with | some q => q.gw | none => g.stamp
  !s.reqs.any (fun r => r.fenced g.gid g.sid) && decide (gw + k ≤ s.bw)
/-- SIGNAL_DELIVER (R412): the posting is made, and the packet applies at its event, reaches its ring, leaves for another node,
or is dropped. Packets of one sender node are applied in order. -/
def execSignalDeliver (sid : Nat) (s : State) : Host.Outcome State Fault Refusal :=
  match s.signals.find? (fun g => g.sid == sid && !g.posted) with
  | none => .next s
  | some g =>
    let remote := decide (2 ^ 64 ≤ g.gid)
    let earlier := s.signals.any (fun q => remote && q.gid == g.gid && q.port == g.port && !q.posted && decide (q.seq < g.seq))
    if earlier || (!remote && !sigReady s g) then .next s
    else
      let stamp := if remote then g.stamp else s.bw
      let post (f : Signal → Signal) (s : State) : State :=
        { s.setSignal sid (fun q => f { q with posted := true, stamp := stamp, seq := s.nextId }) with nextId := s.nextId + 1 }
      if g.node ≠ s.nodeId then
        if !reachable s g.node then .next (s.dropSignal sid)
        else
          let pkt := [g.ctx, g.kind, g.clr.toNat, g.ev, g.value.toNat, g.src, stamp + 40]
          .next ({ s with out := s.out ++ [(2 ^ 60 + g.node, pkt)] } |> post (fun q => { q with applied := true }))
      else if g.kind = 1 then .next (post (fun q => { q with port := g.ctx - 1 }) s)
      else if Config.contexts ≤ g.ctx ∨ 2 ≤ g.kind ∨ !(s.ctx g.ctx).enable then .next (s.dropSignal sid)
      else if !eventRoom s g.ctx g.ev false then .next s
      else .next ((post (fun q => { q with applied := true }) s).postEvent g.ctx g.ev g.value.toNat g.clr stamp)

/-- Entries of a signal ring that the host has not consumed (R370). -/
def ringUsed (p : Port) : Nat := (p.sigprod + 1024 - p.sigcons % 1024) % 1024
/-- SIGNAL_RING_WRITE (R370): the entry is written; once its fence at SYSTEM scope is done (R296), SIGPROD advances and MSI-X vector 1 is raised; or the signal is
dropped. -/
def execSignalRingWrite (sid : Nat) (s : State) : Host.Outcome State Fault Refusal :=
  match s.signals.find? (fun g => g.sid == sid && g.posted && !g.applied && g.kind == 1) with
  | none => .next s
  | some g =>
    let k := g.port
    let p : Port := s.ports.getD k {}
    let earlier := s.signals.any (fun q => q.posted && !q.applied && q.kind == 1 && q.port == k && decide (q.seq < g.seq))
    let drop : State := { s.setSignal sid (fun q => { q with applied := true }) with ports := modAt (fun (p : Port) => { p with sigovf := min (p.sigovf + 1) 0xFFFFFFFF }) k s.ports }
    if earlier then .next s
    else match g.wrote with
    | some w =>
      if s.bw < w + 2 then .next s
      else
        let s := s.setSignal sid (fun q => { q with applied := true })
        .next ({ s with ports := modAt (fun (p : Port) => { p with sigprod := (p.sigprod + 1) % 1024 }) k s.ports }.msix k 0 1)
    | none =>
    if ringUsed p = 512 then .next drop
    else
      match tenantTr s k (p.sigbase + p.sigprod % 512 * 8) with
      | .ok pa _ _ _ =>
        let gate := deviceGate s (pa / 128) true false
        if !gate.2 || s.packedAt pa || s.preSwitch then .next gate.1
        else
          let e := p.sigprod / 512 % 2 * 2 ^ 63 + g.src % 128 * 2 ^ 48 + g.value.toNat % 2 ^ 32 * 2 ^ 16 + g.ev % 2 ^ 16
          let w := outsideWrite gate.1 Config.contexts pa 0 false 0 (leBytes 8 e)
          .next (w.1.setSignal sid (fun q => { q with wrote := some w.2 }))
      | _ => .next drop
/-- SIGNAL_ACK (R412): DCN falls when the acknowledgement of application or drop returns. -/
def execSignalAck (sid : Nat) (s : State) : Host.Outcome State Fault Refusal :=
  match s.signals.find? (fun g => g.sid == sid && g.applied) with
  | none => .next s
  | some g =>
    let s : State := { s with signals := s.signals.filter (fun q => q.sid != sid) }
    if g.dc < 6 then .next ((s.setGroup g.gid (fun q => q.subDc g.dc)).wakeGroup g.gid) else .next s

/-! ## Signal windows of the functions (R356, R369) -/

/-- The functions a port presents: function 0, and the virtual functions of contexts that no lower port presents (R356). -/
def fnContext (s : State) (port fn : Nat) : Option Nat :=
  let p : Port := s.ports.getD port {}
  let ctx := p.ctx + fn - 1
  let named (q : Nat) : Bool := let r : Port := s.ports.getD q {}; decide (r.mode < 2) && decide (r.ctx ≤ ctx) && decide (ctx < r.ctx + r.nvf)
  if 2 ≤ p.mode ∨ !p.up then none
  else if fn = 0 then some (if port = 0 then 0 else field p.tenctl.toNat 52 7)
  else if p.nvf < fn ∨ Config.contexts ≤ ctx ∨ (List.range port).any named then none
  else some ctx
/-- SIGNAL_WINDOW_WRITE (R369): `addr` is 64 KiB times the function plus the offset in its BAR0; a write of another size stands
as a value of more than 64 bits. -/
def execSignalWindowWrite (port addr value : Nat) (s : State) : Host.Outcome State Fault Refusal :=
  match fnContext s port (addr / 2 ^ 16) with
  | none => .next s
  | some ctx =>
    if 0x1000 ≤ addr % 2 ^ 16 then .next s
    else if s.pkg.halt then .next (s.portLog port 3 addr false)
    else if addr % 8 ≠ 0 ∨ 2 ^ 49 ≤ value ∨ Config.contexts ≤ ctx ∨ !(s.ctx ctx).enable ∨ s.l2Off then .next (s.portLog port 2 addr false)
    else if !eventRoom s ctx (value % 2 ^ 16) false then .next s
    else .next (s.postEvent ctx (value % 2 ^ 16) (field value 16 32) (value.testBit 48) s.bw)

end Sys2Proof.Machine
end

