-- ==== Sys2Proof/Machine/Inbound.lean ====
section
/-! DEFINITION. The ordering points: inbound writes and reads of root ports (R303, R371, R372, R379). -/

namespace Sys2Proof.Machine

/-- The translation of an inbound access in PORTCFG.CTX, without a fault service (R371): none where it is refused. -/
def inboundTr (s : State) (port : Nat) (k : AccK) (addr : Nat) : Option (Nat × Leaf) :=
  match accessTr s (noCore (port / 4)) (s.ports.getD port {}).ctx k addr with
  | .ok pa l => some (pa, l)
  | _ => none
/-- A root port that is up. -/
def rootServes (s : State) (port : Nat) : Bool := let p : Port := s.ports.getD port {}; p.mode == 2 && p.up
/-- One part for each 128-byte line of a request within one page (R379): those from line `k` of n on. -/
def inParts (addr size pa : Nat) (l : Leaf) (first : Nat) : Nat → List InPart
  | 0 => []
  | k + 1 =>
    let a := max addr (first * 128)
    let e := min (addr + size) ((first + 1) * 128)
    { pa := pa + (a - addr), off := a - addr, n := e - a, cls := lineClass pa l, xf := l.xf } :: inParts addr size pa l (first + 1) k
/-- The route of a part (R372): the home die, 8 for the Droveway, 9 for a window. -/
def InPart.route (p : InPart) : Nat := if isRemote p.pa then 8 else if isWindow p.pa then 9 else homeDie p.pa
def Inbound.fnOf (q : Inbound) : Nat × Nat := (q.port, q.fn)
/-- The largest GWCT that a function's routes have acknowledged since its link came up. -/
def State.fnStamp (s : State) (port fn : Nat) : Nat := match s.ordering.find? (fun o => o.1 == port && o.2.1 == fn) with | some o => o.2.2 | none => 0
def State.joinStamp (s : State) (port fn g : Nat) : State :=
  { s with ordering := s.ordering.filter (fun o => !(o.1 == port && o.2.1 == fn)) ++ [(port, fn, max (s.fnStamp port fn) g)] }
def State.setIn (s : State) (pid : Nat) (f : Inbound → Inbound) : State := { s with inbound := updWhere (fun q => q.pid == pid) f s.inbound }
/-- Nothing of the function stands before an entry. -/
def inFirst (s : State) (q : Inbound) : Bool := !s.inbound.any (fun r => r.fnOf == q.fnOf && decide (r.pid < q.pid))

/-- The part of a write performed at its home, or beyond the package's memory: the state, its GWCT, and whether it was. -/
def inWrite (s : State) (q : Inbound) (p : InPart) : State × Nat × Bool :=
  let ctx := (s.ports.getD q.port {}).ctx
  let bs := leBytes p.n (q.value / 256 ^ p.off)
  if isRemote p.pa then
    let k := s.choice
    let s : State := { s with choice := k + 2, out := s.out ++ [(p.pa, bs.map (fun b => b.toNat))] }
    if Config.freeBool k || !reachable s (p.pa / 2 ^ 48 - 1) then
      ({ s with pkg := { s.pkg with wfault := min 0xFFFF (s.pkg.wfault + 1) } }, 0, true)
    else (s, max q.stamp (s.bw + (Config.freeWord (k + 1)).toNat % 8193) + 40, true)
  else if isOutbound p.pa then ({ s with out := s.out ++ [(p.pa, bs.map (fun b => b.toNat))] }, s.bw, true)
  else if isWindow p.pa then
    let d := s.doorbell ((p.pa - doorBase) / 4096) ctx (leNat bs) p.n
    (d.1, s.bw, d.2)
  else if s.packedAt p.pa || s.preSwitch then (s, 0, false)
  else
    let gate := deviceGate s (p.pa / 128) true false
    if !gate.2 then (gate.1, 0, false)
    else
      let w := outsideWrite gate.1 ctx p.pa p.cls p.xf q.stamp bs
      (w.1, w.2, true)
/-- A read at the head of its function is performed (R372); where a host must be snooped first it waits. -/
def inRead (s : State) (q : Inbound) : State × Bool :=
  match inboundTr s q.port .read q.addr with
  | none => (({ s with inbound := s.inbound.filter (fun r => r.pid != q.pid) }.answer q.pid [512]).portLog q.port 3 q.addr false, true)
  | some (pa, l) =>
    let ps := inParts q.addr q.size pa l (q.addr / 128) ((q.addr + q.size - 1) / 128 - q.addr / 128 + 1)
    let blocked (p : InPart) : Bool := !isWindow p.pa && (s.packedAt p.pa || s.preSwitch || !(deviceGate s (p.pa / 128) false false).2)
    match ps.find? blocked with
    | some p => ((deviceGate s (p.pa / 128) false false).1, false)
    | none =>
      let bad := !isWindow pa && s.poisoned pa q.size
      let bytes := (List.range q.size).map (fun k => if !isWindow pa && s.poisoned (pa + k) 1 then 256 else (s.rdByte (pa + k)).toNat)
      let s := ({ s with inbound := s.inbound.filter (fun r => r.pid != q.pid), choice := s.choice + 1 }.answer q.pid bytes)
      (if bad then s.portLog q.port 3 q.addr false else s, true)
/-- The head of a function's queue goes on (R379): a write is released with its stamp, a read is performed, and what stands
behind a performed read goes on too. -/
def serveFn (port fn : Nat) : Nat → State → State
  | 0, s => s
  | n + 1, s =>
    match s.inbound.find? (fun q => q.fnOf == (port, fn)) with
    | none => s
    | some q =>
      if q.read then let r := inRead s q; if r.2 then serveFn port fn n r.1 else r.1
      else if q.released then s
      else s.setIn q.pid (fun q => { q with released := true, stamp := s.fnStamp port fn })
def State.serveFn (s : State) (port fn : Nat) : State := Machine.serveFn port fn (s.inbound.length + 1) s

/-- A memory request on a link names one page and at most 4 KiB. -/
def inFits (addr size : Nat) : Bool := decide (0 < size) && decide (addr % 4096 + size ≤ 4096)
/-- INBOUND_POSTED_WRITE (R371, R372, R379): translated and split into parts, or discarded and logged. With 256 writes held the
ordering point grants no credit, and nothing arrives. -/
def execInboundPostedWrite (port fn addr value size : Nat) (s : State) : Host.Outcome State Fault Refusal :=
  let full := decide (256 ≤ (s.inbound.filter (fun q => q.port / 4 == port / 4 && !q.read)).length)
  if !rootServes s port || full || !inFits addr size then .next s
  else
    match (if s.pkg.halt then none else inboundTr s port .write addr) with
    | none => .next (s.portLog port 3 addr false)
    | some (pa, l) =>
      let q : Inbound := { pid := s.nextId, port := port, fn := fn, addr := addr, value := value, size := size,
                           parts := inParts addr size pa l (addr / 128) ((addr + size - 1) / 128 - addr / 128 + 1) }
      .next ({ s with inbound := s.inbound ++ [q], nextId := s.nextId + 1 }.serveFn port fn)
/-- INBOUND_READ (R371, R372). -/
def execInboundRead (port fn addr size : Nat) (s : State) : Host.Outcome State Fault Refusal :=
  if !rootServes s port || !inFits addr size then .next s
  else if s.pkg.halt then .next (({ s with nextId := s.nextId + 1 }.answer s.nextId (List.replicate size 256)).portLog port 3 addr false)
  else
    let q : Inbound := { pid := s.nextId, port := port, fn := fn, addr := addr, size := size, read := true }
    .next ({ s with inbound := s.inbound ++ [q], nextId := s.nextId + 1 }.serveFn port fn)

/-- Parts of a released write on one route are performed, as far as they may be. -/
def routeWrites (route pid : Nat) : List Nat → State → State
  | [], s => s
  | i :: is, s =>
    match s.inbound.find? (fun q => q.pid == pid) with
    | none => s
    | some q =>
      match q.parts[i]? with
      | none => s
      | some p =>
        if p.done || p.route != route then routeWrites route pid is s
        else
          let w := inWrite s q p
          if !w.2.2 then w.1
          else routeWrites route pid is (w.1.setIn pid (fun q => { q with gwct := max q.gwct w.2.1, parts := modAt (fun p => { p with done := true }) i q.parts }))
/-- ROUTE_ACK (R372, R379): the parts of a route are performed and it acknowledges; when every route has, the running maximum
rises and what stands behind goes on. Of a read that waits it tries the read again. -/
def execRouteAck (port pid route : Nat) (s : State) : Host.Outcome State Fault Refusal :=
  match s.inbound.find? (fun q => q.pid == pid && q.port == port) with
  | none => .next s
  | some q =>
    if q.read then .next (if inFirst s q then s.serveFn port q.fn else s)
    else if !q.released then .next s
    else
      let s := routeWrites route pid (List.range q.parts.length) s
      match s.inbound.find? (fun r => r.pid == pid) with
      | none => .next s
      | some r =>
        let open_ := r.parts.any (fun p => p.route == route && !p.done)
        let s := if open_ || r.acked.contains route then s else s.setIn pid (fun r => { r with acked := r.acked ++ [route] })
        if r.parts.all (fun p => p.done) then
          .next ((({ s with inbound := s.inbound.filter (fun r => r.pid != pid) }.joinStamp port r.fn r.gwct)).serveFn port r.fn)
        else .next s

end Sys2Proof.Machine
end

