-- ==== Sys2Proof/Machine/Reset.lean ====
section
/-! DEFINITION. Compute reset and keep-domain reset (R373 to R376, R382, R383, R400), the ports' links (R355, R359), and host
reads of BAR0 (R356, R368). -/

namespace Sys2Proof.Machine

/-! ## Compute reset -/

/-- At T every core stops, the engines return to IDLE with their registers reset (R347), and what the compute dies hold of threads,
teams, events and accesses not yet performed is lost (R374, R376). Signals that have reached a ring's I/O die stay. -/
def State.stopCompute (s : State) : State :=
  let kept (g : Signal) : Bool := g.kind == 1 && !g.applied && (g.posted || decide (2 ^ 64 ≤ g.gid))
  { s with groups := [], teams := [], grids := [], cores := [], dies := List.replicate 8 {}, l1 := [], icache := [], tlb := [], walkc := [], reqs := [],
           invals := [], faults := [], fold := [], views := [], events := [], bins := [], ces := List.replicate 64 {}, saves := [], places := [],
           migs := [], collectives := [], remotes := [], signals := (s.signals.filter kept).map (fun (g : Signal) => { g with dc := 6 }),
           issuer := none, engine := none }
/-- COMPUTE_RESET (R374): `source` 0 is a write of RESETCTL[0], 1 is Finat. Ignored while a reset runs, and during a halt. -/
def State.computeReset (s : State) : State :=
  if s.pkg.reset != .idle || s.pkg.halt then s
  else { s.stopCompute with pkg := { s.pkg with reset := .started s.bw, resetDone := false, bootFail := false } }
def execComputeReset (source : Nat) (s : State) : Host.Outcome State Fault Refusal := if 2 ≤ source then .next s else .next s.computeReset

/-- A line's dirty data reaches memory, or is lost. -/
def State.cleanLine (s : State) (l : Line) (keep : Bool) : State :=
  let s := if l.dirty && !keep then s.wrBytes (l.line * 128) l.old else s
  (if keep then s.writeBack l else s).dropLine l.line
/-- RESET_WRITE_BACK (R374, R383): from T + 1 µs on a dirty line of a tenant's page is written back, and the host requests held
on it are answered. -/
def execResetWriteBack (line : Nat) (s : State) : Host.Outcome State Fault Refusal :=
  match s.pkg.reset with
  | .started t =>
    let l := s.lineSt line
    if s.bw < t + 1000 ∨ !l.dirty ∨ !tenantLine s line then .next s
    else
      let s := s.cleanLine l true
      .next ((s.hostReqs.filter (fun r => r.held == 1 && r.pa / 128 == line)).foldl (fun (s : State) q => s.hostTry q) s)
  | _ => .next s
/-- RESET_L2_SWITCH (R374): at T + 5 µs the remaining tenant lines have been written back, other dirty data is lost, the L2s
reset, and held host requests go to the memory controllers. -/
def execResetL2Switch (s : State) : Host.Outcome State Fault Refusal :=
  match s.pkg.reset with
  | .started t =>
    if s.bw < t + 5000 then .next s
    else
      let s' := (s.lines.filter (fun l => l.inL2)).foldl (fun (q : State) l => q.cleanLine l (l.dirty && tenantLine s l.line)) s
      let s' : State := { s' with pkg := { s'.pkg with reset := .switched t }, eh := [], lines := s'.lines.map (fun l => { l with hw := 0 }) }
      .next s'.serveHosts
  | _ => .next s

/-- BOOT_GRID_LAUNCH (R382): the record of BOOTLR is launched in context 0, or RESETSTAT[1] is set. -/
def State.bootLaunch (s : State) : State :=
  let v := s.pkg.bootlr.toNat
  let die := v % 8
  let addr := field v 6 51 * 64
  let fail : State := { s with pkg := { s.pkg with bootFail := true } }
  if !(s.ctx 0).enable then fail
  else
    match (match readLaunch s { core := noCore die, ctx := 0, team := 0, who := 0 } addr with | .ok (v, t) => launchRec v t | .error _ => none) with
    | some r => s.enqueueGrid 0 addr r [die] none s.bw
    | _ => fail
/-- The end of a reset is signalled to every function (R356). -/
def State.endMsix (s : State) : State :=
  (List.range 8).foldl (fun (s : State) p =>
    (List.range 97).foldl (fun (s : State) f => if (fnContext s p f).isSome then s.msix p f (if f = 0 then 2 else 0) else s) s) s
/-- The cluster's FCLK follows its island (R387). -/
def Island.mhz (i : Island) : Nat := min i.freq i.fcap / 25 * 25
def freshClusters (s : State) : List Cluster := s.islands.map (fun i => { fmhz := i.mhz })
/-- COMPUTE_RESET_END (R374, R376): the context registers that Finat shadows keep their values and the others reset; the boot
grid is launched, and MSI-X signals the end. Dies that an alarm has halted stay stopped (R397). -/
def execComputeResetEnd (s : State) : Host.Outcome State Fault Refusal :=
  match s.pkg.reset with
  | .switched _ =>
    if s.pkg.halt then .next s
    else
      let zero : List Nat := [0, 0, 0, 0, 0, 0, 0, 0]
      let s : State := { s with
        contexts := s.contexts.map (fun (c : Context) => { c with dlkcnt := 0, bwmeter := zero, xhits := zero, leftAt := zero }),
        clusters := freshClusters s, events := [], pkg := { s.pkg with reset := .idle } }
      let s := if s.pkg.bootlr.getLsbD 3 then s.bootLaunch else s
      .next { s.endMsix with pkg := { s.pkg with resetDone := true } }.serveHosts
  | _ => .next s
/-- A write of BOOTLR (R382). -/
def State.writeBootlr (s : State) (v : DWord) : State :=
  let rises := v.getLsbD 3 && !s.pkg.bootlr.getLsbD 3
  let s : State := { s with pkg := { s.pkg with bootlr := BitVec.ofNat 64 (field v.toNat 6 51 * 64 + v.toNat % 16) } }
  if rises && s.pkg.reset == .idle && !s.pkg.halt then s.bootLaunch else s
/-- BOOTLR_ENABLE (R382): a write that sets EN from 0 to 1 and leaves the rest. -/
def execBootlrEnable (s : State) : Host.Outcome State Fault Refusal := .next (s.writeBootlr (s.pkg.bootlr ||| 8))

/-! ## Keep-domain reset (R375, R400) -/

/-- The whole package resets and comes up: the fuses stay, and MODE and T2PROT as last written are applied; the register T2PROT returns to 0.
BWCLK starts at 0 again (DESIGN CHOICE). -/
def State.keepReset (s : State) : State :=
  { State.reset with
    nextId := s.nextId, choice := s.choice + 16, out := s.out, finat := s.finat, agenda := s.agenda,
    ports := s.ports.map (fun (p : Port) => { mode := p.modeCfg, modeCfg := p.modeCfg }),
    hbm := s.hbm.map (fun (h : Stack) => { temp := h.temp }),
    pkg := { svn := s.pkg.svn, prov := s.pkg.prov, kekv := s.pkg.kekv, caps := s.pkg.caps, t2protOn := s.pkg.t2prot,
             measure := bootMeasure s.choice } }
/-- KEEP_DOMAIN_RESET (R375). `source`: 0 power-on, 1 the reset input, 2 context 0 by RESETCTL[1], 3 a host by RESETCTL[1], 4 board
management. Requests already received are answered first, with poison during a level-2 halt. -/
def execKeepDomainReset (source : Nat) (s : State) : Host.Outcome State Fault Refusal :=
  if 5 ≤ source ∨ (source = 3 ∧ s.pkg.halt) then .next s
  else if source ≠ 0 ∧ s.hostReqs.any (fun r => r.held != 3) then .next s
  else .next s.keepReset

/-! ## Host links -/

def State.setPort (s : State) (p : Nat) (f : Port → Port) : State := { s with ports := modAt f p s.ports }
/-- PORT_LINK_UP (R355, R359): training ends at a width, and the ordering point forgets the acknowledgements of before (R379). -/
def execPortLinkUp (port width : Nat) (s : State) : Host.Outcome State Fault Refusal :=
  let p : Port := s.ports.getD port {}
  if 8 ≤ port ∨ p.up ∨ p.mode = 3 ∨ !p.tenctl.getLsbD 63 ∨ !([1, 2, 4, 8, 16].contains width) then .next s
  else .next ({ s with ordering := s.ordering.filter (fun o => o.1 != port) }.setPort port (fun p => { p with up := true, lwidth := width }))
/-- PORT_LINK_DOWN (R359): once READY is clear and every request received has been answered, or because the partner is lost. -/
def execPortLinkDown (port : Nat) (s : State) : Host.Outcome State Fault Refusal :=
  let p : Port := s.ports.getD port {}
  let held := s.hostReqs.any (fun r => r.port == port && r.held != 3) || s.inbound.any (fun q => q.port == port)
  if !p.up ∨ (!p.tenctl.getLsbD 63 ∧ held) then .next s
  else .next ({ s with hostReqs := s.hostReqs.filter (fun r => r.port != port) }.setPort port (fun p => { p with up := false, lwidth := 0 }))

/-! ## BAR0 -/

/-- RESETCTL as it reads: bit 0 while a compute reset runs. -/
def State.resetctl (s : State) : Nat := if s.pkg.reset == .idle then 0 else 1
/-- PORTCFG, LOGHEAD and the rest of a port's function 0, as BAR0 gives them; the state after the read (R368). -/
def bar0Fn0 (s : State) (port o : Nat) : Nat × State :=
  let p : Port := s.ports.getD port {}
  if 0x1000 ≤ o ∧ o < 0x1080 then
    let i := (o - 0x1000) / 8
    ((p.log.getD i 0).toNat, s.setPort port (fun p => { p with log := modAt (fun v => v &&& 0x7FFFFFFFFFFFFFFF#64) i p.log }))
  else if o = 0x1080 then (p.loghead, s)
  else if o = 0x1100 then (p.sigcons, s)
  else if o = 0x1108 then (p.sigprod, s)
  else if o = 0x1110 then (p.sigovf, s.setPort port (fun p => { p with sigovf := 0 }))
  else if o = 0x1F00 ∧ port = 0 then (s.resetctl, s)
  else (0, s)
/-- BAR0_READ (R356, R368): 8 bytes at 64 KiB times the function plus an offset. The MSI-X table's entries are the host's own and read as
free values. -/
def execBar0Read (port offset : Nat) (s : State) : Host.Outcome State Fault Refusal :=
  let id := 2 ^ 50 + port * 2 ^ 32 + offset
  let o := offset % 2 ^ 16 / 8 * 8
  if (fnContext s port (offset / 2 ^ 16)).isNone then .next s
  else if s.pkg.halt then .next ((s.answer id (List.replicate 8 256)).portLog port 3 offset false)
  else if 0x2000 ≤ o ∧ o < 0x2400 then
    let k := s.free
    .next (k.2.answer id ((List.range 8).map (fun j => (Config.outsideByte (offset + j) k.1).toNat)))
  else if offset / 2 ^ 16 = 0 then
    let r := bar0Fn0 s port o
    .next (r.2.answer id ((leBytes 8 r.1).map (fun b => b.toNat)))
  else .next (s.answer id (List.replicate 8 0))

end Sys2Proof.Machine
end

