-- ==== Sys2Proof/Machine/Power.lean ====
section
/-! DEFINITION. Power, heat, security and attestation (R385 to R397). -/

namespace Sys2Proof.Machine

/-! ## Islands (R387, R390) -/

/-- A stack of the die stands at forced throttle (R389, R390). -/
def dieHot (s : State) (die : Nat) : Bool := (List.range 2).any (fun k => match s.hbm[2 * die + k]? with | some h => h.level == 3 | none => false)
/-- An island's record changes, and its cluster's FCLK with it; under R390 its cap is at most 800. -/
def State.setIsland (s : State) (i : Nat) (f : Island → Island) : State :=
  let r := f (s.islands.getD i {})
  let r := if dieHot s (i / 8) && decide (800 < r.fcap) && r.thrgrp == 0 then { r with fcap := 800 } else r
  { s with islands := modAt (fun _ => r) i s.islands }.setCluster i (fun c => { c with fmhz := r.mhz })
/-- FCAP and GPWR are set together (R387), FCAP to at most 800 while a stack of the die stands at LEVEL 11 (R390). -/
def State.capIsland (s : State) (i fcap gpwr : Nat) : State :=
  let fcap := if dieHot s (i / 8) then min 800 fcap else fcap
  (s.setIsland i (fun r => { r with fcap := fcap })).setCluster i (fun c => { c with gpwr := gpwr })
/-- An announcement made at tick `a` reaches the islands of its group in this package (R388): one whose tick has passed is applied
at once and counted LATE. -/
def State.announce (s : State) (group fcap gpwr a : Nat) : State :=
  ((List.range 64).filter (fun i => (s.islands.getD i {}).thrgrp == group)).foldl (fun (s : State) i =>
    if a + 4000 < s.bw then s.capIsland i fcap gpwr |>.setIsland i (fun r => { r with late := min 0xFF (r.late + 1) })
    else { s with islands := modAt (fun (r : Island) => { r with pending := r.pending ++ [(a + 4000, fcap, gpwr)] }) i s.islands }) s
/-- A valid announcement (R388). -/
def capOk (fcap gpwr : Nat) : Bool := decide (400 ≤ fcap) && decide (fcap ≤ 1800) && decide (1 ≤ gpwr) && decide (gpwr ≤ 16)
/-- An island of the group lies on a die one of whose stacks stands at LEVEL 11. -/
def hotGroup (s : State) (group : Nat) : Bool := (List.range 64).any (fun i => (s.islands.getD i {}).thrgrp == group && dieHot s (i / 8))
/-- An announcement of this package: it also leaves for the other packages of the group, as signal-channel packets. -/
def State.tellGroup (s : State) (group fcap gpwr : Nat) : State :=
  if group = 0 ∨ 2 ^ 16 ≤ group then s
  else { s with out := s.out ++ [(2 ^ 60 + 2 ^ 20 + group, [fcap, gpwr, s.bw])] }.announce group fcap gpwr s.bw
/-- An announcement is made; while a die of the group is hot, one above 800 MHz is followed at once by power control's own of 800, so that every member
keeps to the cap (R390). -/
def State.makeAnnouncement (s : State) (group fcap gpwr : Nat) : State :=
  let t := s.tellGroup group fcap gpwr
  if hotGroup s group && decide (800 < fcap) then t.tellGroup group 800 gpwr else t
/-- THROTTLE_ANNOUNCEMENT (R388). A group of 2^16 × (a + 1) + g stands for one that another package made for group g at its tick
a. -/
def execThrottleAnnouncement (group fcap gpwr : Nat) (s : State) : Host.Outcome State Fault Refusal :=
  if !capOk fcap gpwr then .next s
  else if group < 2 ^ 16 then .next (s.makeAnnouncement group fcap gpwr)
  else if group % 2 ^ 16 = 0 then .next s
  else
    let t := s.announce (group % 2 ^ 16) fcap gpwr (group / 2 ^ 16 - 1)
    .next (if hotGroup s (group % 2 ^ 16) && decide (800 < fcap) then t.tellGroup (group % 2 ^ 16) 800 gpwr else t)
/-- ANNOUNCEMENT_APPLY (R388): those of the earliest apply tick that has come; of several, the lower FCAP and the lower GPWR. -/
def execAnnouncementApply (island : Nat) (s : State) : Host.Outcome State Fault Refusal :=
  let ps := (s.islands.getD island {}).pending
  match (ps.map (fun p => p.1)).min? with
  | none => .next s
  | some t =>
    if s.bw < t then .next s
    else
      let due := ps.filter (fun p => p.1 == t)
      let lo (f : Nat × Nat × Nat → Nat) : Nat := ((due.map f).min?).getD 0
      .next ((s.setIsland island (fun r => { r with pending := r.pending.filter (fun p => p.1 != t) })).capIsland island (lo (fun p => p.2.1)) (lo (fun p => p.2.2)))
/-- Power control caps islands directly where they have no group, and by one announcement for each group (R387). -/
def State.capAll (s : State) (is : List Nat) (fcap gpwr : Nat → Nat) : State :=
  let groups := ((is.map (fun i => (s.islands.getD i {}).thrgrp)).filter (· != 0)).dedup
  let first (g : Nat) : Nat := ((is.filter (fun i => (s.islands.getD i {}).thrgrp == g)).headD 0)
  groups.foldl (fun (s : State) g => s.makeAnnouncement g (fcap (first g)) (gpwr (first g)))
    ((is.filter (fun i => (s.islands.getD i {}).thrgrp == 0)).foldl (fun (s : State) i => s.capIsland i (fcap i) (gpwr i)) s)

/-! ## The energy bucket (R385, R386) -/

/-- SUSTW of a coolant inlet (R386). -/
def sustwOf (coolin : Nat) : Nat := if coolin ≤ 55 then 8000 else max (8000 - 200 * (coolin - 55)) 4000
def Package.boostOn (p : Package) : Bool := p.boost && decide (p.coolin < 75)
/-- POWER_INTERVAL: the bucket takes SUSTW − P for 1 µs, to 1 mJ, and the next SUSTW and cap follow (R401). Where P exceeded the cap in force,
island caps fall; otherwise power control may set them anew. By how much is a free value. -/
def execPowerInterval (milliwatts : Nat) (s : State) : Host.Outcome State Fault Refusal :=
  let p := s.pkg
  if s.bw / 1000 ≤ p.pwAt then .next s
  else
    let exceeds := decide (1000 * p.capw < milliwatts)
    let b : Int := ((p.bucket : Int) * 1000000 + (1000 * p.sustw : Nat) - (milliwatts : Nat)) / 1000000
    let bucket := min b.toNat 36000000
    let sustw := sustwOf p.coolin
    let capw := if p.boostOn && bucket != 0 then p.boostw else sustw
    let k := s.choice
    let s : State := { s with choice := k + 130, pkg := { p with bucket := bucket, sustw := sustw, capw := capw, pw := min 0xFFFF (milliwatts / 1000), pwAt := p.pwAt + 1 } }
    let cap (i : Nat) : Nat := 400 + (Config.freeWord (k + 2 + i)).toNat % 1401
    let g (i : Nat) : Nat := 1 + (Config.freeWord (k + 66 + i)).toNat % 16
    if exceeds then .next (s.capAll (List.range 64) (fun i => min (cap i) (s.islands.getD i {}).fcap) (fun i => min (g i) (s.cluster i).gpwr))
    else if Config.freeBool k then .next (s.capAll (List.range 64) cap g)
    else .next s

/-! ## HBM4E refresh (R389, R390) -/

/-- One step of LEVEL at a sample. -/
def nextLevel (level temp floor : Nat) : Nat :=
  let l := match level with
    | 0 => if 85 < temp then 1 else 0
    | 1 => if 95 < temp then 2 else if temp ≤ 82 then 0 else 1
    | 2 => if 105 < temp then 3 else if temp ≤ 92 then 1 else 2
    | _ => if temp ≤ 100 then 2 else 3
  max l floor
/-- HBM_TEMP_SAMPLE: each 32 µs; at LEVEL 11 the die's islands are capped at 800 MHz. -/
def execHbmTempSample (stack temp : Nat) (s : State) : Host.Outcome State Fault Refusal :=
  match s.hbm[stack]? with
  | none => .next s
  | some h =>
    if s.bw / 32000 ≤ h.sampAt then .next s
    else
      let l := nextLevel h.level (temp % 256) s.pkg.refctl
      let s : State := { s with hbm := modAt (fun _ => { temp := BitVec.ofNat 8 temp, level := l, sampAt := h.sampAt + 1 }) stack s.hbm }
      if l = 3 ∧ h.level ≠ 3 then
        .next (s.capAll ((List.range 8).map (fun c => stack / 2 * 8 + c)) (fun i => min 800 (s.islands.getD i {}).fcap) (fun i => (s.cluster i).gpwr))
      else .next s

/-! ## Alarms (R397) -/

/-- Resident groups of context 0 take SECALARM. -/
def State.secAlarm (s : State) (source : Nat) : State :=
  (s.groups.filter (fun g => g.ctx == 0 && resident g && !g.stopped)).foldl (fun (s : State) g0 =>
    match s.group g0.gid with
    | none => s
    | some g => (s.interrupt g { stage := 1, code := cSECALARM, tfm := 0, tinfo := source }).wakeGroup g.gid) s
/-- The dies stop as a compute reset stops them, and stay stopped; held host requests are answered with poison. -/
def State.levelTwo (s : State) : State :=
  let s : State := if s.pkg.reset != .idle then s else { s.stopCompute with pkg := { s.pkg with reset := .started s.bw, resetDone := false, bootFail := false } }
  let held := s.hostReqs
  held.foldl (fun (s : State) q => if q.held < 3 then (s.refuseHost q).portLog q.port 3 q.addr false else s)
    { s with hostReqs := s.hostReqs.filter (fun q => q.held == 4), pkg := { s.pkg with halt := true } }
/-- The level of a source: 1 a rejected firmware image, 2 three failed debug-unlock attempts, 3 a supply or clock glitch, 4 the mesh
broken. -/
def alarmLevel (source : Nat) : Nat := match source with | 1 => 1 | 2 => 2 | 3 => 2 | 4 => 3 | _ => 0
/-- SECURITY_ALARM: `ctx` is the context whose groups take SECALARM, 0. -/
def execSecurityAlarm (level source ctx : Nat) (s : State) : Host.Outcome State Fault Refusal :=
  if level = 0 ∨ level ≠ alarmLevel source ∨ ctx ≠ 0 then .next s
  else
    let s : State := { s with pkg := { s.pkg with alarm := max s.pkg.alarm level }, finat := s.finat ++ [(0, 2 ^ 64, cSECALARM, source)] }
    if level = 1 then .next (s.secAlarm source)
    else if level = 2 then .next s.levelTwo
    else let s := s.levelTwo; .next { s with pkg := { s.pkg with kekv := false, prov := false } }

/-! ## Attestation (R396) -/

/-- ATTESTATION_REQUEST: a write of ATTEV. -/
def State.attest (s : State) (value : Nat) : State := { s with pkg := { s.pkg with attEv := some (value % 2 ^ 16), attGw := none } }
def execAttestationRequest (value : Nat) (s : State) : Host.Outcome State Fault Refusal := .next (s.attest value)
/-- The 157 capability registers, in the order of the report. -/
def capIndexes : List Nat := [0x000] ++ (List.range 128).map (0x100 + ·) ++ [0x200, 0x201] ++ (List.range 16).map (0x210 + ·) ++ (List.range 8).map (0x220 + ·) ++ [0x300, 0x301]
def padTo (n : Nat) (l : List Byte) : List Byte := (l ++ List.replicate n 0).take n
/-- The report's 8 KiB. -/
def report (s : State) (nonce : List Byte) : List Byte :=
  let head := padTo 4096 (padTo 64 (padTo 32 nonce ++ leBytes 8 s.bw ++ leBytes 8 s.pkg.svn.toNat) ++ padTo 1024 s.pkg.measure.flatten
    ++ capIndexes.flatMap (fun i => leBytes 8 (s.cap i).toNat))
  padTo 8192 (head ++ padTo 1280 (Config.falconSign (Config.shake256 64 head)))
/-- ATTESTATION_REPORT_DONE: Finat writes the report at ATTBUF, in context 0's tables, and then posts the event under R301; without an identity it
writes zeros. What it cannot write is left unwritten; where it waits for a host's copy (R302) it has written nothing yet. -/
def execAttestationReportDone (s : State) : Host.Outcome State Fault Refusal :=
  match s.pkg.attEv with
  | none => .next s
  | some ev =>
    let a : Agent := { core := noCore 0, ctx := 0, team := 0, who := 0 }
    let buf := s.pkg.attbuf.toNat / 8192 * 8192
    match s.pkg.attGw with
    | some g =>
      if s.bw < g + 2 ∨ !eventRoom s 0 ev false then .next s
      else .next ({ s with pkg := { s.pkg with attEv := none, attGw := none } }.postEvent 0 ev 1 false s.bw)
    | none =>
      let nonce := match eBytes s a buf 32 with | .ok b => b | .error _ => List.replicate 32 0
      let bytes := if s.pkg.prov then report s nonce else List.replicate 8192 0
      match unitWrite a bytes buf s 0 with
      | .ok (w, g) => .next { w with pkg := { w.pkg with attGw := some g } }
      | .error (.hold lv va k) => if 64 ≤ k then .next (engineFault s a lv va k) else .next { s with pkg := { s.pkg with attGw := some 0 } }
      | .error _ => .next { s with pkg := { s.pkg with attGw := some 0 } }

end Sys2Proof.Machine
end

