-- ==== Sys2Proof/Machine/Regs.lean ====
section
/-! DEFINITION. The system registers (R305 to R307): which there are, how each reads and what a write of it does, under its field map's
access codes (R5, R6), and MTSP, MFSP and REGISTER_WRITE. -/

namespace Sys2Proof.Machine

/-- Bits `hi` to `lo` of a value, in place. -/
def bitsAt (v hi lo : Nat) : Nat := field v lo (hi - lo + 1) * 2 ^ lo
def boolAt (b : Bool) (lo : Nat) : Nat := if b then 2 ^ lo else 0
def clampTo (lo hi v : Nat) : Nat := max lo (min hi v)

/-! ## Which registers there are (R306) -/

def blockOf (i : Nat) : Nat := i / 2 ^ 28
def unitOf (i : Nat) : Nat := i / 2 ^ 20 % 2 ^ 8
def regOf (i : Nat) : Nat := i % 2 ^ 20
def inRange (r lo hi : Nat) : Bool := decide (lo ≤ r) && decide (r ≤ hi)
def regExists (i : Nat) : Bool :=
  let u := unitOf i
  let r := regOf i
  match blockOf i with
  | 0 => decide (u < 97) && (inRange r 0 9 || inRange r 0x100 0x117 || inRange r 0x200 0x203)
  | 1 => decide (u < 64) && (inRange r 0x040 0x042 || inRange r 0x044 0x048)
  | 2 => decide (u < 8) && (r == 0x300 || (inRange r 0x400 0x47F && decide (r % 16 < 6)))
  | 3 => decide (u < 8) && decide (r < 4096)
  | 4 => (decide (u < 8) && (inRange r 0 2 || inRange r 4 8 || inRange r 0x10 0x1F)) || (u == 8 && decide (r < 3))
  | 5 => (decide (u < 64) && r == 0) || (u == 64 && (inRange r 0 4 || inRange r 0x10 0x1F))
  | 6 => u == 0 && (r == 0 || inRange r 0x100 0x17F || inRange r 0x200 0x201 || inRange r 0x210 0x21F || inRange r 0x220 0x227 || inRange r 0x300 0x301
      || r == 0x400 || inRange r 0x410 0x411)
  | 7 => (u == 0 && (inRange r 0 1 || inRange r 0x1000 0x4FFF)) || (inRange u 1 36 && r == 0)
  | _ => false

/-! ## Context registers (R305, R341, R358) -/

/-- Lines of a context in a die's L2 (R288). -/
def occ (s : State) (ctx die : Nat) : Nat := (s.lines.filter (fun l => l.inL2 && l.owner == ctx && homeDie (l.line * 128) == die)).length
def readCtx (s : State) (u r : Nat) : Nat × State :=
  let c := s.ctx u
  let rc (v : Nat) (f : Context → Context) : Nat × State := (v, s.setCtx u f)
  if r = 0 then (boolAt c.enable 15 + boolAt c.priv 14 + boolAt c.dbg 13 + boolAt c.fsvc 12 + c.asid, s)
  else if r = 1 then (c.ptroot, s)
  else if r = 2 then (c.tvec.toNat, s)
  else if r = 3 then (c.ptvec.toNat, s)
  else if r = 4 then (c.wdog, s)
  else if r = 5 then (c.spawnt, s)
  else if r = 6 then (c.drain * 2 ^ 32 + c.flush, s)
  else if r = 7 then (c.spillBase + c.spillSize, s)
  else if r = 8 then (c.savepool + c.slots, s)
  else if r = 9 then rc c.dlkcnt (fun c => { c with dlkcnt := 0 })
  else if r < 0x108 then rc (c.bwmeter.getD (r - 0x100) 0) (fun c => { c with bwmeter := modAt (fun _ => 0) (r - 0x100) c.bwmeter })
  else if r < 0x110 then rc (c.xhits.getD (r - 0x108) 0) (fun c => { c with xhits := modAt (fun _ => 0) (r - 0x108) c.xhits })
  else if r < 0x118 then (occ s u (r - 0x110), s)
  else if r = 0x200 then (c.t1budget, s)
  else if r = 0x201 then (c.t1held, s)
  else if r = 0x202 then (c.tierpol, s)
  else (c.tenmask.toNat, s)
/-- A write of ENABLE lets the groups go on that HALT.CONTEXT stopped (R331). -/
def State.setCtxctl (s : State) (u v : Nat) : State :=
  let s := s.setCtx u (fun c => { c with enable := v.testBit 15, priv := v.testBit 14, dbg := v.testBit 13, fsvc := v.testBit 12, asid := v % 2 ^ 12 })
  if v.testBit 15 then { s with groups := s.groups.map (fun (g : Group) => if g.ctx = u then { g with ctxStop := false } else g) } else s
def writeCtx (s : State) (u r v : Nat) : State :=
  let set (f : Context → Context) : State := s.setCtx u f
  if r = 0 then s.setCtxctl u v
  else if r = 1 then set (fun c => { c with ptroot := bitsAt v 47 13 })
  else if r = 2 then set (fun c => { c with tvec := BitVec.ofNat 64 v })
  else if r = 3 then set (fun c => { c with ptvec := BitVec.ofNat 64 v })
  else if r = 4 then set (fun c => { c with wdog := max 1 (v % 2 ^ 20) })
  else if r = 5 then set (fun c => { c with spawnt := clampTo 16 65535 v })
  else if r = 6 then set (fun c => { c with drain := field v 32 32, flush := v % 2 ^ 32 })
  else if r = 7 then set (fun c => { c with spillBase := bitsAt v 56 20, spillSize := clampTo 1 4096 (v % 2 ^ 16) })
  else if r = 8 then set (fun c => { c with savepool := bitsAt v 56 21, slots := v % 2 ^ 16 })
  else if r = 0x200 then set (fun c => { c with t1budget := v % 2 ^ 24 })
  else if r = 0x202 then set (fun c => { c with tierpol := v % 4 })
  else if r = 0x203 then set (fun c => { c with tenmask := BitVec.ofNat 9 v })
  else s

/-! ## Cluster registers (R249 to R266) -/

def readCluster (s : State) (u r : Nat) : Nat × State :=
  let k := s.cluster u
  if r = 0x040 then (k.fmhz * 2 ^ 16 + boolAt k.pend 8 + (if k.pend then k.newMode else k.lmode), s)
  else if r = 0x041 then (k.gpwr * 2 ^ 24 + k.gceil * 2 ^ 16 + k.profile, s)
  else if r = 0x042 then (k.gate * 2 ^ 32 + boolAt k.gateEn 16 + k.idleus, s)
  else if r = 0x048 then (k.serpt.toNat, s.setCluster u (fun k => { k with serpt := BitVec.ofNat 64 (bitsAt k.serpt.toNat 63 48) }))
  else (k.ramp.getD (r - 0x044) 0, s)
/-- An entry of the custom table as it is stored. -/
def rampEntry (e : Nat) : Nat := min (field e 8 3) 4 * 2 ^ 8 + clampTo 1 128 (e % 2 ^ 8)
def writeCluster (s : State) (u r v : Nat) : State :=
  let set (f : Cluster → Cluster) : State := s.setCluster u f
  if r = 0x040 then set (fun k => k.setLmode (v % 4))
  else if r = 0x041 then set (fun k => { k with gceil := if field v 16 5 = 0 ∨ 16 < field v 16 5 then 16 else field v 16 5, profile := v % 4 })
  else if r = 0x042 then set (fun k => { k with gateEn := v.testBit 16, idleus := max 1 (v % 2 ^ 16) })
  else if r = 0x048 then set (fun k => { k with serpt := if v.testBit 63 then k.serpt &&& 0x7FFFFFFFFFFFFFFF#64 else k.serpt })
  else set (fun k => { k with ramp := modAt (fun _ => (List.range 4).foldl (fun n j => n + rampEntry (field v (16 * j) 16) * 2 ^ (16 * j)) 0) (r - 0x044) k.ramp })

/-! ## Die registers and the Fold table (R278, R346, R399) -/

/-- STOP reads as one while a stop that was asked for has not come about; START acts as it is written (R346, R347). -/
def readDie (s : State) (u r : Nat) : Nat :=
  let k := 8 * u + (r - 0x400) / 16
  let c := s.ce k
  let loops (a b : Nat) : Nat := c.i.getD b 0 * 2 ^ 48 + c.l.getD b 0 * 2 ^ 32 + c.i.getD a 0 * 2 ^ 16 + c.l.getD a 0
  if r = 0x300 then 0
  else if !cePresent s k then (if r % 16 = 2 then 4 else 0)
  else match r % 16 with
    | 0 => c.pc.toNat
    | 1 => c.ctx * 2 ^ 32 + c.fev * 2 ^ 16 + boolAt c.stopReq 1
    | 2 => c.lact.toNat * 2 ^ 24 + c.flags.toNat * 2 ^ 16 + c.cause * 2 ^ 8 + c.state
    | 3 => c.faddr.toNat
    | 4 => loops 0 1
    | _ => loops 2 3
def writeDie (s : State) (u r v : Nat) : State :=
  let k := 8 * u + (r - 0x400) / 16
  let c := s.ce k
  if r = 0x300 then s.dbgResume u v
  else if !cePresent s k then s
  else match r % 16 with
    | 0 => if c.state = 1 ∨ c.state = 2 then s else s.setCe k (fun c => { c with pc := BitVec.ofNat 64 (bitsAt v 56 3) })
    | 1 =>
      let s := s.setCe k (fun c => { c with ctx := if 97 ≤ field v 32 7 then 0 else field v 32 7, fev := field v 16 16 })
      let s := if v.testBit 1 then s.ceStop k else s
      if v.testBit 0 then s.ceStart k else s
    | 2 => s.setCe k (fun c => { c with flags := c.flags &&& ~~~(BitVec.ofNat 5 (field v 16 5)) })
    | _ => s
def readFold (s : State) (u r : Nat) : Nat :=
  match s.fold.find? (fun f => f.die == u && f.index == r) with
  | none => 0
  | some f => boolAt f.live 63 + f.decl % 8 * 2 ^ 60 + boolAt f.pkg 59 + f.gen % 16 * 2 ^ 55 + f.pm1 % 256 * 2 ^ 47 + f.arr % 256 * 2 ^ 39 + f.phase % 2 ^ 32

/-! ## Host ports and package-wide host control (R355 to R382) -/

def readPort (s : State) (u r : Nat) : Nat × State :=
  let p : Port := s.ports.getD u {}
  if u = 8 then
    (if r = 0 then s.resetctl else if r = 1 then (boolAt s.pkg.resetDone 0 + boolAt s.pkg.bootFail 1) else s.pkg.bootlr.toNat, s)
  else if r = 0 then (p.lwidth * 2 ^ 32 + boolAt p.up 31 + p.ctx * 2 ^ 16 + p.nvf * 2 ^ 8 + p.modeCfg, s)
  else if r = 1 then (p.tenctl.toNat, s)
  else if r = 2 then (p.ttroot, s)
  else if r = 4 then (p.sigbase, s)
  else if r = 5 then (p.sigprod, s)
  else if r = 6 then (p.sigcons, s)
  else if r = 7 then (p.sigovf, s.setPort u (fun p => { p with sigovf := 0 }))
  else if r = 8 then (p.loghead, s)
  else ((p.log.getD (r - 0x10) 0).toNat, s.setPort u (fun p => { p with log := modAt (fun v => v &&& 0x7FFFFFFFFFFFFFFF#64) (r - 0x10) p.log }))
/-- TENCTL as it is stored; without an identity READY stays clear (R397). -/
def tenctlOf (prov : Bool) (v : Nat) : Nat :=
  (if prov then bitsAt v 63 63 else 0) + bitsAt v 58 52 + bitsAt v 39 28 + min 9 (field v 20 4) * 2 ^ 20 + v % 8
def writePort (s : State) (u r v : Nat) : State :=
  let set (f : Port → Port) : State := s.setPort u f
  if u = 8 then
    if r = 0 then
      if v.testBit 1 then s.keepReset else if v.testBit 0 then s.computeReset else s
    else if r = 2 then s.writeBootlr (BitVec.ofNat 64 v) else s
  else if r = 0 then set (fun p => { p with ctx := field v 16 7, nvf := if v % 4 = 2 then 0 else min 96 (field v 8 7), modeCfg := v % 4 })
  else if r = 1 then set (fun p => { p with tenctl := BitVec.ofNat 64 (tenctlOf s.pkg.prov v) })
  else if r = 2 then set (fun p => { p with ttroot := bitsAt v 47 13 })
  else if r = 4 then set (fun p => { p with sigbase := bitsAt v 39 12 })
  else if r = 6 then set (fun p => { p with sigcons := v % 1024 })
  else s

/-! ## Power and heat, security and capability (R385 to R398) -/

def readPower (s : State) (u r : Nat) : Nat × State :=
  let p := s.pkg
  if u < 64 then
    let i : Island := s.islands.getD u {}
    (i.thrgrp * 2 ^ 48 + i.late * 2 ^ 40 + i.fcap * 2 ^ 16 + i.freq, { s with islands := modAt (fun (i : Island) => { i with late := 0 }) u s.islands })
  else if r = 0 then (p.coolin * 2 ^ 48 + boolAt p.boost 32 + p.boostw * 2 ^ 16 + p.sustw, s)
  else if r = 1 then (p.capw * 2 ^ 48 + p.pw * 2 ^ 32 + boolAt (p.capw == p.boostw) 31 + p.bucket / 1000, s)
  else if r = 3 then (p.refctl, s)
  else if r = 4 then (p.t2prot, s)
  else if 0x10 ≤ r then ((match s.hbm[r - 0x10]? with | some h => h.temp.toNat * 2 ^ 32 + h.level | none => 0), s)
  else (0, s)
/-- A write of block 5; none for a THRANN out of range (R388). -/
def writePower (s : State) (u r v : Nat) : Option State :=
  if u < 64 then some (s.setIsland u (fun i => { i with thrgrp := field v 48 16, freq := clampTo 400 1800 (v % 2 ^ 11) }))
  else if r = 0 then some { s with pkg := { s.pkg with coolin := field v 48 8, boost := v.testBit 32, boostw := clampTo 8000 10000 (field v 16 16) } }
  else if r = 2 then
    if capOk (field v 32 11) (field v 24 5) then some (s.makeAnnouncement (field v 48 16) (field v 32 11) (field v 24 5)) else none
  else if r = 3 then some { s with pkg := { s.pkg with refctl := if v % 4 = 3 then 0 else v % 4 } }
  else if r = 4 then some { s with pkg := { s.pkg with t2prot := v % 2 } }
  else some s
def readSec (s : State) (r : Nat) : Nat :=
  if r = 0x400 then s.pkg.svn.toNat * 2 ^ 32 + boolAt s.pkg.prov 3 + boolAt s.pkg.kekv 2 + s.pkg.alarm
  else if r = 0x410 then s.pkg.attbuf.toNat
  else if r = 0x411 then 0
  else (s.cap r).toNat
def writeSec (s : State) (r v : Nat) : State :=
  if r = 0x410 then { s with pkg := { s.pkg with attbuf := BitVec.ofNat 64 v } } else if r = 0x411 then s.attest v else s

/-! ## The fabric (R402 to R405) -/

def readFabric (s : State) (u r : Nat) : Nat × State :=
  if u = 0 then
    if r = 0 then (s.pkg.nodecfg.toNat, s)
    else if r = 1 then
      (s.pkg.sigdrop * 2 ^ 48 + s.pkg.wfault * 2 ^ 32 + s.pkg.cbad * 2 ^ 16 + boolAt s.pkg.sync 0, { s with pkg := { s.pkg with sigdrop := 0, wfault := 0, cbad := 0 } })
    else ((Amap.get 0 s.pkg.routes (r - 0x1000)).toNat, s)
  else
    let l : Link := s.links.getD (u - 1) {}
    (l.retry * 2 ^ 48 + l.peer * 2 ^ 32 + l.width, s.setLink (u - 1) (fun l => { l with retry := 0 }))
/-- NODECFG as it is stored: NODEID and DMAX stand while a link is up (R402). -/
def nodecfgOf (s : State) (v : Nat) : Nat :=
  let w := if upLinks s = 0 then v else s.pkg.nodecfg.toNat
  bitsAt w 45 32 + bitsAt w 13 0 + bitsAt v 29 21
def writeFabric (s : State) (u r v : Nat) : State :=
  if u = 0 ∧ r = 0 then { s with pkg := { s.pkg with nodecfg := BitVec.ofNat 64 (nodecfgOf s v) } }
  else if u = 0 ∧ 0x1000 ≤ r then { s with pkg := { s.pkg with routes := Amap.set 0 s.pkg.routes (r - 0x1000) (BitVec.ofNat 64 (v % 2 ^ 36)) } }
  else s

/-! ## One register by its index -/

/-- The value a register reads, and the state after its RC fields have been read; none where there is no such register. -/
def readReg (s : State) (i : Nat) : Option (Nat × State) :=
  if !regExists i then none
  else
    let u := unitOf i
    let r := regOf i
    match blockOf i with
    | 0 => some (readCtx s u r)
    | 1 => some (readCluster s u r)
    | 2 => some (readDie s u r, s)
    | 3 => some (readFold s u r, s)
    | 4 => some (readPort s u r)
    | 5 => some (readPower s u r)
    | 6 => some (readSec s r, s)
    | _ => some (readFabric s u r)
/-- A write of a register; none where there is no such register, or the write may not be made: ILLOP (R307). -/
def writeReg (s : State) (i v : Nat) : Option State :=
  if !regExists i then none
  else
    let u := unitOf i
    let r := regOf i
    match blockOf i with
    | 0 => some (writeCtx s u r v)
    | 1 => some (writeCluster s u r v)
    | 2 => some (writeDie s u r v)
    | 3 => none
    | 4 => some (writePort s u r v)
    | 5 => writePower s u r v
    | 6 => some (writeSec s r v)
    | _ => some (writeFabric s u r v)
/-- A write that asks for a keep-domain reset waits until every host request received has been answered (R375). -/
def writeWaits (s : State) (i v : Nat) : Bool :=
  blockOf i == 4 && unitOf i == 8 && regOf i == 0 && v.testBit 1 && s.hostReqs.any (fun r => r.held != 3)

/-- The value that a context's MTSP writes: RESETCTL[1] is context 0's to write (R375). -/
def mtspVal (ctx i v : Nat) : Nat := if blockOf i = 4 ∧ unitOf i = 8 ∧ regOf i = 0 ∧ ctx ≠ 0 then v - bitsAt v 1 1 else v
/-- MTSP (R307). -/
def oMtsp (x : Issue) : Out :=
  let p := x.opX; let q := x.opY
  let i := (p.at64 0).toNat
  let v := mtspVal x.g.ctx i (q.at64 0).toNat
  let bad := x.a.d != 0#9 || decide (2 ^ 32 ≤ i) || (writeReg x.s i v).isNone
  Out.ofSrcs x [p, q]
    { causes := needUni x p ++ needUni x q ++ (if bad && p.uni && q.uni then [x.ill] else []), hold := p.uni && q.uni && !bad && writeWaits x.s i v,
      eff := fun s => (writeReg s i v).getD s }
/-- MFSP (R307). -/
def oMfsp (x : Issue) : Out :=
  let p := x.opX
  let i := (p.at64 0).toNat
  let bad := decide (2 ^ 32 ≤ i) || (readReg x.s i).isNone
  let v := match readReg x.s i with | some r => r.1 | none => 0
  Out.ofSrcs x [p]
    { causes := needUni x p ++ (if bad && p.uni then [x.ill] else []), writes := x.put64 true (fun _ => BitVec.ofNat 64 v),
      eff := fun s => match readReg s i with | some r => r.2 | none => s }
/-- REGISTER_WRITE (R306): a write that Finat or a host makes of a register, under its access codes. -/
def execRegisterWrite (index value : Nat) (s : State) : Host.Outcome State Fault Refusal :=
  if writeWaits s index (value % 2 ^ 64) then .next s else .next ((writeReg s index (value % 2 ^ 64)).getD s)
/-- MTSP (R307). -/
def execMtsp (a : RArgs) (s : State) : Host.Outcome State Fault Refusal := runIssue s (.mtsp a) oMtsp
/-- MFSP (R307). -/
def execMfsp (a : RArgs) (s : State) : Host.Outcome State Fault Refusal := runIssue s (.mfsp a) oMfsp

end Sys2Proof.Machine
end

