-- ==== Sys2Proof/Machine/Clock.lean ====
section
/-! DEFINITION. Time (R248, R249): ticks of BWCLK, and the FCLK and LCLK cycles of each cluster that begin in them, and the
moves the machine may make next. -/

namespace Sys2Proof.Machine

/-- LCLK cycles of n FCLK cycles from cycle `f` on (R248): half mode has one for every second FCLK, double mode two for each. -/
def lclkOf (lmode f n : Nat) : Nat := if lmode = 0 then (f + n) / 2 - f / 2 else if lmode = 2 then 2 * n else n
/-- One FCLK cycle of a cluster, and the LCLK cycles that begin in it; LCLK stops through a relock (R250). -/
def Cluster.cycle (k : Cluster) : Cluster :=
  { k with fclk := k.fclk + 1, owed := k.owed - 1, lclk := k.lclk + if k.pend && !k.draining then 0 else lclkOf k.lmode k.fclk 1 }
/-- A tick of BWCLK begins for a cluster: the FCLK cycles that begin in it are owed. FCLK stops while the cluster is OFF (R265). -/
def Cluster.begin (k : Cluster) : Cluster :=
  if k.gate = 3 then k else { k with facc := (k.facc + k.fmhz) % 1000, owed := k.owed + (k.facc + k.fmhz) / 1000 }
/-- A flip that a warp waits for in WAITPH, in an FCLK cycle before the one that begins, releases it (R160, R161). -/
def State.phaseWaiters (s : State) (cs : List Nat) : State :=
  s.groups.foldl (fun s g =>
    if cs.contains (clusterOf g.core) then
      g.warps.foldl (fun s w => match w.wait with
        | .waitph r k ph => (match (s.team g.team).ring r with
          | some q => if (q.stages.getD k {}).phase = ph then s.release g.gid w.wid else s
          | none => s)
        | _ => s) s
    else s) s
/-- An FCLK cycle begins in the clusters `cs`: what their groups, rings and granules hold now is what instructions of the cycle read (R58, R99,
R128, R137, R161, R211). -/
def State.startCycle (s : State) (cs : List Nat) : State :=
  let s := s.phaseWaiters cs
  { s with
    groups := s.groups.map (fun g => if cs.contains (clusterOf g.core) then g.startCycle else g),
    teams := s.teams.map (fun t => if cs.contains (clusterOf t.core) then
      { t with fullWas := t.full, rings := t.rings.map (fun r => (r.1, { r.2 with stages := r.2.stages.map (fun k => { k with was := k.phase }) })),
               barriers := t.barriers.map (fun b => (b.1, { b.2 with full := b.2.cnt != 0 && decide (b.2.exp ≤ b.2.cnt) })) } else t) }
/-- The clusters that owe an FCLK cycle. -/
def State.owing (s : State) : List Nat := (List.range s.clusters.length).filter (fun k => (s.cluster k).owed != 0)
/-- Time passes: an FCLK cycle that is owed begins in each cluster that owes one, or else BWCLK ticks; the clusters stop through a compute
reset (R248, R249, R374). EVDONE and the completions of host writes, which wait for a value of BWCLK, are made with the tick (R302, R315). -/
def State.tick (s : State) : State :=
  let cs := if s.l2Off then [] else s.owing
  if cs.isEmpty then
    ({ s with bw := s.bw + 1, served := [], clusters := if s.l2Off then s.clusters else s.clusters.map Cluster.begin }).postDone.ackHosts
  else { s.startCycle cs with served := [], clusters := s.clusters.map (fun k => if k.owed = 0 then k else k.cycle) }
/-- What may come next: a warp issues, an engine performs a word, time passes, a cache replaces an entry, or a step of the table comes about. Which, and with
what arguments, is a free value; a step whose condition does not hold changes nothing. -/
def moves (s : State) : List Move :=
  s.groups.flatMap (fun g => g.warps.map (fun w => .issue { gid := g.gid, wid := w.wid }))
    ++ ((List.range 64).filter (fun k => ceIdleRun (s.ce k))).map (fun k => .engine (k / 8) (k % 8))
    ++ [.l1, .icache, .tlb, .walk, .l2].map (fun c => .replace c (Config.freeWord s.choice).toNat)
    ++ [.tick, .corrected (Config.freeWord s.choice).toNat (Config.freeWord (s.choice + 1)).toNat (Config.freeWord (s.choice + 2)).toNat,
      .retried ((Config.freeWord s.choice).toNat % 36),
      .ahead ((Config.freeWord s.choice).toNat % 8) ((Config.freeWord (s.choice + 1)).toNat % 8) (Config.freeWord (s.choice + 2)).toNat,
      .event (Config.freeEvent s.choice)]
/-- The next move: the first of the agenda, or a free choice. -/
def nextMove (s : State) : Move × State :=
  match s.agenda with
  | m :: rest => (m, { s with agenda := rest })
  | [] => let ms := moves s; (ms.getD (Config.freeChoice s.choice % ms.length) .tick, { s with choice := s.choice + 1 })
/-- An instruction of the table that is a step of the machine, not a word. -/
def isEvent (i : Instr) : Bool := (info i).space == .event

end Sys2Proof.Machine
end

