-- ==== Sys2Proof/Machine/Limb.lean ====
section
/-! DEFINITION. Long integers: BIND, UNBIND, and LADD to LMAD (R163 to R166). -/

namespace Sys2Proof.Machine

def limbCause (m : Mask) (k : Nat) : Cause := { stage := 2, code := cLIMBDIV, tfm := m, tinfo := k }
/-- Entries of the group, without the one a handler interrupted, and whether any is parked (R163). -/
def entryCount (g : Group) : Nat := (g.warps.flatMap (fun w => w.entries)).length - (if g.inHandler then 1 else 0)

def oBind (x : Issue) : Out :=
  let n := match x.a with | .i a => a.imm.toNat % 8 | _ => 0
  let bad := decide (1 < entryCount x.g) || x.g.warps.any (fun w => w.parked) || x.e.mask != x.g.all
    || decide (x.g.width % 2 ^ n ≠ 0)
  { causes := if bad then [limbCause x.e.mask 0] else [],
    eff := fun s => s.setGroup x.g.gid (fun g => { g with limb := BitVec.ofNat 32 (256 + n) }) }
def oUnbind (x : Issue) : Out := { eff := fun s => s.setGroup x.g.gid (fun g => { g with limb := 0 }) }

/-- Limbs of an integer of the group. -/
def limbL (x : Issue) : Nat := 2 ^ (x.g.limb.toNat % 8)
/-- The whole integer that holds lane `l`. -/
def limbInt (x : Issue) (p : Opr) (l : Nat) : Nat :=
  let b := l / limbL x * limbL x
  (List.range (limbL x)).foldl (fun v i => v + (p.at32 (b + i)).toNat * 2 ^ (32 * i)) 0
/-- The causes every limb instruction raises (R164). -/
def limbChecks (x : Issue) : List Cause :=
  if !x.g.limb.getLsbD 8 then [limbCause x.e.mask 3]
  else if x.a.cond ≠ 0 then [limbCause x.e.mask 2]
  else
    let part := Mask.where_ (fun l => Mask.has x.e.mask l &&
      (List.range (limbL x)).any (fun i => !Mask.has x.e.mask (l / limbL x * limbL x + i)))
    if part = 0 then [] else [limbCause part 2]

/-- A limb instruction: the whole result of lane `l`'s integer with its codes, and the carry out of limb `i`. -/
def limbOut (x : Issue) (srcs : List Opr) (cs : List Cause) (f : Nat → CC) (carry : Nat → Nat → Bool) : Out :=
  let L := limbL x
  let top (l : Nat) : Bool := l % L == L - 1
  lateOut x 1 srcs
    { causes := limbChecks x ++ cs,
      writes := x.put32 .z none (fun l => BitVec.ofNat 32 ((f l).r / 2 ^ (32 * (l % L))))
        ++ x.putCC (fun l => if top l then (f l).c else carry l (l % L)) (fun l => (f l).z) (fun l => (f l).n)
             (fun l => top l && (f l).v) }

def limbTop (x : Issue) (l : Nat) : Bool := Mask.has x.g.c (l / limbL x * limbL x + limbL x - 1)
/-- Addition of integers with a carry in. -/
def limbAdd (x : Issue) (cin : Nat → Nat) : Out :=
  let p := x.opX; let q := x.opY
  let a (l : Nat) := limbInt x p l
  let b (l : Nat) := limbInt x q l
  limbOut x [p, q] [] (fun l => addCC (a l) (b l) (cin l) (32 * limbL x))
    (fun l i => decide (2 ^ (32 * (i + 1)) ≤ a l % 2 ^ (32 * (i + 1)) + b l % 2 ^ (32 * (i + 1)) + cin l))
/-- Subtraction with a borrow in, of the values `a` and `b`. -/
def limbSub (x : Issue) (srcs : List Opr) (a b bin : Nat → Nat) (val : Nat → Nat → Nat → Nat) : Out :=
  limbOut x srcs [] (fun l => let k := subCC (a l) (b l) (bin l) (32 * limbL x); k.value (val (a l) (b l) k.r))
    (fun l i => decide (b l % 2 ^ (32 * (i + 1)) + bin l ≤ a l % 2 ^ (32 * (i + 1))))
def keepR (_ _ r : Nat) : Nat := r
def oLadd (x : Issue) : Out := limbAdd x (fun _ => 0)
def oLadc (x : Issue) : Out := limbAdd x (fun l => if limbTop x l then 1 else 0)
def oLsub (x : Issue) : Out :=
  let p := x.opX; let q := x.opY
  limbSub x [p, q] (limbInt x p) (limbInt x q) (fun _ => 0) keepR
def oLsbc (x : Issue) : Out :=
  let p := x.opX; let q := x.opY
  limbSub x [p, q] (limbInt x p) (limbInt x q) (fun l => if limbTop x l then 0 else 1) keepR
def oLneg (x : Issue) : Out :=
  let p := x.opX
  limbSub x [p] (fun _ => 0) (limbInt x p) (fun _ => 0) keepR
/-- LCMP writes −1, 0 or 1 in every limb lane (R165). -/
def oLcmp (x : Issue) : Out :=
  let p := x.opX; let q := x.opY
  let n := 32 * limbL x
  let rep (w : Nat) : Nat := (List.range (limbL x)).foldl (fun v i => v + w * 2 ^ (32 * i)) 0
  let lt (a b : Nat) : Bool := if x.mb 0 then decide (a < b) else decide (sInt a n < sInt b n)
  limbSub x [p, q] (limbInt x p) (limbInt x q) (fun _ => 0)
    (fun a b _ => if a = b then 0 else if lt a b then rep 0xFFFFFFFF else rep 1)
/-- A shift by the uniform amount of Y. -/
def limbShift (x : Issue) (f : Nat → Nat → Nat → Nat) : Out :=
  let p := x.opX; let q := x.opY
  let n := 32 * limbL x
  limbOut x [p, q] (needUni x q) (fun l => logicCC (f n (limbInt x p l) (q.at32 0).toNat) n) (fun _ _ => false)
def oLshl (x : Issue) : Out := limbShift x (fun n v k => if k < n then v * 2 ^ k else 0)
def oLshr (x : Issue) : Out := limbShift x (fun n v k => if k < n then v / 2 ^ k else 0)
def oLsar (x : Issue) : Out := limbShift x (fun n v k => truncI n (sInt v n / (2 ^ min k (n - 1) : Int)))
/-- LMAD: X × u + Z, or with HI what passes the integer's width (R165). -/
def oLmad (x : Issue) : Out :=
  let p := x.opX; let q := x.opY; let r := x.opZ
  let n := 32 * limbL x
  let full (l : Nat) : Nat := limbInt x p l * (q.at32 0).toNat + limbInt x r l
  limbOut x [p, q, r] (needUni x q)
    (fun l => if x.mb 0 then logicCC (full l / 2 ^ n) n else { logicCC (full l) n with c := decide (2 ^ n ≤ full l) })
    (fun _ _ => false)

/-- BIND (R163). -/
def execBind (a : IArgs) (s : State) : Host.Outcome State Fault Refusal := runIssue s (.bind a) oBind
/-- UNBIND (R163). -/
def execUnbind (a : RArgs) (s : State) : Host.Outcome State Fault Refusal := runIssue s (.unbind a) oUnbind
/-- LADD (R165). -/
def execLadd (a : RArgs) (s : State) : Host.Outcome State Fault Refusal := runIssue s (.ladd a) oLadd
/-- LADC (R165). -/
def execLadc (a : RArgs) (s : State) : Host.Outcome State Fault Refusal := runIssue s (.ladc a) oLadc
/-- LSUB (R165). -/
def execLsub (a : RArgs) (s : State) : Host.Outcome State Fault Refusal := runIssue s (.lsub a) oLsub
/-- LSBC (R165). -/
def execLsbc (a : RArgs) (s : State) : Host.Outcome State Fault Refusal := runIssue s (.lsbc a) oLsbc
/-- LNEG (R165). -/
def execLneg (a : RArgs) (s : State) : Host.Outcome State Fault Refusal := runIssue s (.lneg a) oLneg
/-- LCMP (R165). -/
def execLcmp (a : RArgs) (s : State) : Host.Outcome State Fault Refusal := runIssue s (.lcmp a) oLcmp
/-- LSHL (R165). -/
def execLshl (a : RArgs) (s : State) : Host.Outcome State Fault Refusal := runIssue s (.lshl a) oLshl
/-- LSHR (R165). -/
def execLshr (a : RArgs) (s : State) : Host.Outcome State Fault Refusal := runIssue s (.lshr a) oLshr
/-- LSAR (R165). -/
def execLsar (a : RArgs) (s : State) : Host.Outcome State Fault Refusal := runIssue s (.lsar a) oLsar
/-- LMAD (R165). -/
def execLmad (a : RArgs) (s : State) : Host.Outcome State Fault Refusal := runIssue s (.lmad a) oLmad

end Sys2Proof.Machine
end

