-- ==== Sys2Proof/Machine/Dispatch.lean ====
section
/-! DEFINITION. What each instruction does: one arm for each constructor, one direct call of its meaning. -/

namespace Sys2Proof.Machine

def exec (i : Instr) (s : State) : Host.Outcome State Fault Refusal :=
  match i with
  | .iadd a => Sys2Proof.Machine.execIadd a s
  | .iaddImm a => Sys2Proof.Machine.execIaddImm a s
  | .isub a => Sys2Proof.Machine.execIsub a s
  | .isubImm a => Sys2Proof.Machine.execIsubImm a s
  | .iadc a => Sys2Proof.Machine.execIadc a s
  | .iadcImm a => Sys2Proof.Machine.execIadcImm a s
  | .isbc a => Sys2Proof.Machine.execIsbc a s
  | .isbcImm a => Sys2Proof.Machine.execIsbcImm a s
  | .ineg a => Sys2Proof.Machine.execIneg a s
  | .inegImm a => Sys2Proof.Machine.execInegImm a s
  | .iabs a => Sys2Proof.Machine.execIabs a s
  | .iabsImm a => Sys2Proof.Machine.execIabsImm a s
  | .imin a => Sys2Proof.Machine.execImin a s
  | .iminImm a => Sys2Proof.Machine.execIminImm a s
  | .imax a => Sys2Proof.Machine.execImax a s
  | .imaxImm a => Sys2Proof.Machine.execImaxImm a s
  | .imul a => Sys2Proof.Machine.execImul a s
  | .imulImm a => Sys2Proof.Machine.execImulImm a s
  | .imulh a => Sys2Proof.Machine.execImulh a s
  | .imulhImm a => Sys2Proof.Machine.execImulhImm a s
  | .imad a => Sys2Proof.Machine.execImad a s
  | .imadImm a => Sys2Proof.Machine.execImadImm a s
  | .imadw a => Sys2Proof.Machine.execImadw a s
  | .imadwImm a => Sys2Proof.Machine.execImadwImm a s
  | .icmp a => Sys2Proof.Machine.execIcmp a s
  | .icmpImm a => Sys2Proof.Machine.execIcmpImm a s
  | .isat a => Sys2Proof.Machine.execIsat a s
  | .isatImm a => Sys2Proof.Machine.execIsatImm a s
  | .iadd64 a => Sys2Proof.Machine.execIadd64 a s
  | .iadd64Imm a => Sys2Proof.Machine.execIadd64Imm a s
  | .isub64 a => Sys2Proof.Machine.execIsub64 a s
  | .isub64Imm a => Sys2Proof.Machine.execIsub64Imm a s
  | .icmp64 a => Sys2Proof.Machine.execIcmp64 a s
  | .icmp64Imm a => Sys2Proof.Machine.execIcmp64Imm a s
  | .lea a => Sys2Proof.Machine.execLea a s
  | .leaImm a => Sys2Proof.Machine.execLeaImm a s
  | .lea64 a => Sys2Proof.Machine.execLea64 a s
  | .andL a => Sys2Proof.Machine.execAndL a s
  | .andLImm a => Sys2Proof.Machine.execAndLImm a s
  | .orL a => Sys2Proof.Machine.execOrL a s
  | .orLImm a => Sys2Proof.Machine.execOrLImm a s
  | .xorL a => Sys2Proof.Machine.execXorL a s
  | .xorLImm a => Sys2Proof.Machine.execXorLImm a s
  | .notL a => Sys2Proof.Machine.execNotL a s
  | .notLImm a => Sys2Proof.Machine.execNotLImm a s
  | .lut3 a => Sys2Proof.Machine.execLut3 a s
  | .lut3Imm a => Sys2Proof.Machine.execLut3Imm a s
  | .shl a => Sys2Proof.Machine.execShl a s
  | .shlImm a => Sys2Proof.Machine.execShlImm a s
  | .shr a => Sys2Proof.Machine.execShr a s
  | .shrImm a => Sys2Proof.Machine.execShrImm a s
  | .sar a => Sys2Proof.Machine.execSar a s
  | .sarImm a => Sys2Proof.Machine.execSarImm a s
  | .rot a => Sys2Proof.Machine.execRot a s
  | .rotImm a => Sys2Proof.Machine.execRotImm a s
  | .fshl a => Sys2Proof.Machine.execFshl a s
  | .fshlImm a => Sys2Proof.Machine.execFshlImm a s
  | .fshr a => Sys2Proof.Machine.execFshr a s
  | .fshrImm a => Sys2Proof.Machine.execFshrImm a s
  | .popc a => Sys2Proof.Machine.execPopc a s
  | .clz a => Sys2Proof.Machine.execClz a s
  | .ctz a => Sys2Proof.Machine.execCtz a s
  | .brev a => Sys2Proof.Machine.execBrev a s
  | .bfx a => Sys2Proof.Machine.execBfx a s
  | .bfi a => Sys2Proof.Machine.execBfi a s
  | .prmb a => Sys2Proof.Machine.execPrmb a s
  | .sel a => Sys2Proof.Machine.execSel a s
  | .mov a => Sys2Proof.Machine.execMov a s
  | .movi a => Sys2Proof.Machine.execMovi a s
  | .movhi a => Sys2Proof.Machine.execMovhi a s
  | .sxt a => Sys2Proof.Machine.execSxt a s
  | .zxt a => Sys2Proof.Machine.execZxt a s
  | .mfs a => Sys2Proof.Machine.execMfs a s
  | .mts a => Sys2Proof.Machine.execMts a s
  | .ccrd a => Sys2Proof.Machine.execCcrd a s
  | .ccwr a => Sys2Proof.Machine.execCcwr a s
  | .fadd a => Sys2Proof.Machine.execFadd a s
  | .fsub a => Sys2Proof.Machine.execFsub a s
  | .fmul a => Sys2Proof.Machine.execFmul a s
  | .ffma a => Sys2Proof.Machine.execFfma a s
  | .fmin a => Sys2Proof.Machine.execFmin a s
  | .fmax a => Sys2Proof.Machine.execFmax a s
  | .fcmp a => Sys2Proof.Machine.execFcmp a s
  | .fclass a => Sys2Proof.Machine.execFclass a s
  | .frnd a => Sys2Proof.Machine.execFrnd a s
  | .hadd2 a => Sys2Proof.Machine.execHadd2 a s
  | .hmul2 a => Sys2Proof.Machine.execHmul2 a s
  | .hfma2 a => Sys2Proof.Machine.execHfma2 a s
  | .badd2 a => Sys2Proof.Machine.execBadd2 a s
  | .bmul2 a => Sys2Proof.Machine.execBmul2 a s
  | .bfma2 a => Sys2Proof.Machine.execBfma2 a s
  | .frcp a => Sys2Proof.Machine.execFrcp a s
  | .frsq a => Sys2Proof.Machine.execFrsq a s
  | .fsqrt a => Sys2Proof.Machine.execFsqrt a s
  | .fexp2 a => Sys2Proof.Machine.execFexp2 a s
  | .flog2 a => Sys2Proof.Machine.execFlog2 a s
  | .fsin a => Sys2Proof.Machine.execFsin a s
  | .fcos a => Sys2Proof.Machine.execFcos a s
  | .ftanh a => Sys2Proof.Machine.execFtanh a s
  | .fdiv a => Sys2Proof.Machine.execFdiv a s
  | .fcvt a => Sys2Proof.Machine.execFcvt a s
  | .icvt a => Sys2Proof.Machine.execIcvt a s
  | .ficvt a => Sys2Proof.Machine.execFicvt a s
  | .pack a => Sys2Proof.Machine.execPack a s
  | .unpk a => Sys2Proof.Machine.execUnpk a s
  | .amaxrd a => Sys2Proof.Machine.execAmaxrd a s
  | .amaxclr a => Sys2Proof.Machine.execAmaxclr a s
  | .br a => Sys2Proof.Machine.execBr a s
  | .brx a => Sys2Proof.Machine.execBrx a s
  | .call a => Sys2Proof.Machine.execCall a s
  | .callx a => Sys2Proof.Machine.execCallx a s
  | .ret a => Sys2Proof.Machine.execRet a s
  | .exitI a => Sys2Proof.Machine.execExitI a s
  | .yieldI a => Sys2Proof.Machine.execYieldI a s
  | .nop a => Sys2Proof.Machine.execNop a s
  | .rep a => Sys2Proof.Machine.execRep a s
  | .trapI a => Sys2Proof.Machine.execTrapI a s
  | .bkpt a => Sys2Proof.Machine.execBkpt a s
  | .rtt a => Sys2Proof.Machine.execRtt a s
  | .waitdc a => Sys2Proof.Machine.execWaitdc a s
  | .shfl a => Sys2Proof.Machine.execShfl a s
  | .vote a => Sys2Proof.Machine.execVote a s
  | .matchI a => Sys2Proof.Machine.execMatchI a s
  | .bcast a => Sys2Proof.Machine.execBcast a s
  | .red a => Sys2Proof.Machine.execRed a s
  | .scan a => Sys2Proof.Machine.execScan a s
  | .xrd a => Sys2Proof.Machine.execXrd a s
  | .lnrd a => Sys2Proof.Machine.execLnrd a s
  | .lnwr a => Sys2Proof.Machine.execLnwr a s
  | .bar a => Sys2Proof.Machine.execBar a s
  | .arrive a => Sys2Proof.Machine.execArrive a s
  | .waitph a => Sys2Proof.Machine.execWaitph a s
  | .cbar a => Sys2Proof.Machine.execCbar a s
  | .evwait a => Sys2Proof.Machine.execEvwait a s
  | .evpost a => Sys2Proof.Machine.execEvpost a s
  | .bind a => Sys2Proof.Machine.execBind a s
  | .unbind a => Sys2Proof.Machine.execUnbind a s
  | .ladd a => Sys2Proof.Machine.execLadd a s
  | .ladc a => Sys2Proof.Machine.execLadc a s
  | .lsub a => Sys2Proof.Machine.execLsub a s
  | .lsbc a => Sys2Proof.Machine.execLsbc a s
  | .lneg a => Sys2Proof.Machine.execLneg a s
  | .lcmp a => Sys2Proof.Machine.execLcmp a s
  | .lshl a => Sys2Proof.Machine.execLshl a s
  | .lshr a => Sys2Proof.Machine.execLshr a s
  | .lsar a => Sys2Proof.Machine.execLsar a s
  | .lmad a => Sys2Proof.Machine.execLmad a s
  | .pldi a => Sys2Proof.Machine.execPldi a s
  | .plds a => Sys2Proof.Machine.execPlds a s
  | .psti a => Sys2Proof.Machine.execPsti a s
  | .psts a => Sys2Proof.Machine.execPsts a s
  | .pcomp a => Sys2Proof.Machine.execPcomp a s
  | .pinv a => Sys2Proof.Machine.execPinv a s
  | .prand a => Sys2Proof.Machine.execPrand a s
  | .pidn a => Sys2Proof.Machine.execPidn a s
  | .papply a => Sys2Proof.Machine.execPapply a s
  | .pcyc a => Sys2Proof.Machine.execPcyc a s
  | .gang a => Sys2Proof.Machine.execGang a s
  | .mma a => Sys2Proof.Machine.execMma a s
  | .aclr a => Sys2Proof.Machine.execAclr a s
  | .ald a => Sys2Proof.Machine.execAld a s
  | .ast a => Sys2Proof.Machine.execAst a s
  | .amov a => Sys2Proof.Machine.execAmov a s
  | .mxrd a => Sys2Proof.Machine.execMxrd a s
  | .mxclr a => Sys2Proof.Machine.execMxclr a s
  | .tfetch a => Sys2Proof.Machine.execTfetch a s
  | .ld a => Sys2Proof.Machine.execLd a s
  | .st a => Sys2Proof.Machine.execSt a s
  | .lde a => Sys2Proof.Machine.execLde a s
  | .ste a => Sys2Proof.Machine.execSte a s
  | .ldl a => Sys2Proof.Machine.execLdl a s
  | .stl a => Sys2Proof.Machine.execStl a s
  | .ldf a => Sys2Proof.Machine.execLdf a s
  | .stf a => Sys2Proof.Machine.execStf a s
  | .ldw a => Sys2Proof.Machine.execLdw a s
  | .atom a => Sys2Proof.Machine.execAtom a s
  | .atoml a => Sys2Proof.Machine.execAtoml a s
  | .redm a => Sys2Proof.Machine.execRedm a s
  | .pref a => Sys2Proof.Machine.execPref a s
  | .fence a => Sys2Proof.Machine.execFence a s
  | .cpub a => Sys2Proof.Machine.execCpub a s
  | .qfence a => Sys2Proof.Machine.execQfence a s
  | .phase a => Sys2Proof.Machine.execPhase a s
  | .objdecl a => Sys2Proof.Machine.execObjdecl a s
  | .objrel a => Sys2Proof.Machine.execObjrel a s
  | .place a => Sys2Proof.Machine.execPlace a s
  | .placew a => Sys2Proof.Machine.execPlacew a s
  | .copy a => Sys2Proof.Machine.execCopy a s
  | .copyg a => Sys2Proof.Machine.execCopyg a s
  | .copys a => Sys2Proof.Machine.execCopys a s
  | .fill a => Sys2Proof.Machine.execFill a s
  | .bankcfg a => Sys2Proof.Machine.execBankcfg a s
  | .pwrhint a => Sys2Proof.Machine.execPwrhint a s
  | .sleep a => Sys2Proof.Machine.execSleep a s
  | .signal a => Sys2Proof.Machine.execSignal a s
  | .launch a => Sys2Proof.Machine.execLaunch a s
  | .spawn a => Sys2Proof.Machine.execSpawn a s
  | .tlbinv a => Sys2Proof.Machine.execTlbinv a s
  | .cflush a => Sys2Proof.Machine.execCflush a s
  | .ctxsave a => Sys2Proof.Machine.execCtxsave a s
  | .ctxload a => Sys2Proof.Machine.execCtxload a s
  | .mtsp a => Sys2Proof.Machine.execMtsp a s
  | .mfsp a => Sys2Proof.Machine.execMfsp a s
  | .halt a => Sys2Proof.Machine.execHalt a s
  | .xcopy step c cl ra => Sys2Proof.Machine.execXcopy step c cl ra s
  | .xgath step c cl ra idx => Sys2Proof.Machine.execXgath step c cl ra idx s
  | .xwait dec v ev => Sys2Proof.Machine.execXwait dec v ev s
  | .xsig clr y ev => Sys2Proof.Machine.execXsig clr y ev s
  | .xloop c n off => Sys2Proof.Machine.execXloop c n off s
  | .xjmp off => Sys2Proof.Machine.execXjmp off s
  | .xplace pin tier ra => Sys2Proof.Machine.execXplace pin tier ra s
  | .xstrm ra => Sys2Proof.Machine.execXstrm ra s
  | .xfence => Sys2Proof.Machine.execXfence s
  | .xend post ev => Sys2Proof.Machine.execXend post ev s
  | .clauseStart gid wid => Sys2Proof.Machine.execClauseStart gid wid s
  | .rfMerge gid wid => Sys2Proof.Machine.execRfMerge gid wid s
  | .lookaheadResult gid wid rid => Sys2Proof.Machine.execLookaheadResult gid wid rid s
  | .groupActivate gid => Sys2Proof.Machine.execGroupActivate gid s
  | .groupIdleTimeout gid => Sys2Proof.Machine.execGroupIdleTimeout gid s
  | .collectorDispatch core => Sys2Proof.Machine.execCollectorDispatch core s
  | .uncorrectableError kind site arg lanes => Sys2Proof.Machine.execUncorrectableError kind site arg lanes s
  | .barrierArrival gid => Sys2Proof.Machine.execBarrierArrival gid s
  | .barrierRelease team b => Sys2Proof.Machine.execBarrierRelease team b s
  | .arrivalApply gid => Sys2Proof.Machine.execArrivalApply gid s
  | .crookStart core => Sys2Proof.Machine.execCrookStart core s
  | .crookComplete core => Sys2Proof.Machine.execCrookComplete core s
  | .hurdleRelease gid => Sys2Proof.Machine.execHurdleRelease gid s
  | .limiterStep cluster => Sys2Proof.Machine.execLimiterStep cluster s
  | .mmaOccupancyStart core => Sys2Proof.Machine.execMmaOccupancyStart core s
  | .mmaComplete core => Sys2Proof.Machine.execMmaComplete core s
  | .fallingStepsEnd core => Sys2Proof.Machine.execFallingStepsEnd core s
  | .prerampExpire core => Sys2Proof.Machine.execPrerampExpire core s
  | .tileDeferredFault core => Sys2Proof.Machine.execTileDeferredFault core s
  | .aldComplete core => Sys2Proof.Machine.execAldComplete core s
  | .astComplete core => Sys2Proof.Machine.execAstComplete core s
  | .tfetchComplete core => Sys2Proof.Machine.execTfetchComplete core s
  | .storeComplete rid => Sys2Proof.Machine.execStoreComplete rid s
  | .ldfRelease gid wid => Sys2Proof.Machine.execLdfRelease gid wid s
  | .stfRelease gid wid => Sys2Proof.Machine.execStfRelease gid wid s
  | .homeRequest rid part => Sys2Proof.Machine.execHomeRequest rid part s
  | .l1Invalidate iid => Sys2Proof.Machine.execL1Invalidate iid s
  | .phaseViewUpdate core die obj => Sys2Proof.Machine.execPhaseViewUpdate core die obj s
  | .copyCommandStart core queue => Sys2Proof.Machine.execCopyCommandStart core queue s
  | .copyCommandComplete core queue => Sys2Proof.Machine.execCopyCommandComplete core queue s
  | .copyCommandFault core queue => Sys2Proof.Machine.execCopyCommandFault core queue s
  | .bankcfgChange team => Sys2Proof.Machine.execBankcfgChange team s
  | .clusterWindowAccess rid => Sys2Proof.Machine.execClusterWindowAccess rid s
  | .cbarRelease cluster ctx b => Sys2Proof.Machine.execCbarRelease cluster ctx b s
  | .laneModeChange cluster => Sys2Proof.Machine.execLaneModeChange cluster s
  | .laneRelockDone cluster => Sys2Proof.Machine.execLaneRelockDone cluster s
  | .sleepWake gid wid => Sys2Proof.Machine.execSleepWake gid wid s
  | .gateIdleTimeout cluster => Sys2Proof.Machine.execGateIdleTimeout cluster s
  | .gateEnterDone cluster => Sys2Proof.Machine.execGateEnterDone cluster s
  | .gateWakeDone cluster => Sys2Proof.Machine.execGateWakeDone cluster s
  | .teamPlace die slot core => Sys2Proof.Machine.execTeamPlace die slot core s
  | .groupStart gid => Sys2Proof.Machine.execGroupStart gid s
  | .groupEnd gid => Sys2Proof.Machine.execGroupEnd gid s
  | .spawnBinTimeout die bin => Sys2Proof.Machine.execSpawnBinTimeout die bin s
  | .saveAndAdmit die ctx => Sys2Proof.Machine.execSaveAndAdmit die ctx s
  | .watchdogExpire die ctx => Sys2Proof.Machine.execWatchdogExpire die ctx s
  | .drainTimeout team => Sys2Proof.Machine.execDrainTimeout team s
  | .teamSave team => Sys2Proof.Machine.execTeamSave team s
  | .ctxsaveSummary die ctx => Sys2Proof.Machine.execCtxsaveSummary die ctx s
  | .dbgresWrite die value => Sys2Proof.Machine.execDbgresWrite die value s
  | .registerWrite index value => Sys2Proof.Machine.execRegisterWrite index value s
  | .resolve die record => Sys2Proof.Machine.execResolve die record s
  | .deny die record => Sys2Proof.Machine.execDeny die record s
  | .migrationStart mid => Sys2Proof.Machine.execMigrationStart mid s
  | .migrationSwitch mid => Sys2Proof.Machine.execMigrationSwitch mid s
  | .placeComplete rid => Sys2Proof.Machine.execPlaceComplete rid s
  | .ceStart die engine => Sys2Proof.Machine.execCeStart die engine s
  | .ceStop die engine => Sys2Proof.Machine.execCeStop die engine s
  | .ceTransferComplete die engine => Sys2Proof.Machine.execCeTransferComplete die engine s
  | .computeReset source => Sys2Proof.Machine.execComputeReset source s
  | .resetL2Switch => Sys2Proof.Machine.execResetL2Switch s
  | .computeResetEnd => Sys2Proof.Machine.execComputeResetEnd s
  | .bootlrEnable => Sys2Proof.Machine.execBootlrEnable s
  | .keepDomainReset source => Sys2Proof.Machine.execKeepDomainReset source s
  | .hostMemRequest port kind addr value => Sys2Proof.Machine.execHostMemRequest port kind addr value s
  | .bisnpComplete hid => Sys2Proof.Machine.execBisnpComplete hid s
  | .hostDeadline hid => Sys2Proof.Machine.execHostDeadline hid s
  | .finatUntranslatable hid => Sys2Proof.Machine.execFinatUntranslatable hid s
  | .signalWindowWrite port addr value => Sys2Proof.Machine.execSignalWindowWrite port addr value s
  | .signalRingWrite sid => Sys2Proof.Machine.execSignalRingWrite sid s
  | .inboundPostedWrite port fn addr value size => Sys2Proof.Machine.execInboundPostedWrite port fn addr value size s
  | .routeAck port pid route => Sys2Proof.Machine.execRouteAck port pid route s
  | .inboundRead port fn addr size => Sys2Proof.Machine.execInboundRead port fn addr size s
  | .outboundLoadTimeout rid => Sys2Proof.Machine.execOutboundLoadTimeout rid s
  | .remoteRequest src kind va tidx value => Sys2Proof.Machine.execRemoteRequest src kind va tidx value s
  | .signalDeliver sid => Sys2Proof.Machine.execSignalDeliver sid s
  | .signalAck sid => Sys2Proof.Machine.execSignalAck sid s
  | .linkNarrow link => Sys2Proof.Machine.execLinkNarrow link s
  | .linkDown link => Sys2Proof.Machine.execLinkDown link s
  | .unreachableTimeout rid => Sys2Proof.Machine.execUnreachableTimeout rid s
  | .syncLost => Sys2Proof.Machine.execSyncLost s
  | .collectiveDoorbell die ctx value => Sys2Proof.Machine.execCollectiveDoorbell die ctx value s
  | .collectiveDoorbellRead die ctx rid => Sys2Proof.Machine.execCollectiveDoorbellRead die ctx rid s
  | .collectiveComplete die ctx result => Sys2Proof.Machine.execCollectiveComplete die ctx result s
  | .collectiveTimeout die ctx => Sys2Proof.Machine.execCollectiveTimeout die ctx s
  | .powerInterval milliwatts => Sys2Proof.Machine.execPowerInterval milliwatts s
  | .throttleAnnouncement group fcap gpwr => Sys2Proof.Machine.execThrottleAnnouncement group fcap gpwr s
  | .announcementApply island => Sys2Proof.Machine.execAnnouncementApply island s
  | .hbmTempSample stack temp => Sys2Proof.Machine.execHbmTempSample stack temp s
  | .securityAlarm level source ctx => Sys2Proof.Machine.execSecurityAlarm level source ctx s
  | .attestationRequest value => Sys2Proof.Machine.execAttestationRequest value s
  | .attestationReportDone => Sys2Proof.Machine.execAttestationReportDone s
  | .fenceComplete gid wid => Sys2Proof.Machine.execFenceComplete gid wid s
  | .bar0Read port offset => Sys2Proof.Machine.execBar0Read port offset s
  | .portLinkUp port width => Sys2Proof.Machine.execPortLinkUp port width s
  | .portLinkDown port => Sys2Proof.Machine.execPortLinkDown port s
  | .linkUp link => Sys2Proof.Machine.execLinkUp link s
  | .syncHeld => Sys2Proof.Machine.execSyncHeld s
  | .resetWriteBack line => Sys2Proof.Machine.execResetWriteBack line s
  | .compression page => Sys2Proof.Machine.execCompression page s
  | .unitExpansion page unit => Sys2Proof.Machine.execUnitExpansion page unit s

end Sys2Proof.Machine
end

