-- ==== Sys2Proof/Machine/Ports.lean ====
section
/-! DEFINITION. The two issue ports of a core (R126): each FCLK cycle at most two warps issue, each one instruction, and of the
issuable warps the one that has waited longest goes first. What the spec binds to an FCLK or LCLK cycle comes about before the next
FCLK cycle begins. -/

namespace Sys2Proof.Machine

/-- Instructions that a core has issued in the FCLK cycle that runs. -/
def issuedOn (s : State) (core : Nat) : Nat := (s.groups.filter (fun g => g.core == core)).foldl (fun n g => n + g.issued.length) 0
/-- Warp `v` of group `h` has waited longer since its last issue than warp `w` of group `g` (R126). Of two that have never issued, the one
whose group entered the active set first goes first, then that of the lower group index, then the one that holds the lower slice. -/
def before (h : Group) (v : Warp) (g : Group) (w : Warp) : Bool :=
  if v.turn ≠ w.turn then decide (v.turn < w.turn)
  else if v.turn ≠ 0 then false
  else if h.gid ≠ g.gid then decide (h.since < g.since) || (h.since == g.since && decide (h.index < g.index))
  else decide (Mask.low v.lanes < Mask.low w.lanes)
/-- The warp's turn issues its instruction, which may complete, trap or park its lanes. -/
def wouldIssue (s : State) (r : WarpRef) : Bool :=
  let s := { s with issuer := some r }
  let took (t : State) : Bool := match t.group r.gid with | some g => g.issued.contains r.wid | none => true
  match warpTurn s r with
  | .did t => took t
  | .run i => (match exec i s with | .next t => took t | _ => false)
/-- Warps of a group that stand inside a clause and have not issued in this cycle. -/
def Group.unissued (g : Group) : List Warp :=
  if g.st != .active then []
  else g.warps.filter (fun v => !g.issued.contains v.wid && (match v.first with | some e => e.cl.isSome | none => false))
/-- Warps of the active set of a core that come before warp `w` of group `g`. -/
def rivals (s : State) (g : Group) (w : Warp) : List WarpRef :=
  (s.groups.filter (fun h => h.core == g.core)).flatMap (fun h =>
    (h.unissued.filter (fun v => !(h.gid == g.gid && v.wid == w.wid) && before h v g w)).map (fun v => { gid := h.gid, wid := v.wid }))
/-- A warp may take a port of its core in the cycle that runs. A warp at a clause head takes none: the core fetches and checks the
clause (R55). -/
def State.portAllows (s : State) (r : WarpRef) : Bool :=
  match s.group r.gid with
  | none => true
  | some g =>
    match g.warp r.wid with
    | none => true
    | some w =>
      (match w.first with | some e => e.cl.isNone | none => true)
        || (!g.issued.contains w.wid && decide (issuedOn s g.core < 2) && (rivals s g w).all (fun q => !wouldIssue s q))

/-! ## What may not be put off to a later FCLK cycle -/

/-- Something of a group is due: its arrival at a barrier (R156), a deferred arrival (R160), its release from a cluster barrier (R256) or
from the Hurdle (R182), or, while a port of its core is free, an instruction (R126). -/
def groupDue (s : State) (g : Group) : Bool :=
  (match gather g with | some (w, _, wt) => arrivesNow s g w wt | none => false)
    || (match g.deferred with | a :: _ => appliesNow s g a | [] => false)
    || cbarDue (s.cluster (clusterOf g.core)) g (fun _ => true)
    || (match hurdlePlan s g with | .trap .. => true | .go .. => true | _ => false)
    || (decide (issuedOn s g.core < 2) && g.unissued.any (fun w => wouldIssue s { gid := g.gid, wid := w.wid }))
/-- Something of a core's engine is due: a start (R192, R269), a completion that no translation fault has held (R192, R196), or the end of
its fillers (R260, R263). -/
def engineDue (s : State) (core : Nat) : Bool :=
  let c := s.core core
  let t := (s.cluster (clusterOf core)).lclk
  (match nextStart s core with | some q => decide (lastLclk s core q ≤ t) | none => false)
    || (match headOp s core .mma with | some (q, _) => q.started && !q.held && decide (q.occEnd + 20 ≤ t) | none => false)
    || ((c.eng == .falling || c.eng == .preramp) && decide (c.engEnd < t))
/-- Something of a cluster is due: a step boundary of its limiter (R259), an announcement to its island (R388), or the end of a lane-mode change's phase
(R250). -/
def clusterDue (s : State) (k : Nat) : Bool :=
  let c := s.cluster k
  limiterDue s k || (s.islands.getD k {}).pending.any (fun p => decide (p.1 ≤ s.bw)) || (c.pend && c.draining && !enginesBusy s k) || (c.pend && !c.draining && decide (c.relockAt ≤ c.fclk))
/-- What must come about before the next FCLK cycle of a cluster begins. -/
def State.mustAct (s : State) : Bool :=
  let cs := if s.l2Off then [] else s.owing
  !cs.isEmpty && (s.groups.any (fun g => cs.contains (clusterOf g.core) && !g.stopped && groupDue s g)
    || s.teams.any (fun t => cs.contains (clusterOf t.core) && t.stands && t.barriers.any (fun b => b.2.full))
    || cs.any (fun k => clusterDue s k || (liveCores s k).any (fun c => engineDue s c)))

end Sys2Proof.Machine
end

