-- ==== Sys2Proof/Machine/Step.lean ====
section
/-! DEFINITION. One step of the machine. -/

namespace Sys2Proof.Machine

/-- A move is made: what a warp that may take a port performs (R126), what an engine performs, and every other step, is `exec` of its instruction.
Time does not pass while a step is due. -/
def perform (m : Move) (s : State) : Host.Outcome State Fault Refusal :=
  match m with
  | .issue r =>
    if !s.portAllows r then .next s
    else
      match warpTurn { s with issuer := some r } r with
      | .run i => exec i { s with issuer := some r }
      | .did t => .next t
  | .engine die e =>
    let s := { s with engine := some (8 * die + e) }.ceTrim (8 * die + e)
    match ceFetch s (8 * die + e) with
    | .word i => exec i s
    | .done t => .next t
  | .event i => if isEvent i then exec i s else .next s
  | .tick => .next (if s.mustAct then s else s.tick)
  | .replace c i => .next (s.replace c i)
  | .corrected c u i => .next (s.corrected c u i)
  | .retried l => .next (s.retried l)
  | .ahead die e j => .next (s.ceAhead (8 * die + e) j)

/-- One step (R126, R292): the next move of the agenda, or one of those that may come next. -/
def step (s : State) : Host.Outcome State Fault Refusal := perform (nextMove s).1 (nextMove s).2

/-- A group of context 0 whose one warp stands, with all its lanes, inside a started clause whose next word is `w`. -/
def fetchGroup (gid : Nat) (w : DWord) : Group :=
  { noGroup with
    gid := gid, role := 2,
    warps := [{ wid := 0, entries := [{ prio := 0, pc := 8, mask := Mask.width 64, h := 0,
                                         cl := some { eng := 0, cnt := if wordCtl 0 w then 0 else 1, yld := false, ws := [w, w] } }] }] }
/-- The state with the word `w` where the next step fetches: the clause words of a warp whose turn is next. -/
def State.withFetchWord (s : State) (nbits w : Nat) : State :=
  { s with
    groups := fetchGroup s.nextId (BitVec.ofNat 64 (w % 2 ^ nbits)) :: s.groups,
    agenda := .issue { gid := s.nextId, wid := 0 } :: s.agenda, nextId := s.nextId + 1 }

end Sys2Proof.Machine
end

