-- ==== Sys2Proof/Safety.lean ====
section
/-! DEFINITION. What claims are stated in: when an instruction may issue and has nothing against it, what a step leaves
alone, and what a good state is. -/

namespace Sys2Proof.Machine

/-- Instruction `i` issues at `s` from position `x`: its warp may issue it, no counter or held fault of its clause, pending result,
full counter or full collector holds it back, its role is right, and the next clause, if this one ends here, has priority `prio`
(R57, R58, R71, R73, R82, R135, R142, R241, R431). -/
structure Issues (s : State) (i : Instr) (x : Issue) (prio : BitVec 8) : Prop where
  pos : s.position i = some x
  held : heldIn x.g x.e.mask (fun k => decide (k < 6) && x.cl.dcw.getLsbD k) = []
  dcw : dcwOpen x.g x.cl.dcw = false
  due : mustWait x = false
  counter : dcHeld x = false
  collector : x.vector = true → s.collector x.g.core < 4
  role : roleCauses x = []
  header : (if x.last && !x.n.ctl && !x.more then nextHeader x x.hn x.e.mask else .ok 0) = .ok prio

/-- The operands were read: none raises a cause, waits or parks (R43, R221). -/
def Readable (os : List Opr) : Prop := ∀ p ∈ os, p.causes = [] ∧ p.wait = false ∧ p.park = none ∧ p.failed = false

/-- The machine once the operands `os` have been read: a K operand's read reaches the slices of its lines, and fills the core's TLB
(R285, R288). Other operands leave it. -/
def Issue.read (x : Issue) (os : List Opr) (s : State) : State := readVas x.g.core x.g.ctx (os.flatMap Opr.vas) s

/-- Nothing is against outcome `o` (R34, R42, R52, R74): it holds nothing back, raises nothing and parks no lane. -/
structure Clean (x : Issue) (o : Out) : Prop where
  hold : o.hold = false
  causes : o.causes = []
  parks : o.parks = []
  lawar : lawar x o = []
  budget : regBudget x o = []
  fpx : fpxCauses x o = []

/-- The destination registers a word's D field and WCC name (R66, R87, R89). -/
def Issue.dests (x : Issue) (size : Nat) : List RegId :=
  (if isS x.fd then [.s (fnum x.fd)] else (List.range size).map (fun k => RegId.v (x.fd.toNat + k)))
    ++ if x.a.wcc then [.cc] else []

/-- Of the registers `rs`, the V registers that are not GEN. -/
def Group.notGen (g : Group) (rs : List RegId) : List RegId :=
  rs.filter (fun r => match r with | .v n => !(g.vreg n).isGen | _ => false)

/-- The registers `rs` may be written: no active lane has a pending result for one (R74), and the group's budget holds those
that are not GEN yet beside what it and its pending results hold (R42). -/
structure Free (x : Issue) (rs : List RegId) : Prop where
  pending : ∀ p ∈ x.w.pend, p.lanes &&& x.act ≠ 0 → ∀ r ∈ rs, r ∉ p.dst
  budget : x.g.notGen rs = [] ∨
    x.g.genCount + (x.g.warps.flatMap (fun w => w.pend.flatMap (fun p => p.writes))).length + (x.g.notGen rs).length ≤ x.g.budget

/-- The instruction is followed in its clause by another, and repeats nothing (R54, R77). -/
structure MidClause (x : Issue) : Prop where
  last : x.last = false
  more : x.more = false

/-- Memory holds its canonical form, and so does the data of every team's scratchpad (R207). -/
def State.Canonical (s : State) : Prop :=
  Memory.wf s.mem ∧ ∀ t ∈ s.teams, Amap.wf (0 : Byte) t.scratch = true

/-- Every byte of memory reads the same. -/
def SameMemory (s t : State) : Prop := ∀ a, Memory.read t.mem a = Memory.read s.mem a

/-- Every group but one is as it was. -/
def OtherGroupsSame (gid : Nat) (s t : State) : Prop := ∀ k, k ≠ gid → t.group k = s.group k

/-- `h` is group `g` but for its warps, where it stands in scheduling, and what it notes of the FCLK cycle that runs: every register,
code, counter and exception register is the same. -/
def SchedOnly (g h : Group) : Prop :=
  h = { g with warps := h.warps, st := h.st, since := h.since, lastIssue := h.lastIssue, coll := h.coll, halted := h.halted,
               haltDue := h.haltDue, yieldDue := h.yieldDue, issued := h.issued, commits := h.commits, cyc := h.cyc }

/-- The step from `s` to `t` made group `gid` into `g`, its scheduling aside, and left everything else of the machine. -/
structure OnlyGroup (gid : Nat) (s t : State) (g : Group) : Prop where
  state : t = { s with groups := t.groups }
  others : OtherGroupsSame gid s t
  group : ∃ h, t.group gid = some h ∧ SchedOnly g h

/-- The warp of an issue went on (R54, R77): inside a repeat its count rises, else its lanes stand at the next instruction, or, at the
end of the clause, after the next header, with that header's priority. -/
def Advanced (x : Issue) (prio : BitVec 8) (t : State) : Prop :=
  ∃ h w, t.group x.g.gid = some h ∧ h.warp x.w.wid = some w ∧
    if x.more then w.entries = x.started :: x.w.entries.drop 1 ∧ w.rpc = x.w.rpc + 64
    else w.rpc = 0 ∧ ∀ l, Mask.has x.e.mask l = true → ∃ e ∈ w.entries, Mask.has e.mask l = true ∧
      e.pc = (if x.last then x.hn + 8 else x.e.pc + 8) ∧ e.prio = if x.last then prio else x.e.prio

/-- The step from `s` to `t` completed the instruction of issue `x`: its group is `g` now, its warp went on, and everything else of the
machine is as it was. -/
structure Commits (x : Issue) (prio : BitVec 8) (s t : State) (g : Group) : Prop where
  only : OnlyGroup x.g.gid s t g
  goes : Advanced x prio t

/-- A 32-bit result in an S register (R88). -/
def Ext.apply (e : Ext) (w : Word) : DWord := match e with | .s => w.signExtend 64 | .z => w.zeroExtend 64

/-- `g` is group `x.g` after a 32-bit result: the destination holds `f l` in each active lane `l` (R8, R88), the codes of the
active lanes are `c`, `z`, `n`, `v` where the word says WCC (R89), FSR gained the flags `fl` (R32), and nothing else changed. -/
structure Result32 (x : Issue) (g : Group) (ext : Ext) (f : Nat → Word) (c z n v : Nat → Bool) (fl : Word) : Prop where
  rest : g = { x.g with v := g.v, vpoison := g.vpoison, s := g.s, spoison := g.spoison, c := g.c, z := g.z, n := g.n, vf := g.vf,
                        fsr := x.g.fsr ||| fl }
  sreg : ∀ r, g.sreg r = if isS x.fd ∧ r = fnum x.fd then ext.apply (f 0) else x.g.sreg r
  vreg : ∀ r l, l < x.g.width → l < 64 →
    (g.vreg r).lane l = if isS x.fd = false ∧ r = x.fd.toNat ∧ Mask.has x.act l then f l else (x.g.vreg r).lane l
  cc : ∀ l, l < 64 → Mask.has g.c l = (if x.a.wcc ∧ Mask.has x.act l then c l else Mask.has x.g.c l) ∧
    Mask.has g.z l = (if x.a.wcc ∧ Mask.has x.act l then z l else Mask.has x.g.z l) ∧
    Mask.has g.n l = (if x.a.wcc ∧ Mask.has x.act l then n l else Mask.has x.g.n l) ∧
    Mask.has g.vf l = (if x.a.wcc ∧ Mask.has x.act l then v l else Mask.has x.g.vf l)

/-- The same for a 64-bit result, in an S register or an even V pair (R88). -/
structure Result64 (x : Issue) (g : Group) (f : Nat → DWord) (c z n v : Nat → Bool) (fl : Word) : Prop where
  rest : g = { x.g with v := g.v, vpoison := g.vpoison, s := g.s, spoison := g.spoison, c := g.c, z := g.z, n := g.n, vf := g.vf,
                        fsr := x.g.fsr ||| fl }
  sreg : ∀ r, g.sreg r = if isS x.fd ∧ r = fnum x.fd then f 0 else x.g.sreg r
  vreg : ∀ r l, l < x.g.width → l < 64 →
    (g.vreg r).lane l =
      if isS x.fd = false ∧ r = x.fd.toNat ∧ Mask.has x.act l then (f l).extractLsb' 0 32
      else if isS x.fd = false ∧ r = x.fd.toNat + 1 ∧ Mask.has x.act l then (f l).extractLsb' 32 32 else (x.g.vreg r).lane l
  cc : ∀ l, l < 64 → Mask.has g.c l = (if x.a.wcc ∧ Mask.has x.act l then c l else Mask.has x.g.c l) ∧
    Mask.has g.z l = (if x.a.wcc ∧ Mask.has x.act l then z l else Mask.has x.g.z l) ∧
    Mask.has g.n l = (if x.a.wcc ∧ Mask.has x.act l then n l else Mask.has x.g.n l) ∧
    Mask.has g.vf l = (if x.a.wcc ∧ Mask.has x.act l then v l else Mask.has x.g.vf l)

/-- A long-latency instruction has issued (R73): its warp holds the pending result `p`, fresh, with the window its word names,
and nothing else of the machine has changed. -/
structure Promises (x : Issue) (prio : BitVec 8) (size : Nat) (s t : State) (p : Pending) : Prop where
  goes : Advanced x prio t
  state : t = { s with groups := t.groups, nextId := s.nextId + 1 }
  others : OtherGroupsSame x.g.gid s t
  group : ∃ h w, t.group x.g.gid = some h ∧ SchedOnly x.g h ∧ h.warp x.w.wid = some w ∧ p ∈ w.pend
  rid : p.rid = s.nextId
  left : p.left = x.a.la
  lanes : p.lanes = x.e.mask
  ready : p.ready = true
  dst : ∀ r ∈ x.dests size, r ∈ p.dst

/-- What the writes of a pending result make of the group as it stood at issue. -/
def Pending.on (p : Pending) (g : Group) : Group := p.writes.foldl Group.applyW g

end Sys2Proof.Machine
end

