-- ==== Sys2Proof/Certificates/Slice0/Obligations.lean ====
section
/-! DEFINITION. The statements for the provers, and the words they are written in: the results the rules give, said again from
the spec's own tables. -/

namespace Sys2Proof.Rules
open Sys2Proof.Machine

/-! ## Lane-by-lane results -/

/-- Condition codes of one lane (R89). -/
structure Codes where
  c : Bool
  z : Bool
  n : Bool
  v : Bool

/-- A sum's codes: carry out, zero, sign, and a signed sum out of range (R89). -/
def sumCodes {w : Nat} (r x y : BitVec w) (cin : Nat) : Codes :=
  ⟨decide (2 ^ w ≤ x.toNat + y.toNat + cin), r == 0, r.msb,
    decide (¬ (-(2 ^ (w - 1) : Int) ≤ x.toInt + y.toInt + cin ∧ x.toInt + y.toInt + cin < (2 ^ (w - 1) : Int)))⟩
/-- A difference's codes: no borrow, zero, sign, and a signed difference out of range (R89). -/
def diffCodes {w : Nat} (r x y : BitVec w) (bin : Nat) : Codes :=
  ⟨decide (y.toNat + bin ≤ x.toNat), r == 0, r.msb,
    decide (¬ (-(2 ^ (w - 1) : Int) ≤ x.toInt - y.toInt - bin ∧ x.toInt - y.toInt - bin < (2 ^ (w - 1) : Int)))⟩
/-- LogicCC (R89). -/
def plain {w : Nat} (r : BitVec w) : Codes := ⟨false, r == 0, r.msb, false⟩

/-- A value read signed, or unsigned under U (R92). -/
def val {w : Nat} (u : Bool) (x : BitVec w) : Int := if u then x.toNat else x.toInt
/-- The ends of an n-bit range. -/
def lo (u : Bool) (n : Nat) : Int := if u then 0 else -(2 ^ (n - 1) : Int)
def hi (u : Bool) (n : Nat) : Int := if u then 2 ^ n - 1 else 2 ^ (n - 1) - 1
/-- Sat(t, lo, hi) as an n-bit word (R2, R93). -/
def clamp (u : Bool) (n : Nat) (t : Int) : BitVec n := BitVec.ofInt n (max (lo u n) (min (hi u n) t))

/-- What a lane-by-lane instruction computes: its sources, the extension of a scalar result, and each lane's value and codes. -/
structure Lane (w : Nat) where
  srcs : List Opr
  ext : Ext
  val : Nat → BitVec w
  codes : Nat → Codes

/-- Of two operands, and of one. -/
def two {w : Nat} (ext : Ext) (p q : Opr) (f : Word → Word → BitVec w) (k : BitVec w → Word → Word → Codes) : Lane w :=
  ⟨[p, q], ext, fun l => f (p.at32 l) (q.at32 l), fun l => k (f (p.at32 l) (q.at32 l)) (p.at32 l) (q.at32 l)⟩
def one {w : Nat} (ext : Ext) (p : Opr) (f : Word → BitVec w) (k : BitVec w → Word → Codes) : Lane w :=
  ⟨[p], ext, fun l => f (p.at32 l), fun l => k (f (p.at32 l)) (p.at32 l)⟩
def three {w : Nat} (ext : Ext) (p q r : Opr) (f : Word → Word → Word → BitVec w) : Lane w :=
  ⟨[p, q, r], ext, fun l => f (p.at32 l) (q.at32 l) (r.at32 l), fun l => plain (f (p.at32 l) (q.at32 l) (r.at32 l))⟩

/-- The extension of column U (R88, R92). -/
def uExt (u : Bool) : Ext := if u then .z else .s

/-- WOB: a source read beyond its parameter window (R221), a sticky flag of FSR (R32). -/
def wobFlag (os : List Opr) : Word := if os.any (fun p => p.wob) then 32 else 0

/-- The 32-bit rows of the integer table (R92, R93), with `y` the second operand and `z` the third. -/
def addRow (x : Issue) (y : Opr) : Lane 32 :=
  two (uExt (x.mb 0)) x.opX y (fun a b => if x.mb 1 then clamp (x.mb 0) 32 (val (x.mb 0) a + val (x.mb 0) b) else a + b)
    (fun r a b => sumCodes r a b 0)
def subRow (x : Issue) (y : Opr) : Lane 32 :=
  two (uExt (x.mb 0)) x.opX y (fun a b => if x.mb 1 then clamp (x.mb 0) 32 (val (x.mb 0) a - val (x.mb 0) b) else a - b)
    (fun r a b => diffCodes r a b 0)
def adcRow (x : Issue) (y : Opr) : Lane 32 :=
  ⟨[x.opX, y], .s, fun l => x.opX.at32 l + y.at32 l + (if Mask.has x.g.c l then 1 else 0),
    fun l => sumCodes (x.opX.at32 l + y.at32 l + (if Mask.has x.g.c l then 1 else 0)) (x.opX.at32 l) (y.at32 l)
      (if Mask.has x.g.c l then 1 else 0)⟩
def sbcRow (x : Issue) (y : Opr) : Lane 32 :=
  ⟨[x.opX, y], .s, fun l => x.opX.at32 l - y.at32 l - (if Mask.has x.g.c l then 0 else 1),
    fun l => diffCodes (x.opX.at32 l - y.at32 l - (if Mask.has x.g.c l then 0 else 1)) (x.opX.at32 l) (y.at32 l)
      (if Mask.has x.g.c l then 0 else 1)⟩
def negRow (p : Opr) : Lane 32 := one .s p (fun a => -a) (fun r a => diffCodes r 0 a 0)
def absRow (p : Opr) : Lane 32 := one .s p (fun a => if a.msb then -a else a) (fun r a => { plain r with v := a == 0x80000000 })
def minRow (x : Issue) (y : Opr) : Lane 32 :=
  two (uExt (x.mb 0)) x.opX y (fun a b => if val (x.mb 0) a ≤ val (x.mb 0) b then a else b) (fun r _ _ => plain r)
def maxRow (x : Issue) (y : Opr) : Lane 32 :=
  two (uExt (x.mb 0)) x.opX y (fun a b => if val (x.mb 0) a ≤ val (x.mb 0) b then b else a) (fun r _ _ => plain r)
def mulRow (x : Issue) (y : Opr) : Lane 32 :=
  two (uExt (x.mb 0)) x.opX y (fun a b => a * b)
    (fun r a b => { plain r with v := decide (¬ (lo (x.mb 0) 32 ≤ val (x.mb 0) a * val (x.mb 0) b ∧ val (x.mb 0) a * val (x.mb 0) b ≤ hi (x.mb 0) 32)) })
def mulhRow (x : Issue) (y : Opr) : Lane 32 :=
  two (uExt (x.mb 0)) x.opX y (fun a b => (BitVec.ofInt 64 (val (x.mb 0) a * val (x.mb 0) b)).extractLsb' 32 32) (fun r _ _ => plain r)
def madRow (x : Issue) (y z : Opr) : Lane 32 := three .s x.opX y z (fun a b c => a * b + c)
def cmpRow (x : Issue) (y : Opr) : Lane 32 :=
  two .s x.opX y
    (fun a b => if val (x.mb 0) a < val (x.mb 0) b then 0xFFFFFFFF else if val (x.mb 0) a = val (x.mb 0) b then 0 else 1)
    (fun _ a b => diffCodes (a - b) a b 0)
/-- ISAT's range is `w` bits wide, w being y clamped to 1 … 32 (R93). -/
def isatRow (x : Issue) (y : Opr) : Lane 32 :=
  let t (a b : Word) : Int := max (lo (x.mb 0) (max 1 (min 32 b.toNat))) (min (hi (x.mb 0) (max 1 (min 32 b.toNat))) (val (x.mb 1) a))
  two (uExt (x.mb 0)) x.opX y (fun a b => BitVec.ofInt 32 (t a b)) (fun r a b => { plain r with v := decide (t a b ≠ val (x.mb 1) a) })
def leaRow (x : Issue) (y : Opr) : Lane 32 :=
  two .s x.opX y (fun a b => a + b <<< (x.m.toNat % 8)) (fun r a b => sumCodes r a (b <<< (x.m.toNat % 8)) 0)
/-- Two 64-bit operands compared, with a 32-bit result (R92). -/
def cmp64Row (x : Issue) (y : Opr) : Lane 32 :=
  ⟨[x.opX, y], .s, fun l =>
    if val (x.mb 0) (x.opX.at64 l) < val (x.mb 0) (y.at64 l) then 0xFFFFFFFF
    else if val (x.mb 0) (x.opX.at64 l) = val (x.mb 0) (y.at64 l) then 0 else 1,
    fun l => diffCodes (x.opX.at64 l - y.at64 l) (x.opX.at64 l) (y.at64 l) 0⟩

/-- The integer and address instructions of 32-bit results (R92), and their immediate forms (R62, R90). -/
def intLane (i : Instr) (x : Issue) : Option (Lane 32) :=
  match i with
  | .iadd _ => some (addRow x x.opY)
  | .iaddImm _ => some (addRow x x.imm)
  | .isub _ => some (subRow x x.opY)
  | .isubImm _ => some (subRow x x.imm)
  | .iadc _ => some (adcRow x x.opY)
  | .iadcImm _ => some (adcRow x x.imm)
  | .isbc _ => some (sbcRow x x.opY)
  | .isbcImm _ => some (sbcRow x x.imm)
  | .ineg _ => some (negRow x.opX)
  | .inegImm _ => some (negRow x.imm)
  | .iabs _ => some (absRow x.opX)
  | .iabsImm _ => some (absRow x.imm)
  | .imin _ => some (minRow x x.opY)
  | .iminImm _ => some (minRow x x.imm)
  | .imax _ => some (maxRow x x.opY)
  | .imaxImm _ => some (maxRow x x.imm)
  | .imul _ => some (mulRow x x.opY)
  | .imulImm _ => some (mulRow x x.imm)
  | .imulh _ => some (mulhRow x x.opY)
  | .imulhImm _ => some (mulhRow x x.imm)
  | .imad _ => some (madRow x x.opY x.opZ)
  | .imadImm _ => some (madRow x x.imm x.opD)
  | .icmp _ => some (cmpRow x x.opY)
  | .icmpImm _ => some (cmpRow x x.imm)
  | .isat _ => some (isatRow x x.opY)
  | .isatImm _ => some (isatRow x x.imm)
  | .lea _ => some (leaRow x x.opY)
  | .leaImm _ => some (leaRow x x.imm)
  | .icmp64 _ => some (cmp64Row x x.opY)
  | .icmp64Imm _ => some (cmp64Row x x.imm)
  | _ => none

/-- The lanes of `r` are what `i` computes: at every issue from which nothing is against it, `i` goes to the next state, in
which the group holds the result (R88, R89) and nothing else of the machine has changed. A form for which `r` says nothing is
aside. -/
def Computes32 (i : Instr) (r : Issue → Option (Lane 32)) : Prop :=
  ∀ (s : State) (x : Issue) (prio : BitVec 8) (k : Lane 32), WellFormed i → Issues s i x prio → r x = some k → Readable k.srcs → Free x (x.dests 1) →
    ∃ t g, exec i s = .next t ∧ Commits x prio (x.read k.srcs s) t g ∧
      Result32 x g k.ext k.val (fun l => (k.codes l).c) (fun l => (k.codes l).z) (fun l => (k.codes l).n) (fun l => (k.codes l).v)
        (wobFlag k.srcs)

/-- The 64-bit rows of the integer table (R92, R93). -/
def wide (p q : Opr) (f : DWord → DWord → DWord) (k : DWord → DWord → DWord → Codes) : Lane 64 :=
  ⟨[p, q], .s, fun l => f (p.at64 l) (q.at64 l), fun l => k (f (p.at64 l) (q.at64 l)) (p.at64 l) (q.at64 l)⟩
def add64Row (u sat : Bool) (x : Issue) (y : Opr) : Lane 64 :=
  wide x.opX y (fun a b => if sat then clamp u 64 (val u a + val u b) else a + b) (fun r a b => sumCodes r a b 0)
def sub64Row (u sat : Bool) (x : Issue) (y : Opr) : Lane 64 :=
  wide x.opX y (fun a b => if sat then clamp u 64 (val u a - val u b) else a - b) (fun r a b => diffCodes r a b 0)
def madwRow (x : Issue) (y z : Opr) : Lane 64 :=
  let f (l : Nat) : DWord := BitVec.ofInt 64 (val (x.mb 0) (x.opX.at32 l) * val (x.mb 0) (y.at32 l)) + z.at64 l
  ⟨[x.opX, y, z], .s, f, fun l => plain (f l)⟩
def lea64Row (x : Issue) : Lane 64 :=
  let e (l : Nat) : DWord := (if x.mb 3 then (x.opY.at32 l).signExtend 64 else (x.opY.at32 l).zeroExtend 64) <<< (x.m.toNat % 8)
  ⟨[x.opX, x.opY], .s, fun l => x.opX.at64 l + e l, fun l => sumCodes (x.opX.at64 l + e l) (x.opX.at64 l) (e l) 0⟩
/-- MOV of 64 bits (R97). -/
def mov64Row (x : Issue) : Lane 64 := ⟨[x.opX], .s, fun l => x.opX.at64 l, fun l => plain (x.opX.at64 l)⟩

/-- MOVHI (R97): half h of the old destination replaced. -/
def movhiVal {w : Nat} (i : BitVec 27) (d : BitVec w) : BitVec w :=
  let h := (i.extractLsb' 16 2).toNat
  (d &&& ~~~((0xFFFF#16).zeroExtend w <<< (16 * h))) ||| ((i.extractLsb' 0 16).zeroExtend w <<< (16 * h))
/-- MFS (R98): the special register named, or under M[0] the tag of a V register. -/
def mfsSrc (x : Issue) : Opr := readField x 1 (x.step 1 .src32 x.a.x)
def mfsTag (x : Issue) : Nat := (x.g.vreg (fnum (x.step 1 .src32 x.a.x))).tag

/-- The instructions of 64-bit results (R92, R97, R98). -/
def longLane (i : Instr) (x : Issue) : Option (Lane 64) :=
  match i with
  | .imadw _ => some (madwRow x x.opY x.opZ)
  | .imadwImm _ => some (madwRow x x.imm x.opD)
  | .iadd64 _ => some (add64Row (x.mb 0) (x.mb 1) x x.opY)
  | .iadd64Imm _ => some (add64Row false false x x.imm)
  | .isub64 _ => some (sub64Row (x.mb 0) (x.mb 1) x x.opY)
  | .isub64Imm _ => some (sub64Row false false x x.imm)
  | .lea64 _ => some (lea64Row x)
  | .mov _ => if x.mb 0 then some (mov64Row x) else none
  | .movhi a => if isS x.fd then some ⟨[x.opD], .s, fun l => movhiVal a.imm (x.opD.at64 l), fun _ => ⟨false, false, false, false⟩⟩ else none
  | .mfs _ => if isS x.fd then
      some (if x.mb 0 then ⟨[], .s, fun _ => BitVec.ofNat 64 (mfsTag x), fun _ => ⟨false, false, false, false⟩⟩
        else ⟨[mfsSrc x], .s, fun l => (mfsSrc x).at64 l, fun _ => ⟨false, false, false, false⟩⟩)
    else none
  | _ => none

/-- The lanes of `r` are what `i` computes, as `Computes32`, for 64-bit results; a form for which `r` says nothing aside. -/
def Computes64 (i : Instr) (r : Issue → Option (Lane 64)) : Prop :=
  ∀ (s : State) (x : Issue) (prio : BitVec 8) (k : Lane 64), WellFormed i → Issues s i x prio → r x = some k → Readable k.srcs → Free x (x.dests 2) →
    ∃ t g, exec i s = .next t ∧ Commits x prio (x.read k.srcs s) t g ∧
      Result64 x g k.val (fun l => (k.codes l).c) (fun l => (k.codes l).z) (fun l => (k.codes l).n) (fun l => (k.codes l).v)
        (wobFlag k.srcs)

/-- LUT3's value (R95): the table's bit for each triple of bits of the old destination, x and y. -/
def lutVal (tbl : Nat) (d a b : Word) : Word :=
  let pick (k j : Nat) (v : Word) : Word := if k / j % 2 = 1 then v else ~~~v
  (List.range 8).foldl (fun (r : Word) k => if tbl.testBit k then r ||| (pick k 4 d &&& pick k 2 a &&& pick k 1 b) else r) 0
/-- BFX (R96): n bits of x from bit p upward, with no end above bit 31. -/
def bfxVal (sx : Bool) (a p n : Word) : Word :=
  let n := min n.toNat 32
  let e : BitVec 128 := (if sx then a.signExtend 128 else a.zeroExtend 128) >>> (min p.toNat 64)
  if n = 0 then 0 else if sx then (e.extractLsb' 0 32 <<< (32 - n)).sshiftRight (32 - n) else e.extractLsb' 0 32 <<< (32 - n) >>> (32 - n)
/-- BFI (R96): the low n bits of x at bit p of the old destination. -/
def bfiVal (d a p n : Word) : Word :=
  let m : Word := if n.toNat < 32 then (1#32 <<< n.toNat) - 1 else 0xFFFFFFFF
  if 32 ≤ p.toNat then d else (d &&& ~~~(m <<< p.toNat)) ||| ((a &&& m) <<< p.toNat)
/-- PRMB (R96): byte b of the result is the byte of y:x that nibble b of z names, or eight copies of its top bit. -/
def prmbVal (a b z : Word) : Word :=
  let s : DWord := b ++ a
  let one (k : Nat) : BitVec 8 :=
    let q := z.extractLsb' (4 * k) 4
    let e := s.extractLsb' (8 * (q.toNat % 8)) 8
    if q.msb then (if e.msb then 0xFF else 0) else e
  one 3 ++ one 2 ++ one 1 ++ one 0

def logRow (x : Issue) (y : Opr) (f : Word → Word → Word) : Lane 32 := two .z x.opX y f (fun r _ _ => plain r)
def notRow (p : Opr) : Lane 32 := one .z p (fun a => ~~~a) (fun r _ => plain r)
def unRow (x : Issue) (f : Word → Word) : Lane 32 := one .z x.opX f (fun r _ => plain r)
def sarRow (x : Issue) (y : Opr) : Lane 32 := two .s x.opX y (fun a b => a.sshiftRight (min b.toNat 31)) (fun r _ _ => plain r)
def triRow (ext : Ext) (p q r : Opr) (f : Word → Word → Word → Word) : Lane 32 := three ext p q r f
def fshl (a b c : Word) : Word := ((a ++ b : DWord) <<< (c.toNat % 32)).extractLsb' 32 32
def fshr (a b c : Word) : Word := ((a ++ b : DWord) >>> (c.toNat % 32)).extractLsb' 0 32
def bfiRow (x : Issue) : Lane 32 :=
  let f (l : Nat) := bfiVal (x.opD.at32 l) (x.opX.at32 l) (x.opY.at32 l) (x.opZ.at32 l)
  ⟨[x.opD, x.opX, x.opY, x.opZ], .z, f, fun l => plain (f l)⟩
/-- SEL (R96) and CCRD (R100) read the lane's codes and write none. -/
def selRow (x : Issue) : Lane 32 :=
  ⟨[x.opX, x.opY], .z, fun l => if Mask.has (condMask (x.m.extractLsb' 0 4) x.g) l then x.opX.at32 l else x.opY.at32 l,
    fun _ => ⟨false, false, false, false⟩⟩
def bitOf (m : Mask) (l : Nat) (k : Word) : Word := if Mask.has m l then k else 0
def ccrdRow (x : Issue) : Lane 32 :=
  ⟨[], .z, fun l => bitOf x.g.c l 8 + bitOf x.g.z l 4 + bitOf x.g.n l 2 + bitOf x.g.vf l 1, fun _ => ⟨false, false, false, false⟩⟩
/-- SXT and ZXT (R97): code w names 8, 16 or 32 bits. -/
def extend (sx : Bool) (w : Nat) (a : Word) : Word :=
  let k := 32 - 8 * 2 ^ w
  if sx then (a <<< k).sshiftRight k else a <<< k >>> k

/-- The logic, bit and move instructions of 32-bit results (R94 to R97, R100), and their immediate forms (R62, R90). -/
def bitLane (i : Instr) (x : Issue) : Option (Lane 32) :=
  match i with
  | .andL _ => some (logRow x x.opY (fun a b => a &&& b))
  | .andLImm _ => some (logRow x x.imm (fun a b => a &&& b))
  | .orL _ => some (logRow x x.opY (fun a b => a ||| b))
  | .orLImm _ => some (logRow x x.imm (fun a b => a ||| b))
  | .xorL _ => some (logRow x x.opY (fun a b => a ^^^ b))
  | .xorLImm _ => some (logRow x x.imm (fun a b => a ^^^ b))
  | .notL _ => some (notRow x.opX)
  | .notLImm _ => some (notRow x.imm)
  | .lut3 a => some (triRow .z x.opD x.opX x.opY (lutVal (a.z.toNat % 256)))
  | .lut3Imm a => some (triRow .z x.opD x.opX (oprS ((a.imm.extractLsb' 8 19).signExtend 64)) (lutVal (a.imm.toNat % 256)))
  | .shl _ => some (logRow x x.opY (fun a b => if b.toNat < 32 then a <<< b.toNat else 0))
  | .shlImm _ => some (logRow x x.imm (fun a b => if b.toNat < 32 then a <<< b.toNat else 0))
  | .shr _ => some (logRow x x.opY (fun a b => if b.toNat < 32 then a >>> b.toNat else 0))
  | .shrImm _ => some (logRow x x.imm (fun a b => if b.toNat < 32 then a >>> b.toNat else 0))
  | .sar _ => some (sarRow x x.opY)
  | .sarImm _ => some (sarRow x x.imm)
  | .rot _ => some (logRow x x.opY (fun a b => a.rotateLeft (b.toNat % 32)))
  | .rotImm _ => some (logRow x x.imm (fun a b => a.rotateLeft (b.toNat % 32)))
  | .fshl _ => some (triRow .z x.opX x.opY x.opZ fshl)
  | .fshlImm _ => some (triRow .z x.opX x.imm x.opD fshl)
  | .fshr _ => some (triRow .z x.opX x.opY x.opZ fshr)
  | .fshrImm _ => some (triRow .z x.opX x.imm x.opD fshr)
  | .popc _ => some (unRow x (fun a => BitVec.ofNat 32 ((List.range 32).filter (fun k => a.getLsbD k)).length))
  | .clz _ => some (unRow x (fun a => a.clz))
  | .ctz _ => some (unRow x (fun a => a.ctz))
  | .brev _ => some (unRow x (fun a => a.reverse))
  | .bfx _ => some (triRow (if x.mb 0 then .s else .z) x.opX x.opY x.opZ (bfxVal (x.mb 0)))
  | .bfi _ => some (bfiRow x)
  | .prmb _ => some (triRow .z x.opX x.opY x.opZ prmbVal)
  | .sel _ => some (selRow x)
  | .mov _ => if x.mb 0 then none else some (one .s x.opX (fun a => a) (fun r _ => plain r))
  | .movi _ => some (one .s x.imm (fun a => a) (fun r _ => plain r))
  | .movhi a => if isS x.fd then none else some (one .s x.opD (movhiVal a.imm) (fun r _ => plain r))
  | .mfs _ => if isS x.fd then none else
      some (if x.mb 0 then ⟨[], .z, fun _ => BitVec.ofNat 32 (mfsTag x), fun _ => ⟨false, false, false, false⟩⟩
        else ⟨[mfsSrc x], .z, fun l => (mfsSrc x).at32 l, fun _ => ⟨false, false, false, false⟩⟩)
  | .sxt _ => some (one .s x.opX (extend true (x.m.toNat % 4)) (fun r _ => plain r))
  | .zxt _ => some (one .z x.opX (extend false (x.m.toNat % 4)) (fun r _ => plain r))
  | .ccrd _ => some (ccrdRow x)
  | _ => none

/-- No code is written. -/
abbrev noCode : Nat → Bool := fun _ => false

/-! ## Effects on the group -/

/-- What an instruction makes of its group: its sources, the registers it writes, what its entry asks, and the group it leaves. -/
structure Effect where
  srcs : List Opr := []
  dests : List RegId := []
  ok : Bool := true
  group : Group

/-- What warps of other lanes have committed in the FCLK cycle that runs: a write of FSR, AMAXC or AMAX comes before it (R36). -/
def others (x : Issue) : List Commit := x.g.commits.filter (fun k => k.lanes &&& x.w.lanes == 0#64)
def clearedAmax (x : Issue) (g : Group) : Group := (others x).foldl (fun g k => k.mags.foldl Group.updAmax g) { g with amax := 0 }
/-- MTS (R99): reserved bits receive nothing, and a seed of zero is replaced (R176). -/
def mtsGroup (x : Issue) : Group :=
  let v := x.opX.at64 0
  let w : Word := v.extractLsb' 0 32
  let g := x.g.orFsr (wobFlag [x.opX])
  match fnum x.a.d with
  | 14 => { g with fsr := (others x).foldl (fun v k => v ||| k.fl) (w &&& 0x3F) }
  | 15 => { g with fcr := w &&& 0x1FF }
  | 19 => if others x = [] then { g with amaxc := w &&& 3 } else g.mtsAmaxc x.w.lanes (w &&& 3)
  | 27 => { g with rng := if v = 0 then 0x9E3779B97F4A7C15 else v }
  | _ => g
/-- CCWR (R100): bits 3 to 0 of x in each active lane. -/
def ccwrGroup (x : Issue) : Group :=
  let f (old : Mask) (k : Nat) : Mask := Mask.where_ (fun l => if Mask.has x.act l then (x.opX.at32 l).getLsbD k else Mask.has old l)
  { x.g with c := f x.g.c 3, z := f x.g.z 2, n := f x.g.n 1, vf := f x.g.vf 0 }
/-- LNWR (R155): lane k of the register; none at or above the width. -/
def lnwrLane (x : Issue) : Nat := (x.opX.at32 0).toNat
def lnwrGroup (x : Issue) : Group :=
  if lnwrLane x < x.g.width ∧ lnwrLane x < 64 then x.g.writeLanes x.fd.toNat (1#64 <<< lnwrLane x) (List.replicate 64 (x.opY.at32 0)) else x.g
def lnwrOk (x : Issue) : Bool :=
  ((x.opX.uni && x.opY.uni) || x.act == 0) && (x.priv || !decide (lnwrLane x < x.g.width) || Mask.has x.e.mask (lnwrLane x))
/-- BIND (R163): one entry, holding every lane, none parked, and a width of whole integers. -/
def bindOk (x : Issue) (n : Nat) : Bool :=
  decide (entryCount x.g ≤ 1) && x.g.warps.all (fun w => !w.parked) && x.e.mask == x.g.all && decide (x.g.width % 2 ^ n = 0)

def groupEffect (i : Instr) (x : Issue) : Option Effect :=
  match i with
  | .mts _ => some { srcs := [x.opX], group := mtsGroup x }
  | .ccwr _ => some { srcs := [x.opX], dests := [.cc], group := (ccwrGroup x).orFsr (wobFlag [x.opX]) }
  | .lnwr _ => some { srcs := [x.opX, x.opY], dests := [.v x.fd.toNat], ok := lnwrOk x, group := (lnwrGroup x).orFsr (wobFlag [x.opX, x.opY]) }
  | .bind a => some { ok := bindOk x (a.imm.toNat % 8), group := { x.g with limb := BitVec.ofNat 32 (256 + a.imm.toNat % 8) } }
  | .unbind _ => some { group := { x.g with limb := 0 } }
  | .amaxclr _ => some { group := clearedAmax x x.g }
  | .nop _ => some { group := x.g }
  | .waitdc a => some { ok := x.act == 0 || (decide (x.g.old.dcv (a.imm.toNat % 8) ≤ a.imm.toNat / 8) && !x.g.held.any (fun q => q.1 == a.imm.toNat % 8)), group := x.g }
  | _ => none

/-- The instruction completes with its effect: the group is as `r` says, and nothing else changed. -/
def Effects (i : Instr) (r : Issue → Option Effect) : Prop :=
  ∀ (s : State) (x : Issue) (prio : BitVec 8) (k : Effect), WellFormed i → Issues s i x prio → r x = some k → k.ok = true →
    Readable k.srcs → Free x k.dests →
    ∃ t, exec i s = .next t ∧ Commits x prio (x.read k.srcs s) t k.group

/-! ## Floating-point results -/

/-- What a floating-point instruction computes in each lane (R101 to R109): the value, the flags it raises, and the magnitudes it
shows to AMAX (R33). -/
structure FLane (w : Nat) where
  srcs : List Opr
  ext : Ext := .z
  val : Nat → BitVec w
  fl : Nat → FFlags := fun _ => 0
  codes : Nat → Codes
  amax : List Nat := []

/-- FloatCC (R89): zero, sign and NaN of an FP32 word. -/
def fCodes (r : Word) : Codes := ⟨false, (r &&& 0x7FFFFFFF) == 0, r.msb, decide (0x7F800000 < (r &&& 0x7FFFFFFF).toNat)⟩
def noCodes : Codes := ⟨false, false, false, false⟩
/-- A result and its flags of each lane, with FloatCC. -/
def fRow (srcs : List Opr) (f : Nat → Nat × FFlags) : FLane 32 :=
  { srcs := srcs, val := fun l => BitVec.ofNat 32 (f l).1, fl := fun l => (f l).2, codes := fun l => fCodes (BitVec.ofNat 32 (f l).1) }

/-- The modifiers of R101 on a word whose sign bit is `b`: absolute value, then negation; and the flush of R18. -/
def fIn (f : Fmt) (flush abs neg : Bool) (v : Nat) : Nat :=
  let m := v % 2 ^ (f.bits - 1)
  let s := (if abs then false else v.testBit (f.bits - 1)) ^^ neg
  let m := if flush && decide (m < 2 ^ f.fbits) then 0 else m
  m + if s then 2 ^ (f.bits - 1) else 0
def fX (x : Issue) (l : Nat) : Nat := fIn .fp32 x.fin (x.mb 2) (x.mb 0) (x.opX.at32 l).toNat
def fY (x : Issue) (l : Nat) : Nat := fIn .fp32 x.fin (x.mb 3) (x.mb 1) (x.opY.at32 l).toNat
def fZ (x : Issue) (l : Nat) : Nat := fIn .fp32 x.fin false (x.mb 4) (x.opZ.at32 l).toNat
def plainIn (x : Issue) (f : Fmt) (v : Nat) : Nat := fIn f x.fin false false v

/-- One rounding of a value that may be NaN, infinite or exact, with the flags of its operation (R14, R15, R20). -/
def rounded (f : Fmt) (o : RoundOpt) (v : Fv × FFlags) : Nat × FFlags := ((f.roundFv o v.1).1, v.2 ||| (f.roundFv o v.1).2)
def fAdd (f : Fmt) (o : RoundOpt) (a b : Nat) : Nat × FFlags := rounded f o (fvAdd o.mode (f.decode a) (f.decode b))
def fSub (f : Fmt) (o : RoundOpt) (a b : Nat) : Nat × FFlags := rounded f o (fvAdd o.mode (f.decode a) (f.decode b).neg)
def fMul (f : Fmt) (o : RoundOpt) (a b : Nat) : Nat × FFlags := rounded f o (fvMul (f.decode a) (f.decode b))
def fFma (f : Fmt) (o : RoundOpt) (a b c : Nat) : Nat × FFlags :=
  let p := fvMul (f.decode a) (f.decode b)
  let v := fvAdd o.mode p.1 (f.decode c)
  rounded f o (v.1, p.2 ||| v.2)

/-- FCMP (R102): whether predicate k holds of an order, none when a NaN is present. -/
def pred (k : Nat) (o : Option Ordering) : Bool :=
  match k, o with
  | 0, o => o == some .eq
  | 1, o => o != some .eq
  | 2, o => o == some .lt
  | 3, o => o == some .lt || o == some .eq
  | 4, o => o == some .gt
  | 5, o => o == some .gt || o == some .eq
  | 6, o => o.isNone
  | _, o => o.isSome
def fcmpRow (x : Issue) : FLane 32 :=
  let o (l : Nat) := fvCmp (Fmt.fp32.decode (plainIn x .fp32 (x.opX.at32 l).toNat)) (Fmt.fp32.decode (plainIn x .fp32 (x.opY.at32 l).toNat))
  { srcs := [x.opX, x.opY], ext := .s, val := fun l => if pred (x.m.toNat % 8) (o l) then 0xFFFFFFFF else 0,
    codes := fun l => ⟨o l != some .lt, o l == some .eq, o l == some .lt, (o l).isNone⟩ }

/-- The element at position p of a word (R106), and a word with it replaced. -/
def elAt (b p v : Nat) : Nat := v / 2 ^ (b * p) % 2 ^ b
def withEl (b p : Nat) (v : Word) (e : Nat) : Word :=
  let m : Word := BitVec.ofNat 32 (2 ^ b - 1) <<< (b * p)
  (v &&& ~~~m) ||| (BitVec.ofNat 32 (e % 2 ^ b) <<< (b * p))
/-- The magnitude AMAX is shown (R33): canonical NaN for a NaN, else the exact FP32 of |x|. -/
def shown (f : Fmt) (b : Nat) : Nat := if f.decode b = .nan then 0x7FC00000 else toFp32 f b % 2 ^ 31
def scaleOf (x : Issue) (o : Opr) (l : Nat) : Fv := Fmt.fp32.decode (plainIn x .fp32 (o.at32 l).toNat)
def zfld (x : Issue) : Nat := x.a.z.toNat

/-- FCVT (R107) and ICVT (R108): an element converted, placed, the rest of d kept unless ZF. -/
def cvtRow (x : Issue) (o : RoundOpt) (v : Nat → Fv) (amax : List Nat) : FLane 32 :=
  let df := fmtOf (zfld x % 8)
  let r (l : Nat) := convert df o (v l) (scaleOf x x.opY l)
  let os := if x.mb 5 then [x.opX, x.opY] else [x.opX, x.opY, x.opD]
  { srcs := os, val := fun l => withEl df.bits (x.m.toNat / 2 % 4) (if x.mb 5 then 0 else x.opD.at32 l) (r l).1, fl := fun l => (r l).2,
    codes := fun _ => noCodes, amax := amax }
def fcvtRow (x : Issue) : FLane 32 :=
  let sf := fmtOf (zfld x / 8 % 8)
  let e (l : Nat) : Nat := plainIn x sf (elAt sf.bits (x.m.toNat / 8 % 4) (x.opX.at32 l).toNat)
  cvtRow x { x.ro with sat := x.mb 0 } (fun l => sf.decode (e l)) ((Mask.lanes x.act).map (fun l => shown sf (e l)))
def icvtRow (x : Issue) : FLane 32 :=
  let w := zfld x / 8 % 4
  let b := 8 * 2 ^ w
  let e (l : Nat) : Nat := elAt b (x.m.toNat / 8 % 4) (if w = 3 then (x.opX.at64 l).toNat else (x.opX.at32 l).toNat)
  cvtRow x x.ro (fun l => intFv (val (x.mb 0) (BitVec.ofNat b (e l)))) []
/-- FICVT (R108): the product rounded to a b-bit integer, extended to the destination (R11). -/
def ficvtVal (x : Issue) (w l : Nat) : DWord × FFlags :=
  let sf := fmtOf (zfld x / 8 % 8)
  let b := 8 * 2 ^ w
  let p := fvMul (sf.decode (plainIn x sf (elAt sf.bits (x.m.toNat / 8 % 4) (x.opX.at32 l).toNat))) (scaleOf x x.opY l)
  let r := fvToInt x.rm (!x.mb 0) b p.1
  (BitVec.ofInt 64 (val (x.mb 0) (r.1.setWidth b)), p.2 ||| r.2)
def ficvtRow (x : Issue) : FLane 32 :=
  { srcs := [x.opX, x.opY], ext := uExt (x.mb 0), val := fun l => (ficvtVal x (zfld x % 4) l).1.setWidth 32,
    fl := fun l => (ficvtVal x (zfld x % 4) l).2, codes := fun _ => noCodes }
def ficvt64Row (x : Issue) : FLane 64 :=
  { srcs := [x.opX, x.opY], val := fun l => (ficvtVal x 3 l).1, fl := fun l => (ficvtVal x 3 l).2, codes := fun _ => noCodes }
/-- PACK (R109). -/
def packRow (x : Issue) : FLane 32 :=
  let df := fmtOf (x.m.toNat % 8)
  let i (o : Opr) (l : Nat) : Nat := plainIn x .fp32 (o.at32 l).toNat
  let c (o : Opr) (l : Nat) := convert df { x.ro with sat := x.mb 3 } (Fmt.fp32.decode (i o l)) (scaleOf x x.opZ l)
  let k := if x.mb 4 then 2 else 0
  { srcs := if df.bits = 16 then [x.opX, x.opY, x.opZ] else [x.opX, x.opY, x.opZ, x.opD],
    val := fun l => if df.bits = 16 then withEl 16 1 (withEl 16 0 0 (c x.opX l).1) (c x.opY l).1
      else withEl 8 (k + 1) (withEl 8 k (x.opD.at32 l) (c x.opX l).1) (c x.opY l).1,
    fl := fun l => (c x.opX l).2 ||| (c x.opY l).2, codes := fun _ => noCodes,
    amax := (Mask.lanes x.act).flatMap (fun l => [shown .fp32 (i x.opX l), shown .fp32 (i x.opY l)]) }
def unpkRow (x : Issue) : FLane 32 :=
  let sf := fmtOf (x.m.toNat % 8)
  { srcs := [x.opX], val := fun l => BitVec.ofNat 32 (toFp32 sf (plainIn x sf (elAt sf.bits (x.m.toNat / 8 % 4) (x.opX.at32 l).toNat))),
    codes := fun _ => noCodes }
/-- A packed instruction (R104): both halves in the element format; an inline constant is rounded to it first (R43). -/
def packedRow (x : Issue) (f : Fmt) (op : RoundOpt → Nat → Nat → Nat → Nat × FFlags) : FLane 32 :=
  let h (p : BitVec 9) (o : Opr) (k l : Nat) : Nat := elAt 16 k (packed f p (o.at32 l).toNat)
  let r (k l : Nat) := op x.ro (fIn f x.fin (x.mb 2) (x.mb 0) (h x.a.x x.opX k l)) (fIn f x.fin (x.mb 3) (x.mb 1) (h x.a.y x.opY k l))
    (fIn f x.fin false (x.mb 4) (h x.a.z x.opZ k l))
  { srcs := [x.opX, x.opY, x.opZ], val := fun l => BitVec.ofNat 16 (r 1 l).1 ++ BitVec.ofNat 16 (r 0 l).1,
    fl := fun l => (r 0 l).2 ||| (r 1 l).2, codes := fun _ => noCodes }

/-- FMIN and FMAX (R19): a NaN gives the other operand, and of two equal values the sign decides. -/
def fminmax (mx : Bool) (a b : Nat) : Nat :=
  match fvCmp (Fmt.fp32.decode a) (Fmt.fp32.decode b) with
  | none => if Fmt.fp32.decode a ≠ .nan then a else if Fmt.fp32.decode b ≠ .nan then b else 0x7FC00000
  | some .lt => if mx then b else a
  | some .gt => if mx then a else b
  | some .eq => if a.testBit 31 = mx then b else a

/-- FCLASS (R103): the one-hot class of an FP32, FP16 or BF16 word. -/
def classRow (x : Issue) : FLane 32 :=
  let f : Fmt := match x.m.toNat % 4 with | 0 => .fp32 | 1 => .fp16 | _ => .bf16
  let v (l : Nat) : Word := BitVec.ofNat 32 (classBit f ((x.opX.at32 l).toNat % 2 ^ f.bits))
  { srcs := [x.opX], val := v, codes := fun l => plain (v l) }

/-- FP32 arithmetic, comparisons, classes, packed arithmetic and conversions of 32-bit results. -/
def floatLane (i : Instr) (x : Issue) : Option (FLane 32) :=
  match i with
  | .fadd _ => some (fRow [x.opX, x.opY] (fun l => fAdd .fp32 x.ro (fX x l) (fY x l)))
  | .fsub _ => some (fRow [x.opX, x.opY] (fun l => fSub .fp32 x.ro (fX x l) (fY x l)))
  | .fmul _ => some (fRow [x.opX, x.opY] (fun l => fMul .fp32 x.ro (fX x l) (fY x l)))
  | .ffma _ => some (fRow [x.opX, x.opY, x.opZ] (fun l => fFma .fp32 x.ro (fX x l) (fY x l) (fZ x l)))
  | .fmin _ => some (fRow [x.opX, x.opY] (fun l => (fminmax false (fX x l) (fY x l), 0)))
  | .fmax _ => some (fRow [x.opX, x.opY] (fun l => (fminmax true (fX x l) (fY x l), 0)))
  | .fcmp _ => some (fcmpRow x)
  | .fclass _ => some (classRow x)
  | .frnd _ => some (fRow [x.opX] (fun l => (frnd x.rm (plainIn x .fp32 (x.opX.at32 l).toNat), 0)))
  | .hadd2 _ => some (packedRow x .fp16 (fun o a b _ => fAdd .fp16 o a b))
  | .hmul2 _ => some (packedRow x .fp16 (fun o a b _ => fMul .fp16 o a b))
  | .hfma2 _ => some (packedRow x .fp16 (fFma .fp16))
  | .badd2 _ => some (packedRow x .bf16 (fun o a b _ => fAdd .bf16 o a b))
  | .bmul2 _ => some (packedRow x .bf16 (fun o a b _ => fMul .bf16 o a b))
  | .bfma2 _ => some (packedRow x .bf16 (fFma .bf16))
  | .fcvt _ => some (fcvtRow x)
  | .icvt _ => some (icvtRow x)
  | .ficvt _ => if zfld x % 4 = 3 then none else some (ficvtRow x)
  | .pack _ => some (packRow x)
  | .unpk _ => some (unpkRow x)
  | _ => none

/-- No lane of the issue raises an exception that FCR enables (R34). -/
def NoTrap (x : Issue) (fl : Nat → FFlags) : Prop := ∀ l, Mask.has x.act l = true → fl l &&& x.g.old.fcr.extractLsb' 4 5 = 0
/-- The flags of the active lanes together (R32). -/
def allFlags (x : Issue) (fl : Nat → FFlags) : FFlags := (Mask.lanes x.act).foldl (fun m l => m ||| fl l) 0
/-- FSR gains the lanes' flags and WOB (R32, R221). -/
def fsrGain (x : Issue) (os : List Opr) (fl : Nat → FFlags) : Word := (allFlags x fl).zeroExtend 32 ||| wobFlag os

/-- A floating-point instruction completes: result, codes, flags and AMAX (R32 to R34, R88, R89). -/
def ComputesF32 (i : Instr) (r : Issue → Option (FLane 32)) : Prop :=
  ∀ (s : State) (x : Issue) (prio : BitVec 8) (k : FLane 32), WellFormed i → Issues s i x prio → r x = some k → Readable k.srcs →
    Free x (x.dests 1) → NoTrap x k.fl →
    ∃ t g, exec i s = .next t ∧ Commits x prio (x.read k.srcs s) t (k.amax.foldl (fun g m => g.updAmax m) g) ∧
      Result32 x g k.ext k.val (fun l => (k.codes l).c) (fun l => (k.codes l).z) (fun l => (k.codes l).n) (fun l => (k.codes l).v)
        (fsrGain x k.srcs k.fl)
def ComputesF64 (i : Instr) (r : Issue → Option (FLane 64)) : Prop :=
  ∀ (s : State) (x : Issue) (prio : BitVec 8) (k : FLane 64), WellFormed i → Issues s i x prio → r x = some k → Readable k.srcs →
    Free x (x.dests 2) → NoTrap x k.fl →
    ∃ t g, exec i s = .next t ∧ Commits x prio (x.read k.srcs s) t (k.amax.foldl (fun g m => g.updAmax m) g) ∧
      Result64 x g k.val (fun l => (k.codes l).c) (fun l => (k.codes l).z) (fun l => (k.codes l).n) (fun l => (k.codes l).v)
        (fsrGain x k.srcs k.fl)

/-! ## Results that come late -/

/-- What a long-latency instruction promises in each lane; `ok` is what its entry asks of its operands. -/
structure LateLane (w : Nat) where
  srcs : List Opr
  ok : Bool := true
  ext : Ext := .z
  val : Nat → BitVec w
  fl : Nat → FFlags := fun _ => 0
  codes : Nat → Codes := fun _ => noCodes

/-- A special function (R105) of a flushed operand. -/
def sfRow (x : Issue) (f : RoundOpt → Word → Fv → Nat × FFlags) : LateLane 32 :=
  let r (l : Nat) := f x.ro (BitVec.ofNat 32 (plainIn x .fp32 (x.opX.at32 l).toNat)) (Fmt.fp32.decode (plainIn x .fp32 (x.opX.at32 l).toNat))
  { srcs := [x.opX], val := fun l => BitVec.ofNat 32 (r l).1, fl := fun l => (r l).2, codes := fun l => fCodes (BitVec.ofNat 32 (r l).1) }
def fdivRow (x : Issue) : LateLane 32 :=
  let r (l : Nat) := sfDiv x.ro (Fmt.fp32.decode (fIn .fp32 x.fin false (x.mb 0) (x.opX.at32 l).toNat))
    (Fmt.fp32.decode (fIn .fp32 x.fin false (x.mb 1) (x.opY.at32 l).toNat))
  { srcs := [x.opX, x.opY], val := fun l => BitVec.ofNat 32 (r l).1, fl := fun l => (r l).2, codes := fun l => fCodes (BitVec.ofNat 32 (r l).1) }

/-- SHFL (R147): the source lane of lane l within its segment of S lanes, none where there is none. -/
def shflFrom (x : Issue) (l : Nat) : Option Nat :=
  let S := 64 / 2 ^ (x.m.toNat / 4 % 8)
  let b := l / S * S
  let k := (x.opY.at32 l).toNat
  let j : Option Nat := match x.m.toNat % 4 with
    | 0 => some (b + k % S)
    | 1 => if b + k ≤ l then some (l - k) else none
    | 2 => if l + k < b + S then some (l + k) else none
    | _ => some (b + ((l - b) ^^^ (k % S)))
  j.filter (fun j => Mask.has x.act j)
def shflRow (x : Issue) : LateLane 32 :=
  let r (l : Nat) : Word := x.opX.at32 ((shflFrom x l).getD l)
  { srcs := [x.opX, x.opY], val := r, codes := fun l => ⟨(shflFrom x l).isSome, r l == 0, (r l).msb, false⟩ }
/-- VOTE (R148) over the active lanes. -/
def voteRow (x : Issue) : Option (LateLane 32) :=
  let b (v : Bool) : LateLane 32 := { srcs := [x.opX], val := fun _ => if v then 1 else 0 }
  match x.m.toNat % 4 with
  | 0 => some (b ((Mask.lanes x.act).all (fun l => x.opX.at32 l != 0)))
  | 1 => some (b ((Mask.lanes x.act).any (fun l => x.opX.at32 l != 0)))
  | 2 => some (b ((Mask.lanes x.act).all (fun l => (Mask.lanes x.act).all (fun j => x.opX.at32 l == x.opX.at32 j))))
  | _ => none
def ballotRow (x : Issue) : LateLane 64 :=
  { srcs := [x.opX], val := fun _ => x.act &&& Mask.where_ (fun l => x.opX.at32 l != 0) }
/-- BCAST (R148): the lane read is y's where it is active, else the lowest active one. -/
def bcastRow (x : Issue) : LateLane 32 :=
  let k := (x.opY.at32 0).toNat
  let l := if x.mb 0 = false ∧ k < 64 ∧ Mask.has x.act k then k else (Mask.lanes x.act).headD 64
  { srcs := [x.opX, x.opY], ok := x.opY.uni || x.act == 0, val := fun _ => if x.act = 0 then 0 else x.opX.at32 l }
/-- MATCH (R148): the active lanes of equal value; with ALL every active lane or none. -/
def matchRow (x : Issue) : LateLane 64 :=
  let v (l : Nat) : DWord := if x.mb 0 then x.opX.at64 l else (x.opX.at32 l).zeroExtend 64
  let same := (Mask.lanes x.act).all (fun l => (Mask.lanes x.act).all (fun j => v l == v j))
  { srcs := [x.opX], val := fun l => if x.mb 1 then (if same then x.act else 0) else x.act &&& Mask.where_ (fun j => v j == v l) }
/-- LNRD (R154) reads one lane of the register of X, which REP may step (R77), whatever the masks; no lane at or above the width. -/
def lnrdLane (x : Issue) (j : Nat) : Word :=
  if (x.opY.at32 0).toNat < x.g.width then (x.g.vreg ((x.step 1 x.n.x x.a.x).toNat + j)).lane (x.opY.at32 0).toNat else 0
def lnrdClean (x : Issue) (n : Nat) : Bool :=
  (List.range n).all (fun j => !((x.opY.at32 0).toNat < 64 && Mask.has (x.g.vpois ((x.step 1 x.n.x x.a.x).toNat + j)) (x.opY.at32 0).toNat))
def lnrdRow (x : Issue) : LateLane 32 :=
  { srcs := [x.opY], ok := (x.opY.uni || x.act == 0) && lnrdClean x 1, val := fun _ => lnrdLane x 0 }
def lnrd64Row (x : Issue) : LateLane 64 :=
  { srcs := [x.opY], ok := (x.opY.uni || x.act == 0) && lnrdClean x 2, val := fun _ => lnrdLane x 1 ++ lnrdLane x 0 }
/-- XRD (R153) once reduction number e has committed: XR, in full for an S register. -/
def xrdDue (x : Issue) : Bool :=
  (x.opX.uni || x.act == 0) && decide ((x.g.xrseq.extractLsb' 0 32 - x.opX.at32 0).toNat < 2 ^ 31)
def xrdRow (x : Issue) : LateLane 32 := { srcs := [x.opX], ok := xrdDue x, val := fun _ => x.g.xr.extractLsb' 0 32 }
def xrdSRow (x : Issue) : LateLane 64 := { srcs := [x.opX], ok := xrdDue x, val := fun _ => x.g.xr }

/-- A whole integer of the bound group (R164), n bits wide, and its reading as a signed one. -/
def bigN (x : Issue) : Nat := 32 * 2 ^ (x.g.limb.toNat % 8)
def big (x : Issue) (p : Opr) (l : Nat) : Int := (limbInt x p l : Int)
def bigS (n : Nat) (v : Int) : Int := if v < 2 ^ (n - 1) then v else v - 2 ^ n
/-- The limb of lane `l`, and the top lane of its integer. -/
def limbIx (x : Issue) (l : Nat) : Nat := l % 2 ^ (x.g.limb.toNat % 8)
def isTop (x : Issue) (l : Nat) : Bool := limbIx x l + 1 == 2 ^ (x.g.limb.toNat % 8)
/-- The group is bound, the word has COND AL, and every integer of the entry is whole (R163, R164). -/
def limbOk (x : Issue) : Bool := (limbChecks x).isEmpty
/-- A limb instruction (R165, R166): the integer result of each lane, its top lane's C and V, and the lower lanes' C. -/
def limbRow (x : Issue) (srcs : List Opr) (ok : Bool) (r : Nat → Int) (z : Nat → Int) (c v : Nat → Bool) (low : Nat → Nat → Bool) : LateLane 32 :=
  { srcs := srcs, ok := limbOk x && ok, val := fun l => BitVec.ofInt 32 (r l % 2 ^ bigN x / 2 ^ (32 * limbIx x l)),
    codes := fun l => ⟨if isTop x l then c l else low l (limbIx x l), z l % 2 ^ bigN x == 0, decide (2 ^ (bigN x - 1) ≤ z l % 2 ^ bigN x), isTop x l && v l⟩ }
def outOf (n : Nat) (v : Int) : Bool := decide (¬ (-(2 ^ (n - 1) : Int) ≤ v ∧ v < 2 ^ (n - 1)))
/-- A sum, and a difference, of whole integers with the carry out of each limb. -/
def limbSum (x : Issue) (cin : Nat → Int) : LateLane 32 :=
  let a := big x x.opX; let b := big x x.opY; let n := bigN x
  limbRow x [x.opX, x.opY] true (fun l => a l + b l + cin l) (fun l => a l + b l + cin l) (fun l => decide (2 ^ n ≤ a l + b l + cin l))
    (fun l => outOf n (bigS n (a l) + bigS n (b l) + cin l))
    (fun l i => decide (2 ^ (32 * (i + 1)) ≤ a l % 2 ^ (32 * (i + 1)) + b l % 2 ^ (32 * (i + 1)) + cin l))
def limbDiff (x : Issue) (srcs : List Opr) (a b bin : Nat → Int) (r : Nat → Int) : LateLane 32 :=
  let n := bigN x
  limbRow x srcs true r (fun l => a l - b l - bin l) (fun l => decide (b l + bin l ≤ a l))
    (fun l => outOf n (bigS n (a l) - bigS n (b l) - bin l))
    (fun l i => decide (b l % 2 ^ (32 * (i + 1)) + bin l ≤ a l % 2 ^ (32 * (i + 1))))
def limbLogic (x : Issue) (srcs : List Opr) (ok : Bool) (r : Nat → Int) (c : Nat → Bool) : LateLane 32 :=
  limbRow x srcs ok r r c (fun _ => false) (fun _ _ => false)
/-- The C flag of the integer's top lane before the instruction (R165). -/
def topC (x : Issue) (l : Nat) : Bool := Mask.has x.g.c (l / 2 ^ (x.g.limb.toNat % 8) * 2 ^ (x.g.limb.toNat % 8) + 2 ^ (x.g.limb.toNat % 8) - 1)
/-- −1, 0 or 1 in every limb lane (R165). -/
def lcmpVal (x : Issue) (a b : Int) : Int :=
  let n := bigN x
  let lt := if x.mb 0 then decide (a < b) else decide (bigS n a < bigS n b)
  if a = b then 0 else if lt then 2 ^ n - 1 else (2 ^ n - 1) / (2 ^ 32 - 1)

/-- The long-latency instructions of 32-bit results. -/
def lateLane (i : Instr) (x : Issue) : Option (LateLane 32) :=
  let a := big x x.opX
  let b := big x x.opY
  let k := (x.opY.at32 0).toNat
  let u := x.opY.uni || x.act == 0
  let n := bigN x
  match i with
  | .frcp _ => some (sfRow x (fun o _ v => sfRcp o v))
  | .frsq _ => some (sfRow x (fun o _ v => sfRsq o v))
  | .fsqrt _ => some (sfRow x (fun o _ v => sfSqrt o v))
  | .fexp2 _ => some (sfRow x sfExp2)
  | .flog2 _ => some (sfRow x sfLog2)
  | .fsin _ => some (sfRow x (sfSin false))
  | .fcos _ => some (sfRow x (sfSin true))
  | .ftanh _ => some (sfRow x sfTanh)
  | .fdiv _ => some (fdivRow x)
  | .shfl _ => some (shflRow x)
  | .vote _ => voteRow x
  | .bcast _ => some (bcastRow x)
  | .lnrd _ => if x.mb 0 then none else some (lnrdRow x)
  | .xrd _ => if isS x.fd then none else some (xrdRow x)
  | .ladd _ => some (limbSum x (fun _ => 0))
  | .ladc _ => some (limbSum x (fun l => if topC x l then 1 else 0))
  | .lsub _ => some (limbDiff x [x.opX, x.opY] a b (fun _ => 0) (fun l => a l - b l))
  | .lsbc _ => some (limbDiff x [x.opX, x.opY] a b (fun l => if topC x l then 0 else 1) (fun l => a l - b l - (if topC x l then 0 else 1)))
  | .lneg _ => some (limbDiff x [x.opX] (fun _ => 0) a (fun _ => 0) (fun l => -(a l)))
  | .lcmp _ => some (limbDiff x [x.opX, x.opY] a b (fun _ => 0) (fun l => lcmpVal x (a l) (b l)))
  | .lshl _ => some (limbLogic x [x.opX, x.opY] u (fun l => if k < n then a l * 2 ^ k else 0) (fun _ => false))
  | .lshr _ => some (limbLogic x [x.opX, x.opY] u (fun l => if k < n then a l / 2 ^ k else 0) (fun _ => false))
  | .lsar _ => some (limbLogic x [x.opX, x.opY] u (fun l => bigS n (a l) / 2 ^ (min k (n - 1))) (fun _ => false))
  | .lmad _ =>
    let f (l : Nat) : Int := a l * k + big x x.opZ l
    some (if x.mb 0 then limbLogic x [x.opX, x.opY, x.opZ] u (fun l => f l / 2 ^ n) (fun _ => false)
      else limbLogic x [x.opX, x.opY, x.opZ] u f (fun l => decide (2 ^ n ≤ f l)))
  | _ => none

/-- The long-latency instructions of 64-bit results. -/
def late64 (i : Instr) (x : Issue) : Option (LateLane 64) :=
  match i with
  | .vote _ => if x.m.toNat % 4 = 3 then some (ballotRow x) else none
  | .matchI _ => some (matchRow x)
  | .lnrd _ => if x.mb 0 then some (lnrd64Row x) else none
  | .xrd _ => if isS x.fd then some (xrdSRow x) else none
  | _ => none

/-- The flags that each active lane raises when its result commits (R35, R221). -/
def laneFlags (x : Issue) (os : List Opr) (fl : Nat → FFlags) : List Word :=
  (List.range 64).map (fun l => if Mask.has x.act l then (fl l).zeroExtend 32 ||| wobFlag os else 0)
/-- A long-latency instruction completes its issue (R73): the next state holds its promise, whose writes are the result. -/
def Promises32 (i : Instr) (r : Issue → Option (LateLane 32)) : Prop :=
  ∀ (s : State) (x : Issue) (prio : BitVec 8) (k : LateLane 32), WellFormed i → Issues s i x prio → r x = some k → k.ok = true →
    Readable k.srcs → Free x (x.dests 1) → NoTrap x k.fl →
    ∃ t p, exec i s = .next t ∧ Promises x prio 1 (x.read k.srcs s) t p ∧ p.flags = laneFlags x k.srcs k.fl ∧
      Result32 x (p.on x.g) k.ext k.val (fun l => (k.codes l).c) (fun l => (k.codes l).z) (fun l => (k.codes l).n) (fun l => (k.codes l).v) 0
def Promises64 (i : Instr) (r : Issue → Option (LateLane 64)) : Prop :=
  ∀ (s : State) (x : Issue) (prio : BitVec 8) (k : LateLane 64), WellFormed i → Issues s i x prio → r x = some k → k.ok = true →
    Readable k.srcs → Free x (x.dests 2) → NoTrap x k.fl →
    ∃ t p, exec i s = .next t ∧ Promises x prio 2 (x.read k.srcs s) t p ∧ p.flags = laneFlags x k.srcs k.fl ∧
      Result64 x (p.on x.g) k.val (fun l => (k.codes l).c) (fun l => (k.codes l).z) (fun l => (k.codes l).n) (fun l => (k.codes l).v) 0

/-- One operation of RED and SCAN (R149) on n-bit values. -/
def redOp2 (op n : Nat) (a b : Nat) : Nat :=
  match op with
  | 0 => (a + b) % 2 ^ n
  | 1 => if (BitVec.ofNat n a).toInt ≤ (BitVec.ofNat n b).toInt then a else b
  | 2 => if (BitVec.ofNat n a).toInt ≤ (BitVec.ofNat n b).toInt then b else a
  | 3 => min a b
  | 4 => max a b
  | 5 => a &&& b
  | 6 => a ||| b
  | _ => a ^^^ b
/-- The operation over a list of lanes, in order; the identity of R30 for none. -/
def redOver (x : Issue) (ls : List Nat) : Nat :=
  match ls with
  | [] => redIdent (redOp x) (redN x)
  | a :: r => r.foldl (fun t l => redOp2 (redOp x) (redN x) t (redVal x x.opX l)) (redVal x x.opX a)
/-- A NaN is the canonical one (R14); other results are as they come. -/
def fpFin (v : Nat) : Nat := if Fmt.fp32.decode v = .nan then 0x7FC00000 else v % 2 ^ 32
/-- The tree of R31 over the active lanes; the identity of R30 for none. -/
def redTreeVal (x : Issue) : Nat :=
  match (redTree (redStep x (redOp x) 32) 6
      ((List.range 64).map (fun l => if Mask.has x.act l then some (redVal x x.opX l) else none))).1 with
  | none => redIdent (redOp x) 32
  | some v => fpFin v
/-- FP32 values folded in order, from the first of them or from +0.0 (R151); the identity for none. -/
def seqOver (x : Issue) (zero : Bool) (ls : List Nat) : Nat :=
  match ls with
  | [] => redIdent (redOp x) 32
  | a :: r => fpFin ((if zero then ls else r).foldl (fun t l => (redStep x (redOp x) 32 t (redVal x x.opX l)).1)
      (if zero then 0 else redVal x x.opX a))
/-- XR and XRSEQ after a reduction of value v (R150, R152). -/
def withXr (x : Issue) (g : Group) (v : Nat) : Group :=
  { g with xr := if redN x = 32 ∧ redOp x ≤ 2 then (BitVec.ofNat 32 v).signExtend 64 else BitVec.ofNat 64 v,
           xrseq := (if x.act = 0 then 1#32 else 0#32) ++ (x.g.xrseq.extractLsb' 0 32 + 1) }
/-- A lane of 32 or 64 bits under W64. -/
def RedResult (x : Issue) (g : Group) (ext : Ext) (f : Nat → Nat) : Prop :=
  if redN x = 64 then Result64 x g (fun l => BitVec.ofNat 64 (f l)) noCode noCode noCode noCode 0
  else Result32 x g ext (fun l => BitVec.ofNat 32 (f l)) noCode noCode noCode noCode 0
/-- RED and SCAN (R150, R151) of the operations `sel` picks: `f` is each lane's value and `v` XR's. -/
def Reduces (i : Instr) (sel : Issue → Prop) (f : Issue → Nat → Nat) (v : Issue → Nat) : Prop :=
  ∀ (s : State) (x : Issue) (prio : BitVec 8), WellFormed i → Issues s i x prio → sel x → Readable [x.opX] →
    Free x (x.dests (if redN x = 64 then 2 else 1)) →
    ∃ t p g, exec i s = .next t ∧ Promises x prio (if redN x = 64 then 2 else 1) (x.read [x.opX] s) t p ∧
      RedResult x g (if redN x = 32 ∧ redOp x ≤ 2 then .s else .z) (f x) ∧ p.on x.g = withXr x g (v x)


/-! ## Control flow -/

/-- Lane `l` stands at `pc` with priority `prio` in an entry of the group (R121). -/
def StandsAt (g : Group) (l : Nat) (pc : DWord) (prio : BitVec 8) : Prop :=
  ∃ w ∈ g.warps, ∃ e ∈ w.entries, Mask.has e.mask l = true ∧ e.pc = pc ∧ e.prio = prio

/-- The lanes of an issuing entry have left it: lane l of `m` stands after the header `tgt l`, with that header's priority `pr l`,
and the lanes of other warps, and of the warp's other entries, that are not the issuing entry's stand where they stood. -/
structure Moved (x : Issue) (h : Group) (m : Mask) (tgt : Nat → DWord) (pr : Nat → BitVec 8) : Prop where
  lanes : ∀ l, Mask.has m l = true → StandsAt h l (tgt l + 8) (pr l)
  rest : ∀ e ∈ x.w.entries.drop 1, ∀ l, Mask.has e.mask l = true → Mask.has x.e.mask l = false → StandsAt h l e.pc e.prio
  warps : ∀ w ∈ x.g.warps, w.wid ≠ x.w.wid → ∀ e ∈ w.entries, ∀ l, Mask.has e.mask l = true → Mask.has x.e.mask l = false →
    StandsAt h l e.pc e.prio

/-- The header at `t` is read, is aligned and is a header, with priority `p` (R112, R431). -/
def HeaderAt (x : Issue) (t : DWord) (p : BitVec 8) : Prop := t.toNat % 8 = 0 ∧ ∀ m, nextHeader x t m = .ok p

/-- Whole integers stay together (R164): while the group is bound every lane of the entry goes to one place. -/
def Together (x : Issue) (tgt : Nat → Option DWord) : Prop :=
  x.g.limb.getLsbD 8 = true → ∀ l k, Mask.has x.e.mask l = true → Mask.has x.e.mask k = true → tgt l = tgt k

/-- The target of a direct branch (R63): h + 8 × SInt(OFF, 36). -/
def direct (x : Issue) (a : BArgs) : DWord := x.e.h + BitVec.ofInt 64 (8 * a.off.toInt)
/-- Passing lanes go to `f`, the others to h'. -/
def passOr (x : Issue) (f : Nat → DWord) (l : Nat) : DWord := if Mask.has x.act l then f l else x.hn

/-- The link h' in the pair of registers from `r` of the passing lanes (R113). -/
structure Linked (x : Issue) (r : Nat) (fl : Word) (g : Group) : Prop where
  rest : g = { x.g with v := g.v, vpoison := g.vpoison, fsr := x.g.fsr ||| fl }
  vreg : ∀ q l, l < x.g.width → l < 64 → (g.vreg q).lane l =
    if q = r ∧ Mask.has x.act l then x.hn.extractLsb' 0 32 else if q = r + 1 ∧ Mask.has x.act l then x.hn.extractLsb' 32 32
    else (x.g.vreg q).lane l
structure LinkedS (x : Issue) (r : Nat) (fl : Word) (g : Group) : Prop where
  rest : g = { x.g with s := g.s, spoison := g.spoison, fsr := x.g.fsr ||| fl }
  sreg : ∀ q, g.sreg q = if q = r then x.hn else x.g.sreg q

/-- A branch: its sources, where a passing lane goes, the registers of its link, and what it makes of the group's registers. -/
structure Branch where
  srcs : List Opr := []
  dests : List RegId := []
  ok : Prop := True
  tgt : Nat → DWord
  link : Group → Prop

/-- BR, BRX, CALL, CALLX and RET (R111 to R113). -/
def branch (i : Instr) (x : Issue) : Option Branch :=
  match i with
  | .br a => some { tgt := fun _ => direct x a, link := fun g => g = x.g }
  | .brx _ => some { srcs := [x.opX], tgt := x.opX.at64, link := fun g => g = x.g.orFsr (wobFlag [x.opX]) }
  | .call a => some { dests := [.v 254, .v 255], tgt := fun _ => direct x a, link := Linked x 254 0 }
  | .callx a =>
    some { srcs := [x.opX], dests := if isS a.d then [.s (fnum a.d)] else [.v a.d.toNat, .v (a.d.toNat + 1)],
           ok := isS a.d = true → a.cond = 0, tgt := x.opX.at64,
           link := if isS a.d then LinkedS x (fnum a.d) (wobFlag [x.opX]) else Linked x a.d.toNat (wobFlag [x.opX]) }
  | .ret _ => some { srcs := [x.opX], tgt := x.opX.at64, link := fun g => g = x.g.orFsr (wobFlag [x.opX]) }
  | _ => none
/-- HINT[0] of a B-format word (R63). -/
def hinted (i : Instr) : Bool := match i with | .br a => a.hint.getLsbD 0 | .call a => a.hint.getLsbD 0 | _ => false
/-- What a control transfer does: each lane stands after the header of its target, the link is written, and a missed hint is counted (R63). -/
def Branches (i : Instr) : Prop :=
  ∀ (s : State) (x : Issue) (prio : BitVec 8) (k : Branch) (pr : Nat → BitVec 8), WellFormed i → Issues s i x prio → branch i x = some k →
    k.ok → Readable k.srcs → Free x k.dests → (∀ l, Mask.has x.e.mask l = true → HeaderAt x (passOr x k.tgt l) (pr l)) →
    Together x (fun l => some (passOr x k.tgt l)) →
    ∃ t g, exec i s = .next t ∧ k.link g ∧ OnlyGroup x.g.gid { x.read k.srcs s with cores := t.cores } t g ∧
      (∀ c, t.core c = if c = x.g.core ∧ hinted i = true ∧ x.act ≠ 0 ∧ x.act ≠ x.e.mask then { s.core c with hintMiss := (s.core c).hintMiss + 1 } else s.core c) ∧
      ∃ h, t.group x.g.gid = some h ∧ Moved x h x.e.mask (passOr x k.tgt) pr

/-- EXIT (R114) would leave the group without a thread. -/
def lastOnes (x : Issue) : Prop := ∀ w ∈ x.g.warps, ∀ e ∈ w.entries, ∀ l, Mask.has e.mask l = true → Mask.has x.act l = true
/-- The lanes `m` have left TAM and TFM (R114). -/
def tamLess (g : Group) (m : Mask) : List Handler := g.handlers.map (fun h => { h with tam := h.tam &&& ~~~m, tfm := h.tfm &&& ~~~m })
def Exits (a : RArgs) : Prop :=
  ∀ (s : State) (x : Issue) (prio pr : BitVec 8), WellFormed (.exitI a) → Issues s (.exitI a) x prio →
    (x.act ≠ x.e.mask → HeaderAt x x.hn pr) → Together x (fun l => if Mask.has x.act l then none else some x.hn) →
    (lastOnes x → x.act = 0 ∨ (x.g.dc.all (· == 0) = true ∧ x.g.old.dc.all (· == 0) = true ∧ x.g.held = [])) →
    ∃ t h, exec (.exitI a) s = .next t ∧ OnlyGroup x.g.gid s t { x.g with handlers := tamLess x.g x.act } ∧
      t.group x.g.gid = some h ∧ Moved x h (x.e.mask &&& ~~~x.act) (fun _ => x.hn) (fun _ => pr) ∧
      ((x.g.inHandler = true ∨ ((x.g.warps.flatMap (fun w => w.entries)).filter (fun e => e.mask &&& x.act != 0)).length ≤ 1) →
        ∀ l pc p, Mask.has x.act l = true → ¬ StandsAt h l pc p)

/-- YIELD (R115): every lane goes to h'; where one passes and a READY group waits on the core, the slot is given up, provided that
none of the group's warps stands inside a clause (R57, R129). -/
def Yields (a : RArgs) : Prop :=
  ∀ (s : State) (x : Issue) (prio pr : BitVec 8), WellFormed (.yieldI a) → Issues s (.yieldI a) x prio → HeaderAt x x.hn pr →
    ∃ t h, exec (.yieldI a) s = .next t ∧ OnlyGroup x.g.gid s t x.g ∧ t.group x.g.gid = some h ∧
      Moved x h x.e.mask (fun _ => x.hn) (fun _ => pr) ∧
      (x.act ≠ 0 → (∃ q ∈ s.groups, q.gid ≠ x.g.gid ∧ q.core = x.g.core ∧ q.st = .ready) →
        (∀ w ∈ x.g.warps, w.wid ≠ x.w.wid → w.inClause = false) → (∀ e ∈ x.w.entries.drop 1, e.pc = e.h + 8) → h.st = .ready)

/-- REP (R76): the next word, where it can be read, is one that may be repeated with these steps (R78). -/
def repFits (x : Issue) (mask nm1 : Nat) : Prop :=
  ∀ w f, clauseWord x.s x.g.core x.g.ctx x.priv x.e.mask x.cl x.e.h (x.e.pc + 8) = .word w → opMap x.cl.eng (opcOf w) = some f →
    repOk (f w) mask nm1 = true
def Repeats (a : IArgs) : Prop :=
  ∀ (s : State) (x : Issue) (prio : BitVec 8), WellFormed (.rep a) → Issues s (.rep a) x prio →
    repFits x (a.imm.toNat / 64 % 16) (a.imm.toNat % 64) →
    ∃ t h w, exec (.rep a) s = .next t ∧ OnlyGroup x.g.gid s t x.g ∧ t.group x.g.gid = some h ∧ h.warp x.w.wid = some w ∧
      w.rpc = BitVec.ofNat 32 (2 ^ 31 + a.imm.toNat / 64 % 16 * 2 ^ 12 + a.imm.toNat % 64)

/-- The trap vector `vec` admits a handler (R138, R323): it is not zero and a header of PRIO 255 without RF is read there; a
privileged handler may interrupt one that is not. -/
def CanEnter (x : Issue) (priv : Bool) (vec : DWord) : Prop :=
  (x.g.inHandler = false ∨ (priv = true ∧ x.g.inPriv = false)) ∧ vec ≠ 0 ∧
    ∃ w, fetchVia false x.s x.g.core x.g.ctx true x.e.mask vec = .word w ∧ vectorOk w = true
/-- Trap entry (R138, R141): the handler registers are written, the group's other warps freeze, and a warp of every lane stands
after the header at the vector, with PRIO 255. -/
structure Entered (s : State) (x : Issue) (code : Nat) (tfm : Mask) (taddr : DWord) (tinfo : Nat) (vec : DWord) (t : State) : Prop where
  state : t = { s with groups := t.groups }
  others : OtherGroupsSame x.g.gid s t
  group : ∃ h d, t.group x.g.gid = some h ∧ h = { x.g with handlers := h.handlers, warps := h.warps, issued := h.issued } ∧
    h.handlers = d :: x.g.handlers ∧ d.priv = decide (0x20 ≤ code) ∧ d.tam = x.e.mask ∧ d.tfm = tfm ∧
    d.tcause = BitVec.ofNat 32 (if 0x20 ≤ code then code + 256 else code) ∧ d.tpc = x.e.pc ∧ d.tprio = x.e.prio.zeroExtend 32 ∧
    d.taddr = taddr ∧ d.tinfo = BitVec.ofNat 32 tinfo ∧ d.rpc = x.w.rpc ∧ d.intr = some x.w.wid ∧
    (∀ w ∈ x.g.warps, h.mayRun w.wid = false) ∧
    ∃ w ∈ h.warps, h.mayRun w.wid = true ∧ w.entries = [{ prio := 255, pc := vec + 8, mask := x.g.all, h := vec }]

/-- TRAP (R116) reads the header of h' first (R431), and takes its cause in the passing lanes. -/
def Traps (a : IArgs) : Prop :=
  ∀ (s : State) (x : Issue) (prio pr : BitVec 8), WellFormed (.trapI a) → Issues s (.trapI a) x prio → HeaderAt x x.hn pr →
    (x.act ≠ 0 → CanEnter x false (s.ctx x.g.ctx).tvec →
      ∃ t, exec (.trapI a) s = .next t ∧ Entered s x 0x07 x.act 0 (a.imm.toNat % 256) (s.ctx x.g.ctx).tvec t) ∧
    (x.act = 0 → ∃ t h, exec (.trapI a) s = .next t ∧ OnlyGroup x.g.gid s t x.g ∧ t.group x.g.gid = some h ∧
      Moved x h x.e.mask (fun _ => x.hn) (fun _ => pr))
/-- BKPT (R116): BKPT, or DEBUGHALT with a debugger attached, in the passing lanes; where none passes the warp goes on to h'. -/
def Breaks (a : RArgs) : Prop :=
  ∀ (s : State) (x : Issue) (prio pr : BitVec 8), WellFormed (.bkpt a) → Issues s (.bkpt a) x prio →
    (x.act ≠ 0 → (s.ctx x.g.ctx).dbg = false → CanEnter x false (s.ctx x.g.ctx).tvec →
      ∃ t, exec (.bkpt a) s = .next t ∧ Entered s x 0x08 x.act 0 0 (s.ctx x.g.ctx).tvec t) ∧
    (x.act ≠ 0 → (s.ctx x.g.ctx).dbg = true → CanEnter x true (s.ctx x.g.ctx).ptvec →
      ∃ t, exec (.bkpt a) s = .next t ∧ Entered s x 0x22 x.act 0 0 (s.ctx x.g.ctx).ptvec t) ∧
    (x.act = 0 → HeaderAt x x.hn pr → ∃ t h, exec (.bkpt a) s = .next t ∧ OnlyGroup x.g.gid s t x.g ∧ t.group x.g.gid = some h ∧
      Moved x h x.e.mask (fun _ => x.hn) (fun _ => pr))

/-- RTT (R117) of a handler `d` that interrupted warp `w` at entry `e` of a group that resumes: the handler and its warps are gone, the lanes of
TAM stand where they stood, with TPRIO, RPC is restored, and no warp has been stalled for long (R322). -/
structure Returned (x : Issue) (d : Handler) (w : Warp) (e : Entry) (h : Group) : Prop where
  rest : h = { x.g with handlers := x.g.handlers.drop 1, warps := h.warps, issued := h.issued }
  frozen : ∀ q ∈ h.warps, d.frozen.contains q.wid = true
  rpc : ∃ q, h.warp w.wid = some q ∧ q.rpc = d.rpc
  lanes : ∀ l, Mask.has d.tam l = true → StandsAt h l e.pc (d.tprio.extractLsb' 0 8)
  others : ∀ q ∈ x.g.warps, q.wid ≠ w.wid → d.frozen.contains q.wid = true → q.entries ≠ [] →
    ∃ p ∈ h.warps, p = { q with lastIssue := p.lastIssue, waitAt := p.waitAt }
  fresh : ∀ q ∈ h.warps, q.lastIssue = x.s.bw
def Resumes (a : RArgs) : Prop :=
  ∀ (s : State) (x : Issue) (prio : BitVec 8) (d : Handler) (r : List Handler) (w : Warp) (e : Entry) (es : List Entry), WellFormed (.rtt a) →
    Issues s (.rtt a) x prio → x.g.handlers = d :: r → d.intr = some w.wid → x.g.warp w.wid = some w → w.entries = e :: es → d.tam ≠ 0 →
    d.frozen.contains w.wid = true → d.tcause.toNat % 256 ≠ 0x07 → d.tcause.toNat % 256 ≠ 0x08 → x.g.dead = false →
    ∃ t h, exec (.rtt a) s = .next t ∧ t = { s with groups := t.groups } ∧ OtherGroupsSame x.g.gid s t ∧ t.group x.g.gid = some h ∧
      Returned x d w e h
/-- After TRAP and BKPT the lanes of TAM go on at h', whose header is read now (R117). -/
def ResumesPast (a : RArgs) : Prop :=
  ∀ (s : State) (x : Issue) (prio : BitVec 8) (d : Handler) (w : Warp) (e : Entry) (es : List Entry) (cl : Clause) (hw : DWord),
    WellFormed (.rtt a) → Issues s (.rtt a) x prio → x.g.handlers = [d] → d.intr = some w.wid → x.g.warp w.wid = some w →
    w.entries = e :: es → e.cl = some cl → d.tam ≠ 0 → d.frozen.contains w.wid = true →
    (d.tcause.toNat % 256 = 0x07 ∨ d.tcause.toNat % 256 = 0x08) → x.g.dead = false →
    (∀ q ∈ es, q.pc ≠ e.pc ∧ q.prio.toNat ≤ (d.tprio.extractLsb' 0 8).toNat ∧ (q.prio = d.tprio.extractLsb' 0 8 → e.pc.toNat < q.pc.toNat)) →
    (∀ gs, fetchWord { s with groups := gs } x.g.core x.g.ctx false d.tam (e.h + BitVec.ofNat 64 (8 * (cl.cnt + 2))) = .word hw) → hdrMark hw = true →
    ∃ t h, exec (.rtt a) s = .next t ∧ t.group x.g.gid = some h ∧
      ∀ l, Mask.has d.tam l = true → StandsAt h l (e.h + BitVec.ofNat 64 (8 * (cl.cnt + 2)) + 8) (hdrPrio hw)

/-! ## Waiting, barriers, stage rings, named events and fences -/

/-- The warp of the issue waits at its instruction: of the machine that `s'` is once its operands are read, only its wait, and a WOB flag,
have changed. -/
structure Waits (x : Issue) (os : List Opr) (wt : Wait) (s' t : State) : Prop where
  state : t = { s' with groups := t.groups }
  others : OtherGroupsSame x.g.gid s' t
  group : ∃ h w, t.group x.g.gid = some h ∧ h = { x.g with fsr := x.g.fsr ||| wobFlag os, warps := h.warps, commits := h.commits } ∧
    h.warp x.w.wid = some w ∧ w.wait = wt ∧ w.entries = x.w.entries ∧ w.pend = x.w.pend ∧ w.rpc = x.w.rpc
/-- The value of an operand that every lane must agree on: its lane 0. -/
def uni32 (o : Opr) : Nat := (o.at32 0).toNat
def uni64 (o : Opr) : Nat := (o.at64 0).toNat
/-- The operand is uniform, or no lane reads it. -/
def UniOk (x : Issue) (o : Opr) : Prop := o.uni = true ∨ x.act = 0
/-- The group with the WOB flag of these sources. -/
def read (x : Issue) (os : List Opr) : Group := x.g.orFsr (wobFlag os)

/-- BAR (R156): a warp that its barrier has released goes on; another waits at barrier M[3:0] with its count and fence bit. -/
def Bars (a : RArgs) : Prop :=
  ∀ (s : State) (x : Issue) (prio : BitVec 8), WellFormed (.bar a) → Issues s (.bar a) x prio →
    (x.w.released = true → ∃ t, exec (.bar a) s = .next t ∧ Commits x prio s t x.g) ∧
    (x.w.released = false → Readable [x.opX] → UniOk x x.opX → uni32 x.opX ≤ x.tm.ngrp →
      ∃ t, exec (.bar a) s = .next t ∧ Waits x [x.opX] (.bar (a.m.toNat % 16) (uni32 x.opX) (a.m.getLsbD 4)) (x.read [x.opX] s) t)
/-- CBAR (R256), whose count is 1 to 4,096. -/
def Cbars (a : RArgs) : Prop :=
  ∀ (s : State) (x : Issue) (prio : BitVec 8), WellFormed (.cbar a) → Issues s (.cbar a) x prio →
    (x.w.released = true → ∃ t, exec (.cbar a) s = .next t ∧ Commits x prio s t x.g) ∧
    (x.w.released = false → Readable [x.opX] → UniOk x x.opX → 1 ≤ uni32 x.opX → uni32 x.opX ≤ 4096 →
      ∃ t, exec (.cbar a) s = .next t ∧ Waits x [x.opX] (.cbar (a.m.toNat % 16) (uni32 x.opX) (a.m.getLsbD 4)) (x.read [x.opX] s) t)

/-- Barrier b of a team. -/
def barOf (s : State) (tid b : Nat) : Barrier := Amap.get {} (s.team tid).barriers b
/-- A team of this number is in the machine. -/
def HasTeam (s : State) (tid : Nat) : Prop := ∃ t ∈ s.teams, t.tid = tid
/-- Every lane of the group stands at one BAR or CBAR (R156): no warp is parked, each has one entry, at `pc`, and waits as `p` says; the first
is `w`, which has not arrived, and waits at `wt`. -/
structure Gathered (s : State) (g : Group) (w : Warp) (pc : DWord) (wt : Wait) (p : Wait → Prop) : Prop where
  head : g.warps.head? = some w ∧ w.wait = wt
  all : ∀ q ∈ g.warps, q.parked = false ∧ (∃ e, q.entries = [e] ∧ e.pc = pc ∧ e.mask ≠ 0) ∧ p q.wait
  open_ : g.stopped = false ∧ w.arrived = false ∧ w.fence = none ∧ teamHolds s g = false
/-- The group's warps have become one, `q`, which holds every lane at the one entry. -/
def Merged (g h : Group) (w q : Warp) (pc : DWord) : Prop :=
  h.warps = [q] ∧ q.wid = w.wid ∧ ∀ l, (∃ r ∈ g.warps, ∃ e ∈ r.entries, Mask.has e.mask l = true) → ∃ e ∈ q.entries, e.pc = pc ∧ Mask.has e.mask l = true
/-- A write to a P register that the group issued before `upto` waits in the Crook, or behind it (R335). -/
def PermWaits (s : State) (g : Group) (upto : Nat) : Prop :=
  ∃ o ∈ (s.core g.core).crook, o.gid = g.gid ∧ o.rid < upto ∧ o.kind ∈ [.pldi, .plds, .pcomp, .pinv, .prand, .pidn]
/-- An access to a scratchpad that `q` names, issued by the group before `upto`, is still on its way (R158, R162, R257). -/
def ScratchWaits (s : State) (g : Group) (upto : Nat) (q : Nat → Prop) : Prop :=
  ∃ r ∈ s.reqs, r.gid = g.gid ∧ r.inCluster = true ∧ r.rid < upto ∧ ∃ p ∈ r.parts, p.performed = false ∧ q p.node
/-- What an arrival at a BAR waits for, and what a ring arrival waits for. -/
def BarWaits (s : State) (g : Group) : Prop := PermWaits s g s.nextId ∨ ScratchWaits s g s.nextId (· = g.team)
def RingWaits (s : State) (g : Group) (upto : Nat) : Prop := PermWaits s g upto ∨ ScratchWaits s g upto (fun _ => True)
/-- BARRIER_ARRIVAL (R156, R157, R158, R256, R257, R335): it waits for the group's accesses to its team's scratchpad, at a CBAR to any scratchpad,
and at a BAR for its writes to P registers. The warps merge; with FENCE a fence begins
first, of scope team, or of scope cluster; then the arrival is counted. -/
def Arrives (gid : Nat) : Prop :=
  ∀ (s : State) (g : Group) (w : Warp) (pc : DWord) (b n : Nat) (f : Bool), s.group gid = some g → g.gid = gid →
    (Gathered s g w pc (.bar b n f) (fun v => ∃ m, v = .bar b m f) → BarWaits s g → exec (.barrierArrival gid) s = .next s) ∧
    (Gathered s g w pc (.bar b n f) (fun v => ∃ m, v = .bar b m f) → ¬ BarWaits s g →
      (f = true → w.pass ≠ 2 → ∃ t h q, exec (.barrierArrival gid) s = .next t ∧ t.group gid = some h ∧ Merged g h w q pc ∧
        q.fence = some { scope := 1, upto := s.nextId } ∧ q.arrived = false ∧ t.teams = s.teams) ∧
      (f = false ∨ w.pass = 2 → HasTeam s g.team → (barOf s g.team b).cnt = 0 ∨ (if (barOf s g.team b).all then n = 0 else n = (barOf s g.team b).exp) →
        ∃ t h q, exec (.barrierArrival gid) s = .next t ∧ t.group gid = some h ∧ Merged g h w q pc ∧ q.arrived = true ∧
          (barOf t g.team b).cnt = (barOf s g.team b).cnt + 1 ∧ (barOf t g.team b).gen = (barOf s g.team b).gen ∧
          (barOf t g.team b).arrived = (barOf s g.team b).arrived ||| (1#32 <<< g.index) ∧
          ((barOf s g.team b).cnt = 0 → (barOf t g.team b).all = (n == 0) ∧
            (barOf t g.team b).exp = if n = 0 then ((s.groups.filter (fun q => q.team == g.team)).filter (fun q => q.st != .ended)).length else n))) ∧
    (Gathered s g w pc (.cbar b n f) (fun v => ∃ m, v = .cbar b m f) → ScratchWaits s g s.nextId (fun _ => True) → exec (.barrierArrival gid) s = .next s) ∧
    (Gathered s g w pc (.cbar b n f) (fun v => ∃ m, v = .cbar b m f) → ¬ ScratchWaits s g s.nextId (fun _ => True) → f = false ∨ w.pass = 2 → clusterOf g.core < s.clusters.length →
      let old := (s.cluster (clusterOf g.core)).cbar g.ctx b
      (old.1.cnt = 0 ∨ old.1.exp = n) → ∃ t h q, exec (.barrierArrival gid) s = .next t ∧ t.group gid = some h ∧ Merged g h w q pc ∧ q.arrived = true ∧
        let new := (t.cluster (clusterOf g.core)).cbar g.ctx b
        if old.1.cnt + 1 < n then new.1.cnt = old.1.cnt + 1 ∧ new.1.exp = n ∧ new.2 = old.2 ++ [gid]
        else new.1.cnt = 0 ∧ new.1.gen = (old.1.gen + 1) % 256 ∧
          ∀ k ∈ old.2 ++ [gid], (k, (s.cluster (clusterOf g.core)).fclk + 4) ∈ (t.cluster (clusterOf g.core)).relAt)

/-- The warp has been released from its wait. -/
def Released (t : State) (gid wid : Nat) : Prop := ∃ h q, t.group gid = some h ∧ h.warp wid = some q ∧ q.wait = .none ∧ q.released = true
/-- BARRIER_RELEASE (R157) of a barrier that every group expected had reached when the FCLK cycle began; before, nothing happens. -/
def BarReleases (team b : Nat) : Prop :=
  ∀ s : State, ((barOf s team b).full = false → exec (.barrierRelease team b) s = .next s) ∧ (HasTeam s team → (barOf s team b).full = true →
    ∃ t, exec (.barrierRelease team b) s = .next t ∧ barOf t team b = { gen := ((barOf s team b).gen + 1) % 256 } ∧
      (∀ c, c ≠ b → barOf t team c = barOf s team c) ∧
      ∀ gid wid g w n f, s.group gid = some g → g.gid = gid → g.team = team → (barOf s team b).arrived.getLsbD g.index = true → g.warp wid = some w → w.wid = wid →
        w.wait = .bar b n f → w.arrived = true → Released t gid wid)
/-- CBAR_RELEASE (R256): groups whose release has come go on. -/
def CbarReleases (cluster ctx b : Nat) : Prop :=
  ∀ s : State, cluster < s.clusters.length → ∃ t, exec (.cbarRelease cluster ctx b) s = .next t ∧
    ∀ gid wid g w at_ n f, s.group gid = some g → g.gid = gid → g.ctx = ctx → (gid, at_) ∈ (s.cluster cluster).relAt → at_ ≤ (s.cluster cluster).fclk →
      g.warp wid = some w → w.wid = wid → w ∈ g.warps → w.wait = .cbar b n f → w.arrived = true →
      Released t gid wid ∧ (gid, at_) ∉ (t.cluster cluster).relAt

/-- The stage of a ring (R159). -/
def stageOf (s : State) (tid r k : Nat) : Stage := match (s.team tid).ring r with | some q => q.stages.getD k {} | none => {}
def ringE (s : State) (tid r : Nat) : Nat := match (s.team tid).ring r with | some q => q.e | none => 0
/-- An arrival of c on a stage (R160): PEND falls by c, and a phase that it completes flips PHASE and sets PEND for the next. The others
stand. -/
structure RingMoved (s t : State) (tid r k c : Nat) : Prop where
  stage : stageOf t tid r k = if c < (stageOf s tid r k).pend then { stageOf s tid r k with pend := (stageOf s tid r k).pend - c }
    else { stageOf s tid r k with phase := !(stageOf s tid r k).phase, pend := (stageOf s tid r k).pend + ringE s tid r - c }
  rest : ∀ q j, (q ≠ r ∨ j ≠ k) → stageOf t tid q j = stageOf s tid q j
/-- The stage exists, and c may arrive on it. -/
structure MayArrive (s : State) (tid r k c : Nat) : Prop where
  team : HasTeam s tid
  ring : ringOk (s.team tid) r k = true
  pend : 1 ≤ (stageOf s tid r k).pend
  count : 1 ≤ c ∧ c ≤ ringE s tid r
/-- ARRIVE (R160, R162, R335): at once, or, with a counter, deferred until it reads zero. No lane active: no arrival. One that applies at once holds
its warp while a scratchpad access of the group, or a write to a P register, is still to be performed; a deferred one keeps what came before it. -/
def RingArrives (a : RArgs) : Prop :=
  ∀ (s : State) (x : Issue) (prio : BitVec 8), WellFormed (.arrive a) → Issues s (.arrive a) x prio →
    (x.act = 0 → ∃ t, exec (.arrive a) s = .next t ∧ Commits x prio s t x.g) ∧
    (x.act ≠ 0 → Readable [x.opX] → x.opX.uni = true → MayArrive s x.g.team (a.m.toNat / 8) (a.m.toNat % 8) (uni32 x.opX) →
      (a.z = 6 → RingWaits s x.g s.nextId → exec (.arrive a) s = .next s) ∧
      (a.z = 6 → ¬ RingWaits s x.g s.nextId → ∃ t h, exec (.arrive a) s = .next t ∧ t.group x.g.gid = some h ∧ SchedOnly (read x [x.opX]) h ∧ Advanced x prio t ∧
        RingMoved s t x.g.team (a.m.toNat / 8) (a.m.toNat % 8) (uni32 x.opX)) ∧
      (a.z ≠ 6 → x.g.deferred.length < 4 → ∃ t, exec (.arrive a) s = .next t ∧
        Commits x prio (x.read [x.opX] s) t { read x [x.opX] with deferred := x.g.deferred ++ [{ ring := a.m.toNat / 8, stage := a.m.toNat % 8, c := uni32 x.opX, dc := a.z.toNat, upto := s.nextId }] }))
/-- ARRIVAL_APPLY (R160, R162, R335): the oldest deferred arrival, once its counter reads zero, as it stood when the FCLK cycle
began, and what came before it is performed. -/
def ArrivalApplies (gid : Nat) : Prop :=
  ∀ (s : State) (g : Group) (d : Arrival) (r : List Arrival), s.group gid = some g → g.gid = gid → g.deferred = d :: r →
    MayArrive s g.team d.ring d.stage d.c →
    (g.old.dcv d.dc ≠ 0 ∨ RingWaits s g d.upto → exec (.arrivalApply gid) s = .next s) ∧
    (g.old.dcv d.dc = 0 → ¬ RingWaits s g d.upto → ∃ t h, exec (.arrivalApply gid) s = .next t ∧ t.group gid = some h ∧ SchedOnly { g with deferred := r } h ∧ RingMoved s t g.team d.ring d.stage d.c)
/-- WAITPH (R161): the warp goes on where the stage's phase, as it stood when the FCLK cycle began, is the one named, else it waits for it. -/
def PhaseWaits (a : RArgs) : Prop :=
  ∀ (s : State) (x : Issue) (prio : BitVec 8), WellFormed (.waitph a) → Issues s (.waitph a) x prio →
    (x.w.released = true ∨ x.act = 0 → ∃ t, exec (.waitph a) s = .next t ∧ Commits x prio s t x.g) ∧
    (x.w.released = false → x.act ≠ 0 → Readable [x.opX] → x.opX.uni = true → ringOk x.tm (a.m.toNat / 8) (a.m.toNat % 8) = true →
      if (stageOf s x.g.team (a.m.toNat / 8) (a.m.toNat % 8)).was = (x.opX.at32 0).getLsbD 0 then
        ∃ t, exec (.waitph a) s = .next t ∧ Commits x prio (x.read [x.opX] s) t (read x [x.opX])
      else ∃ t, exec (.waitph a) s = .next t ∧ Waits x [x.opX] (.waitph (a.m.toNat / 8) (a.m.toNat % 8) ((x.opX.at32 0).getLsbD 0)) (x.read [x.opX] s) t)

/-- What serving an event's waiters, oldest first, leaves of COUNT, and who still waits (R319). -/
def servedCount : Nat → List Waiter → Nat
  | c, [] => c
  | c, w :: r => if w.v ≤ c then servedCount (if w.dec then c - w.v else c) r else servedCount c r
def stillWaiting : Nat → List Waiter → List Waiter
  | _, [] => []
  | c, w :: r => if w.v ≤ c then stillWaiting (if w.dec then c - w.v else c) r else w :: stillWaiting c r
/-- COUNT after a posting of y (R319), before waiters are served. -/
def postedCount (e : Event) (y : Nat) (clr : Bool) : Nat := if clr then y else min (e.count + y) 0xFFFFFFFF
/-- A posting at an event that is not STREAM, or that CLR clears (R319). -/
structure Posted (s t : State) (ctx ev y : Nat) (clr : Bool) : Prop where
  count : (t.event ctx ev).count = servedCount (postedCount (s.event ctx ev) y clr) (s.event ctx ev).waiters
  waiters : (t.event ctx ev).waiters = stillWaiting (postedCount (s.event ctx ev) y clr) (s.event ctx ev).waiters
  stream : (t.event ctx ev).stream = none
  others : ∀ c e, (c ≠ ctx ∨ e ≠ ev) → t.event c e = s.event c e
def MayPost (s : State) (ctx ev : Nat) (clr : Bool) : Prop := (clr = true ∨ (s.event ctx ev).stream = none) ∧ eventRoom s ctx ev false = true
/-- The event and the value of EVWAIT and EVPOST are in range. -/
def EvOk (x : Issue) : Prop := x.opX.uni = true ∧ x.opY.uni = true ∧ uni64 x.opX < 2 ^ 16 ∧ uni64 x.opY < 2 ^ 32

/-- EVWAIT (R319); where there is no place for its waiter it is held, and counts as waiting (R318). -/
def EventWaits (a : RArgs) : Prop :=
  ∀ (s : State) (x : Issue) (prio : BitVec 8), WellFormed (.evwait a) → Issues s (.evwait a) x prio →
    let e := s.event x.g.ctx (uni64 x.opX)
    (x.act = 0 ∨ (x.w.released = true ∧ x.w.snap = []) → ∃ t, exec (.evwait a) s = .next t ∧ Commits x prio s t x.g) ∧
    (x.act ≠ 0 → x.w.released = false → Readable [x.opX, x.opY] → EvOk x → e.stream = none →
      (uni64 x.opY ≤ e.count → ∃ t, exec (.evwait a) s = .next t ∧ Advanced x prio t ∧
        (t.event x.g.ctx (uni64 x.opX)).count = (if a.m.getLsbD 0 then e.count - uni64 x.opY else e.count) ∧
        (∀ c v, (c ≠ x.g.ctx ∨ v ≠ uni64 x.opX) → t.event c v = s.event c v) ∧
        ∃ h, t.group x.g.gid = some h ∧ SchedOnly { read x [x.opX, x.opY] with floor := max x.g.floor e.stamp } h) ∧
      (e.count < uni64 x.opY → eventRoom s x.g.ctx (uni64 x.opX) true = true →
        ∃ t, exec (.evwait a) s = .next t ∧ Waits x [x.opX, x.opY] (.event (uni64 x.opX % 8) (uni64 x.opX) (uni64 x.opY) (a.m.getLsbD 0) (a.m.getLsbD 1)) { x.read [x.opX, x.opY] s with events := t.events } t ∧
          (t.event x.g.ctx (uni64 x.opX)).waiters = e.waiters ++ [{ a := x.g.gid, b := x.w.wid, v := uni64 x.opY, dec := a.m.getLsbD 0 }]) ∧
      (e.count < uni64 x.opY → eventRoom s x.g.ctx (uni64 x.opX) true = false →
        ∃ t, exec (.evwait a) s = .next t ∧ Waits x [x.opX, x.opY] (.evfull (uni64 x.opX) (a.m.getLsbD 1)) (x.read [x.opX, x.opY] s) t))
/-- EVPOST (R319), whose fence has ended: no write of the group is on its way, and BWCLK has passed GW + 2 (R301). -/
def EventPosts (a : RArgs) : Prop :=
  ∀ (s : State) (x : Issue) (prio : BitVec 8), WellFormed (.evpost a) → Issues s (.evpost a) x prio →
    (x.act = 0 → ∃ t, exec (.evpost a) s = .next t ∧ Commits x prio s t x.g) ∧
    (x.act ≠ 0 → Readable [x.opX, x.opY] → EvOk x →
      (x.w.pass ≠ 0 ∨ ((∀ r ∈ s.reqs, r.gid = x.g.gid → r.kind = .load) ∧ x.g.gw + 2 ≤ s.bw) → MayPost s x.g.ctx (uni64 x.opX) (a.m.getLsbD 0) →
        ∃ t h, exec (.evpost a) s = .next t ∧ Advanced x prio t ∧ Posted s t x.g.ctx (uni64 x.opX) (uni64 x.opY) (a.m.getLsbD 0) ∧
          t.group x.g.gid = some h ∧ h.v = x.g.v ∧ h.s = x.g.s ∧ t.mem = s.mem) ∧
      (x.w.pass = 0 → s.bw < x.g.gw + 2 → ∃ t, exec (.evpost a) s = .next t ∧ Waits x [x.opX, x.opY] .fence (x.read [x.opX, x.opY] s) t))

/-- A fence of a scope has ended (R225): the group's writes that came before it have their GWCT, with scope thread its loads too, and BWCLK has
passed GW with the scope's skew. -/
def Fenced (s : State) (g : Group) (f : FenceSt) : Prop :=
  (∀ r ∈ s.reqs, r.gid = g.gid → r.rid < f.upto → f.scope ≠ 0 ∧ r.kind = .load) ∧
    g.gw + (if f.scope < 2 then 0 else if f.scope < 5 then 2 else 40) ≤ s.bw
/-- FENCE (R225): it waits for its fence, and then goes on, unless a fault is held that it raises (R432). -/
def Fences (a : MArgs) : Prop :=
  ∀ (s : State) (x : Issue) (prio : BitVec 8), WellFormed (.fence a) → Issues s (.fence a) x prio →
    (x.act = 0 ∨ (x.w.pass ≠ 0 ∧ ∀ q ∈ x.g.held, q.1 ≠ 6) → ∃ t, exec (.fence a) s = .next t ∧ Commits x prio s t x.g) ∧
    (x.act ≠ 0 → x.w.pass = 0 → (∀ q ∈ x.g.held, q.1 ≠ 6) → ∃ t h w, exec (.fence a) s = .next t ∧ Waits x [] .fence s t ∧
      t.group x.g.gid = some h ∧ h.warp x.w.wid = some w ∧ w.fence = some { scope := a.scope.toNat, upto := s.nextId })
/-- FENCE_COMPLETE (R225): at a barrier the arrival is still to be counted; elsewhere the warp is released. -/
def FenceEnds (gid wid : Nat) : Prop :=
  ∀ (s : State) (g : Group) (w : Warp) (f : FenceSt), s.group gid = some g → g.gid = gid → g.warp wid = some w → w.fence = some f → g.stopped = false → Fenced s g f →
    ∃ t h q, exec (.fenceComplete gid wid) s = .next t ∧ t.group gid = some h ∧ h.warp wid = some q ∧ q.fence = none ∧ SchedOnly g h ∧
      (match w.wait with
       | .bar .. => q.pass = 2 ∧ q.wait = w.wait
       | .cbar .. => q.pass = 2 ∧ q.wait = w.wait
       | _ => q.pass = w.pass + 1 ∧ q.wait = .none ∧ q.released = true)

/-- A line holds bytes of the virtual range of `len` bytes at `a`: it lies in the image of one of the range's pages. -/
def InRange (x : Issue) (a len line : Nat) : Prop :=
  ∃ va pa lf, va % 4096 = 0 ∧ a / 4096 * 4096 ≤ va ∧ va < a + len ∧ accessTr x.s x.g.core x.g.ctx .read va = .ok pa lf ∧
    pa / 128 ≤ line ∧ line < pa / 128 + 32 ∧ a / 128 * 128 ≤ va + (line * 128 - pa) ∧ va + (line * 128 - pa) < a + len
def RangeOk (x : Issue) (a len : Nat) : Prop :=
  1 ≤ len ∧ len ≤ 2 ^ 32 ∧ ∀ va, va % 4096 = 0 → a / 4096 * 4096 ≤ va → va < a + len → ∃ pa lf, accessTr x.s x.g.core x.g.ctx .read va = .ok pa lf
/-- CPUB (R226): after its fence the marks of the range are clear, and the instruction caches in its scope hold no line of it. -/
def Publishes (a : MArgs) : Prop :=
  ∀ (s : State) (x : Issue) (prio : BitVec 8), WellFormed (.cpub a) → Issues s (.cpub a) x prio →
    (x.act = 0 → ∃ t, exec (.cpub a) s = .next t ∧ Commits x prio s t x.g) ∧
    (x.act ≠ 0 → Readable [x.opX, x.opD] → x.opX.uni = true → x.opD.uni = true → RangeOk x (uni64 x.opX) (uni64 x.opD) →
      (x.w.pass = 0 → ∃ t, exec (.cpub a) s = .next t ∧ Waits x [x.opX, x.opD] .fence (x.read [x.opX, x.opD] s) t) ∧
      (x.w.pass ≠ 0 → ∃ t, exec (.cpub a) s = .next t ∧ Commits x prio { x.read [x.opX, x.opD] s with lines := t.lines, icache := t.icache } t (read x [x.opX, x.opD]) ∧
        (∀ l ∈ t.lines, l.cp = true → l ∈ (x.read [x.opX, x.opD] s).lines ∧ ¬ InRange x (uni64 x.opX) (uni64 x.opD) l.line) ∧
        (∀ l ∈ (x.read [x.opX, x.opD] s).lines, ∃ q ∈ t.lines, q = { l with cp := q.cp }) ∧
        (∀ l, l ∈ t.icache ↔ l ∈ (x.read [x.opX, x.opD] s).icache ∧ ¬ (inScope a.scope.toNat x.g.core l.core = true ∧ InRange x (uni64 x.opX) (uni64 x.opD) l.line))))

/-! ## Permutations and the Crook -/

/-- An instruction has joined the Crook's queue as `o` (R171): its result `p` is pending, its group is `g` but for that, and the warp goes on. -/
structure Crooked (x : Issue) (prio : BitVec 8) (s t : State) (dst : List RegId) (g : Group) (o : CrookOp) (p : Pending) : Prop where
  goes : Advanced x prio t
  state : t = { s with groups := t.groups, cores := t.cores, nextId := s.nextId + 1 }
  others : OtherGroupsSame x.g.gid s t
  queue : (t.core x.g.core).crook = (s.core x.g.core).crook ++ [o]
  cores : ∀ c, c ≠ x.g.core → t.core c = s.core c
  op : o.rid = s.nextId ∧ o.gid = x.g.gid ∧ o.wid = x.w.wid ∧ o.team = x.g.team ∧ o.started = false
  pend : ∃ h w, t.group x.g.gid = some h ∧ SchedOnly g h ∧ h.warp x.w.wid = some w ∧ p ∈ w.pend
  result : p.rid = s.nextId ∧ p.ready = false ∧ p.left = x.a.la ∧ p.lanes = x.e.mask ∧ ∀ r ∈ dst, r ∈ p.dst
/-- The queue of 8 behind the Crook has room (R171). -/
def CrookRoom (x : Issue) : Prop := ((x.s.core x.g.core).crook.filter (fun o => o.kind != .pidn)).length < 9
/-- The elements of the index vector in a register (R167). -/
def indexVector (x : Issue) (n : Nat) : List Nat :=
  (List.range (2 ^ n)).map (fun i =>
    let v := ((x.g.vreg x.vecX).lane (i % 64)).toNat
    if 2 ^ n ≤ 64 then v else if 2 ^ n = 128 then v / 2 ^ (16 * (i / 64)) % 2 ^ 16 else v / 2 ^ (8 * (i / 64)) % 2 ^ 8)
/-- The lanes a permutation load reads hold no poison. -/
def NoPoison (x : Issue) (n : Nat) : Prop := ∀ l, l < n → Mask.has (x.g.vpois x.vecX) l = false
/-- The bit of a settings image. -/
def imageBit (x : Issue) (b : Nat) : Bool := ((x.g.vreg x.vecX).lane (b / 32)).getLsbD (b % 32)
def imageNlog (x : Issue) : Nat := ((x.g.vreg x.vecX).lane 60).toNat % 16
/-- A settings image that R170 admits: NLOG is 1 to 8, and no bit is set but NLOG and those of switches that exist at it. -/
def ImageOk (x : Issue) : Prop :=
  1 ≤ imageNlog x ∧ imageNlog x ≤ 8 ∧ ∀ b, b < 2048 → imageBit x b = true →
    (1920 ≤ b ∧ b < 1924) ∨ (b / 128 < 2 * imageNlog x - 1 ∧ b % 128 < 2 ^ (imageNlog x - 1))

/-- PLDI, PLDS, PCOMP, PINV, PRAND, PSTI and PSTS (R173 to R176) join the Crook's queue. -/
def CrookIssues : Prop :=
  (∀ (a : RArgs) (s : State) (x : Issue) (prio : BitVec 8) (n : Nat), WellFormed (.pldi a) → Issues s (.pldi a) x prio → CrookRoom x → n = a.m.toNat % 8 + 1 →
    (indexVector x n).Perm (List.range (2 ^ n)) → NoPoison x (min (2 ^ n) 64) → Free x [.p (a.m.toNat / 8)] →
    ∃ t o p, exec (.pldi a) s = .next t ∧ Crooked x prio s t [.p (a.m.toNat / 8)] x.g o p ∧ o.kind = .pldi ∧ o.pd = a.m.toNat / 8 ∧
      o.val = PReg.ofPerm n (indexVector x n)) ∧
  (∀ (a : RArgs) (s : State) (x : Issue) (prio : BitVec 8), WellFormed (.plds a) → Issues s (.plds a) x prio → CrookRoom x → x.g.width = 64 →
    ImageOk x → NoPoison x 64 → Free x [.p (a.m.toNat / 8)] →
    ∃ t o p, exec (.plds a) s = .next t ∧ Crooked x prio s t [.p (a.m.toNat / 8)] x.g o p ∧ o.kind = .plds ∧ o.pd = a.m.toNat / 8 ∧
      o.val.nlog = imageNlog x ∧ ∀ b, b < 1920 → o.val.img.getLsbD b = imageBit x b) ∧
  (∀ (a : RArgs) (s : State) (x : Issue) (prio : BitVec 8), WellFormed (.pcomp a) → Issues s (.pcomp a) x prio → CrookRoom x → Free x [.p (a.m.toNat / 8)] →
    ∃ t o p, exec (.pcomp a) s = .next t ∧ Crooked x prio s t [.p (a.m.toNat / 8)] x.g o p ∧ o.kind = .pcomp ∧ o.pd = a.m.toNat / 8 ∧
      o.pa = a.z.toNat % 8 ∧ o.pb = a.z.toNat / 8) ∧
  (∀ (a : RArgs) (s : State) (x : Issue) (prio : BitVec 8), WellFormed (.pinv a) → Issues s (.pinv a) x prio → CrookRoom x → Free x [.p (a.m.toNat / 8)] →
    ∃ t o p, exec (.pinv a) s = .next t ∧ Crooked x prio s t [.p (a.m.toNat / 8)] x.g o p ∧ o.kind = .pinv ∧ o.pd = a.m.toNat / 8 ∧ o.pa = a.z.toNat) ∧
  (∀ (a : RArgs) (s : State) (x : Issue) (prio : BitVec 8) (n : Nat), WellFormed (.prand a) → Issues s (.prand a) x prio → CrookRoom x → n = a.m.toNat % 8 + 1 →
    Free x [.p (a.m.toNat / 8)] →
    ∃ t o p, exec (.prand a) s = .next t ∧ Crooked x prio s t [.p (a.m.toNat / 8)] { x.g with rng := (shuffle (2 ^ n - 1) x.g.rng (List.range (2 ^ n))).1 } o p ∧
      o.kind = .prand ∧ o.pd = a.m.toNat / 8 ∧ o.val = PReg.ofPerm n (shuffle (2 ^ n - 1) x.g.rng (List.range (2 ^ n))).2) ∧
  (∀ (a : RArgs) (s : State) (x : Issue) (prio : BitVec 8), WellFormed (.psti a) → Issues s (.psti a) x prio → CrookRoom x → Free x (x.dests 1) →
    ∃ t o p, exec (.psti a) s = .next t ∧ Crooked x prio s t (x.dests 1) x.g o p ∧ o.kind = .psti ∧ o.pa = a.z.toNat ∧ o.lanes = x.act ∧ o.dreg = x.fd.toNat) ∧
  (∀ (a : RArgs) (s : State) (x : Issue) (prio : BitVec 8), WellFormed (.psts a) → Issues s (.psts a) x prio → CrookRoom x → x.g.width = 64 → Free x (x.dests 1) →
    ∃ t o p, exec (.psts a) s = .next t ∧ Crooked x prio s t (x.dests 1) x.g o p ∧ o.kind = .psts ∧ o.pa = a.z.toNat ∧ o.lanes = x.act ∧ o.dreg = x.fd.toNat)

/-- PIDN (R175) writes its register at once, or after the Crook's earlier writes of it. -/
def Pidns (a : RArgs) : Prop :=
  ∀ (s : State) (x : Issue) (prio : BitVec 8), WellFormed (.pidn a) → Issues s (.pidn a) x prio → Free x [.p (a.m.toNat / 8)] →
    ((∀ o ∈ (s.core x.g.core).crook, ¬ (o.writesP = true ∧ o.team = x.g.team ∧ o.pd = a.m.toNat / 8)) → HasTeam s x.g.team →
      ∃ t, exec (.pidn a) s = .next t ∧ Commits x prio { s with teams := t.teams } t x.g ∧ t.preg x.g.team (a.m.toNat / 8) = { nlog := a.m.toNat % 8 + 1 } ∧
        ∀ p, p ≠ a.m.toNat / 8 → t.preg x.g.team p = s.preg x.g.team p) ∧
    ((∃ o ∈ (s.core x.g.core).crook, o.writesP = true ∧ o.team = x.g.team ∧ o.pd = a.m.toNat / 8) →
      ∃ t u v o, exec (.pidn a) s = .next t ∧ Commits x prio { s with cores := t.cores, nextId := s.nextId + 1 } t x.g ∧ (s.core x.g.core).crook = u ++ v ∧
        (t.core x.g.core).crook = u ++ o :: v ∧ o.kind = .pidn ∧ o.rid = s.nextId ∧ o.gid = x.g.gid ∧ o.pd = a.m.toNat / 8 ∧ o.val = { nlog := a.m.toNat % 8 + 1 } ∧
        ∀ q ∈ v, ¬ (q.writesP = true ∧ q.team = x.g.team ∧ q.pd = a.m.toNat / 8))

/-- PAPPLY (R177): lane j receives x of the lane that π sends to it, where that lane is active. -/
def papplyRow (x : Issue) : LateLane 32 :=
  let r := readP x x.a.z.toNat
  let src (j : Nat) : Nat := if j < 2 ^ r.nlog then ((List.range (2 ^ r.nlog)).find? (fun i => r.at_ i == j)).getD (2 ^ r.nlog) else j
  { srcs := [x.opX], ok := decide (r.nlog ≤ 6) && !pidnDue x x.a.z.toNat,
    val := fun j => if Mask.has x.act (src j) then x.opX.at32 (src j) else (x.g.vreg x.fd.toNat).lane j }
/-- PCYC (R178) joins the Crook's queue, its answer taken from the register as it stands at issue. -/
def Pcycs (a : RArgs) : Prop :=
  ∀ (s : State) (x : Issue) (prio : BitVec 8), WellFormed (.pcyc a) → Issues s (.pcyc a) x prio → CrookRoom x →
    pidnDue x a.z.toNat = false → (3 ≤ a.m.toNat % 8 → Readable [x.opX]) → Free x (x.dests 1) →
    ∃ t o p, exec (.pcyc a) s = .next t ∧ Crooked x prio (if 3 ≤ a.m.toNat % 8 then x.read [x.opX] s else s) t (x.dests 1) x.g o p ∧ o.kind = .pcyc ∧ o.pa = a.z.toNat ∧
      (if isS x.fd then (p.on x.g).sreg (fnum x.fd) = BitVec.ofNat 64 (cycQuery (readP x a.z.toNat) (a.m.toNat % 8) (if a.m.toNat % 8 < 3 then 0 else (x.opX.at32 0).toNat))
       else ∀ l, l < x.g.width → l < 64 → Mask.has x.act l = true → ((p.on x.g).vreg x.fd.toNat).lane l =
        BitVec.ofNat 32 (cycQuery (readP x a.z.toNat) (a.m.toNat % 8) (if a.m.toNat % 8 < 3 then 0 else (x.opX.at32 l).toNat)))

/-- The Crook time of R171's table, in FCLK, from the sizes that the instruction finds. -/
def crookTime (o : CrookOp) : Nat :=
  let n := 2 ^ o.val.nlog
  let ld (n : Nat) : Nat := if n ≤ 16 then 12 else if n ≤ 32 then 20 else if n ≤ 64 then 28 else if n ≤ 128 then 52 else 96
  match o.kind with
  | .pldi => ld n
  | .pcomp => ld (2 ^ max o.val.nlog o.valB.nlog) + 4
  | .prand => ld n + (n + 7) / 8
  | .plds => 4
  | .pinv => 4
  | .pidn => 0
  | _ => 4 + (n + 15) / 16
/-- CROOK_START (R171, R179): the oldest instruction takes the Crook with the registers in force, or those from before its own warp's write. -/
def CrookStarts (core : Nat) : Prop :=
  ∀ (s : State) (o : CrookOp) (r : List CrookOp), (s.core core).crook = o :: r → o.started = false →
    let force (p : Nat) : PReg := match o.olds.find? (fun q => q.1 == p) with | some q => q.2 | none => s.preg o.team p
    ∃ t q, exec (.crookStart core) s = .next t ∧ t = { s with cores := t.cores } ∧ (t.core core).crook = q :: r ∧ q.started = true ∧
      q.endAt = (s.cluster (clusterOf core)).fclk + crookTime q ∧
      (o.kind = .pcomp → q.val = force o.pa ∧ q.valB = force o.pb) ∧ (o.kind = .pinv ∨ o.kind = .psti ∨ o.kind = .psts ∨ o.kind = .pcyc → q.val = force o.pa)
/-- CROOK_COMPLETE (R171, R173 to R178) at the end of its time: the register is written, and the result is ready. -/
def CrookEnds (core : Nat) : Prop :=
  ∀ (s : State) (o : CrookOp) (r : List CrookOp), (s.core core).crook = o :: r → o.started = true → o.endAt ≤ (s.cluster (clusterOf core)).fclk →
    ∃ t, exec (.crookComplete core) s = .next t ∧
      (o.writesP = true → HasTeam s o.team → (∀ q ∈ r, q.kind ≠ .pidn) →
        ((o.kind = .pldi ∨ o.kind = .plds ∨ o.kind = .prand → t.preg o.team o.pd = o.val) ∧
         (o.kind = .pcomp → t.preg o.team o.pd = o.val.comp o.valB) ∧
         (o.kind = .pinv → (t.preg o.team o.pd).nlog = o.val.nlog ∧ (o.val.nlog ≤ 8 → ∀ st w, st < 2 * o.val.nlog - 1 → w < 2 ^ (o.val.nlog - 1) →
            (t.preg o.team o.pd).sw (2 * o.val.nlog - 2 - st) w = o.val.sw st w))) ∧
        ∀ p, p ≠ o.pd → t.preg o.team p = s.preg o.team p) ∧
      (o.writesP = false → ∀ tid p, t.preg tid p = s.preg tid p) ∧
      ∀ g w p, s.group o.gid = some g → g.gid = o.gid → w ∈ g.warps → p ∈ w.pend → p.rid = o.rid →
        ∃ h v q, t.group o.gid = some h ∧ v ∈ h.warps ∧ q ∈ v.pend ∧ q.rid = p.rid ∧ q.dst = p.dst ∧ q.lanes = p.lanes ∧ q.ready = true ∧
          ∀ k : Group, ∀ l, l < g.width → l < k.width → l < 64 → Mask.has o.lanes l = true → Mask.has p.lanes l = true →
            (o.kind = .psti → ((q.on k).vreg o.dreg).lane l = o.val.vector l) ∧ (o.kind = .psts → ((q.on k).vreg o.dreg).lane l = o.val.image l)

/-! ## The matrix engine and its power steps -/

/-- What an instruction that completes makes of the machine: its sources, what it asks of the state and its operands, the destinations it
promises or writes, the machine but for its group, and its group. -/
structure Act where
  srcs : List Opr := []
  ok : Prop := True
  state : State
  group : Group
/-- The instruction completes: its group is `group`, its warp goes on, and the rest of the machine is `state`. -/
def Acts (i : Instr) (r : Issue → Act) : Prop :=
  ∀ (s : State) (x : Issue) (prio : BitVec 8), WellFormed i → Issues s i x prio → (r x).ok → Readable (r x).srcs →
    ∃ t, exec i s = .next t ∧ Commits x prio (r x).state t (r x).group
/-- A counter of the word's DC field rises (R71). -/
def dcUp (x : Issue) (g : Group) : Group := { g with dc := (List.range g.dc.length).map (fun k => g.dcv k + if k = x.a.dc ∧ k < 6 then 1 else 0) }
/-- Core `c` of the machine has become `k`. -/
def withCore (s : State) (c : Nat) (k : Core) : State := { s with cores := Amap.set {} s.cores c k }

/-- A group of the team with this index is a MATRIX group. -/
def IsMatrix (s : State) (tid i : Nat) : Prop := ∃ g, (s.groupsOf tid).find? (fun g => g.index == i) = some g ∧ g.role = 1
/-- GANGREG of a mask (R181): MASK, CNT, and POS, the mask bits below the group's own. -/
def gangWord (index v : Nat) : Word :=
  if v = 0 then 0 else BitVec.ofNat 32 (v + 2 ^ 16 * ((List.range 16).filter (fun i => v.testBit i)).length
    + 2 ^ 20 * ((List.range index).filter (fun i => i < 16 ∧ v.testBit i)).length)
/-- GANG (R181). -/
def gangAct (x : Issue) : Act :=
  { srcs := [x.opX],
    ok := UniOk x x.opX ∧ x.g.hurdle = [] ∧ uni64 x.opX < 2 ^ 16 ∧
      (uni64 x.opX ≠ 0 → x.g.index < 16 ∧ (uni64 x.opX).testBit x.g.index = true ∧
        2 ≤ ((List.range 16).filter (fun i => (uni64 x.opX).testBit i)).length ∧ ((List.range 16).filter (fun i => (uni64 x.opX).testBit i)).length ≤ 6 ∧
        ∀ i, (uni64 x.opX).testBit i = true → i < x.tm.ngrp ∧ IsMatrix x.s x.g.team i),
    state := x.read [x.opX] x.s, group := { read x [x.opX] with gangreg := gangWord x.g.index (uni64 x.opX) } }

/-- A record that its use admits (R190): aligned, readable as `bs`, not refused, its base and stride aligned outside cluster windows, and its
cluster windows, those of its exponents too, declared (R193); `krow` tells that blocks run along its stored rows. -/
structure RecOk (s : State) (g : Group) (addr : Nat) (bs : List Byte) (krow write : Bool) : Prop where
  aligned : addr % 32 = 0
  bytes : eBytes s (agentOf g) addr 32 = .ok bs
  good : trecBad (leNat bs) = false
  base : (trecOf addr (leNat bs)).space ≤ 1 → (trecOf addr (leNat bs)).base % 16 = 0 ∧ (trecOf addr (leNat bs)).rstride % 16 = 0
  windows : windowsOk s (s.team g.team) (trecOf addr (leNat bs)) krow write = []
/-- The tile exists and holds no deferred fault (R180, R196). -/
def TileOk (s : State) (g : Group) (n : Nat) : Prop := n < (s.team g.team).nt ∧ (tileFault s g.core g.team n).1 = 0
/-- What a release asks of an MMA `h` (R189, R190), whose records read `ba` and `bb`. -/
structure MmaOk (s : State) (g : Group) (h : HurdleSt) (ba bb : List Byte) : Prop where
  tile : TileOk s g (h.z % 16)
  recA : RecOk s g h.xv.toNat ba (!(trecOf 0 (leNat ba)).trans) false
  recB : RecOk s g h.yv.toNat bb (trecOf 0 (leNat bb)).trans false
  fmt : modeFmt (h.mode % 16) (trecOf 0 (leNat ba)).fmt = true ∧ modeFmt (h.mode % 16) (trecOf 0 (leNat bb)).fmt = true
  block : h.mode % 16 = 4 → (trecOf 0 (leNat ba)).bsz = (trecOf 0 (leNat bb)).bsz ∧ (h.z / 16 + 1) * 32 % blockSize (trecOf 0 (leNat ba)).bsz = 0
  acc : h.mode.testBit 8 = true → tileType s g.core g.team (h.z % 16) = modeInt (h.mode % 16)
/-- The command of a released MMA: its tile, mode and shape M × N × K (R188, R189), and its records with their addresses before them. -/
structure MmaCmd (s : State) (g : Group) (h : HurdleSt) (ba bb : List Byte) (ms : List (Nat × Nat)) (c : MCmd) : Prop where
  who : c.id = s.nextId ∧ c.team = g.team ∧ c.gid = g.gid ∧ c.kind = .mma ∧ c.members = ms
  what : c.tile = h.z % 16 ∧ c.mode = h.mode % 16 ∧ c.acc = h.mode.testBit 8 ∧ c.int32 = modeInt (h.mode % 16)
  shape : c.m = 16 * 2 ^ (h.mode / 16 % 4) ∧ c.n = 16 * 2 ^ (h.mode / 64 % 4) ∧ c.k = (h.z / 16 + 1) * 32
  recs : c.recA = leBytes 8 h.xv.toNat ++ ba ∧ c.recB = leBytes 8 h.yv.toNat ++ bb
  perms : c.pA = s.preg g.team (trecOf 0 (leNat ba)).preg ∧ c.pB = s.preg g.team (trecOf 0 (leNat bb)).preg
  fresh : c.started = false ∧ c.done = false ∧ c.fault = none
  reads : c.was = some (s.mem, s.teams.map (fun tm => (tm.tid, tm.scratch)))
/-- An MMA has been released as command `c`: it is in the core's queue, whose other commands stand, and nothing but groups, that core and its
cluster's count of fillers has changed. -/
def Released1 (s t : State) (core : Nat) (c : MCmd) : Prop :=
  t = { s with groups := t.groups, cores := t.cores, clusters := t.clusters, nextId := s.nextId + 1 } ∧
    ∃ r, (t.core core).mq = r ++ [c] ∧ r.length = (s.core core).mq.length ∧ ∀ k, k ≠ core → t.core k = s.core k
/-- MMA (R182, R188): the warp that a release has let go on goes on; a gang's MMA is captured and its warp waits; a solo group's is released. -/
def Mmas (a : EArgs) : Prop :=
  ∀ (s : State) (x : Issue) (prio : BitVec 8), WellFormed (.mma a) → Issues s (.mma a) x prio →
    let h : HurdleSt := { wid := x.w.wid, gangreg := x.g.gangreg, mode := a.mode.toNat, z := a.z.toNat, xv := x.opX.at64 0, yv := x.opY.at64 0,
                          q := a.q.toNat, dc := a.dc.toNat, mask := x.e.mask, order := s.nextId,
                          at_ := (s.cluster (clusterOf x.g.core)).fclk }
    (x.w.released = true → ∃ t, exec (.mma a) s = .next t ∧ Commits x prio s t x.g) ∧
    (x.w.released = false → x.g.hurdle = [] → Readable [x.opX, x.opY] → gangCnt x.g.gangreg ≠ 0 →
      ∃ t k w, exec (.mma a) s = .next t ∧ t = { x.read [x.opX, x.opY] s with groups := t.groups } ∧ OtherGroupsSame x.g.gid s t ∧ t.group x.g.gid = some k ∧
        k = { read x [x.opX, x.opY] with hurdle := [h], warps := k.warps, commits := k.commits } ∧ k.warp x.w.wid = some w ∧ w.wait = .hurdle ∧ w.entries = x.w.entries) ∧
    (x.w.released = false → x.g.hurdle = [] → Readable [x.opX, x.opY] → gangCnt x.g.gangreg = 0 → ∀ ba bb, MmaOk s x.g h ba bb →
      ∃ t k c, exec (.mma a) s = .next t ∧ Released1 (x.read [x.opX, x.opY] s) t x.g.core c ∧ MmaCmd s x.g h ba bb [(x.g.gid, a.dc.toNat)] c ∧ Advanced x prio t ∧
        OtherGroupsSame x.g.gid s t ∧ t.group x.g.gid = some k ∧ SchedOnly (dcUp x (read x [x.opX, x.opY])) k)

/-- The groups of the gang that group `g` captured at the Hurdle: itself alone, or those of its mask (R182). -/
def gangGroups (s : State) (g : Group) (h : HurdleSt) : List Group :=
  if gangCnt h.gangreg = 0 then [g] else (s.groupsOf g.team).filter (fun q => h.gangreg.getLsbD q.index)
/-- Group `q` stands at the Hurdle with the items of `hl`, since an earlier FCLK cycle, and its counter can rise (R137, R182). -/
def AtHurdle (s : State) (q : Group) (hl : HurdleSt) : Prop :=
  s.group q.gid = some q ∧ ∃ k l, q.hurdle = k :: l ∧ k.items = hl.items ∧ k.at_ < (s.cluster (clusterOf q.core)).fclk ∧
    (k.dc < 6 → q.dcFull k.dc = false ∧ k.dc < q.dc.length) ∧ ∃ w, q.warp k.wid = some w
/-- HURDLE_RELEASE (R182, R183): every group of the gang stands at the Hurdle with an MMA of the same items, and the lowest group's MMA may
be released: one command joins the queue, and each group's counter rises, its Hurdle empties and its warp goes on. -/
def HurdleReleases (gid : Nat) : Prop :=
  ∀ (s : State) (g low : Group) (h hl : HurdleSt) (r rl : List HurdleSt) (ba bb : List Byte), s.group gid = some g → g.hurdle = h :: r →
    ((s.team g.team).st = .resident ∨ (s.team g.team).st = .draining) → (∀ q ∈ gangGroups s g h, AtHurdle s q hl) →
    ((gangGroups s g h).map (·.gid)).Nodup →
    low ∈ gangGroups s g h → low.hurdle = hl :: rl → (∀ q ∈ gangGroups s g h, q.index < low.index → False) →
    (∀ q ∈ gangGroups s g h, q.index = low.index → q = low) → MmaOk s low hl ba bb →
    ∃ t c ms, exec (.hurdleRelease gid) s = .next t ∧ Released1 s t low.core c ∧ MmaCmd s low hl ba bb ms c ∧
      (∀ p, p ∈ ms ↔ ∃ q ∈ gangGroups s g h, ∃ k l, q.hurdle = k :: l ∧ p = (q.gid, k.dc)) ∧
      ∀ q ∈ gangGroups s g h, ∀ k l, q.hurdle = k :: l → Released t q.gid k.wid ∧
        ∃ m, t.group q.gid = some m ∧ m.hurdle = [] ∧ m.v = q.v ∧ m.s = q.s ∧ ∀ n, m.dcv n = q.dcv n + if n = k.dc ∧ n < 6 then 1 else 0

/-- No command that acts at once stands at the head of the core's queue. -/
def QueueStands (s : State) (core : Nat) : Prop := ∀ q r, (s.core core).mq = q :: r → q.kind = .mma ∨ q.kind = .ald ∨ q.kind = .ast
/-- ACLR (R198) and MXCLR (R203) act at once where the queue is empty, and else join it. -/
def Clears : Prop :=
  (∀ (a : RArgs) (s : State) (x : Issue) (prio : BitVec 8), WellFormed (.aclr a) → Issues s (.aclr a) x prio → a.m.toNat % 16 < x.tm.nt → HasTeam s x.g.team →
    ((s.core x.g.core).mq = [] → ∃ t, exec (.aclr a) s = .next t ∧ Commits x prio { s with cores := t.cores, teams := t.teams, nextId := s.nextId + 1 } t x.g ∧
      (t.core x.g.core).mq = [] ∧ (t.team x.g.team).tile (a.m.toNat % 16) = { int32 := a.m.getLsbD 4 } ∧
      ∀ n, n ≠ a.m.toNat % 16 → (t.team x.g.team).tile n = (s.team x.g.team).tile n) ∧
    ((s.core x.g.core).mq ≠ [] → QueueStands s x.g.core → ∃ t, exec (.aclr a) s = .next t ∧ Commits x prio { s with cores := t.cores, nextId := s.nextId + 1 } t x.g ∧
      (t.core x.g.core).mq = (s.core x.g.core).mq ++
        [{ id := s.nextId, team := x.g.team, gid := x.g.gid, kind := .aclr, tile := a.m.toNat % 16, int32 := a.m.getLsbD 4 }])) ∧
  (∀ (a : RArgs) (s : State) (x : Issue) (prio : BitVec 8), WellFormed (.mxclr a) → Issues s (.mxclr a) x prio → HasTeam s x.g.team →
    (x.act = 0 → ∃ t, exec (.mxclr a) s = .next t ∧ Commits x prio s t x.g) ∧
    (x.act ≠ 0 → (s.core x.g.core).mq = [] → ∃ t, exec (.mxclr a) s = .next t ∧
      Commits x prio { s with cores := t.cores, teams := t.teams, nextId := s.nextId + 1 } t x.g ∧
      ∀ k, k < 4 → (t.team x.g.team).mx.extractLsb' (16 * k) 16 = if a.m.getLsbD k then 0 else (s.team x.g.team).mx.extractLsb' (16 * k) 16) ∧
    (x.act ≠ 0 → (s.core x.g.core).mq ≠ [] → QueueStands s x.g.core → ∃ t, exec (.mxclr a) s = .next t ∧
      Commits x prio { s with cores := t.cores, nextId := s.nextId + 1 } t x.g ∧
      (t.core x.g.core).mq = (s.core x.g.core).mq ++
        [{ id := s.nextId, team := x.g.team, gid := x.g.gid, kind := .mxclr, tile := 16, mask := a.m.toNat % 16 }]))

/-- The command that ALD and AST give the engine. -/
def sideOf (x : Issue) (a : EArgs) (kind : MKind) (bs : List Byte) (int32 : Bool) : MCmd :=
  { id := x.s.nextId, team := x.g.team, gid := x.g.gid, kind := kind, tile := a.z.toNat % 16, m := 16 * 2 ^ (a.mode.toNat / 16 % 4),
    n := 16 * 2 ^ (a.mode.toNat / 64 % 4), int32 := int32, recA := leBytes 8 (x.opX.at64 0).toNat ++ bs, recB := leBytes 8 (x.opX.at64 0).toNat ++ bs,
    members := [(x.g.gid, a.dc.toNat)], by_ := x.e.mask }
/-- ALD, AST and TFETCH (R190, R197, R199, R200): with an admissible record the command joins its queue and the counter rises. -/
def Sides : Prop :=
  (∀ (a : EArgs) (s : State) (x : Issue) (prio : BitVec 8) (bs : List Byte), WellFormed (.ald a) → Issues s (.ald a) x prio → Readable [x.opX] →
    TileOk s x.g (a.z.toNat % 16) → RecOk s x.g (x.opX.at64 0).toNat bs true false → (trecOf 0 (leNat bs)).perm = false → (trecOf 0 (leNat bs)).fmt ≠ 5 →
    QueueStands s x.g.core →
    ∃ t, exec (.ald a) s = .next t ∧ Commits x prio { x.read [x.opX] s with cores := t.cores, nextId := s.nextId + 1 } t (dcUp x (read x [x.opX])) ∧
      (t.core x.g.core).mq = (s.core x.g.core).mq ++ [sideOf x a .ald bs (isInt (trecOf 0 (leNat bs)).fmt)]) ∧
  (∀ (a : EArgs) (s : State) (x : Issue) (prio : BitVec 8) (bs : List Byte), WellFormed (.ast a) → Issues s (.ast a) x prio → Readable [x.opX, x.opY] →
    TileOk s x.g (a.z.toNat % 16) → RecOk s x.g (x.opX.at64 0).toNat bs true true →
    let r := trecOf (x.opX.at64 0).toNat (leNat bs)
    r.perm = false → r.fmt ≠ 5 → r.rowBytes ≤ r.rstride → (isBfp r.fmt = true → r.cols % r.block = 0) →
    isInt r.fmt = tileType s x.g.core x.g.team (a.z.toNat % 16) → (isInt r.fmt = true → x.opY.at32 0 = 0x3F800000#32) → QueueStands s x.g.core →
    ∃ t, exec (.ast a) s = .next t ∧ Commits x prio { x.read [x.opX, x.opY] s with cores := t.cores, nextId := s.nextId + 1 } t (dcUp x (read x [x.opX, x.opY])) ∧
      (t.core x.g.core).mq = (s.core x.g.core).mq ++ [{ sideOf x a .ast bs (isInt r.fmt) with sat := a.mode.getLsbD 8, scale := x.opY.at32 0 }]) ∧
  (∀ (a : EArgs) (s : State) (x : Issue) (prio : BitVec 8) (bs : List Byte), WellFormed (.tfetch a) → Issues s (.tfetch a) x prio → Readable [x.opX] →
    RecOk s x.g (x.opX.at64 0).toNat bs true false → (trecOf 0 (leNat bs)).space = 0 →
    ∃ t q, exec (.tfetch a) s = .next t ∧ Commits x prio { x.read [x.opX] s with cores := t.cores, nextId := s.nextId + 1 } t (dcUp x (read x [x.opX])) ∧
      (t.core x.g.core).tfetch = (s.core x.g.core).tfetch ++ [q] ∧ q.id = s.nextId ∧ q.gid = x.g.gid ∧ q.kind = 10 + a.mode.toNat ∧ q.dc = a.dc.toNat ∧ q.by_ = x.e.mask ∧
      q.record = leBytes 8 (x.opX.at64 0).toNat ++ bs ∧ q.marker = false)

/-- AMOV (R184, R201): row r of the tile, or with COL its column r, where the share of the gang in force at the issue admits it. -/
def amovRow (x : Issue) : LateLane 32 :=
  let n := x.m.toNat % 16
  let r := uni32 x.opX
  let cnt := gangCnt (gangAtIssue x)
  let pos := gangPos (gangAtIssue x)
  { srcs := [x.opX],
    ok := (x.opX.uni || x.act == 0) && decide (n < x.tm.nt) && decide (r < 64) && (cnt == 0 || x.mb 4 || r % cnt == pos) && (x.tm.tile n).fcause == 0 &&
      !(x.s.core x.g.core).mq.any (fun q => q.team == x.g.team && q.tile == n && (q.kind == .mma || q.kind == .aclr || q.kind == .ald) && decide (q.id < waitLimit x)),
    val := fun l => if x.mb 4 then (if cnt ≠ 0 ∧ l % cnt ≠ pos then 0 else (x.tm.tile n).at_ l r) else (x.tm.tile n).at_ r l }
/-- MXRD (R180, R203): the team's counters once its earlier operations have left the queue, or a tile's TYPE, BUSY and FCAUSE. -/
def mxrdRow (x : Issue) : LateLane 64 :=
  let n := x.m.toNat / 2 % 16
  let t := x.tm.tile n
  let busy := (x.s.core x.g.core).mq.any (fun q => q.team == x.g.team && q.tile == n && (q.kind == .mma || q.kind == .aclr || q.kind == .ald))
  { srcs := [],
    ok := if x.mb 0 then decide (n < x.tm.nt) else !(x.s.core x.g.core).mq.any (fun q => q.team == x.g.team && q.kind != .marker && decide (q.id < waitLimit x)),
    val := fun _ => if x.mb 0 then BitVec.ofNat 64 ((if t.int32 then 1 else 0) + (if busy then 2 else 0) + 256 * t.fcause) else x.tm.mx }

/-! ### Its steps -/

/-- The engine of a core is told that operation `id` occupies it to LCLK `e`. -/
def occupied (c : Core) (id e : Nat) : Core :=
  { c with eng := .live, engEnd := e, mq := c.mq.map (fun p => if p.id = id then { p with started := true, occEnd := e } else p) }
/-- The LCLK in which the next operation occupies the engine (R192, R259, R269): with its operands at hand, eight LCLK after its grant; else
when they come, by the sixtieth LCLK; never before the engine is free. -/
def firstOf (s : State) (core : Nat) (q : MCmd) : Nat :=
  max (max (if q.pinned then q.grantAt + 8 else min (max (s.cluster (clusterOf core)).lclk (q.grantAt + 1)) (q.grantAt + 60)) ((s.core core).engEnd + 1)) q.after
/-- MMA_OCCUPANCY_START (R192, R193, R197, R259, R269): the first MMA of the queue that has not started, once granted and with no marker before
it, takes the engine after what occupies it, for max(16, its products over those of an LCLK); the pins of a TFETCH on its lines become its own. -/
def OccupancyStarts (core : Nat) : Prop :=
  ∀ (s : State) (q : MCmd) (u v : List MCmd) (g : Group), QueueStands s core → (s.core core).mq = u ++ q :: v →
    (∀ p ∈ u, p.kind ≠ .marker ∧ (p.kind = .mma → p.started = true) ∧ p.id ≠ q.id) → q.kind = .mma → q.started = false → q.granted = true →
    s.group q.gid = some g →
    ((s.cluster (clusterOf core)).lclk < firstOf s core q → exec (.mmaOccupancyStart core) s = .next s) ∧
    (firstOf s core q ≤ (s.cluster (clusterOf core)).lclk → ∃ t, exec (.mmaOccupancyStart core) s = .next t ∧ t = { s with cores := t.cores } ∧
      (∀ k, k ≠ core → t.core k = s.core k) ∧
      t.core core = { occupied (s.core core) q.id (firstOf s core q + occupancy q.mode (recOf q.recA).fmt q.m q.n q.k - 1) with pins := (t.core core).pins } ∧
      (∀ p ∈ (s.core core).pins, p.op ≠ none → p ∈ (t.core core).pins) ∧
      ∀ p ∈ (t.core core).pins, some p.line ∈ q.lines s (agentOf g) → p.op ≠ none)

/-- The head of the core's queue is `q`, of group `g`; nothing behind it acts at once. -/
structure AtHead (s : State) (core : Nat) (kind : MKind) (q : MCmd) (g : Group) : Prop where
  queue : ∃ r, (s.core core).mq = q :: r ∧ ∀ p ∈ r, p.id ≠ q.id ∧ (p.kind = .mma ∨ p.kind = .ald ∨ p.kind = .ast)
  kind : q.kind = kind ∧ (kind = .mma ∨ kind = .ald ∨ kind = .ast)
  group : s.group q.gid = some g
  team : HasTeam s q.team
  fault : q.fault = none
/-- The operation has left the queue, and its counters have fallen. -/
def Finished (s t : State) (core : Nat) (q : MCmd) : Prop :=
  (t.core core).mq = (s.core core).mq.drop 1 ∧ (∀ k, k ≠ core → t.core k = s.core k) ∧
    ((q.members.map (·.1)).Nodup → ∀ p ∈ q.members, ∀ g, s.group p.1 = some g → ∃ h, t.group p.1 = some h ∧ ∀ n, h.dcv n = g.dcv n - if n = p.2 ∧ n < 6 then 1 else 0)
/-- MMA_COMPLETE (R27 to R29, R191 to R193, R203), 20 LCLK after its occupancy: each element of its region becomes the sum of its row and column,
as the TFU reads them (R195), over what the tile held, or over zero, the exception counters gain its events, every other element stands, and
its pins are let go. -/
def MmaEnds (core : Nat) : Prop :=
  ∀ (s : State) (q : MCmd) (g : Group) (as bs : List (List Fv)), AtHead s core .mma q g → q.started = true → q.occEnd + 20 ≤ (s.cluster (clusterOf core)).lclk →
    operand s { agentOf g with id := q.id, was := q.was } (recOf q.recA) q.pA false q.m q.k = .ok as → operand s { agentOf g with id := q.id, was := q.was } (recOf q.recB) q.pB true q.n q.k = .ok bs →
    q.m ≤ 64 → q.n ≤ 64 →
    let old := (s.team q.team).tile q.tile
    let elem (i j : Nat) := mmaElem q.mode (recOf q.recA).block q.k (if q.acc then (old.at_ i j).toNat else 0) (as.getD i []) (bs.getD j [])
    ∃ t, exec (.mmaComplete core) s = .next t ∧ Finished s t core q ∧ t.mem = s.mem ∧ (∀ p ∈ (t.core core).pins, p.op ≠ some q.id) ∧
      (∀ i j, j < 64 → ((t.team q.team).tile q.tile).at_ i j = if i < q.m ∧ j < q.n then BitVec.ofNat 32 (elem i j).1 else old.at_ i j) ∧
      (t.team q.team).mx = (((List.range q.m).flatMap (fun i => (List.range q.n).map (fun j => (elem i j).2))).foldl MxCnt.add {}).into (s.team q.team).mx ∧
      ((t.team q.team).tile q.tile).int32 = q.int32 ∧ (∀ n, n ≠ q.tile → (t.team q.team).tile n = (s.team q.team).tile n)
/-- TILE_DEFERRED_FAULT (R196): a fault met while the operation runs is kept on its tile, and writes nothing; its occupancy ends now. -/
def TileFaults (core : Nat) : Prop :=
  ∀ (s : State) (q : MCmd) (g : Group) (code va info : Nat),
    (AtHead s core .mma q g ∧ q.started = true ∧ mmaResult s { agentOf g with id := q.id, was := q.was } q = .error (.stop code va info) ∨
      AtHead s core .ald q g ∧ aldResult s { agentOf g with id := q.id } q = .error (.stop code va info)) →
    ∃ t, exec (.tileDeferredFault core) s = .next t ∧ t.mem = s.mem ∧ t.groups = s.groups ∧
      (t.team q.team).tile q.tile = { (s.team q.team).tile q.tile with fcause := code, faddr := BitVec.ofNat 64 va } ∧
      (∀ n, n ≠ q.tile → (t.team q.team).tile n = (s.team q.team).tile n) ∧
      ∃ p r, (t.core core).mq = p :: r ∧ p.id = q.id ∧ p.fault = some (code, BitVec.ofNat 64 va) ∧ (q.started = true → p.occEnd ≤ (s.cluster (clusterOf core)).lclk)
/-- ALD_COMPLETE (R199): the region of the tile holds the converted elements, zero beyond the record's rows and columns. -/
def AldEnds (core : Nat) : Prop :=
  ∀ (s : State) (q : MCmd) (g : Group) (f : Nat → Nat → Nat × Nat), AtHead s core .ald q g → q.m ≤ 64 → q.n ≤ 64 →
    let r := recOf q.recA
    (∀ i j, i < q.m → j < q.n → r.stored s { agentOf g with id := q.id } true (if r.trans then j else i) (if r.trans then i else j) = .ok (f i j)) →
    ∃ t, exec (.aldComplete core) s = .next t ∧ Finished s t core q ∧ t.mem = s.mem ∧
      (∀ i j, j < 64 → ((t.team q.team).tile q.tile).at_ i j =
        if i < q.m ∧ j < q.n then BitVec.ofNat 32 (aldBits r.fmt r.space (f i j).1 (f i j).2) else ((s.team q.team).tile q.tile).at_ i j) ∧
      ((t.team q.team).tile q.tile).int32 = q.int32 ∧ ((t.team q.team).tile q.tile).fcause = 0 ∧
      ∀ n, n ≠ q.tile → (t.team q.team).tile n = (s.team q.team).tile n
/-- AST_COMPLETE (R200, R202, R204): the rows are stored as `astRun` stores them, the counters gain its events, GW joins the stores, AMAX the FP32
magnitudes, and the MMAs behind it read what it wrote. -/
def AstEnds (core : Nat) : Prop :=
  ∀ (s : State) (q : MCmd) (g : Group), AtHead s core .ast q g → (astRun s { agentOf g with id := q.id } q).err = none →
    let r := astRun s { agentOf g with id := q.id } q
    let tile := (s.team q.team).tile q.tile
    let mags := if q.int32 then [] else (List.range q.m).flatMap (fun i => (List.range q.n).map (fun j => (tile.at_ i j).toNat))
    ∃ t, exec (.astComplete core) s = .next t ∧ t.mem = r.w.s.mem ∧
      (t.core core).mq = ((r.w.s.core core).mq.filter (fun p => p.id != q.id)).map (fun p => { p with was := p.was.map (patchWas r.w.wrote) }) ∧
      (HasTeam r.w.s q.team → (t.team q.team).mx = r.cnt.into (r.w.s.team q.team).mx) ∧
      ∀ k, r.w.s.group q.gid = some k → ∃ h, t.group q.gid = some h ∧ h.gw = max (max k.gw r.w.gw) s.bw ∧ h.v = k.v ∧ h.s = k.s ∧
        h.amax = (mags.foldl Group.updAmax k).amax
/-- TFETCH_COMPLETE (R193, R197): the lines of the record that this die homes are pinned, up to 16,384 of a core, or those of the record that no
operation has taken up are let go; the counter falls. -/
def TfetchEnds (core : Nat) : Prop :=
  ∀ (s : State) (q : CopyCmd) (r : List CopyCmd) (g : Group), (s.core core).tfetch = q :: r → q.marker = false → s.group q.gid = some g →
    let lines := spanLines s (agentOf g) ((recOf q.record).spans true)
    let count (c : Core) : Nat := ((c.pins.map (fun p => p.line)).dedup).length
    ∃ t, exec (.tfetchComplete core) s = .next t ∧ t = { s with groups := t.groups, cores := t.cores } ∧ (t.core core).tfetch = r ∧
      (q.kind = 11 → ∀ p, p ∈ (t.core core).pins ↔ p ∈ (s.core core).pins ∧ ¬ (p.op = none ∧ p.recAt = (recOf q.record).addr ∧ p.team = g.team)) ∧
      (q.kind ≠ 11 → (∀ p ∈ (s.core core).pins, p ∈ (t.core core).pins) ∧ count (t.core core) ≤ max 16384 (count (s.core core)) ∧
        (∀ p ∈ (t.core core).pins, p ∉ (s.core core).pins → some p.line ∈ lines ∧ homeDie (p.line * 128) = dieOf core ∧
          p.recAt = (recOf q.record).addr ∧ p.team = g.team ∧ p.op = none) ∧
        (count (s.core core) + lines.length ≤ 16384 → ∀ n, some n ∈ lines → homeDie (n * 128) = dieOf core → ∃ p ∈ (t.core core).pins, p.line = n)) ∧
      ∃ h, t.group q.gid = some h ∧ (∀ n, h.dcv n = g.dcv n - if n = q.dc ∧ n < 6 then 1 else 0) ∧ h.v = g.v ∧ h.s = g.s

/-! ### The current-slew limiter -/

/-- The requests of a cluster's cores that had been made by LCLK b (R259), oldest first: its cores' pre-ramps, and MMAs not granted. -/
def Asks (s : State) (cluster b : Nat) : List (Nat × Nat × Option Nat) :=
  ((startRequests s cluster).filter (fun r => decide (r.1 ≤ b))).mergeSort requestBefore
/-- LIMITER_STEP (R259, R260): at a step boundary the cluster's rise goes on, or begins, and as many of the oldest requests are granted as the table
gives the step, and no others; with none, and no engine live, the cluster becomes quiet; a quiet one with no request takes no step. -/
def LimiterRises (cluster : Nat) : Prop :=
  ∀ s : State, cluster < s.clusters.length →
    let k := s.cluster cluster
    let b := k.stepAt + 4
    k.pend = false → b ≤ k.lclk →
    let live := (liveCores s cluster).any (fun c => engLive k.dnTab (s.core c) b)
    let up := (if k.quiet then (rampTab k).1 else k.upTab).getD (if k.quiet then 0 else min (k.rise + 1) 15) 1
    let first := (Asks s cluster b).take up
    (k.quiet = true → startRequests s cluster = [] → exec (.limiterStep cluster) s = .next s) ∧
    (k.quiet = true → startRequests s cluster ≠ [] → Asks s cluster b = [] → ∃ t, exec (.limiterStep cluster) s = .next t ∧ t = { s with clusters := t.clusters } ∧
      t.cluster cluster = { k with stepAt := b }) ∧
    (k.quiet = false → live = false → Asks s cluster b = [] → ∃ t, exec (.limiterStep cluster) s = .next t ∧ t = { s with clusters := t.clusters } ∧
      t.cluster cluster = { k with stepAt := b, quiet := true }) ∧
    ((Asks s cluster b ≠ [] ∨ (k.quiet = false ∧ live = true)) → ∃ t, exec (.limiterStep cluster) s = .next t ∧ t = { s with clusters := t.clusters, cores := t.cores } ∧
      (t.cluster cluster).quiet = false ∧ (t.cluster cluster).stepAt = b ∧ (t.cluster cluster).rise = (if k.quiet then 0 else min (k.rise + 1) 15) ∧
      ((t.cluster cluster).upTab, (t.cluster cluster).dnTab) = (if k.quiet then rampTab k else (k.upTab, k.dnTab)) ∧
      (∀ c id at_, (at_, c, some id) ∈ first → ∃ p ∈ (t.core c).mq, p.id = id ∧ p.granted = true ∧ p.grantAt = b) ∧
      ∀ c, ∀ q ∈ (t.core c).mq, (∀ at_, (at_, c, some q.id) ∉ first) → q ∈ (s.core c).mq)
/-- FALLING_STEPS_END (R260): the engine is idle, and the cluster counts the fillers of its falling steps. -/
def FallsEnd (core : Nat) : Prop :=
  ∀ s : State, (s.core core).eng = .falling → (s.core core).engEnd < (s.cluster (clusterOf core)).lclk → clusterOf core < s.clusters.length →
    ∃ t, exec (.fallingStepsEnd core) s = .next t ∧ t = { s with cores := t.cores, clusters := t.clusters } ∧ t.core core = { s.core core with eng := .idle } ∧
      (∀ c, c ≠ core → t.core c = s.core c) ∧
      t.cluster (clusterOf core) = { s.cluster (clusterOf core) with
        fillers := (s.cluster (clusterOf core)).fillers + fillersTo (s.cluster (clusterOf core)).dnTab
          ((s.core core).engEnd - 4 * fallSteps (s.cluster (clusterOf core)).dnTab) (s.core core).engEnd }
/-- PRERAMP_EXPIRE (R263): at the end of a pre-ramp the falling steps begin. -/
def PrerampEnds (core : Nat) : Prop :=
  ∀ s : State, (s.core core).eng = .preramp → (s.core core).engEnd < (s.cluster (clusterOf core)).lclk →
    exec (.prerampExpire core) s = .next (withCore s core { s.core core with
      eng := .falling, engEnd := (s.core core).engEnd + 4 * fallSteps (s.cluster (clusterOf core)).dnTab })
/-- PWRHINT (R263, R267): PRERAMP asks for fillers, or, where an engine's fillers or falling steps run, renews them at once; on an engine that an
operation keeps live it does nothing. END begins the falling steps of a pre-ramp. -/
def hintAct (a : IArgs) (x : Issue) : Act :=
  let k := x.s.cluster (clusterOf x.g.core)
  let c := x.s.core x.g.core
  let n := a.imm.toNat / 16
  { state :=
      if a.imm.toNat % 16 = 1 then
        (if engFalls k.dnTab c k.lclk then
          withCore x.s x.g.core { c with eng := .preramp, engEnd := max (k.lclk + 16 * n) (if c.eng = .preramp then c.engEnd else 0) }
        else if engLive k.dnTab c k.lclk then x.s
        else withCore (x.s.wakeLimiter (clusterOf x.g.core)) x.g.core { c with preReq := c.preReq ++ [(k.lclk, n)] })
      else if c.eng = .preramp ∧ k.lclk ≤ c.engEnd then withCore x.s x.g.core { c with eng := .falling, engEnd := k.lclk + 4 * fallSteps k.dnTab }
      else x.s,
    group := x.g }

/-! ## Memory instructions -/

/-- The lanes of an access. -/
def Active (x : Issue) (l : Nat) : Prop := l < 64 ∧ Mask.has x.act l = true
/-- EA(l) of a device access (R212) of elements of n bytes, and of a local one (R217). -/
def eaAt (a : MArgs) (p : Opr) (n l : Nat) : Nat := (((p.at64 l).toNat + a.off.toInt * n) % 2 ^ 64).toNat
def eaLocal (a : MArgs) (p : Opr) (n l : Nat) : Nat := (((p.at32 l).toNat + a.off.toInt * n) % 2 ^ 32).toNat
def bytesOf (a : MArgs) : Nat := 2 ^ a.wid.toNat
/-- Registers of a width (R216). -/
def regsOf (a : MArgs) : Nat := if a.wid = 3 then 2 else if a.wid = 4 then 4 else 1
/-- Every active lane's access passes R50: it is aligned, and its page is mapped and admits it. -/
def Reaches (x : Issue) (k : AccK) (n ea pa : Nat → Nat) (leaf : Nat → Leaf) : Prop :=
  ∀ l, Active x l → ea l % n l = 0 ∧ accessTr x.s x.g.core x.g.ctx k (ea l) = .ok (pa l) (leaf l)
/-- No acquire of the group is on its way (R218). -/
def NoAcquire (x : Issue) : Prop := ∀ r ∈ x.s.reqs, r.gid = x.g.gid → r.acq = false

/-- State `s` with what an access may change on its way besides its own effect, as `t` has it: slices, caches and translations, what the reads
of tables and windows cost their contexts, and the tier manager's counts. -/
def Reached (s t : State) : State :=
  { s with contexts := t.contexts, lines := t.lines, eh := t.eh, l1 := t.l1, icache := t.icache, tlb := t.tlb, walkc := t.walkc,
           migs := t.migs, pages := t.pages, choice := t.choice }
/-- A long-latency instruction has issued: its result `p` is pending, its group is `g` but for that, the warp goes on, and the rest of the machine
is `s'`. -/
structure Pends (x : Issue) (prio : BitVec 8) (s' t : State) (g : Group) (dst : List RegId) (ready : Bool) (p : Pending) : Prop where
  goes : Advanced x prio t
  state : t = { s' with groups := t.groups, nextId := x.s.nextId + 1 }
  others : OtherGroupsSame x.g.gid s' t
  group : ∃ h w, t.group x.g.gid = some h ∧ SchedOnly g h ∧ h.warp x.w.wid = some w ∧ p ∈ w.pend
  result : p.rid = x.s.nextId ∧ p.left = x.a.la ∧ p.lanes = x.e.mask ∧ p.ready = ready ∧ ∀ r ∈ dst, r ∈ p.dst
/-- The values `v` of the active lanes in the destination of `k` registers (R216, R217); nothing else of the group's registers changes. -/
structure Loaded (x : Issue) (k : Nat) (v : Nat → Nat) (g : Group) : Prop where
  rest : g = { x.g with v := g.v, vpoison := g.vpoison, s := g.s, spoison := g.spoison }
  sreg : ∀ r, (isS x.fd = true ∧ r = fnum x.fd → ∀ l, Active x l → g.sreg r = BitVec.ofNat 64 (v l)) ∧ (¬ (isS x.fd = true ∧ r = fnum x.fd) → g.sreg r = x.g.sreg r)
  vreg : ∀ r l, l < x.g.width → l < 64 → (g.vreg r).lane l =
    if isS x.fd = false ∧ x.fd.toNat ≤ r ∧ r < x.fd.toNat + k ∧ Mask.has x.act l then BitVec.ofNat 32 (v l / 2 ^ (32 * (r - x.fd.toNat))) else (x.g.vreg r).lane l
/-- One access of a request: where, how many bytes, and its data. -/
structure Access where
  va : Nat
  pa : Nat
  n : Nat
  data : Nat := 0
  new : Nat := 0
  conv : Nat := 0
/-- A request has been sent (R73, R217): for each active lane it holds the access `f l`, one for all of them where `uni`, and no other. -/
def Sends (x : Issue) (s t : State) (kind : RKind) (cluster : Bool) (uni : Bool) (f : Nat → Access) (place : Nat → Part → Prop) : Prop :=
  ∃ r, t.reqs = s.reqs ++ [r] ∧ r.rid = s.nextId ∧ r.gid = x.g.gid ∧ r.wid = x.w.wid ∧ r.core = x.g.core ∧ r.ctx = x.g.ctx ∧ r.kind = kind ∧
    r.inCluster = cluster ∧ r.dc = x.a.dc ∧ r.lanes = x.act ∧
    (∀ l, Active x l → ∃ p ∈ r.parts, place l p ∧ p.performed = false ∧ ∃ c ∈ p.accs, (c.lane = l ∨ (uni = true ∧ c.lane = 64)) ∧
      c.va = (f l).va ∧ c.pa = (f l).pa ∧ c.n = (f l).n ∧ c.data = (f l).data ∧ c.new = (f l).new ∧ c.conv = (f l).conv) ∧
    ∀ p ∈ r.parts, ∀ c ∈ p.accs, c.lane = 64 ∨ Mask.has x.act c.lane = true
/-- A part of the line of `pa`. -/
def onLine (pa : Nat → Nat) (l : Nat) (p : Part) : Prop := p.line = pa l / 128

/-- Contradictions of a word's hints with the lines of its lanes (R213, R214): on each U line an L1 policy, and a read count; on each other line a read
count where L1 does not allocate it. -/
def hintClash (x : Issue) (a : MArgs) (pa : Nat → Nat) (leaf : Nat → Leaf) : Nat :=
  let lines (u : Bool) : Nat := (((List.range 64).filter (fun l => Mask.has x.act l && (u == (lineClass (pa l) (leaf l) == 2)))).map (fun l => pa l / 128)).eraseDups.length
  let pol := (a.cp.extractLsb' 2 2).toNat
  let b (p : Bool) : Nat := if p then 1 else 0
  lines true * (b (pol != 0) + b (a.cp.getLsbD 0)) + lines false * b (pol == 2 && a.cp.getLsbD 0)
/-- Of the cores only the policy-contradiction counter of this one may change (R213), by `n`. -/
def PolicyOnly (x : Issue) (n : Nat) (s t : State) : Prop :=
  ∀ c, t.core c = if c = x.g.core then { s.core c with policy := (s.core c).policy + n } else s.core c

/-- A load of n(l) bytes at EA(l) whose checks pass (R217, R275): where no line is in the L1, a request goes to its homes and the result is pending; where a
copy may serve every lane, the result is its bytes. With no lane active nothing is read. -/
def LoadGoes (i : Instr) (a : MArgs) (s : State) (x : Issue) (prio : BitVec 8) (n ea pa conv : Nat → Nat) (leaf : Nat → Leaf) : Prop :=
  Readable [x.opX] → NoAcquire x → Free x (x.dests (regsOf a)) →
    (x.act = 0 → ∃ t p, exec i s = .next t ∧ Promises x prio (regsOf a) s t p ∧ p.writes = []) ∧
    (x.act ≠ 0 → Reaches x .read n ea pa leaf → (∀ l, Active x l → s.poisoned (pa l) (n l) = false) →
      ((∀ l, Active x l → s.l1Find x.g.core (pa l / 128) = none) →
        ∃ t p, exec i s = .next t ∧ Pends x prio { Reached s t with reqs := t.reqs, cores := t.cores } t x.g (x.dests (regsOf a)) false p ∧
          Sends x s t .load false x.opX.uni (fun l => { va := ea l, pa := pa l, n := n l, conv := conv l }) (onLine pa) ∧ PolicyOnly x (hintClash x a pa leaf) s t ∧
          (a.scope ≠ 0 → ∃ r ∈ t.reqs, r.rid = s.nextId ∧ r.acq = true)) ∧
      (a.scope = 0 → (∀ r ∈ s.reqs, r.gid ≠ x.g.gid) → ∀ copy : Nat → L1Line,
        (∀ l, Active x l → s.l1Find x.g.core (pa l / 128) = some (copy l) ∧ (copy l).bad = false ∧ l1Serves s x.g (copy l) = true ∧ lineClass (pa l) (leaf l) ≠ 2) →
        ∃ t p, exec i s = .next t ∧ Pends x prio { Reached s t with cores := t.cores } t x.g (x.dests (regsOf a)) true p ∧ PolicyOnly x (hintClash x a pa leaf) s t ∧
          Loaded x (regsOf a) (fun l => ldeConv (conv l) (x.g.fcr.getLsbD 3) (leNat (((copy l).data.drop (pa l % 128)).take (n l)))) (p.on x.g)))
/-- LD (R212, R217). -/
def Lds (a : MArgs) : Prop :=
  ∀ (s : State) (x : Issue) (prio : BitVec 8) (pa : Nat → Nat) (leaf : Nat → Leaf), WellFormed (.ld a) → Issues s (.ld a) x prio →
    LoadGoes (.ld a) a s x prio (fun _ => bytesOf a) (eaAt a x.opX (bytesOf a)) pa (fun _ => 0) leaf
/-- The page of X names a format of `b l` bytes, and the element lies in a page of the same format (R219). -/
def Elements (x : Issue) (k : AccK) (leaf : Nat → Leaf) (b : Nat → Nat) : Prop :=
  ∀ l, Active x l → ∃ q lf, accessTr x.s x.g.core x.g.ctx k (x.opX.at64 l).toNat = .ok q lf ∧ elemFmt lf.fmt = some (b l) ∧ (leaf l).fmt = lf.fmt
/-- LDE (R219): each lane's value is converted from its page's format. -/
def Ldes (a : MArgs) : Prop :=
  ∀ (s : State) (x : Issue) (prio : BitVec 8) (b pa : Nat → Nat) (leaf : Nat → Leaf), WellFormed (.lde a) → Issues s (.lde a) x prio →
    Elements x .read leaf b → LoadGoes (.lde a) a s x prio b (fun l => eaAt a x.opX (b l) l) pa (fun l => (leaf l).fmt) leaf

/-- A store, atomic or reduction that returns nothing (R215, R217, R218): a release waits for its fence first; then the request is sent, its counter rises and the
warp goes on. `fl` are the flags of its conversion. -/
def StoreGoes (i : Instr) (a : MArgs) (s : State) (x : Issue) (prio : BitVec 8) (k : AccK) (kind : RKind) (srcs : List Opr) (uni : Bool) (f : Nat → Access)
    (leaf : Nat → Leaf) (fl : Nat → FFlags) (clash : Nat) : Prop :=
  (x.act = 0 → ∃ t, exec i s = .next t ∧ Commits x prio s t x.g) ∧
  (x.act ≠ 0 → Readable srcs → NoAcquire x → Reaches x k (fun l => (f l).n) (fun l => (f l).va) (fun l => (f l).pa) leaf →
    (a.scope ≠ 0 → x.w.pass = 0 → ∃ t, exec i s = .next t ∧ Waits x [] .fence s t ∧
      ∃ h w, t.group x.g.gid = some h ∧ h.warp x.w.wid = some w ∧ w.fence = some { scope := a.scope.toNat, upto := s.nextId }) ∧
    ((a.scope = 0 ∨ x.w.pass ≠ 0) → NoTrap x fl →
      ∃ t, exec i s = .next t ∧ Commits x prio { Reached s t with reqs := t.reqs, cores := t.cores, nextId := s.nextId + 1 } t
          { dcUp x x.g with fsr := x.g.fsr ||| fsrGain x srcs fl } ∧
        Sends x s t kind false uni f (onLine (fun l => (f l).pa)) ∧ PolicyOnly x clash s t))
/-- The data of a lane (R216): the low bytes of D, its pair, or its four registers. -/
def dataOf (x : Issue) (a : MArgs) (l : Nat) : Nat :=
  if a.wid = 4 then (x.opD.at64 l).toNat + 2 ^ 64 * ((x.g.vreg (x.fd.toNat + 2)).lane l).toNat + 2 ^ 96 * ((x.g.vreg (x.fd.toNat + 3)).lane l).toNat
  else if a.wid = 3 then (x.opD.at64 l).toNat else (x.opD.at32 l).toNat % 2 ^ (8 * bytesOf a)
/-- ST (R216, R217). -/
def Sts (a : MArgs) : Prop :=
  ∀ (s : State) (x : Issue) (prio : BitVec 8) (pa : Nat → Nat) (leaf : Nat → Leaf), WellFormed (.st a) → Issues s (.st a) x prio →
    StoreGoes (.st a) a s x prio .write .store [x.opX, x.opD] true
      (fun l => { va := eaAt a x.opX (bytesOf a) l, pa := pa l, n := bytesOf a, data := dataOf x a l }) leaf (fun _ => 0) (hintClash x a pa leaf)
/-- STE (R219): each lane's FP32 value is converted to its page's format. -/
def Stes (a : MArgs) : Prop :=
  ∀ (s : State) (x : Issue) (prio : BitVec 8) (b pa : Nat → Nat) (leaf : Nat → Leaf), WellFormed (.ste a) → Issues s (.ste a) x prio → Elements x .write leaf b →
    StoreGoes (.ste a) a s x prio .write .store [x.opX, x.opD] false
      (fun l => { va := eaAt a x.opX (b l) l, pa := pa l, n := b l, data := (steVal x (leaf l).fmt (x.opD.at32 l).toNat).1 }) leaf
      (fun l => (steVal x (leaf l).fmt (x.opD.at32 l).toNat).2) (hintClash x a pa leaf)
/-- The operands of an atomic (R223): D, or for cas D to compare and the next operand as the new value. -/
def atomData (a : MArgs) (o : Opr) (l : Nat) : Nat := if a.wid = 3 then (o.at64 l).toNat else (o.at32 l).toNat
def casOpr (x : Issue) (a : MArgs) : Opr := if a.rcnt = 9 then casNew x else {}
def atomAcc (x : Issue) (a : MArgs) (e : Opr) (pa : Nat → Nat) (l : Nat) : Access :=
  { va := eaAt a x.opX (bytesOf a) l, pa := pa l, n := bytesOf a, data := atomData a x.opD l, new := atomData a e l }
/-- ATOM (R223): with NR it goes as a store; else its old value is pending. -/
def Atoms (a : MArgs) : Prop :=
  ∀ (s : State) (x : Issue) (prio : BitVec 8) (pa : Nat → Nat) (leaf : Nat → Leaf), WellFormed (.atom a) → Issues s (.atom a) x prio →
    let e := casOpr x a
    let kind (ret : Bool) : RKind := .atom a.rcnt.toNat ret
    (a.nr = true → StoreGoes (.atom a) a s x prio .atomic (kind false) [x.opX, x.opD, e] false (atomAcc x a e pa) leaf (fun _ => 0) 0) ∧
    (a.nr = false → Free x (x.dests (regsOf a)) →
      (x.act = 0 → ∃ t p, exec (.atom a) s = .next t ∧ Promises x prio (regsOf a) s t p ∧ p.writes = []) ∧
      (x.act ≠ 0 → Readable [x.opX, x.opD, e] → NoAcquire x → Reaches x .atomic (fun _ => bytesOf a) (eaAt a x.opX (bytesOf a)) pa leaf →
        (a.scope ≠ 0 → x.w.pass = 0 → ∃ t, exec (.atom a) s = .next t ∧ Waits x [] .fence s t) ∧
        ((a.scope = 0 ∨ x.w.pass ≠ 0) →
          ∃ t p, exec (.atom a) s = .next t ∧ Pends x prio { Reached s t with reqs := t.reqs, cores := t.cores } t x.g (x.dests (regsOf a)) false p ∧
            Sends x s t (kind true) false (isS x.fd) (atomAcc x a e pa) (onLine pa) ∧ PolicyOnly x 0 s t)))
/-- REDM (R223). -/
def Redms (a : MArgs) : Prop :=
  ∀ (s : State) (x : Issue) (prio : BitVec 8) (pa : Nat → Nat) (leaf : Nat → Leaf), WellFormed (.redm a) → Issues s (.redm a) x prio →
    StoreGoes (.redm a) a s x prio .atomic (.atom a.rcnt.toNat false) [x.opX, x.opD] false (atomAcc x a {} pa) leaf (fun _ => 0) 0
/-- PREF (R214, R224): it asks for the lines that its lanes reach and that are not in the L1, and drops every fault. -/
def Prefs (a : MArgs) : Prop :=
  ∀ (s : State) (x : Issue) (prio : BitVec 8), WellFormed (.pref a) → Issues s (.pref a) x prio → Readable [x.opX] →
    ∃ t, exec (.pref a) s = .next t ∧ Commits x prio { Reached s t with reqs := t.reqs, cores := t.cores, nextId := t.nextId } t (read x [x.opX]) ∧
      (∃ n, PolicyOnly x n s t ∧ (a.cp.extractLsb' 2 2 = 0#2 → a.cp.getLsbD 0 = false → n = 0)) ∧
      (∀ r ∈ s.reqs, r ∈ t.reqs) ∧ (∀ r ∈ t.reqs, r ∈ s.reqs ∨ (r.kind = .load ∧ r.lanes = 0 ∧ r.pref = true)) ∧
      ∀ l pa leaf, Active x l → accessTr s x.g.core x.g.ctx .read (eaAt a x.opX 1 l) = .ok pa leaf → s.l1Find x.g.core (pa / 128) = none →
        ∃ r ∈ t.reqs, r.lanes = 0 ∧ ∃ p ∈ r.parts, p.line = pa / 128

/-! ### Scratchpad -/

/-- Every active lane's local access passes R210: aligned, in its claim or a declared window, in a bank that is not changing; it leads to byte `off l` of team
`tid l`, which is another team where `far l`. -/
def Lands (x : Issue) (a : MArgs) (write plain : Bool) (tid off : Nat → Nat) (far : Nat → Bool) : Prop :=
  ∀ l, Active x l → eaLocal a x.localX (bytesOf a) l % bytesOf a = 0 ∧
    localAddr x.s x.tm (eaLocal a x.localX (bytesOf a) l) (bytesOf a) write plain = .at_ (tid l) (off l) (far l) ∧
    ∀ b, (x.s.team (tid l)).bankPend = some b → b.1 ≠ off l / 16384
/-- The bytes of each lane in the scratchpad, little-endian. -/
def inPad (s : State) (a : MArgs) (tid off : Nat → Nat) (l : Nat) : Nat := leNat (Memory.bytes (s.team (tid l)).scratch (off l) (bytesOf a))
/-- The bytes of a lane are its own: no other active lane touches them. -/
def Alone (x : Issue) (a : MArgs) (tid off : Nat → Nat) (l : Nat) : Prop :=
  ∀ j, Active x j → j ≠ l → tid j = tid l → off j + bytesOf a ≤ off l ∨ off l + bytesOf a ≤ off j
/-- The bytes of the lanes, where no later lane touches them, hold `v` (R217), and every other byte of every scratchpad is as it was. -/
structure Stored (x : Issue) (a : MArgs) (s t : State) (tid off v : Nat → Nat) (last : Nat → Nat → Prop) : Prop where
  bytes : ∀ l, Active x l → HasTeam s (tid l) → (∀ j, Active x j → last l j → tid j = tid l → off j + bytesOf a ≤ off l ∨ off l + bytesOf a ≤ off j) →
    inPad t a tid off l = v l % 256 ^ bytesOf a
  others : ∀ k b, (∀ l, Active x l → tid l = k → b < off l ∨ off l + bytesOf a ≤ b) → Memory.read (t.team k).scratch b = Memory.read (s.team k).scratch b
/-- GW joins the time of a local store (R215). -/
def stamped (s : State) (g : Group) : Group := { g with gw := max g.gw s.bw }
def inTeam (tid : Nat → Nat) (l : Nat) (p : Part) : Prop := p.node = tid l

/-- LDL (R217, R255): from the team's own banks the result is their bytes; where some lane reads another team's, its access is sent. -/
def Ldls (a : MArgs) : Prop :=
  ∀ (s : State) (x : Issue) (prio : BitVec 8) (tid off : Nat → Nat) (far : Nat → Bool), WellFormed (.ldl a) → Issues s (.ldl a) x prio → Readable [x.opX] →
    Free x (x.dests (regsOf a)) →
    (x.act = 0 → ∃ t p, exec (.ldl a) s = .next t ∧ Promises x prio (regsOf a) s t p ∧ p.writes = []) ∧
    (x.act ≠ 0 → NoAcquire x → Lands x a false true tid off far → (∀ l, Active x l → far l = false → (s.team (tid l)).spoisoned (off l) (bytesOf a) = false) →
      ((∀ l, Active x l → far l = false) → ∃ t p, exec (.ldl a) s = .next t ∧ Promises x prio (regsOf a) (x.read [x.opX] s) t p ∧ Loaded x (regsOf a) (inPad s a tid off) (p.on x.g)) ∧
      ((∀ l, Active x l → far l = true) → ∃ t p, exec (.ldl a) s = .next t ∧ Pends x prio { x.read [x.opX] s with reqs := t.reqs } t x.g (x.dests (regsOf a)) false p ∧
        Sends x s t .load true x.localX.uni (fun l => { va := eaLocal a x.localX (bytesOf a) l, pa := off l, n := bytesOf a }) (inTeam tid)))
/-- STL (R217, R255): the team's own bytes are written at once, lanes in ascending order; accesses to other teams are sent. -/
def Stls (a : MArgs) : Prop :=
  ∀ (s : State) (x : Issue) (prio : BitVec 8) (tid off : Nat → Nat) (far : Nat → Bool), WellFormed (.stl a) → Issues s (.stl a) x prio →
    (x.act = 0 → ∃ t, exec (.stl a) s = .next t ∧ Commits x prio s t x.g) ∧
    (x.act ≠ 0 → Readable [x.opX, x.opD] → Lands x a true true tid off far →
      ((∀ l, Active x l → far l = false) → ∃ t, exec (.stl a) s = .next t ∧ Commits x prio { x.read [x.opX, x.opD] s with teams := t.teams } t (stamped s (read x [x.opX, x.opD])) ∧
        Stored x a s t tid off (dataOf x a) (fun l j => l < j)) ∧
      ((∀ l, Active x l → far l = true) → ∃ t, exec (.stl a) s = .next t ∧
        Commits x prio { x.read [x.opX, x.opD] s with reqs := t.reqs, nextId := s.nextId + 1 } t (dcUp x (stamped s (read x [x.opX, x.opD]))) ∧
        Sends x s t .store true false (fun l => { va := eaLocal a x.localX (bytesOf a) l, pa := off l, n := bytesOf a, data := dataOf x a l }) (inTeam tid)))
/-- Every granule of a lane's bytes is as `p` says of its team and its number (R211). -/
def Granules (s : State) (a : MArgs) (tid off : Nat → Nat) (p : Team → Nat → Prop) (l : Nat) : Prop :=
  ∀ g, off l < 16 * g + 16 → 16 * g < off l + bytesOf a → p (s.team (tid l)) g
/-- An LDF finds a granule full, as the FCLK cycle began (R211), one that is to clear it not one cleared since; an STF finds one empty that no
instruction has set since (log 94). -/
def FoundFull (clr : Bool) (t : Team) (g : Nat) : Prop := g ∈ t.fullWas ∧ (clr = true → g ∈ t.full)
def FoundEmpty (t : Team) (g : Nat) : Prop := g ∉ t.fullWas ∧ g ∉ t.full
/-- No request of the group is on its way to another team. -/
def NoCluster (x : Issue) : Prop := ∀ r ∈ x.s.reqs, r.gid = x.g.gid → r.inCluster = false
/-- LDF (R211, R220): with every granule full it reads, and with CLR empties them; else the warp waits. -/
def Ldfs (a : MArgs) : Prop :=
  ∀ (s : State) (x : Issue) (prio : BitVec 8) (tid off : Nat → Nat) (far : Nat → Bool), WellFormed (.ldf a) → Issues s (.ldf a) x prio → Readable [x.opX] →
    Free x (x.dests (regsOf a)) →
    (x.act = 0 → ∃ t p, exec (.ldf a) s = .next t ∧ Promises x prio (regsOf a) s t p ∧ p.writes = []) ∧
    (x.act ≠ 0 → NoAcquire x → Lands x a false false tid off far → NoCluster x → (∀ l, Active x l → (s.team (tid l)).spoisoned (off l) (bytesOf a) = false) →
      ((∀ l, Active x l → Granules s a tid off (FoundFull (a.cp.getLsbD 0)) l) → ∃ t p, exec (.ldf a) s = .next t ∧
        Pends x prio { x.read [x.opX] s with teams := t.teams } t x.g (x.dests (regsOf a)) true p ∧ Loaded x (regsOf a) (inPad s a tid off) (p.on x.g) ∧
        (∀ k b, Memory.read (t.team k).scratch b = Memory.read (s.team k).scratch b) ∧
        (a.cp.getLsbD 0 = false → t.teams = s.teams) ∧ (a.cp.getLsbD 0 = true → ∀ l, Active x l → Granules t a tid off (fun q g => g ∉ q.full) l)) ∧
      ((∃ l, Active x l ∧ ¬ Granules s a tid off (FoundFull (a.cp.getLsbD 0)) l) → ∃ t, exec (.ldf a) s = .next t ∧ Waits x [x.opX] .ldf (x.read [x.opX] s) t))
/-- STF (R211, R220): in a FIFO bank with every granule empty, or in a SCRATCH bank, it writes as STL and sets the granules full; else the warp waits. -/
def Stfs (a : MArgs) : Prop :=
  ∀ (s : State) (x : Issue) (prio : BitVec 8) (tid off : Nat → Nat) (far : Nat → Bool), WellFormed (.stf a) → Issues s (.stf a) x prio →
    (x.act = 0 → ∃ t, exec (.stf a) s = .next t ∧ Commits x prio s t x.g) ∧
    (x.act ≠ 0 → Readable [x.opX, x.opD] → Lands x a true false tid off far → NoCluster x →
      ((∀ l, Active x l → HasTeam s (tid l) ∧ ((s.team (tid l)).fifo (off l) = true → Granules s a tid off FoundEmpty l)) → ∃ t, exec (.stf a) s = .next t ∧
        Commits x prio { x.read [x.opX, x.opD] s with teams := t.teams } t (stamped s (read x [x.opX, x.opD])) ∧ Stored x a s t tid off (dataOf x a) (fun l j => l < j) ∧
        ∀ l, Active x l → Granules t a tid off (fun q g => g ∈ q.full) l) ∧
      ((∃ l, Active x l ∧ (s.team (tid l)).fifo (off l) = true ∧ ¬ Granules s a tid off FoundEmpty l) → ∃ t, exec (.stf a) s = .next t ∧
        Waits x [x.opX, x.opD] .stf (x.read [x.opX, x.opD] s) t))
/-- LDF_RELEASE and STF_RELEASE (R220): the warp tests its granules again. -/
def WaitReleases (gid wid : Nat) : Prop :=
  ∀ (s : State) (g : Group) (w : Warp) (e : Instr) (wt : Wait), (e = .ldfRelease gid wid ∧ wt = .ldf) ∨ (e = .stfRelease gid wid ∧ wt = .stf) →
    s.group gid = some g → g.gid = gid → g.warp wid = some w → w.wid = wid → w.wait = wt →
    ∃ t h q, exec e s = .next t ∧ t = { s with groups := t.groups } ∧ OtherGroupsSame gid s t ∧ t.group gid = some h ∧ SchedOnly g h ∧
      h.warp wid = some q ∧ q.wait = .none ∧ q.entries = w.entries ∧ q.pend = w.pend
/-- ATOML (R223, R255): on the team's own banks each lane's bytes, where it is alone on them, take the new value, and the old one is its result; accesses to other
teams are sent. -/
def Atomls (a : MArgs) : Prop :=
  ∀ (s : State) (x : Issue) (prio : BitVec 8) (tid off : Nat → Nat) (far : Nat → Bool), WellFormed (.atoml a) → Issues s (.atoml a) x prio → HasTeam s x.g.team → NoAcquire x →
    let e := casOpr x a
    let new (l : Nat) : Nat := atomNew a.rcnt.toNat (bytesOf a) (inPad s a tid off l) (atomData a x.opD l) (atomData a e l)
    let acc (l : Nat) : Access := { va := eaLocal a x.localX (bytesOf a) l, pa := off l, n := bytesOf a, data := atomData a x.opD l, new := atomData a e l }
    let clean := ∀ l, Active x l → (s.team (tid l)).spoisoned (off l) (bytesOf a) = false
    (a.nr = true →
      (x.act = 0 → ∃ t, exec (.atoml a) s = .next t ∧ Commits x prio s t x.g) ∧
      (x.act ≠ 0 → Readable [x.opX, x.opD, e] → Lands x a true true tid off far → clean →
        ((∀ l, Active x l → far l = false) → (∀ l, Active x l → Alone x a tid off l) → ∃ t, exec (.atoml a) s = .next t ∧
          Commits x prio { x.read [x.opX, x.opD, e] s with teams := t.teams } t (stamped s (read x [x.opX, x.opD, e])) ∧ Stored x a s t tid off new (fun l j => j ≠ l)) ∧
        ((∀ l, Active x l → far l = true) → ∃ t, exec (.atoml a) s = .next t ∧
          Commits x prio { x.read [x.opX, x.opD, e] s with teams := t.teams, reqs := t.reqs, nextId := s.nextId + 1 } t (dcUp x (stamped s (read x [x.opX, x.opD, e]))) ∧
          Sends x s t (.atom a.rcnt.toNat false) true false acc (inTeam tid)))) ∧
    (a.nr = false → Free x (x.dests (regsOf a)) →
      (x.act = 0 → ∃ t p, exec (.atoml a) s = .next t ∧ Promises x prio (regsOf a) s t p ∧ p.writes = []) ∧
      (x.act ≠ 0 → Readable [x.opX, x.opD, e] → Lands x a true true tid off far → clean →
        ((∀ l, Active x l → far l = false) → (isS x.fd = false → ∀ l, Active x l → Alone x a tid off l) → ∃ t p, exec (.atoml a) s = .next t ∧
          Pends x prio { x.read [x.opX, x.opD, e] s with teams := t.teams } t (stamped s x.g) (x.dests (regsOf a)) true p ∧ Loaded x (regsOf a) (inPad s a tid off) (p.on x.g) ∧
          Stored x a s t tid off new (fun l j => isS x.fd = false ∧ j ≠ l)) ∧
        ((∀ l, Active x l → far l = true) → ∃ t p, exec (.atoml a) s = .next t ∧
          Pends x prio { x.read [x.opX, x.opD, e] s with teams := t.teams, reqs := t.reqs } t (stamped s x.g) (x.dests (regsOf a)) false p ∧
          Sends x s t (.atom a.rcnt.toNat true) true (isS x.fd) acc (inTeam tid))))
/-- LDW (R221): window k = OFF[9:7] of the word, at x + c × n; bytes at or beyond its size, and below it, read zero and set WOB. -/
def Ldws (a : MArgs) : Prop :=
  ∀ (s : State) (x : Issue) (prio : BitVec 8) (b : Nat → Nat → Byte), WellFormed (.ldw a) → Issues s (.ldw a) x prio → Readable [x.opX] → Free x (x.dests (regsOf a)) →
    let w := x.tm.windows.getD (a.off.toNat / 128) {}
    let o (l : Nat) : Int := (x.localX.at32 l).toNat + (a.off.extractLsb' 0 7).toInt * bytesOf a
    let beyond := (Mask.lanes x.act).any (fun l => decide (o l < 0) || decide (w.size < o l + bytesOf a))
    (x.act = 0 → ∃ t p, exec (.ldw a) s = .next t ∧ Promises x prio (regsOf a) s t p ∧ p.writes = []) ∧
    (x.act ≠ 0 → NoAcquire x → w.valid = true → (∀ l, Active x l → o l % bytesOf a = 0 ∧ ∀ j, j < bytesOf a →
        if 0 ≤ o l ∧ o l + j < w.size then ∃ pa leaf, accessTr s x.g.core x.g.ctx .read (w.base.toNat + ((o l).toNat + j)) = .ok pa leaf ∧ s.poisoned pa 1 = false ∧ b l j = s.rdByte pa
        else b l j = 0) →
      ∃ t p, exec (.ldw a) s = .next t ∧ Promises x prio (regsOf a) (Reached s t) t p ∧
        p.flags = (List.range 64).map (fun l => if Mask.has x.act l && (x.opX.wob || beyond) then 32 else 0) ∧
        Loaded x (regsOf a) (fun l => leNat ((List.range (bytesOf a)).map (b l))) (p.on x.g))

/-! ## Homes, and the results that come back -/

/-- Part `i` of request `r` has been performed and brought `vals`: the request waits for its others, or, with that the last, its result is ready in its warp, as
what `Req.writes` makes of all its values. -/
structure Answered (s t : State) (r : Req) (i : Nat) (vals : List (Nat × Nat)) : Prop where
  waits : ((∃ j p, r.parts[j]? = some p ∧ j ≠ i ∧ p.done = false) ∨ r.kind.answers = false) →
    ∃ q z, t.req r.rid = some q ∧ q.vals = r.vals ++ vals ∧ q.bad = r.bad ∧ q.parts[i]? = some z ∧ z.performed = true
  ready : r.kind.answers = true → (∀ j p, r.parts[j]? = some p → j ≠ i → p.done = true) → t.req r.rid = none ∧
    ∀ g w p, s.group r.gid = some g → w ∈ g.warps → p ∈ w.pend → p.rid = r.rid → ∃ h v q, t.group r.gid = some h ∧ v ∈ h.warps ∧ q ∈ v.pend ∧
      q.rid = r.rid ∧ q.ready = true ∧ q.dst = p.dst ∧ q.writes = (({ r with vals := r.vals ++ vals }).writes g.width).map (RegWrite.restrict p.lanes)
/-- Atomics in ascending order (R223): the old value of each, and what memory becomes. -/
def atomsOn (op : Nat) : List Acc → List Host.Cell → List (Nat × Nat) × List Host.Cell
  | [], m => ([], m)
  | a :: r, m =>
    let old := leNat (Memory.bytes m a.pa a.n)
    let q := atomsOn op r (Memory.store m a.pa (leBytes a.n (atomNew op a.n old a.data a.new)))
    ((a.lane, old) :: q.1, q.2)
/-- A part of a request comes to a home of this package that lets it through (R273, R292, R341, R361): after the same thread's earlier accesses to its bytes,
not behind a request that the slice takes later in the cycle, on a page that is not compressed, past the region table. -/
structure AtHome (s : State) (r : Req) (i : Nat) (p : Part) : Prop where
  req : s.req r.rid = some r
  part : r.parts[i]? = some p
  local_ : r.inCluster = false
  new : p.performed = false
  order : conflicts s r.gid r.rid p.accs = false
  mine : p.line * 128 < Config.t2End
  turn : s.passed p.line r.core = false
  loose : s.packedAt (p.line * 128) = false
  gate : (deviceGate s p.line (r.kind != .load) false).2 = true
  sound : ∀ a ∈ p.accs, s.poisoned a.pa a.n = false
  some_ : p.accs ≠ []
/-- The slice holds the line, or has room for it (R273). -/
def Held (s : State) (l2na : Bool) (line : Nat) : Prop :=
  (s.lineSt line).inL2 = true ∨ (l2na = false ∧ (s.lines.filter (fun l => l.inL2 && sliceKey l.line == sliceKey line)).length < 24)
/-- HOME_REQUEST (R217, R223, R273, R275): a load brings its bytes, a store writes them and an atomic changes them; the line of a write carries its GWCT, and is
dirty in a slice that holds it. -/
def HomeRequests (rid i : Nat) : Prop :=
  ∀ (s : State) (r : Req) (p : Part), r.rid = rid → AtHome s r i p →
    (r.kind = .load → ∃ t, exec (.homeRequest rid i) s = .next t ∧ t.mem = s.mem ∧ t.teams = s.teams ∧
      Answered s t r i (p.accs.map (fun a => (a.lane, ldeConv a.conv r.daz (leNat (Memory.bytes s.mem a.pa a.n)))))) ∧
    (r.kind = .store → ∃ t, exec (.homeRequest rid i) s = .next t ∧ t.groups = s.groups ∧ Answered s t r i [] ∧
      t.mem = p.accs.foldl (fun m a => Memory.store m a.pa (leBytes a.n a.data)) s.mem ∧ (Held s p.l2na p.line → (t.lineSt p.line).dirty = true) ∧ s.bw ≤ (t.lineSt p.line).wt ∧
      ∃ q z, t.req rid = some q ∧ q.parts[i]? = some z ∧ z.gwct = (t.lineSt p.line).wt) ∧
    (∀ op ret, r.kind = .atom op ret → (s.lineSt p.line).clusters = 0 → (s.lineSt p.line).dieBits = 0 → (∀ v ∈ s.invals, v.line ≠ p.line ∧ v.rid ≠ some (rid, p.line)) →
      ∃ t, exec (.homeRequest rid i) s = .next t ∧ Answered s t r i (atomsOn op p.accs s.mem).1 ∧ t.mem = (atomsOn op p.accs s.mem).2 ∧
        (Held s p.l2na p.line → (t.lineSt p.line).dirty = true))
/-- Beyond the package (R371, R408): a store to an outbound window leaves with its data, and a request to another node is sent. -/
def FarRequests (rid i : Nat) : Prop :=
  ∀ (s : State) (r : Req) (p : Part), r.rid = rid → s.req rid = some r → r.parts[i]? = some p → r.inCluster = false → p.performed = false →
    conflicts s r.gid rid p.accs = false →
    (isOutbound (p.line * 128) = true → r.kind = .store → ∃ t, exec (.homeRequest rid i) s = .next t ∧ t = { s with out := t.out, reqs := t.reqs } ∧
      t.out = s.out ++ p.accs.map (fun a => (a.pa, (leBytes a.n a.data).map (fun b => b.toNat))) ∧
      ∃ q z, t.req rid = some q ∧ q.parts[i]? = some z ∧ z.performed = true ∧ z.done = true ∧ z.gwct = s.bw) ∧
    (isRemote (p.line * 128) = true → r.sent = false → ∃ t, exec (.homeRequest rid i) s = .next t ∧ t = { s with reqs := t.reqs } ∧
      t.req rid = some { r with sent := true, sentAt := s.bw })

/-- L1_INVALIDATE (R274, R275): the copies it covers are gone, the others stand, and its acknowledgement joins the store that waits for it. -/
def Invalidates (iid : Nat) : Prop :=
  ∀ (s : State) (v : Inval), s.invals.find? (fun v => v.iid == iid) = some v →
    ∃ t, exec (.l1Invalidate iid) s = .next t ∧ t.mem = s.mem ∧ (∀ q ∈ t.invals, q.iid ≠ iid) ∧ (∀ q ∈ s.invals, q.iid ≠ iid → q ∈ t.invals) ∧
      (∀ l, l ∈ t.l1 ↔ l ∈ s.l1 ∧ (v.icOnly = true ∨ ¬ (l.line = v.line ∧ covered v.home v.clusters v.dieBits l.core = true ∧ v.spare ≠ some l.core))) ∧
      (∀ l, l ∈ t.icache ↔ l ∈ s.icache ∧ ¬ (l.line = v.line ∧ covered v.home v.clusters v.dieBits l.core = true)) ∧
      ∀ rid line r, v.rid = some (rid, line) → s.req rid = some r → r.kind.answers = false →
        ∃ q, t.req rid = some q ∧ q.parts = r.parts.map (fun p => if p.line = line then { p with done := true, gwct := max p.gwct s.bw } else p)
/-- STORE_COMPLETE (R215, R432): the largest GWCT joins GW, the counter falls, and a fault of lanes that were not performed is held on it, which
cancels the arrivals deferred on that counter. -/
def StoresEnd (rid : Nat) : Prop :=
  ∀ (s : State) (r : Req) (g : Group), s.req rid = some r → r.rid = rid → r.kind.answers = false → (∀ p ∈ r.parts, p.done = true) → s.group r.gid = some g →
    ∃ t h, exec (.storeComplete rid) s = .next t ∧ t.req rid = none ∧ t.mem = s.mem ∧ OtherGroupsSame r.gid s t ∧ t.group r.gid = some h ∧
      h.gw = max g.gw (r.parts.foldl (fun m p => max m p.gwct) 0) ∧ (∀ n, h.dcv n = g.dcv n - if n = r.dc ∧ n < 6 then 1 else 0) ∧ h.v = g.v ∧ h.s = g.s ∧
      (r.bad = 0 → h.held = g.held ∧ h.deferred = g.deferred) ∧
      (r.bad ≠ 0 → (r.far = false ∨ r.dc ≠ 6) → (∀ q ∈ g.held, q.1 ≠ r.dc) →
        h.held = g.held ++ [(r.dc, { cause := r.cause, addr := BitVec.ofNat 64 r.badAt, queue := 0, info := r.info })] ∧
          h.deferred = g.deferred.filter (fun a => a.dc != r.dc))
/-- LOOKAHEAD_RESULT (R73, R34, R35, R152): a result that has come and whose window has closed is written, with its flags, and is pending no more; of a
result whose warp has split, the other part no longer writes what belongs to the group. -/
def ResultsLand (gid wid rid : Nat) : Prop :=
  ∀ (s : State) (g : Group) (w : Warp) (p : Pending), s.group gid = some g → g.warp wid = some w → w.pend.find? (fun p => p.rid == rid) = some p →
    p.ready = true → p.left = 0 → p.rep = false → g.mayRun wid = true → (p.red = true → ∀ q ∈ g.warps, ∀ z ∈ q.pend, z.red = true → p.rid ≤ z.rid) →
    (∀ v ∈ p.writes, ∀ r k, v ≠ .pr r k) →
    ∃ t h q, exec (.lookaheadResult gid wid rid) s = .next t ∧ t = { s with groups := t.groups } ∧ OtherGroupsSame gid s t ∧ t.group gid = some h ∧
      SchedOnly ((p.on g).orFsr (p.flags.foldl (· ||| ·) 0)) h ∧ h.warp wid = some q ∧ q.entries = w.entries ∧
      q.pend = (w.pend.erase p).map (fun z => if z.rid = rid then { z with writes := z.writes.filter (fun v => !v.shared), red := false } else z)
/-- CLUSTER_WINDOW_ACCESS (R255): a part of a request is performed in another team's scratchpad. -/
def ClusterAccesses (rid : Nat) : Prop :=
  ∀ (s : State) (r : Req) (u v : List Part) (p : Part), s.req rid = some r → r.rid = rid → r.inCluster = true → r.parts = u ++ p :: v →
    (∀ z ∈ u, z.performed = true) → p.performed = false → (∀ z ∈ u ++ v, z.node ≠ p.node) →
    (∀ q ∈ s.reqs, q.gid = r.gid → q.inCluster = true → rid ≤ q.rid) → HasTeam s p.node →
    let tm := s.team p.node
    (tm.st = .resident ∨ tm.st = .draining) → clusterOf tm.core = clusterOf r.core → p.accs ≠ [] → (∀ a ∈ p.accs, ∀ b ∈ p.accs, a.n = b.n) →
    (∀ a ∈ p.accs, tm.spoisoned a.pa a.n = false) →
    (r.kind = .load → ∃ t, exec (.clusterWindowAccess rid) s = .next t ∧ t.teams = s.teams ∧
      Answered s t r u.length (p.accs.map (fun a => (a.lane, leNat (Memory.bytes tm.scratch a.pa a.n))))) ∧
    (r.kind = .store → ∃ t, exec (.clusterWindowAccess rid) s = .next t ∧ Answered s t r u.length [] ∧
      (t.team p.node).scratch = p.accs.foldl (fun m a => Memory.store m a.pa (leBytes a.n a.data)) tm.scratch ∧
      ∀ k, k ≠ p.node → t.team k = s.team k) ∧
    (∀ op ret, r.kind = .atom op ret → ∃ t, exec (.clusterWindowAccess rid) s = .next t ∧ Answered s t r u.length (atomsOn op p.accs tm.scratch).1 ∧
      (t.team p.node).scratch = (atomsOn op p.accs tm.scratch).2 ∧ ∀ k, k ≠ p.node → t.team k = s.team k)

/-! ## Objects, placement and the tier manager -/

/-- `g` is `g0` with `v` in S register `r`. -/
structure WroteS (g0 : Group) (r : Nat) (v : DWord) (g : Group) : Prop where
  rest : g = { g0 with s := g.s, spoison := g.spoison }
  sreg : ∀ q, g.sreg q = if q = r then v else g0.sreg q
/-- The dies whose tables hold an object of a scope (R228). -/
def scopeDies (pkg : Bool) (die : Nat) : List Nat := if pkg then [0, 1, 2, 3, 4, 5, 6, 7] else [die]
/-- A handle names a live object that the group reaches (R228, R230). -/
structure Names (s : State) (g : Group) (v : Nat) (f : FoldEntry) : Prop where
  is : f = s.foldAt (v / 2 ^ 16 % 8) (v % 2 ^ 12)
  ref : v.testBit 63 = false
  gen : f.gen = v / 2 ^ 12 % 16
  live : f.live = true
  reach : f.pkg = true ∨ v / 2 ^ 16 % 8 = dieOf g.core
/-- The group's writes to the object have returned, and BWCLK has passed GW + 2 (R229). -/
def ObjQuiet (s : State) (g : Group) (f : FoldEntry) : Prop :=
  (∀ r ∈ s.reqs, r.gid = g.gid → r.inCluster = false → r.kind ≠ .load → ∀ p ∈ r.parts, p.line ∉ f.lines) ∧ g.gw + 2 ≤ s.bw
/-- The tables of dies `ds` hold `f d` at index `i`, and every other entry stands. -/
def FoldOnly (s t : State) (ds : List Nat) (i : Nat) (f : Nat → FoldEntry) : Prop :=
  (∀ d ∈ ds, t.foldAt d i = f d) ∧ ∀ d j, (d ∉ ds ∨ j ≠ i) → t.foldAt d j = s.foldAt d j
/-- No view of the object is left on dies `ds`, and no L1 of dies `cs` holds a line of it. -/
def Forgotten (s t : State) (ds cs : List Nat) (i : Nat) (lines : List Nat) : Prop :=
  (∀ v, v ∈ t.views ↔ v ∈ s.views ∧ ¬ (v.die ∈ ds ∧ v.index = i)) ∧ ∀ l, l ∈ t.l1 ↔ l ∈ s.l1 ∧ ¬ (dieOf l.core ∈ cs ∧ l.line ∈ lines)

/-- OBJDECL (R228): with a good record that overlaps no live object, the lowest index free in every table is taken; else the handle says why not. -/
def Declares (a : EArgs) : Prop :=
  ∀ (s : State) (x : Issue) (prio : BitVec 8) (bs : List Byte) (sh : Shape), WellFormed (.objdecl a) → Issues s (.objdecl a) x prio → Readable [x.opX] →
    Free x [.s (fnum a.y)] → (x.opX.at64 0).toNat % 64 = 0 → eBytes s (agentOf x.g) (x.opX.at64 0).toNat 64 = .ok bs → shapeOf (leNat bs) = some sh → sh.space = 0 →
    let pkg := a.mode.toNat % 8 == 4
    let die := dieOf x.g.core
    let ds := scopeDies pkg die
    let lines := boxLines s (agentOf x.g) sh
    let overlap := ∃ f ∈ s.fold, f.live = true ∧ ∃ l ∈ f.lines, l ∈ lines
    let free (i : Nat) := ∀ d ∈ ds, (s.foldAt d i).live = false
    let refused (why : Nat) := ∃ t g, exec (.objdecl a) s = .next t ∧ Commits x prio (x.read [x.opX] s) t g ∧ WroteS (read x [x.opX]) (fnum a.y) (BitVec.ofNat 64 (2 ^ 63 + why * 2 ^ 56)) g
    (overlap → refused 1) ∧
    (¬ overlap → (∀ i, i < 4096 → ¬ free i) → refused 0) ∧
    (¬ overlap → ∀ i, i < 4096 → free i → (∀ j, j < i → ¬ free j) → ∃ t g, exec (.objdecl a) s = .next t ∧
      Commits x prio { x.read [x.opX] s with fold := t.fold, l1 := t.l1, views := t.views } t g ∧
      WroteS (read x [x.opX]) (fnum a.y) (BitVec.ofNat 64 (die * 2 ^ 16 + (s.foldAt die i).gen * 2 ^ 12 + i)) g ∧
      FoldOnly s t ds i (fun d => { s.foldAt d i with live := true, decl := die, pkg := pkg, pm1 := a.mode.toNat / 8, arr := 0, phase := 0, lines := lines }) ∧
      Forgotten (x.read [x.opX] s) t ds ds i lines)
/-- OBJREL (R230): with no PHASE waiting and the group's writes returned the object ends and its generation rises; else the warp waits. -/
def ObjReleases (a : RArgs) : Prop :=
  ∀ (s : State) (x : Issue) (prio : BitVec 8) (f : FoldEntry), WellFormed (.objrel a) → Issues s (.objrel a) x prio → Readable [x.opX] → UniOk x x.opX →
    Names s x.g (uni64 x.opX) f →
    let ds := scopeDies f.pkg (uni64 x.opX / 2 ^ 16 % 8)
    let i := uni64 x.opX % 2 ^ 12
    (∀ g ∈ s.groups, dieOf g.core ∈ ds → ∀ w ∈ g.warps, ∀ d ph, w.wait ≠ .phase d i ph) →
    (ObjQuiet s x.g f → ∃ t, exec (.objrel a) s = .next t ∧ Commits x prio { x.read [x.opX] s with fold := t.fold, l1 := t.l1, views := t.views } t (read x [x.opX]) ∧
      FoldOnly s t ds i (fun d => { s.foldAt d i with live := false, gen := ((s.foldAt d i).gen + 1) % 16, pm1 := 0, arr := 0, phase := 0, lines := [] }) ∧
      Forgotten (x.read [x.opX] s) t ds (scopeDies true 0) i f.lines) ∧
    (¬ ObjQuiet s x.g f → ∃ t, exec (.objrel a) s = .next t ∧ Waits x [x.opX] .other (x.read [x.opX] s) t)
/-- PHASE (R229): it waits for the group's writes, arrives once, and, released, writes the new phase to d. -/
def Phases (a : RArgs) : Prop :=
  ∀ (s : State) (x : Issue) (prio : BitVec 8), WellFormed (.phase a) → Issues s (.phase a) x prio →
    (x.w.released = true → Free x [.s (fnum x.fd)] →
      ∃ t g, exec (.phase a) s = .next t ∧ Commits x prio s t g ∧ WroteS x.g (fnum x.fd) (BitVec.ofNat 64 (x.w.snap.headD 0)) g) ∧
    (∀ f, x.w.released = false → Readable [x.opX] → UniOk x x.opX → Names s x.g (uni64 x.opX) f →
      let ds := scopeDies f.pkg (uni64 x.opX / 2 ^ 16 % 8)
      let i := uni64 x.opX % 2 ^ 12
      (¬ ObjQuiet s x.g f → ∃ t, exec (.phase a) s = .next t ∧ Waits x [x.opX] .other (x.read [x.opX] s) t) ∧
      (ObjQuiet s x.g f → ∃ t, exec (.phase a) s = .next t ∧ Waits x [x.opX] (.phase (dieOf x.g.core) i f.phase) { x.read [x.opX] s with fold := t.fold } t ∧
        FoldOnly s t ds i (fun d => if f.pm1 ≤ f.arr then { s.foldAt d i with arr := 0, phase := ((s.foldAt d i).phase + 1) % 2 ^ 32 }
          else { s.foldAt d i with arr := (s.foldAt d i).arr + 1 })))
/-- PHASE_VIEW_UPDATE (R279): the core's view takes the object's phase, and the PHASEs that wait in an older one on it go on with the phase after theirs. -/
def ViewsUpdate (core die obj : Nat) : Prop :=
  ∀ s : State, (s.foldAt die obj).live = true → die = dieOf core → ∃ t, exec (.phaseViewUpdate core die obj) s = .next t ∧
    t = { s with groups := t.groups, views := t.views } ∧ t.viewOf core die obj = (s.foldAt die obj).phase ∧
    (∀ c d o, (c ≠ core ∨ d ≠ die ∨ o ≠ obj) → t.viewOf c d o = s.viewOf c d o) ∧
    ∀ gid wid g w d ph, s.group gid = some g → g.core = core → g.warp wid = some w → w.wait = .phase d obj ph → ph ≠ (s.foldAt die obj).phase →
      Released t gid wid ∧ ((s.groups.map (·.gid)).Nodup → (g.warps.map (·.wid)).Nodup →
        ∃ h q, t.group gid = some h ∧ h.warp wid = some q ∧ q.snap = [(ph + 1) % 2 ^ 32])

/-- The pages of the shape record a PLACE names; none where it cannot be read or is not one of device memory (R231). -/
def placed (s : State) (g : Group) (addr : Nat) : List Nat :=
  if addr % 64 = 0 then
    match eBytes s (agentOf g) addr 64 with
    | .error _ => []
    | .ok bs => match shapeOf (leNat bs) with | none => [] | some r => if r.space = 0 then boxPages s g.ctx r else []
  else []
/-- PLACE (R231): the request is kept and its counter rises; a page that stands in the other tier, is not pinned and is not to be pinned is asked to move. -/
def Places (a : EArgs) : Prop :=
  ∀ (s : State) (x : Issue) (prio : BitVec 8), WellFormed (.place a) → Issues s (.place a) x prio → Readable [x.opX] →
    ∃ t op, exec (.place a) s = .next t ∧
      Commits x prio { x.read [x.opX] s with places := t.places, migs := t.migs, pages := t.pages, contexts := t.contexts, nextId := t.nextId } t (dcUp x (read x [x.opX])) ∧
      t.places = s.places ++ [op] ∧ op.gid = x.g.gid ∧ op.dc = a.dc.toNat ∧ op.engine = none ∧ op.ctx = x.g.ctx ∧ op.tier = a.mode.toNat % 4 ∧ op.pin = a.mode.getLsbD 2 ∧
      (a.mode.getLsbD 2 = false → a.mode.toNat % 4 < 2 → ∀ v ∈ placed s x.g (x.opX.at64 0).toNat, ∀ l o v0, pageLeaf s x.g.ctx (v * 4096) = some (l, o, v0) → o < 18 →
        (s.page x.g.ctx v0).pin = none → (inT1 l.pfn = true ↔ a.mode.toNat % 4 = 1) → v ∈ op.pages ∧ ∃ m ∈ t.migs, m.ctx = x.g.ctx ∧ m.vpage = v0)
/-- PLACE_COMPLETE (R231): no page of the request moves any more; its counter falls, or its engine goes on. -/
def PlacesEnd (rid : Nat) : Prop :=
  ∀ (s : State) (p : PlaceOp), s.places.find? (fun p => p.rid == rid) = some p → (∀ v ∈ p.pages, migrating s p.ctx v = false) →
    ∃ t, exec (.placeComplete rid) s = .next t ∧ t = { s with places := s.places.filter (fun q => q.rid != rid), groups := t.groups, ces := t.ces } ∧
      (p.engine = none → t.ces = s.ces ∧ OtherGroupsSame p.gid s t ∧ ∀ g, s.group p.gid = some g → ∃ h, t.group p.gid = some h ∧ h.v = g.v ∧ h.s = g.s ∧
        ∀ n, h.dcv n = g.dcv n - if n = p.dc ∧ n < 6 then 1 else 0) ∧
      (∀ d e, p.engine = some (d, e) → 8 * d + e < s.ces.length → t.groups = s.groups ∧ (t.ce (8 * d + e)).pc = (s.ce (8 * d + e)).pc + 8 ∧ (t.ce (8 * d + e)).waiting = false)
/-- Some page of a list is away from T1 and not pinned in T2 (R232). -/
def Away (s : State) (ctx : Nat) (ps : List Nat) : Prop :=
  ∃ v ∈ ps, ∃ l o v0, pageLeaf s ctx (v * 4096) = some (l, o, v0) ∧ inT1 l.pfn = false ∧ (s.page ctx v).pin ≠ some 1
/-- PLACEW (R232): the window is read once; the warp goes on when its pages stand in T1, and waits until then. -/
def PlaceWaits (a : EArgs) : Prop :=
  ∀ (s : State) (x : Issue) (prio : BitVec 8), WellFormed (.placew a) → Issues s (.placew a) x prio → Readable [x.opX] →
    let goes (ev : Nat) (ps : List Nat) := (s.event x.g.ctx ev).stream = none →
      (¬ Away s x.g.ctx ps → ∃ t, exec (.placew a) s = .next t ∧ Commits x prio (x.read [x.opX] s) t (read x [x.opX])) ∧
      (Away s x.g.ctx ps → ∃ t h w, exec (.placew a) s = .next t ∧ Waits x [x.opX] .placew (x.read [x.opX] s) t ∧ t.group x.g.gid = some h ∧ h.warp x.w.wid = some w ∧
        w.pass = 1 ∧ w.snap = ev :: ps)
    (∀ bs, x.w.pass = 0 → (x.opX.at64 0).toNat % 64 = 0 → eBytes s (agentOf x.g) (x.opX.at64 0).toNat 64 = .ok bs →
      goes (layerWinOf (leNat bs)).evres (windowPages s x.g.ctx (layerWinOf (leNat bs)))) ∧
    ∀ ev ps, x.w.pass = 1 → x.w.snap = ev :: ps → goes ev ps

/-- MIGRATION_START (R339, R340): a move that was asked for, or that the manager's policy asks for, begins to copy to the frame taken, where that
is clear; no pin keeps the page from that tier. -/
def MigrationStarts (mid : Nat) : Prop :=
  ∀ (s : State) (m : Migration) (l : Leaf) (o v0 : Nat), (policyMove s mid).migs.find? (fun m => m.mid == mid) = some m → m.phase = 0 →
    (∀ q ∈ (policyMove s mid).migs, q.ctx = m.ctx → q.vpage = m.vpage → q.mid ≠ mid → q.phase ≠ 1) →
    pageLeaf s m.ctx (m.vpage * 4096) = some (l, o, v0) → v0 = m.vpage → o < 18 → (inT1 l.pfn = true ↔ m.dst ≠ 0) →
    (∀ p, (s.page m.ctx m.vpage).pin = some p → (p = 0 ↔ m.dst = 0)) →
    let f := pickFrame s.choice (m.dst == 0) o
    framesClear { policyMove s mid with choice := s.choice + 1 } f (2 ^ o) = true →
    ∃ t, exec (.migrationStart mid) s = .next t ∧ t = { s with migs := t.migs, cores := t.cores, choice := s.choice + 1 } ∧
      { m with phase := 1, src := l.pfn, dst := f } ∈ t.migs ∧ (∀ q ∈ s.migs, q.mid ≠ mid → q ∈ t.migs)
/-- MIGRATION_SWITCH (R339, R340): the page's bytes stand in the new frame, and no longer in the old, and its entry names that; no L1, instruction cache, TLB or walk cache holds the old one, no TFETCH pin
stands on it, and the move is over. (No host request is held, which the switch would serve, no copy of a host is being recalled, no operation's pin keeps the page.) -/
def MigrationSwitches (mid : Nat) : Prop :=
  ∀ (s : State) (m : Migration) (l : Leaf) (o : Nat), s.migs.find? (fun m => m.mid == mid) = some m → m.phase = 1 → pageLeaf s m.ctx (m.vpage * 4096) = some (l, o, m.vpage) →
    l.pfn = m.src → s.hostReqs = [] →
    let inLine (x : Nat) : Prop := m.src * 32 ≤ x ∧ x < (m.src + 2 ^ o) * 32
    (∀ c ∈ s.cores, ∀ p ∈ c.2.pins, p.op ≠ none → ¬ inLine p.line) → snooped s (m.src * 4096) (2 ^ o * 4096) = false →
    (∀ p, (s.page m.ctx m.vpage).pin = some p → (p = 0 ↔ inT1 m.dst = true)) →
    let copied := (Memory.store s.mem (m.dst * 4096) (Memory.bytes s.mem (m.src * 4096) (2 ^ o * 4096))).filter
      (fun c => decide (¬ (m.src * 32 ≤ c.1 / 128 ∧ c.1 / 128 < (m.src + 2 ^ o) * 32)))
    ∃ t, exec (.migrationSwitch mid) s = .next t ∧
      t.mem = (({ s with mem := copied } : State).setPfn m.ctx m.vpage o m.dst).mem ∧
      (∀ q ∈ t.l1, ¬ inLine q.line) ∧ (∀ q ∈ t.icache, ¬ inLine q.line) ∧ (∀ q, q ∈ t.migs ↔ q ∈ s.migs ∧ q.mid ≠ mid) ∧
      (∀ c ∈ t.cores, ∀ p ∈ c.2.pins, ¬ inLine p.line) ∧
      (m.ctx < 128 → (∀ e ∈ t.tlb, ¬ (e.asid = (s.ctx m.ctx).asid ∧ e.vpn < m.vpage + 2 ^ o ∧ m.vpage < e.vpn + 2 ^ e.order)) ∧
        ∀ w ∈ t.walkc, ¬ (w.asid = (s.ctx m.ctx).asid ∧ m.vpage / 2 ^ (9 * (w.level + 1)) = w.idx)) ∧ t.teams = s.teams
/-- COMPRESSION and UNIT_EXPANSION (R341) change which units of a page are packed, and no byte. -/
def Compresses (page unit_ : Nat) : Prop :=
  ∀ s : State, s.hostReqs = [] → s.remotes = [] →
    let ctx := page % 256
    let other (t : State) (v : Nat) : Prop := ∀ c w, (c ≠ ctx ∨ w ≠ v) → t.page c w = s.page c w
    (∀ l o v0, pageLeaf s ctx (page / 256 * 4096) = some (l, o, v0) → inT1 l.pfn = false →
      (if ctx < 128 then ctx < 97 ∧ (s.ctx ctx).tierpol.testBit 0 = true else (s.ports.getD (ctx - 128) {}).tenctl.getLsbD 1 = true) →
      ∃ t, exec (.compression page) s = .next t ∧ t = { s with pages := t.pages } ∧ other t v0 ∧
        t.page ctx v0 = { s.page ctx v0 with packed := (List.range (2 ^ o)).map (fun k => l.pfn + k) }) ∧
    ∃ t, exec (.unitExpansion page unit_) s = .next t ∧ t = { s with pages := t.pages } ∧ other t (page / 256) ∧
      t.page ctx (page / 256) = { s.page ctx (page / 256) with packed := (s.page ctx (page / 256)).packed.filter (fun f => f != unit_) }

/-! ## The core copy unit -/

/-- The command that COPY (kind 0), COPYG (1), COPYS (2) and FILL (3) give the unit (R236): the issuing lanes and the Y operand as they stand at issue. -/
structure CopyAs (x : Issue) (a : EArgs) (kind : Nat) (q : CopyCmd) : Prop where
  who : q.id = x.s.nextId ∧ q.gid = x.g.gid ∧ q.kind = kind ∧ q.dc = a.dc.toNat ∧ q.queue = a.q.toNat ∧ q.mask = x.e.mask ∧ q.by_ = x.e.mask
  rec_ : q.recAddr = x.opX.at64 0
  rows : kind = 1 ∨ kind = 2 → ∀ l, l < 64 → q.idx.getD l 0 = (x.opY.at32 l).toNat
  fill : kind = 3 → q.fill = x.opY.at32 0 ∧ q.empty = a.mode.getLsbD 0
  fresh : q.started = false ∧ q.marker = false ∧ q.at_ = 0 ∧ q.gw = 0 ∧ q.fl = 0
/-- COPY, COPYG, COPYS and FILL (R236): the command joins its queue, the counter rises and the warp goes on. -/
def CopyJoins (i : Instr) (a : EArgs) (kind : Nat) (os : Issue → List Opr) (ok : Issue → Prop) : Prop :=
  ∀ (s : State) (x : Issue) (prio : BitVec 8), WellFormed i → Issues s i x prio → Readable (os x) → ok x →
    ∃ t q, exec i s = .next t ∧ Commits x prio { x.read (os x) s with cores := t.cores, nextId := s.nextId + 1 } t (dcUp x (read x (os x))) ∧
      t.core x.g.core = { s.core x.g.core with copyq := (s.core x.g.core).copyq ++ [q] } ∧ CopyAs x a kind q ∧ ∀ c, c ≠ x.g.core → t.core c = s.core c
def CopiesIssue : Prop :=
  (∀ a, CopyJoins (.copy a) a 0 (fun x => [x.opX]) (fun _ => True)) ∧ (∀ a, CopyJoins (.copyg a) a 1 (fun x => [x.opX, x.opY]) (fun _ => True)) ∧
    (∀ a, CopyJoins (.copys a) a 2 (fun x => [x.opX, x.opY]) (fun _ => True)) ∧ ∀ a, CopyJoins (.fill a) a 3 (fun x => [x.opX, x.opY]) (fun x => UniOk x x.opY)

/-- `q` is the command at the head of a queue of the core's copy unit, of group `g`. -/
structure CopyHead (s : State) (core queue : Nat) (q : CopyCmd) (r : List CopyCmd) (g : Group) : Prop where
  first : (s.core core).copyq.filter (fun p => p.queue == queue) = q :: r
  real : q.marker = false
  group : s.group q.gid = some g
/-- Nothing of the machine but the core's copy queue has changed, in which commands numbered as `q` have become `f` of them. -/
def CopyOnly (s t : State) (core : Nat) (q : CopyCmd) (f : CopyCmd → CopyCmd) : Prop :=
  t = { s with cores := t.cores } ∧ (∀ c, c ≠ core → t.core c = s.core c) ∧
    t.core core = { s.core core with copyq := (s.core core).copyq.map (fun p => if p.id = q.id then f p else p) }
/-- The shape records that a copy record names: none as the source of FILL. -/
def ShapesRead (s : State) (g : Group) (q : CopyCmd) (r sb db : List Byte) : Prop :=
  (if q.kind = 3 then sb = [] else crSrc (leNat r) % 64 = 0 ∧ eBytes s (copyAgent g) (crSrc (leNat r)) 64 = .ok sb) ∧
    crDst (leNat r) % 64 = 0 ∧ eBytes s (copyAgent g) (crDst (leNat r)) 64 = .ok db
/-- COPY_COMMAND_START (R236, R240): the records, and the P register that the copy record names, are read. -/
def CopyStarts (core queue : Nat) : Prop :=
  ∀ (s : State) (q : CopyCmd) (rest : List CopyCmd) (g : Group) (r sb db : List Byte), CopyHead s core queue q rest g → q.started = false →
    let s' := (copyHead s core queue).1
    eBytes s' (copyAgent g) q.recAddr.toNat 64 = .ok r → ShapesRead s' g q r sb db → q.recAddr.toNat % 64 = 0 → copyRecBad q.kind (leNat r) = false →
    ∃ t, exec (.copyCommandStart core queue) s = .next t ∧ CopyOnly s t core q (fun p =>
      { p with started := true, record := r, src := sb, dst := db,
               preg := if (leNat r).testBit 165 then some (s.preg g.team (leNat r / 2 ^ 166 % 8)) else none })

/-- A command has left its queue (R237, R240): GW and FSR have what it did, its counter has fallen, and no register has changed. -/
structure CopyLeft (s t : State) (core : Nat) (q : CopyCmd) (g : Group) (gw : Nat) (fl : FFlags) : Prop where
  queue : ∀ p, p ∈ (t.core core).copyq ↔ p ∈ (s.core core).copyq ∧ p.id ≠ q.id
  group : ∃ h, t.group q.gid = some h ∧ h.gw = max g.gw gw ∧ h.fsr = g.fsr ||| fl.zeroExtend 32 ∧ h.v = g.v ∧ h.s = g.s ∧
    ∀ n, h.dcv n = g.dcv n - if n = q.dc then 1 else 0
  others : OtherGroupsSame q.gid s t
/-- The one element that a command still has to move: to `pa` of device memory, `n` bytes of value `v` with flags `fl` (R237, R239). -/
structure OneElement (s : State) (j : CopyJob) (q : CopyCmd) (src : Option (List Int)) (c : List Int) (pa n v : Nat) (fl : FFlags) : Prop where
  units : j.units = [[(src, c)]] ∧ q.at_ = 0
  dst : j.dst.space = 0 ∧ isBfp j.dst.fmt = false ∧ elemBits j.dst.fmt = 8 * n ∧ 1 ≤ n
  place : ∃ l, eTr s j.a .write (j.dst.row c + (c.getD 0 0).toNat * n) = .ok (pa, l) ∧ isWindow pa = false ∧
    gateOpen s pa true = true ∧ (l.fmt = 0 ∨ pageFmt l.fmt = j.dst.fmt)
  value : if j.kind = 3 then v = j.fill % 2 ^ (8 * n) ∧ fl = 0
    else match src with
      | none => v = 0 ∧ fl = 0 ∧ rawCopy j = true
      | some c0 => ∃ raw e, j.src.read s j.a c0 = .ok (raw, e) ∧
          (v, fl) = if rawCopy j then (raw, 0) else convElem j raw (elemVal j.src.fmt j.src.space raw e)
/-- The accesses to scratchpads that the group issued before the command have been performed (R240). -/
def PadsDone (s : State) (q : CopyCmd) : Prop :=
  ∀ r ∈ s.reqs, r.gid = q.gid → r.inCluster = true → r.rid < q.id → ∀ p ∈ r.parts, p.performed = true
/-- COPY_COMMAND_COMPLETE (R237 to R240, R246): a command that nothing stops goes on by one write, and leaves with its last; a full granule holds it; one element is written
as its value in the destination format, and no other byte of memory. -/
def CopyEnds (core queue : Nat) : Prop :=
  ∀ (s : State) (q : CopyCmd) (rest : List CopyCmd) (g : Group), CopyHead s core queue q rest g → q.started = true → PadsDone s q →
    let s' := (copyHead s core queue).1
    let r := copyOutcome s' g q
    (r.stop = none → r.done = true → ∃ t, exec (.copyCommandComplete core queue) s = .next t ∧ CopyLeft s t core q g r.w.gw r.w.fl ∧ t.mem = r.w.s.mem) ∧
    (r.stop = none → r.done = false → ∃ t, exec (.copyCommandComplete core queue) s = .next t ∧ t.groups = s.groups ∧ t.mem = r.w.s.mem ∧
      ∃ p ∈ (t.core core).copyq, p = { q with at_ := r.at_, gw := r.w.gw, fl := r.w.fl }) ∧
    (r.stop = some .full → exec (.copyCommandComplete core queue) s = .next s') ∧
    ∀ (j : CopyJob) (src : Option (List Int)) (c : List Int) (pa n v : Nat) (fl : FFlags), q.job g = .ok j → OneElement s' j q src c pa n v fl →
      ∃ t gw, exec (.copyCommandComplete core queue) s = .next t ∧ CopyLeft s t core q g gw (q.fl ||| fl) ∧ s.bw ≤ gw ∧
        t.mem = Memory.store s.mem pa (leBytes n v)
/-- A command has stopped on a fault (R241): it leaves its queue, its deferred arrivals are cancelled, and the slot of its counter holds the fault, or that a second came. -/
structure CopyFaulted (s t : State) (core : Nat) (q : CopyCmd) (g : Group) (gw : Nat) (fl : FFlags) (code addr info : Nat) : Prop where
  left : CopyLeft s t core q g gw fl
  held : ∃ h, t.group q.gid = some h ∧ (∀ d, d ∈ h.deferred ↔ d ∈ g.deferred ∧ d.dc ≠ q.dc) ∧
    ((∀ p ∈ g.held, p.1 ≠ q.dc) → h.held = g.held ++ [(q.dc, { cause := code, addr := BitVec.ofNat 64 addr, queue := q.queue, info := info })]) ∧
    ((∃ p ∈ g.held, p.1 = q.dc) → h.held = g.held.map (fun p => if p.1 = q.dc then (p.1, { p.2 with lost := true }) else p))
/-- COPY_COMMAND_FAULT (R241): a record at a bad address or with a bad field is an ILLOP at its own address; a fault of an element stops the command there. -/
def CopyFaults (core queue : Nat) : Prop :=
  ∀ (s : State) (q : CopyCmd) (rest : List CopyCmd) (g : Group), CopyHead s core queue q rest g →
    let s' := (copyHead s core queue).1
    (q.started = false → (q.recAddr.toNat % 64 ≠ 0 ∨ ∃ r, eBytes s' (copyAgent g) q.recAddr.toNat 64 = .ok r ∧ copyRecBad q.kind (leNat r) = true) →
      ∃ t, exec (.copyCommandFault core queue) s = .next t ∧ CopyFaulted s t core q g 0 0 0x01 q.recAddr.toNat 0) ∧
    (q.started = false → q.recAddr.toNat % 64 = 0 → ∀ code addr info, eBytes s' (copyAgent g) q.recAddr.toNat 64 = .error (.stop code addr info) →
      ∃ t, exec (.copyCommandFault core queue) s = .next t ∧ CopyFaulted s t core q g 0 0 code addr info) ∧
    (q.started = true → PadsDone s q →
      (∀ addr, q.job g = .error addr → ∃ t, exec (.copyCommandFault core queue) s = .next t ∧ CopyFaulted s t core q g q.gw q.fl 0x01 addr 0) ∧
      let r := copyOutcome s' g q
      ∀ code addr info, r.stop = some (.fault code addr info) → ∃ t, exec (.copyCommandFault core queue) s = .next t ∧
        CopyFaulted s t core q g r.w.gw r.w.fl code addr info ∧ t.mem = r.w.s.mem)
/-- QFENCE (R227): a marker that waits for every operation of the named queues joins each of them, and the warp goes on. -/
def Joins (a : RArgs) : Prop :=
  ∀ (s : State) (x : Issue) (prio : BitVec 8), WellFormed (.qfence a) → Issues s (.qfence a) x prio → Readable [x.opX] → UniOk x x.opX →
    let m := uni64 x.opX
    0 < m → m < 2 ^ 19 →
    let c := s.core x.g.core
    let named (i : Nat) : Prop := (∃ q ∈ c.copyq, m.testBit q.queue = true ∧ q.id = i) ∨ (m.testBit 16 = true ∧ ∃ q ∈ c.mq, q.id = i) ∨
      (m.testBit 17 = true ∧ ∃ q ∈ c.tfetch, q.id = i) ∨ (m.testBit 18 = true ∧ ∃ q ∈ s.collectives, q.die = dieOf x.g.core ∧ q.ctx = x.g.ctx ∧ q.id = i)
    ∃ t ws, exec (.qfence a) s = .next t ∧ Commits x prio { x.read [x.opX] s with cores := t.cores, collectives := t.collectives, nextId := s.nextId + 1 } t (read x [x.opX]) ∧
      (∀ i, i ∈ ws ↔ named i) ∧
      (∀ k, k < 16 → (∃ q ∈ (t.core x.g.core).copyq, q.queue = k ∧ q.marker = true ∧ q.id = s.nextId ∧ q.waits = ws) ∨ m.testBit k = false) ∧
      (∃ r, (t.core x.g.core).copyq = c.copyq ++ r ∧ ∀ q ∈ r, q.marker = true) ∧
      (t.core x.g.core).mq = c.mq ++ (if m.testBit 16 then [{ id := s.nextId, team := x.g.team, gid := x.g.gid, kind := .marker, waits := ws }] else []) ∧
      (∃ r, (t.core x.g.core).tfetch = c.tfetch ++ r ∧ (m.testBit 17 = true → ∃ q, r = [q] ∧ q.marker = true ∧ q.id = s.nextId ∧ q.waits = ws) ∧ (m.testBit 17 = false → r = [])) ∧
      t.collectives = s.collectives ++ (if m.testBit 18 then [{ id := s.nextId, marker := true, die := dieOf x.g.core, ctx := x.g.ctx, addr := 0, waits := ws }] else [])

/-! ## Banks, sleep, lane mode and power gating -/

/-- BANKCFG (R253, R254): bank k = M[3:0] of the team goes to the mode M[5:4]: nothing is done where it has that mode, else the warp waits for the change;
while another bank of the team changes it is held. -/
def Bankcfgs (a : RArgs) : Prop :=
  ∀ (s : State) (x : Issue) (prio : BitVec 8), WellFormed (.bankcfg a) → Issues s (.bankcfg a) x prio →
    let k := a.m.toNat % 16
    let mode := a.m.toNat / 16
    (x.w.released = true → ∃ t, exec (.bankcfg a) s = .next t ∧ Commits x prio s t x.g) ∧
    (x.w.released = false → x.tm.bankPend ≠ none → exec (.bankcfg a) s = .next s) ∧
    (x.w.released = false → x.tm.bankPend = none → HasTeam s x.g.team → k < x.tm.banks.length → (mode = 0 → k + 1 = x.tm.banks.length) →
      (mode ≠ 0 → x.tm.banks.getD k false = (mode == 2) → ∃ t, exec (.bankcfg a) s = .next t ∧ Commits x prio s t x.g) ∧
      ((mode = 0 ∨ x.tm.banks.getD k false ≠ (mode == 2)) →
        ∃ t, exec (.bankcfg a) s = .next t ∧ Waits x [] .bank { s with teams := t.teams } t ∧
          t.team x.g.team = { s.team x.g.team with bankPend := some (k, mode, s.nextId) } ∧ ∀ tid, tid ≠ x.g.team → t.team tid = s.team tid))
/-- BANKCFG_CHANGE (R253, R254): the bank enters its mode with every byte zero and every granule empty, and the warps that wait for it go on. -/
def BanksChange (team : Nat) : Prop :=
  ∀ (s : State) (k mode upto : Nat), HasTeam s team → (s.team team).bankPend = some (k, mode, upto) → bankBusy s (s.team team) k upto = false →
    ∃ t, exec (.bankcfgChange team) s = .next t ∧ t = { s with teams := t.teams, groups := t.groups } ∧ (∀ tid, tid ≠ team → t.team tid = s.team tid) ∧
      (t.team team).bankPend = none ∧
      (t.team team).banks = (if mode = 0 then (s.team team).banks.take k else modAt (fun _ => mode == 2) k (s.team team).banks) ∧
      (∀ o, Amap.get 0 (t.team team).scratch o = if o / 16384 = k then 0 else Amap.get 0 (s.team team).scratch o) ∧
      (∀ g, g ∈ (t.team team).full ↔ g ∈ (s.team team).full ∧ 16 * g / 16384 ≠ k) ∧
      ∀ gid wid g w, s.group gid = some g → g.team = team → g.warp wid = some w → w.wait = .bank → Released t gid wid
/-- SLEEP (R264): no wait for 0; else the warp waits until BWCLK has passed that many ticks. -/
def Sleeps (a : IArgs) : Prop :=
  ∀ (s : State) (x : Issue) (prio : BitVec 8), WellFormed (.sleep a) → Issues s (.sleep a) x prio →
    (a.imm = 0 ∨ x.w.released = true → ∃ t, exec (.sleep a) s = .next t ∧ Commits x prio s t x.g) ∧
    (a.imm ≠ 0 → x.w.released = false → ∃ t, exec (.sleep a) s = .next t ∧ Waits x [] (.sleep (s.bw + a.imm.toNat)) s t)
/-- SLEEP_WAKE (R264): never before that tick. -/
def SleepersWake (gid wid : Nat) : Prop :=
  ∀ (s : State) (g : Group) (w : Warp) (u : Nat), s.group gid = some g → g.warp wid = some w → w.wait = .sleep u →
    (u ≤ s.bw → ∃ t, exec (.sleepWake gid wid) s = .next t ∧ t = { s with groups := t.groups } ∧ OtherGroupsSame gid s t ∧ Released t gid wid) ∧
    (s.bw < u → exec (.sleepWake gid wid) s = .next s)

/-- Only cluster `c` has changed, to `k`. -/
def ClusterOnly (s t : State) (c : Nat) (k : Cluster) : Prop :=
  t = { s with clusters := t.clusters } ∧ t.cluster c = k ∧ ∀ d, d ≠ c → t.cluster d = s.cluster d
/-- The lane clock goes on from an even count in mode 2 (R248). -/
def relocked (k : Cluster) (m : Nat) : Nat := if m = 2 then (k.lclk + 1) / 2 * 2 else k.lclk
/-- LANE_MODE_CHANGE and LANE_RELOCK_DONE (R250): once the lanes and engines have completed the relock takes 256 FCLK; then the new mode holds, and a mode written meanwhile begins its own
change. -/
def LanesRelock (c : Nat) : Prop :=
  ∀ s : State, c < s.clusters.length →
    let k := s.cluster c
    (k.pend = true → k.draining = true → enginesBusy s c = false →
      ∃ t, exec (.laneModeChange c) s = .next t ∧ ClusterOnly s t c { k with draining := false, relockAt := k.fclk + 256 }) ∧
    (k.pend = true → k.draining = false → k.relockAt ≤ k.fclk →
      ((k.heldMode = none ∨ k.heldMode = some k.newMode) → ∃ t, exec (.laneRelockDone c) s = .next t ∧
        ClusterOnly s t c { k with pend := false, lmode := k.newMode, lclk := relocked k k.newMode, heldMode := none, stepAt := k.lclk / 4 * 4 }) ∧
      (∀ m, k.heldMode = some m → m < 3 → m ≠ k.newMode → ∃ t, exec (.laneRelockDone c) s = .next t ∧
        ClusterOnly s t c { k with pend := true, draining := true, lmode := k.newMode, newMode := m, lclk := relocked k k.newMode, heldMode := none, stepAt := k.lclk / 4 * 4 }))
/-- The gate of a cluster (R265): ON, ARMED, ENTER, OFF and WAKE are 0 to 4. An idle one arms, enters after IDLEUS, and goes OFF with its caches and TLBs empty; one that is busy again, or
has woken, is ON. -/
def GatesStep (c : Nat) : Prop :=
  ∀ s : State, c < s.clusters.length →
    let k := s.cluster c
    let idle := clusterIdle s c
    (k.gate = 0 → idle = true → k.gateEn = true → 1 ≤ k.idleus → ∃ t, exec (.gateIdleTimeout c) s = .next t ∧ ClusterOnly s t c { k with gate := 1, idleAt := s.bw }) ∧
    (k.gate = 1 → idle = true → k.idleAt + 1000 * k.idleus ≤ s.bw → ∃ t, exec (.gateIdleTimeout c) s = .next t ∧ ClusterOnly s t c { k with gate := 2 }) ∧
    (k.gate = 1 → idle = false → ∃ t, exec (.gateIdleTimeout c) s = .next t ∧ ClusterOnly s t c { k with gate := 0 }) ∧
    (k.gate = 2 → idle = false → ∃ t, exec (.gateEnterDone c) s = .next t ∧ ClusterOnly s t c { k with gate := 0 }) ∧
    (k.gate = 2 → idle = true → ∃ t, exec (.gateEnterDone c) s = .next t ∧ t.cluster c = { k with gate := 3 } ∧ t.mem = s.mem ∧
      (∀ l, l ∈ t.l1 ↔ l ∈ s.l1 ∧ clusterOf l.core ≠ c) ∧ (∀ l, l ∈ t.icache ↔ l ∈ s.icache ∧ clusterOf l.core ≠ c) ∧
      ∀ e, e ∈ t.tlb ↔ e ∈ s.tlb ∧ (if e.second then e.who ≠ c else clusterOf e.who ≠ c)) ∧
    (k.gate = 4 → ∃ t, exec (.gateWakeDone c) s = .next t ∧ ClusterOnly s t c { k with gate := 0 })

/-! ## Signals -/

/-- A signal record that may be sent (R411): no reserved bit, an event of a context or the ring of a tenant, and, of an unprivileged context, its own event or a ring of TENMASK here. -/
structure SignalOk (s : State) (g : Group) (v : Nat) : Prop where
  zero : v / 2 ^ 14 % 2 ^ 50 = 0 ∧ v / 2 ^ 74 % 2 ^ 6 = 0
  kind : v / 2 ^ 71 % 4 = 0 ∧ v / 2 ^ 64 % 2 ^ 7 < 97 ∨ v / 2 ^ 71 % 4 = 1 ∧ 1 ≤ v / 2 ^ 64 % 2 ^ 7 ∧ v / 2 ^ 64 % 2 ^ 7 < 9
  may : (s.ctx g.ctx).priv = true ∨ (v / 2 ^ 71 % 4 = 0 ∧ v / 2 ^ 64 % 2 ^ 7 = g.ctx) ∨
    (v / 2 ^ 71 % 4 = 1 ∧ v % 2 ^ 14 = s.nodeId ∧ (s.ctx g.ctx).tenmask.getLsbD (v / 2 ^ 64 % 2 ^ 7) = true)
/-- SIGNAL (R411): the record at [x] is read, and its signal is on its way; the counter rises. -/
def Signals (a : EArgs) : Prop :=
  ∀ (s : State) (x : Issue) (prio : BitVec 8) (bs : List Byte), WellFormed (.signal a) → Issues s (.signal a) x prio → x.act ≠ 0 → Readable [x.opX] →
    let addr := (x.opX.at64 0).toNat
    let v := leNat bs
    addr % 16 = 0 → eBytes s (agentOf x.g) addr 16 = .ok bs → SignalOk s x.g v →
    ∃ t q, exec (.signal a) s = .next t ∧ Commits x prio { x.read [x.opX] s with signals := s.signals ++ [q], nextId := s.nextId + 1 } t (dcUp x (read x [x.opX])) ∧
      q.sid = s.nextId ∧ q.gid = x.g.gid ∧ q.dc = a.dc.toNat ∧ q.kind = v / 2 ^ 71 % 4 ∧ q.node = v % 2 ^ 14 ∧ q.ctx = v / 2 ^ 64 % 2 ^ 7 ∧ q.ev = v / 2 ^ 80 % 2 ^ 16 ∧
      q.value = BitVec.ofNat 64 (v / 2 ^ 96 % 2 ^ 32) ∧ q.clr = v.testBit 73 ∧ q.src = x.g.ctx ∧ q.posted = false ∧ q.applied = false

/-- The signal's turn has come (R301, R412): its sender's writes have returned and the skew has passed; of a remote sender's, that those before it have been posted. -/
def SignalDue (s : State) (q : Signal) : Prop :=
  if 2 ^ 64 ≤ q.gid then ∀ p ∈ s.signals, p.gid = q.gid → p.port = q.port → p.posted = false → q.seq ≤ p.seq else
    (∀ r ∈ s.reqs, r.gid = q.gid → r.rid < q.sid → r.kind = .load) ∧
      (match s.group q.gid with | some g => g.gw | none => q.stamp) + (if q.node = s.nodeId then 2 else 40) ≤ s.bw
/-- Every signal of this number is `f`, and the others stand. -/
def SignalNow (s t : State) (sid : Nat) (f : Signal → Prop) : Prop :=
  (∀ q ∈ t.signals, q.sid = sid → f q) ∧ (∃ q ∈ t.signals, q.sid = sid) ∧ ∀ q, q.sid ≠ sid → (q ∈ t.signals ↔ q ∈ s.signals)
/-- SIGNAL_DELIVER (R412, R410): it posts at an event of this node, goes to a ring of a port, leaves for another node, or is dropped and counted. -/
def SignalsDeliver (sid : Nat) : Prop :=
  ∀ (s : State) (q : Signal), s.signals.find? (fun g => g.sid == sid && !g.posted) = some q → SignalDue s q →
    let run := exec (.signalDeliver sid) s
    let dropped := ∃ t, run = .next t ∧ SignalNow s t sid (fun p => p.posted = true ∧ p.applied = true) ∧
      t = { s with signals := t.signals, pkg := { s.pkg with sigdrop := min 65535 (s.pkg.sigdrop + 1) } }
    (q.node = s.nodeId → q.kind = 0 → q.ctx < 97 → (s.ctx q.ctx).enable = true → MayPost s q.ctx q.ev q.clr →
      ∃ t, run = .next t ∧ Posted s t q.ctx q.ev q.value.toNat q.clr ∧ SignalNow s t sid (fun p => p.posted = true ∧ p.applied = true) ∧ t.mem = s.mem) ∧
    (q.node = s.nodeId → q.kind = 0 → (97 ≤ q.ctx ∨ (s.ctx q.ctx).enable = false) → dropped) ∧
    (q.node = s.nodeId → q.kind = 1 → ∃ t, run = .next t ∧ t = { s with signals := t.signals, nextId := s.nextId + 1 } ∧
      SignalNow s t sid (fun p => p.posted = true ∧ p.port = q.ctx - 1)) ∧
    (q.node ≠ s.nodeId → reachable s q.node = false → dropped) ∧
    (q.node ≠ s.nodeId → reachable s q.node = true → ∃ t pkt, run = .next t ∧ t = { s with signals := t.signals, nextId := s.nextId + 1, out := s.out ++ [(2 ^ 60 + q.node, pkt)] } ∧
      pkt.take 6 = [q.ctx, q.kind, q.clr.toNat, q.ev, q.value.toNat, q.src] ∧ SignalNow s t sid (fun p => p.posted = true ∧ p.applied = true))
/-- SIGNAL_RING_WRITE (R370): the entry is written at SIGPROD with its wrap bit; once its fence is done (R296), SIGPROD advances and MSI-X vector 1 is raised; a full ring, or one that is
not mapped, loses the signal. -/
def RingsWrite (sid : Nat) : Prop :=
  ∀ (s : State) (q : Signal), s.signals.find? (fun g => g.sid == sid && g.posted && !g.applied && g.kind == 1) = some q → q.port < s.ports.length →
    (∀ p ∈ s.signals, p.posted = true → p.applied = false → p.kind = 1 → p.port = q.port → q.seq ≤ p.seq) →
    let p := s.ports.getD q.port {}
    let lost := ∃ t, exec (.signalRingWrite sid) s = .next t ∧ t.mem = s.mem ∧ (t.ports.getD q.port {}) = { p with sigovf := min (p.sigovf + 1) 0xFFFFFFFF } ∧
      SignalNow s t sid (fun p => p.applied = true)
    (q.wrote = none → ringUsed p = 512 → lost) ∧
    (q.wrote = none → ringUsed p ≠ 512 → (∀ pa l o v, tenantTr s q.port (p.sigbase + p.sigprod % 512 * 8) ≠ .ok pa l o v) → lost) ∧
    (∀ pa l o v, q.wrote = none → ringUsed p ≠ 512 → tenantTr s q.port (p.sigbase + p.sigprod % 512 * 8) = .ok pa l o v → (deviceGate s (pa / 128) true false).2 = true → s.packedAt pa = false →
      s.pkg.reset = .idle → ∃ t, exec (.signalRingWrite sid) s = .next t ∧
        t.mem = Memory.store s.mem pa (leBytes 8 (p.sigprod / 512 % 2 * 2 ^ 63 + q.src % 128 * 2 ^ 48 + q.value.toNat % 2 ^ 32 * 2 ^ 16 + q.ev % 2 ^ 16)) ∧
        t.ports = s.ports ∧ t.out = s.out ∧ SignalNow s t sid (fun p => p.wrote = some s.bw) ∧ { q with wrote := some s.bw } ∈ t.signals) ∧
    ∀ w, q.wrote = some w →
      (w + 2 ≤ s.bw → ∃ t, exec (.signalRingWrite sid) s = .next t ∧ t = { s with signals := t.signals, ports := t.ports, out := t.out } ∧
        (t.ports.getD q.port {}) = { p with sigprod := (p.sigprod + 1) % 1024 } ∧ SignalNow s t sid (fun p => p.applied = true) ∧ (2 ^ 61 + q.port * 2 ^ 16, [1]) ∈ t.out) ∧
      (s.bw < w + 2 → exec (.signalRingWrite sid) s = .next s)
/-- SIGNAL_ACK (R412): the counter falls and the signal is gone. -/
def SignalsAck (sid : Nat) : Prop :=
  ∀ (s : State) (q : Signal), s.signals.find? (fun g => g.sid == sid && g.applied) = some q →
    ∃ t, exec (.signalAck sid) s = .next t ∧ t = { s with signals := s.signals.filter (fun p => p.sid != sid), groups := t.groups } ∧ OtherGroupsSame q.gid s t ∧
      ∀ g, s.group q.gid = some g → ∃ h, t.group q.gid = some h ∧ h.v = g.v ∧ h.s = g.s ∧ ∀ n, h.dcv n = g.dcv n - if n = q.dc ∧ n < 6 then 1 else 0
/-- SIGNAL_WINDOW_WRITE (R356, R369): 64 bits at an aligned offset below 1000H of a function post for its context; another write of the window is logged and has no other effect. -/
def WindowsSignal (port addr value : Nat) : Prop :=
  ∀ (s : State) (ctx : Nat), fnContext s port (addr / 2 ^ 16) = some ctx → addr % 2 ^ 16 < 0x1000 →
    let ev := value % 2 ^ 16
    let good := s.pkg.halt = false ∧ addr % 8 = 0 ∧ value < 2 ^ 49 ∧ ctx < 97 ∧ (s.ctx ctx).enable = true ∧ s.pkg.reset = .idle
    (good → MayPost s ctx ev (value.testBit 48) → ∃ t, exec (.signalWindowWrite port addr value) s = .next t ∧ t.mem = s.mem ∧
      Posted s t ctx ev (value / 2 ^ 16 % 2 ^ 32) (value.testBit 48)) ∧
    (¬ good → ∃ t, exec (.signalWindowWrite port addr value) s = .next t ∧ t = { s with ports := t.ports, out := t.out })

/-! ## Launching, placing, starting and ending -/

/-- The dies of a mask; of 0 the issuing die (R311). -/
def namedDies (m die : Nat) : List Nat := if m = 0 then [die] else (List.range 8).filter (fun d => m.testBit d)
/-- LAUNCH (R310, R311): the record is read and checked, and the warp waits for a fence of scope package; once it has completed, at BWCLK `stamp`, the grid enters
the queue of each die named with that stamp, and the counter rises; a full queue holds it. -/
def Launches (a : EArgs) : Prop :=
  ∀ (s : State) (x : Issue) (prio : BitVec 8) (r : LaunchRec) (v tb stamp : Nat), WellFormed (.launch a) → Issues s (.launch a) x prio → launchRec v tb = some r →
    let xctx := a.mode.getLsbD 8
    let os := if xctx then [x.opX, x.opY] else [x.opX]
    let tgt := if xctx then uni64 x.opY else x.g.ctx
    let dies := namedDies (a.mode.toNat % 256) (dieOf x.g.core)
    let addr := (x.opX.at64 0).toNat
    Readable os →
    (x.w.pass = 0 → (xctx = true → UniOk x x.opY ∧ (s.ctx x.g.ctx).priv = true ∧ tgt < 97 ∧ (s.ctx tgt).enable = true) → addr % 64 = 0 →
      readLaunch s (agentOf x.g) addr = .ok (v, tb) →
      ∃ t h w, exec (.launch a) s = .next t ∧ Waits x os .fence (x.read os s) t ∧ t.group x.g.gid = some h ∧ h.warp x.w.wid = some w ∧
        w.fence = some { scope := 4, upto := s.nextId } ∧ w.snap = [v, tb]) ∧
    (x.w.pass = 1 → x.w.snap = [v, tb, stamp] → (∀ d ∈ dies, (s.grids.filter (fun q => q.unplacedOn d != 0)).length < 64) →
      ∃ t q, exec (.launch a) s = .next t ∧ Commits x prio { x.read os s with grids := s.grids ++ [q], nextId := s.nextId + 1 } t (dcUp x (read x os)) ∧
        q.id = s.nextId ∧ q.ctx = tgt ∧ q.record = r ∧ q.dies = dies ∧ q.next = dies.map (fun _ => 0) ∧ q.stamp = stamp ∧
        q.launcher = if a.dc.toNat < 6 then some (x.g.gid, a.dc.toNat) else none) ∧
    (x.w.pass = 1 → x.w.snap = [v, tb, stamp] → (∃ d ∈ dies, 64 ≤ (s.grids.filter (fun q => q.unplacedOn d != 0)).length) → exec (.launch a) s = .next s)

/-- The thread of a lane (R316): its values of n registers from y. -/
def threadOf (x : Issue) (y n l : Nat) : List Word := (List.range n).map (fun k => (x.g.vreg (y + k)).lane l)
/-- SPAWN (R316, R317): every lane's thread stands in a bin of its die, context and entry, or in a team that a bin has launched. -/
def Spawns (a : EArgs) : Prop :=
  ∀ (s : State) (x : Issue) (prio : BitVec 8) (q : Grid), WellFormed (.spawn a) → Issues s (.spawn a) x prio → Readable [x.opX] → s.grid x.g.grid = some q →
    let n := a.mode.toNat
    let die := dieOf x.g.core
    n ≤ q.record.budV → (∀ k, k < n → x.act &&& x.g.vpois (a.y.toNat + k) = 0) → (∀ b ∈ s.bins, (s.grid b.grid).isSome = true) →
    (s.bins.filter (fun b => b.die == die)).length + (Mask.lanes x.e.mask).length ≤ 256 →
    ∃ t h, exec (.spawn a) s = .next t ∧ Advanced x prio t ∧ t.group x.g.gid = some h ∧ SchedOnly (read x [x.opX]) h ∧ t.mem = s.mem ∧
      ∀ l, Active x l → (∃ b ∈ t.bins, b.die = die ∧ b.ctx = x.g.ctx ∧ b.entry = x.opX.at64 0 ∧ threadOf x a.y.toNat n l ∈ b.threads) ∨
        ∃ tm ∈ t.teams, tm.spawned = true ∧ tm.entry = x.opX.at64 0 ∧ threadOf x a.y.toNat n l ∈ tm.threads
/-- SPAWN_BIN_TIMEOUT (R317): a bin that is full, whose timer has run out, or whose context is being saved launches a team of one group, once BWCLK has reached its spawners' GW. -/
def BinsLaunch (die bin : Nat) : Prop :=
  ∀ (s : State) (b : Bin) (g : Grid), (s.bins.filter (fun b => b.die == die))[bin]? = some b → s.grid b.grid = some g → b.gw ≤ s.bw →
    (64 ≤ b.threads.length ∨ b.start + fclkTicks s (die * 1024) (s.ctx b.ctx).spawnt ≤ s.bw ∨ b.ctx ∈ (s.dies.getD die {}).saveBlock) →
    ∃ t tm gr, exec (.spawnBinTimeout die bin) s = .next t ∧
      t = { s with bins := s.bins.erase b, teams := s.teams ++ [tm], groups := s.groups ++ [gr], grids := t.grids, nextId := s.nextId + 2 } ∧
      tm.tid = s.nextId ∧ tm.grid = g.id ∧ tm.die = die ∧ tm.st = .queued ∧ tm.spawned = true ∧ tm.threads = b.threads ∧ tm.entry = b.entry ∧ tm.binGw = s.bw ∧
      tm.teamid = 2 ^ 32 + g.spawnedN % 2 ^ 32 ∧ tm.ngrp = 1 ∧ tm.banks = [] ∧ tm.nt = 0 ∧
      gr.gid = s.nextId + 1 ∧ gr.team = tm.tid ∧ gr.role = 2 ∧ gr.width = (b.threads.length + 3) / 4 * 4 ∧ gr.st = .placed ∧ gr.budget = g.record.budV ∧ gr.gw = s.bw ∧ gr.floor = s.bw

/-- From `s` to `t` a team took its place on a core (R312), with the lowest-numbered banks that no team there claims (R252). -/
structure Seated (s t : State) (tid core : Nat) : Prop where
  team : ∃ tm ∈ t.teams, tm.tid = tid ∧ tm.st = .resident ∧ tm.core = core ∧ tm.die = dieOf core ∧ tm.slot = none ∧ tm.requeued = false ∧
    tm.bankNos = ((List.range 12).filter (fun b => b != 0 && !(claimedBanks s core).contains b)).take tm.banks.length
  l1 : ∀ l ∈ t.l1, l.core = core → l.bank ∉ claimedBanks t core
/-- Group `h` is `g` on that core: one that was saved is READY, with no lane parked (R326), and others are still to start. -/
structure Placed (s : State) (saved : Bool) (old core : Nat) (g h : Group) : Prop where
  place : h.core = core
  st : h.st = if saved = true ∧ g.st ≠ .placed then .ready else .placed
  replays : saved = true → ∀ w ∈ h.warps, w.parked = false ∧ w.held = false
  at_ : h.seatedAt = if saved = true ∧ old ≠ core then s.bw else g.seatedAt
/-- TEAM_PLACE (R312, R265): the team that the distributor's rules name for this die and turn is placed on the core they choose, and the turn passes; a gated cluster is woken first. -/
def TeamsPlace (die slot core : Nat) : Prop :=
  ∀ (s : State) (c : Cand) (g : Grid), turnOf s die = some slot → nextPlacement s die slot = some (c, g, core) → clusterOf core < s.clusters.length →
    ((s.cluster (clusterOf core)).gate < 3 →
      (∀ tid, c = .old tid → HasTeam s tid → ∃ t, exec (.teamPlace die slot core) s = .next t ∧ t.mem = s.mem ∧ Seated s t tid core ∧
        ∀ gid g, s.group gid = some g → g.team = tid → g.st ≠ .ended → ∃ h, t.group gid = some h ∧ Placed s ((s.team tid).st == .saved) (s.team tid).core core g h) ∧
      (∀ id teamid share, c = .fresh id teamid share → ¬ HasTeam s s.nextId → ∃ t, exec (.teamPlace die slot core) s = .next t ∧ t.mem = s.mem ∧
        Seated s t s.nextId core ∧
        ∀ k, k < g.record.ngrp → ∃ q ∈ t.groups, q.team = s.nextId ∧ q.gid = s.nextId + 1 + k ∧ q.core = core ∧ q.st = .placed ∧ q.index = k ∧
          q.role = g.record.role k ∧ q.width = g.record.width ∧ q.teamid = teamid ∧ q.budget = g.record.budget (g.record.role k) ∧ q.gw = g.stamp ∧
          q.floor = g.stamp)) ∧
    ((s.cluster (clusterOf core)).gate = 3 → ∃ t, exec (.teamPlace die slot core) s = .next t ∧
      ClusterOnly s t (clusterOf core) { s.cluster (clusterOf core) with gate := 4 })

/-- A group in its launch state (R313): READY, every register zero but S0, which holds ARG, and RNG; its lanes `m` after the entry header `h`, with its PRIO. -/
structure Started (g k : Group) (r : LaunchRec) (h : DWord) (p : BitVec 8) (m : Mask) : Prop where
  same : k.gid = g.gid ∧ k.team = g.team ∧ k.core = g.core ∧ k.index = g.index ∧ k.role = g.role ∧ k.budget = g.budget ∧ k.gw = g.gw ∧ k.floor = g.floor
  ready : k.st = .ready ∧ ∃ w, k.warps = [w] ∧ w.entries = [{ prio := p, pc := h + 8, mask := m, h := h }] ∧ w.pend = [] ∧ w.rpc = 0
  sreg : ∀ n, k.sreg n = if n = 0 then r.arg else 0
  rng : k.rng ≠ 0 ∧ (r.seed ^^^ BitVec.ofNat 64 ((g.teamid * 16 + g.index) * 0x9E3779B97F4A7C15) ≠ 0 →
    k.rng = r.seed ^^^ BitVec.ofNat 64 ((g.teamid * 16 + g.index) * 0x9E3779B97F4A7C15))
  zero : k.c = 0 ∧ k.z = 0 ∧ k.n = 0 ∧ k.vf = 0 ∧ k.fcr = 0 ∧ k.fsr = 0 ∧ k.amax = 0 ∧ k.amaxc = 0 ∧ k.xr = 0 ∧ k.xrseq = 0 ∧ k.limb = 0 ∧ k.gangreg = 0 ∧
    (∀ n, k.dcv n = 0) ∧ k.handlers = [] ∧ k.held = []
/-- GROUP_START (R313, R317): a placed group starts at its role's entry; a spawned one at its bin's, with its threads' values in V0 upward. -/
def GroupsStart (gid : Nat) : Prop :=
  ∀ (s : State) (g : Group) (q : Grid) (hw : DWord), s.group gid = some g → s.grid g.grid = some q → g.st = .placed → (s.team g.team).stands = true →
    let tm := s.team g.team
    (tm.spawned = false → tm.threads = [] →
      let h := q.record.code + BitVec.ofNat 64 (if g.role = 0 then q.record.entC else if g.role = 1 then q.record.entM else q.record.entV)
      fetchVia false s g.core g.ctx false 0 h = .word hw → hdrMark hw = true →
      ∃ t k, exec (.groupStart gid) s = .next t ∧ t = { s with groups := t.groups } ∧ OtherGroupsSame gid s t ∧ t.group gid = some k ∧
        Started g k q.record h (hdrPrio hw) (Mask.width g.width) ∧ k.width = g.width ∧ ∀ n, k.vreg n = .uni 0) ∧
    (tm.spawned = true → fetchVia false s g.core g.ctx false 0 tm.entry = .word hw → hdrMark hw = true →
      ∃ t k, exec (.groupStart gid) s = .next t ∧ t = { s with groups := t.groups } ∧ OtherGroupsSame gid s t ∧ t.group gid = some k ∧
        Started g k q.record tm.entry (hdrPrio hw) (Mask.width tm.threads.length) ∧ k.width = (tm.threads.length + 3) / 4 * 4 ∧
        ∀ n l, l < 64 → l < k.width → n < (tm.threads.headD []).length → (k.vreg n).lane l = (tm.threads.getD l []).getD n 0)
/-- GROUP_END (R315): a group without threads, with every counter at zero and no fault held, has ended; with the last of its team's groups the team is gone (a group of it
whose writes are still on their way stays listed), and with the grid's last team the grid: its launcher's counter falls. One with an EVDONE to post stays until it is posted. -/
def GroupsEnd (gid : Nat) : Prop :=
  ∀ (s : State) (g : Group), s.group gid = some g → g.warps = [] → (∀ n ∈ g.dc, n = 0) → g.held = [] → g.st ≠ .placed → g.st ≠ .saved → g.st ≠ .ended →
    HasTeam s g.team → (s.team g.team).grid = g.grid →
    let last := (∀ q ∈ s.groups, q.team = g.team → q.gid ≠ gid → q.st = .ended) ∧ ∀ m ∈ (s.core (s.team g.team).core).mq, m.team = g.team → m.kind = .marker
    (¬ last → ∃ t h, exec (.groupEnd gid) s = .next t ∧ t.group gid = some h ∧ h.st = .ended ∧ h.warps = [] ∧ HasTeam t g.team ∧ t.grids.length = s.grids.length) ∧
    (last → ∀ q, s.grid g.grid = some q → ∃ t, exec (.groupEnd gid) s = .next t ∧ t.mem = s.mem ∧ ¬ HasTeam t g.team ∧
      (∀ h ∈ t.groups, h.team = g.team → asyncBusy s h = true) ∧
      (q.unplaced = 0 → (∀ tm ∈ s.teams, tm.grid = q.id → tm.tid = g.team) → (∀ b ∈ s.bins, b.grid ≠ q.id) →
        (if q.record.even = true ∧ q.killed = false then ∃ p, t.grid q.id = some p ∧ p.launcher = none ∧ p.record = q.record ∧ p.gw = max q.gw g.gw else t.grid q.id = none) ∧
        ∀ lg dc lq, q.launcher = some (lg, dc) → s.group lg = some lq → lq.team ≠ g.team → lg ≠ gid → ∃ h, t.group lg = some h ∧ ∀ n, h.dcv n = lq.dcv n - if n = dc then 1 else 0))
/-- EVDONE (R301, R315): with the tick at which BWCLK reaches GW + 2, and none of the grid's groups has a write on its way, a grid that has ended posts it and is gone; never before. -/
def GridsDone : Prop :=
  ∀ (s : State) (q : Grid), s.grids.filter (fun p => gridDone s p) = [q] → (∀ g ∈ s.groups, g.grid ≠ q.id) →
    (q.gw + 2 ≤ s.bw → MayPost s q.ctx q.record.evdone false → Posted s s.postDone q.ctx q.record.evdone 1 false ∧ s.postDone.grid q.id = none) ∧
    (s.bw < q.gw + 2 → s.postDone.events = s.events ∧ q ∈ s.postDone.grids)

/-! ## System instructions: TLBs, caches, registers and HALT -/

/-- A TLB entry, and a walk-cache entry, that TLBINV covers (R289): kind 0 the page of an address, 1 an address space, 2 everything; reach 0 the cluster, 1 the die, 2 the package. -/
def inReachOf (reach core c : Nat) : Prop := if reach = 0 then c / 128 = core / 128 else if reach = 1 then c / 1024 = core / 1024 else True
def TlbCovered (kind reach core asid va : Nat) (e : TlbEntry) : Prop :=
  (kind = 2 ∨ (e.asid = asid ∧ (kind = 1 ∨ va / 4096 / 2 ^ e.order * 2 ^ e.order = e.vpn))) ∧ inReachOf reach core (if e.second then e.who * 128 else e.who)
def WalkCovered (kind reach core asid va : Nat) (e : WalkEntry) : Prop :=
  (kind = 2 ∨ (e.asid = asid ∧ (kind = 1 ∨ va / 4096 / 2 ^ (9 * (e.level + 1)) = e.idx))) ∧ (reach = 2 ∨ e.die = core / 1024)
/-- The pages from `b` on, `n` of them, that go with a page of an address space: those of the largest entry in reach that covers it. -/
def GoesWith (s : State) (reach core asid va b n : Nat) : Prop :=
  ((b = va / 4096 ∧ n = 1) ∨ ∃ e ∈ s.tlb, TlbCovered 0 reach core asid va e ∧ b = e.vpn ∧ n = 2 ^ e.order) ∧
    ∀ e ∈ s.tlb, TlbCovered 0 reach core asid va e → b ≤ e.vpn ∧ e.vpn + 2 ^ e.order ≤ b + n
/-- TLBINV (R289): a fence at its reach, then the drop, then what went through a dropped entry: the accesses of cores, and what TFUs, copy units and engines have begun. -/
def Tlbinvs (a : RArgs) : Prop :=
  ∀ (s : State) (x : Issue) (prio : BitVec 8), WellFormed (.tlbinv a) → Issues s (.tlbinv a) x prio → Readable [x.opX, x.opY] → UniOk x x.opX → UniOk x x.opY →
    let kind := a.m.toNat % 4
    let reach := a.m.toNat / 4 % 4
    let va := uni64 x.opX
    let asid := uni64 x.opY
    asid < 2 ^ 12 → (kind ≠ 0 → va = 0) → (kind = 2 → asid = 0) →
    (x.w.pass = 0 → ∃ t h w, exec (.tlbinv a) s = .next t ∧ Waits x [x.opX, x.opY] .fence (x.read [x.opX, x.opY] s) t ∧ t.group x.g.gid = some h ∧ h.warp x.w.wid = some w ∧
      w.fence = some { scope := 2 + reach, upto := s.nextId }) ∧
    (x.w.pass = 1 → let s0 := x.read [x.opX, x.opY] s
      ∃ t h w b n, exec (.tlbinv a) s = .next t ∧ Waits x [x.opX, x.opY] .other { s0 with tlb := t.tlb, walkc := t.walkc } t ∧
        (∀ e, e ∈ t.tlb ↔ e ∈ s0.tlb ∧ ¬ TlbCovered kind reach x.g.core asid va e) ∧ (∀ e, e ∈ t.walkc ↔ e ∈ s0.walkc ∧ ¬ WalkCovered kind reach x.g.core asid va e) ∧
        t.group x.g.gid = some h ∧ h.warp x.w.wid = some w ∧ w.pass = 2 ∧ w.snap = [s.nextId, b, n] ∧ GoesWith s0 reach x.g.core asid va b n) ∧
    ∀ lim b n, x.w.pass = 2 → x.w.snap = [lim, b, n] →
      let busy := ∃ q ∈ s.reqs, q.rid < lim ∧ q.inCluster = false ∧ inReachOf reach x.g.core q.core ∧ (kind = 2 ∨ (s.ctx q.ctx).asid = asid) ∧
        ∃ p ∈ q.parts, p.performed = false ∧ ∃ c ∈ p.accs, kind ≠ 0 ∨ (b ≤ c.va / 4096 ∧ c.va / 4096 < b + n)
      let quiet := (∀ c ∈ s.cores, (∀ q ∈ c.2.copyq, q.started = false) ∧ ∀ q ∈ c.2.mq, q.started = true → q.done = true) ∧ ∀ k, k < 64 → (s.ce k).xfer = none
      (¬ busy → quiet → ∃ t, exec (.tlbinv a) s = .next t ∧ Commits x prio (x.read [x.opX, x.opY] s) t (read x [x.opX, x.opY])) ∧
      (busy ∨ translatedBusy s kind reach x.g.core asid lim (b, n) = true →
        ∃ t, exec (.tlbinv a) s = .next t ∧ Waits x [x.opX, x.opY] .other (x.read [x.opX, x.opY] s) t)

/-- A line of memory, of this package or another node, that the virtual range of `len` bytes at `a` touches. -/
def Touched (x : Issue) (k : AccK) (a len line : Nat) : Prop :=
  (isWindow (line * 128) = false ∨ isRemote (line * 128) = true) ∧ ∃ va pa lf, va % 4096 = 0 ∧ a / 4096 * 4096 ≤ va ∧ va < a + len ∧ accessTr x.s x.g.core x.g.ctx k va = .ok pa lf ∧
    pa / 128 ≤ line ∧ line < pa / 128 + 32 ∧ a / 128 * 128 ≤ va + (line * 128 - pa) ∧ va + (line * 128 - pa) < a + len
/-- CFLUSH (R290), where no host copy and no operation that runs holds a line of it: WB leaves each covered line clean, WBINV drops it from the L1s in scope and from its home, DISCARD does the
same and loses its dirty data. Memory outside the dirty lines of a DISCARD is as it was. The homes of other nodes' pages are told. -/
def Cflushes (a : MArgs) : Prop :=
  ∀ (s : State) (x : Issue) (prio : BitVec 8), WellFormed (.cflush a) → Issues s (.cflush a) x prio → x.act ≠ 0 → Readable [x.opX, x.opD] → x.opX.uni = true → x.opD.uni = true →
    let base := uni64 x.opX
    let len := uni64 x.opD
    let op := a.cp.toNat / 4
    let k : AccK := if op = 2 then .write else .read
    let cov := Touched x k base len
    let s0 := x.read [x.opX, x.opD] s
    1 ≤ len → len ≤ 2 ^ 32 → (∀ va, va % 4096 = 0 → base / 4096 * 4096 ≤ va → va < base + len → ∃ pa lf, accessTr s x.g.core x.g.ctx k va = .ok pa lf) →
    (a.scope = 6 → s.regions = []) → (∀ p ∈ s.pins, p.op.isSome = true → ¬ cov p.line) →
    (s0.lines.map (·.line)).Nodup → (∀ l ∈ s0.lines, l.dirty = true → l.old.length = 128) →
    ∃ t, exec (.cflush a) s = .next t ∧
      Commits x prio { s0 with mem := t.mem, lines := t.lines, l1 := t.l1, icache := t.icache, eh := t.eh, contexts := t.contexts, cores := t.cores, out := t.out } t (read x [x.opX, x.opD]) ∧
      (∀ n, cov n → (s0.lineSt n).inL2 = true → if op = 0 then t.lineSt n = { s0.lineSt n with dirty := false, old := [] } else (t.lineSt n).inL2 = false ∧ (t.lineSt n).dirty = false) ∧
      (∀ n, (¬ cov n ∨ (s0.lineSt n).inL2 = false) → t.lineSt n = s0.lineSt n) ∧
      (op ≠ 0 → ∀ l ∈ t.l1, ¬ (inScope a.scope.toNat x.g.core l.core = true ∧ cov l.line)) ∧ (op = 0 → t.l1 = s0.l1 ∧ t.cores = s.cores) ∧
      (∀ e, e ∈ t.out ↔ e ∈ s.out ∨ ∃ va pa lf, va % 4096 = 0 ∧ base / 4096 * 4096 ≤ va ∧ va < base + len ∧ accessTr s x.g.core x.g.ctx k va = .ok pa lf ∧
        isRemote pa = true ∧ e = (pa, [512 + op])) ∧
      let lost (n : Nat) : Prop := op = 2 ∧ cov n ∧ (s0.lineSt n).inL2 = true ∧ (s0.lineSt n).dirty = true
      ∀ b, (lost (b / 128) → Memory.read t.mem b = (s0.lineSt (b / 128)).old.getD (b % 128) 0) ∧ (¬ lost (b / 128) → Memory.read t.mem b = Memory.read s.mem b)

/-- The machine once the sources have been read, and the issue's group has its WOB flag. -/
def flagged (x : Issue) (os : List Opr) : State := (x.read os x.s).setGroup x.g.gid (fun g => g.orFsr (wobFlag os))
/-- MTSP (R307): the register of index X takes the value Y under its access codes; RESETCTL[1] is context 0's to write (R375). -/
def Mtsps (a : RArgs) : Prop :=
  ∀ (s : State) (x : Issue) (prio : BitVec 8) (u : State) (k : Group), WellFormed (.mtsp a) → Issues s (.mtsp a) x prio → Readable [x.opX, x.opY] → UniOk x x.opX → UniOk x x.opY →
    let v := mtspVal x.g.ctx (uni64 x.opX) (uni64 x.opY)
    a.d = 0 → uni64 x.opX < 2 ^ 32 → (writeReg s (uni64 x.opX) v).isSome = true → writeWaits s (uni64 x.opX) v = false →
    writeReg (flagged x [x.opX, x.opY]) (uni64 x.opX) v = some u → u.group x.g.gid = some k → k.warp x.w.wid = some x.w →
    ∃ t, exec (.mtsp a) s = .next t ∧ OnlyGroup x.g.gid u t k ∧ Advanced x prio t
/-- MFSP (R307): the register's value goes to S register D, and its read-clear fields are cleared. -/
def Mfsps (a : RArgs) : Prop :=
  ∀ (s : State) (x : Issue) (prio : BitVec 8) (v : Nat) (u0 : State), WellFormed (.mfsp a) → Issues s (.mfsp a) x prio → Readable [x.opX] → UniOk x x.opX → Free x [.s (fnum x.fd)] →
    uni64 x.opX < 2 ^ 32 → readReg s (uni64 x.opX) = some (v, u0) →
    ∃ t g s0, exec (.mfsp a) s = .next t ∧ s0 = { x.read [x.opX] s with groups := s0.groups } ∧ OtherGroupsSame x.g.gid s s0 ∧ s0.group x.g.gid = some g ∧
      WroteS (read x [x.opX]) (fnum x.fd) (BitVec.ofNat 64 v) g ∧ Advanced x prio t ∧ ∀ w u, readReg s0 (uni64 x.opX) = some (w, u) → OnlyGroup x.g.gid u t g
/-- REGISTER_WRITE (R306): a write from outside the cores. -/
def RegistersWrite (index value : Nat) : Prop :=
  ∀ s : State, writeWaits s index (value % 2 ^ 64) = false →
    (∀ u, writeReg s index (value % 2 ^ 64) = some u → exec (.registerWrite index value) s = .next u) ∧
    (writeReg s index (value % 2 ^ 64) = none → exec (.registerWrite index value) s = .next s)
/-- DBGRES_WRITE (R399): the group of the context, number and die that the value names goes on where it was halted. -/
def DebugResumes (die value : Nat) : Prop :=
  ∀ s : State, ∃ t, exec (.dbgresWrite die value) s = .next t ∧ t = { s with groups := t.groups } ∧
    ∀ gid g, s.group gid = some g → ∃ h, t.group gid = some h ∧
      h = { g with halted := g.halted && !decide (value / 2 ^ 37 % 8 = 0 ∧ value / 2 ^ 47 % 2 ^ 17 = 0 ∧ g.ctx = value / 2 ^ 40 % 2 ^ 7 ∧ g.core / 1024 = die ∧
        (g.teamid * 16 + g.index) % 2 ^ 37 = value % 2 ^ 37) }

/-- The teams that HALT.KILL ends: those of the context that stand on a core of the die, or wait for one (R331). -/
def Killed (s : State) (die ctx : Nat) (tm : Team) : Prop :=
  tm ∈ s.teams ∧ tm.ctx = ctx ∧ (if tm.stands then tm.core / 1024 = die else tm.die = die)
/-- HALT (R331): GROUP halts the group at the end of its clause, CONTEXT clears ENABLE and stops the context's groups, KILL ends its teams on this die. -/
def Halts (a : RArgs) : Prop :=
  ∀ (s : State) (x : Issue) (prio : BitVec 8), WellFormed (.halt a) → Issues s (.halt a) x prio →
    let kind := a.m.toNat
    let ctx := uni64 x.opX
    (kind = 0 → ∃ t h, exec (.halt a) s = .next t ∧ Commits x prio s t x.g ∧ t.group x.g.gid = some h ∧
      (if x.last && !x.more then h.halted = true else h.haltDue = true)) ∧
    (kind = 1 → Readable [x.opX] → UniOk x x.opX → ctx < 97 → ctx < s.contexts.length → ∃ t, exec (.halt a) s = .next t ∧
      t = { x.read [x.opX] s with groups := t.groups, contexts := t.contexts } ∧ Advanced x prio t ∧ t.ctx ctx = { (x.read [x.opX] s).ctx ctx with enable := false } ∧
      (∀ c, c ≠ ctx → t.ctx c = (x.read [x.opX] s).ctx c) ∧ ∀ gid g, s.group gid = some g → ∃ h, t.group gid = some h ∧ (g.ctx = ctx → h.ctxStop = true) ∧ h.v = g.v ∧ h.s = g.s) ∧
    (kind = 2 → Readable [x.opX] → UniOk x x.opX → ctx < 97 → (s.teams.map (·.tid)).Nodup → (s.groups.map (·.gid)).Nodup → ∃ t, exec (.halt a) s = .next t ∧ t.mem = s.mem ∧
      (∀ tm, Killed s (x.g.core / 1024) ctx tm → tm.stands = true → ∃ q ∈ t.teams, q.tid = tm.tid ∧ q.st = .dying) ∧
      (∀ b ∈ t.bins, ¬ (b.die = x.g.core / 1024 ∧ b.ctx = ctx)) ∧
      ∀ tm g, Killed s (x.g.core / 1024) ctx tm → tm.stands = true → g ∈ s.groups → g.team = tm.tid → g.gid ≠ x.g.gid → ∃ h ∈ t.groups, h.gid = g.gid ∧ h.stopped = true)

/-! ## Pre-emption, saving and loading contexts, and the watchdog -/

/-- The operations that CTXSAVE or CTXLOAD begins, one for each die named (R329, R330). -/
def saveOpsOf (x : Issue) (a : EArgs) (load : Bool) : List SaveOp :=
  (namedDies (a.mode.toNat % 256) (dieOf x.g.core)).map (fun d =>
    { id := x.s.nextId, die := d, ctx := uni64 x.opY, gid := x.g.gid, dc := a.dc.toNat, addr := x.opX.at64 0, mode := a.mode.toNat / 256 % 4, load := load })
/-- The team's issue stops, or it drains (R325). -/
def Preempted (t : Team) : Prop := t.st = .draining ∨ t.st = .saving ∨ t.st = .flushing
/-- CTXSAVE (R329): on each die the context is placed no more, and its resident teams drain, are saved or are flushed. -/
def Ctxsaves (a : EArgs) : Prop :=
  ∀ (s : State) (x : Issue) (prio : BitVec 8), WellFormed (.ctxsave a) → Issues s (.ctxsave a) x prio → Readable [x.opX, x.opY] → UniOk x x.opY →
    (x.opX.at64 0).toNat % 64 = 0 → uni64 x.opY < 97 → s.dies.length = 8 → dieOf x.g.core < 8 →
    let dies := namedDies (a.mode.toNat % 256) (dieOf x.g.core)
    ∃ t h, exec (.ctxsave a) s = .next t ∧ Advanced x prio t ∧ t.group x.g.gid = some h ∧ SchedOnly (dcUp x (read x [x.opX, x.opY])) h ∧ t.mem = s.mem ∧
      t.saves = s.saves ++ saveOpsOf x a false ∧ (∀ d ∈ dies, uni64 x.opY ∈ (t.dies.getD d {}).saveBlock) ∧
      ∀ tm ∈ s.teams, tm.ctx = uni64 x.opY → tm.st = .resident → dieOf tm.core ∈ dies → ∃ q ∈ t.teams, q.tid = tm.tid ∧ Preempted q
/-- CTXLOAD (R330): its operations begin. -/
def Ctxloads (a : EArgs) : Prop :=
  ∀ (s : State) (x : Issue) (prio : BitVec 8), WellFormed (.ctxload a) → Issues s (.ctxload a) x prio → Readable [x.opX, x.opY] → UniOk x x.opY →
    (x.opX.at64 0).toNat % 64 = 0 → uni64 x.opY < 97 →
    ∃ t, exec (.ctxload a) s = .next t ∧ Commits x prio { x.read [x.opX, x.opY] s with saves := s.saves ++ saveOpsOf x a true, nextId := s.nextId + 1 } t (dcUp x (read x [x.opX, x.opY]))

/-- A summary of 64 bytes: four-byte counts, then zeros. -/
def summary (ws : List Nat) : List Byte := (List.range 16).flatMap (fun k => leBytes 4 (ws.getD k 0))
/-- Die `die` has written the summary for the operation (R329, R330) at its place, if its page admits that. -/
def Summed (s t : State) (die : Nat) (o : SaveOp) (ws : List Nat) : Prop :=
  ∀ g pa l, s.group o.gid = some g → eTr s { core := noCore die, ctx := g.ctx, team := 0, who := 0 } .write (o.addr.toNat + 64 * die) = .ok (pa, l) → isWindow pa = false →
    t.mem = Memory.store s.mem pa (summary ws)
/-- The operation is over on this die, and the issuer's counter falls with its last die. -/
structure SaveOver (s t : State) (die : Nat) (o : SaveOp) : Prop where
  gone : t.saves = s.saves.filter (fun p => !(p.id == o.id && p.die == die))
  counter : ∀ g, s.group o.gid = some g → ∃ h, t.group o.gid = some h ∧ h.v = g.v ∧ h.s = g.s ∧
    ∀ n, h.dcv n = g.dcv n - if n = o.dc ∧ n < 6 ∧ (∀ p ∈ s.saves, p.id = o.id → p.die = die) then 1 else 0
/-- A saved team of the context stands in a slot of its pool, and does not wait for a place already (R330). -/
def InPool (s : State) (ctx : Nat) (tm : Team) : Bool :=
  tm.ctx == ctx && tm.st == .saved && !tm.requeued && (List.range (s.ctx ctx).slots).any (fun k => tm.saveAt == (s.ctx ctx).savepool + 2 ^ 21 * k)
/-- CTXSAVE_SUMMARY (R329, R330): once no team of the context stands on the die, the counts are written; a load requeues the saved teams of the pool first and counts them. -/
def SummariesWrite (die ctx : Nat) : Prop :=
  ∀ (s : State) (o : SaveOp), s.saves.find? (fun o => o.die == die && o.ctx == ctx) = some o →
    (o.load = false → (∀ tm ∈ s.teams, tm.ctx = ctx → tm.stands = true → dieOf tm.core ≠ die) →
      ∃ t, exec (.ctxsaveSummary die ctx) s = .next t ∧ SaveOver s t die o ∧ t.teams = s.teams ∧ Summed s t die o [o.saved, o.drained, o.flushed, queuedOn s die ctx]) ∧
    (o.load = true → ∃ t, exec (.ctxsaveSummary die ctx) s = .next t ∧ SaveOver s t die o ∧
      t.teams = s.teams.map (fun tm => if InPool s ctx tm then { tm with requeued := true, die := die } else tm) ∧
      Summed s t die o [(s.teams.filter (InPool s ctx)).length])

/-- No group of the team waits on engines or memory, and none is in a privileged handler. -/
def TeamQuiet (s : State) (tm : Team) : Prop := teamBusy s tm = false ∧ ∀ g ∈ s.groups, g.team = tm.tid → g.stopped = false ∧ g.inPriv = false
/-- TEAM_SAVE (R325 to R328): a team that is being saved, with its counters at zero and no handler running, has its image in its slot and leaves its core and its banks, with its registers; one
that is being flushed waits for a place again in its launch state, a spawned one in that of its bin. -/
def TeamsSave (team : Nat) : Prop :=
  ∀ (s : State) (tm : Team), HasTeam s team → tm = s.team team → TeamQuiet s tm →
    (∀ k, tm.st = .saving → tm.slot = some k → tm.mode ≠ 3 →
      (∀ g ∈ s.groups, g.team = team → g.st = .ended ∨ ((∀ n ∈ g.dc, n = 0) ∧ g.deferred = [] ∧ g.handlers = [])) →
      ∃ t, exec (.teamSave team) s = .next t ∧ t.mem = (s.saveImage tm k).mem ∧ (t.team team).st = .saved ∧ (t.team team).slot = some k ∧
        (t.team team).saveAt = (s.ctx tm.ctx).savepool + 2 ^ 21 * k ∧ (t.team team).bankNos = [] ∧ (t.team team).requeued = false ∧
        (t.team team).progress = tm.progress + ((s.cluster (clusterOf tm.core)).fclk - tm.placedAt) ∧ (t.team team).tiles = tm.tiles ∧ (t.team team).scratch = tm.scratch ∧
        ∀ gid g, s.group gid = some g → g.team = team → g.st ≠ .ended → ∃ h, t.group gid = some h ∧ h.st = (if g.st = .placed then .placed else .saved) ∧
          h.v = g.v ∧ h.s = g.s ∧ h.gw = g.gw ∧ h.floor = g.floor ∧ h.warps.length = g.warps.length) ∧
    (∀ g, tm.st = .flushing → tm.spawned = false → s.grid tm.grid = some g → g.record.idem = true →
      ∃ t, exec (.teamSave team) s = .next t ∧ t.mem = s.mem ∧ t.team team = newTeam team tm.teamid tm.die g ∧ t.groupsOf team = newGroups team s.nextId g tm.teamid) ∧
    (∀ g, tm.st = .flushing → tm.spawned = true → s.grid tm.grid = some g → g.record.idem = true →
      ∃ t q, exec (.teamSave team) s = .next t ∧ t.mem = s.mem ∧ (t.team team).st = .queued ∧ (t.team team).spawned = true ∧ (t.team team).entry = tm.entry ∧
        (t.team team).threads = tm.threads ∧ (t.team team).binGw = tm.binGw ∧ t.groupsOf team = [q] ∧ q.gid = s.nextId ∧ q.st = .placed ∧ q.gw = tm.binGw ∧ q.floor = tm.binGw)
/-- DRAIN_TIMEOUT (R325): a team that has drained too long is saved in a free slot, or flushed where it may restart, and else goes on. -/
def DrainsEnd (team : Nat) : Prop :=
  ∀ (s : State) (tm : Team), HasTeam s team → tm = s.team team → tm.st = .draining → tm.drainAt ≤ (s.cluster (clusterOf tm.core)).fclk →
    (∀ g ∈ s.groups, g.team = team → g.stopped = false) →
    let only (t : State) (q : Team) : Prop := t = { s with teams := t.teams } ∧ t.team team = q ∧ ∀ k, k ≠ team → t.team k = s.team k
    (∀ k, freeSlot s tm = some k → ∃ t, exec (.drainTimeout team) s = .next t ∧ only t { tm with st := .saving, slot := some k }) ∧
    (freeSlot s tm = none → (recordOf s tm).idem = true → ∃ t, exec (.drainTimeout team) s = .next t ∧ only t { tm with st := .flushing }) ∧
    (freeSlot s tm = none → (recordOf s tm).idem = false → exec (.drainTimeout team) s = .next s)
/-- SAVE_AND_ADMIT (R321): of a context that is stalled on a die, with nothing to place as it stands and 4,096 FCLK passed since the stall and the last such save, the team stalled
longest is saved where a waiting team could then be placed. -/
def SavesAdmit (die ctx : Nat) : Prop :=
  ∀ (s : State) (t0 k last : Nat) (c : Nat × Cand × Grid) (cs : List (Nat × Cand × Grid)) (tm : Team) (ts : List Team), stallStart s die ctx = some t0 →
    last = (match (s.dies.getD die {}).admitAt.find? (fun p => p.1 == ctx) with | some p => p.2 | none => 0) → max t0 last + fclkTicks s (die * 1024) 4096 ≤ s.bw →
    mayPlace s die ctx = true → nextPlacement s die ctx = none → candidates s die ctx = c :: cs → stalledTeams s die ctx = tm :: ts →
    (∃ q ∈ stalledTeams s die ctx, (chooseCore s die q.tid (c.2.1.need s c.2.2)).isSome = true) → freeSlot s tm = some k →
    ∃ t q, exec (.saveAndAdmit die ctx) s = .next t ∧ t = { s with teams := t.teams, dies := t.dies } ∧ q ∈ t.teams ∧ q = { tm with st := .saving, slot := some k, mode := 3 }
/-- WATCHDOG_EXPIRE (R320, R322): where a context has been stalled on a die for WDOG microseconds, DLKCNT rises and every group of it there takes DLK, or stops where its handler cannot be
entered. -/
def WatchdogsExpire (die ctx : Nat) : Prop :=
  ∀ (s : State) (t0 : Nat), stallStart s die ctx = some t0 → t0 + 1000 * (s.ctx ctx).wdog ≤ s.bw → ctx < s.contexts.length →
    (∀ q ∈ s.teams, q.ctx = ctx → q.stands = true → dieOf q.core = die → q.st ≠ .saving) → (s.groups.map (·.gid)).Nodup → (∀ g ∈ s.groups, ∀ w ∈ g.warps, w.entries ≠ []) →
    ∃ t, exec (.watchdogExpire die ctx) s = .next t ∧ (t.ctx ctx).dlkcnt = min ((s.ctx ctx).dlkcnt + 1) (2 ^ 32 - 1) ∧ t.mem = s.mem ∧
      ∀ g ∈ residentOn s die ctx, ∃ h, t.group g.gid = some h ∧ h.v = g.v ∧ h.s = g.s ∧
        (h.stopped = true ∨ ∃ d, h.handlers = d :: g.handlers ∧ d.priv = false ∧ d.tcause = 0x11)

/-! ## Copy engines -/

/-- It is the turn of engine `k`, which runs with nothing in progress (R347). -/
structure EngineAt (s : State) (k : Nat) (c : CopyEngine) : Prop where
  turn : s.engine = some k
  is : s.ce k = c ∧ k < s.ces.length
  idle : c.state = 1 ∧ c.waiting = false ∧ c.xfer = none ∧ c.window = none
/-- Engine `k` has become `c`, and no other has changed. -/
def CeNow (s t : State) (k : Nat) (c : CopyEngine) : Prop := t.ce k = c ∧ ∀ j, j ≠ k → t.ce j = s.ce j
def CeOnly (s t : State) (k : Nat) (c : CopyEngine) : Prop := t = { s with ces := t.ces } ∧ CeNow s t k c
/-- It goes on by n words, or, if a STOP came, it is idle there (R347). -/
def wentOn (c : CopyEngine) (n : Nat) : CopyEngine :=
  { c with pc := c.pc + BitVec.ofNat 64 (8 * n), waiting := false, xfer := none, state := if c.stopReq then 0 else 1, stopReq := false }
/-- No engine waits at this event as `k`. -/
def NotThere (s : State) (ctx ev k : Nat) : Prop := ∀ w ∈ (s.event ctx ev).waiters, w.eng = true → w.a ≠ k
/-- Where its transfer reads its record: base, and with step 64 bytes for each turn of loop c (R349). -/
def recordAt (c : CopyEngine) (step : Bool) (l : BitVec 2) (ra : BitVec 51) : Nat := 64 * ra.toNat + if step then 64 * c.i.getD l.toNat 0 else 0
/-- XCOPY and XGATH (R349): with readable records of two shapes, none of them of a core's own scratchpad, the transfer is in progress. -/
def Transfers (i : Instr) (kind : Nat) (step : Bool) (l : BitVec 2) (cl : BitVec 3) (ra : BitVec 51) (idx : Option (BitVec 57)) : Prop :=
  ∀ (s : State) (k : Nat) (c : CopyEngine) (r sb db ib : List Byte) (src dst : Shape), EngineAt s k c →
    let a := ceAgent s k cl.toNat (s.nextId + 1)
    readRecords s a kind (recordAt c step l ra) = .ok (r, sb, db) → shapeOf (leNat sb) = some src → shapeOf (leNat db) = some dst → src.space ≠ 1 → dst.space ≠ 1 →
    (match idx with | some x => eBytes s a x.toNat (4 * (dst.dim 1).box) = .ok ib | none => ib = []) →
    ∃ t q, exec i s = .next t ∧ t = { s with ces := t.ces, nextId := s.nextId + 2, choice := s.choice + 32 } ∧ CeNow s t k { c with xfer := some q } ∧
      q.id = s.nextId + 1 ∧ q.kind = kind ∧ q.recAddr = BitVec.ofNat 64 (recordAt c step l ra) ∧ q.record = r ∧ q.src = sb ∧ q.dst = db ∧ q.queue = cl.toNat ∧ q.started = true ∧ q.at_ = 0 ∧
      ∀ j, j < ib.length / 4 → q.idx.getD j 0 = leNat ((ib.drop (4 * j)).take 4)
/-- XWAIT (R319, R350): it goes on where COUNT reaches the value, lowering it with DEC, and else waits. -/
def EngineWaits (dec : Bool) (v : BitVec 32) (ev : BitVec 16) : Prop :=
  ∀ (s : State) (k : Nat) (c : CopyEngine), EngineAt s k c →
    let e := s.event c.ctx ev.toNat
    e.stream = none →
    (v.toNat ≤ e.count → ∃ t, exec (.xwait dec v ev) s = .next t ∧ t = { s with ces := t.ces, events := t.events } ∧ CeNow s t k (wentOn c 1) ∧
      (t.event c.ctx ev.toNat).count = if dec then e.count - v.toNat else e.count) ∧
    (e.count < v.toNat → eventRoom s c.ctx ev.toNat true = true → ∃ t, exec (.xwait dec v ev) s = .next t ∧ t = { s with ces := t.ces, events := t.events } ∧
      CeNow s t k { c with waiting := true, state := 2 } ∧ (t.event c.ctx ev.toNat).waiters = e.waiters ++ [{ eng := true, a := k, v := v.toNat, dec := dec }])
/-- XSIG (R301, R319, R350): once BWCLK has passed its writes' GWCT by 2 it posts and goes on; until then it stands. -/
def EngineSignals (clr : Bool) (y : BitVec 32) (ev : BitVec 16) : Prop :=
  ∀ (s : State) (k : Nat) (c : CopyEngine), EngineAt s k c →
    (c.gw + 2 ≤ s.bw → MayPost s c.ctx ev.toNat clr → NotThere s c.ctx ev.toNat k → ∃ t, exec (.xsig clr y ev) s = .next t ∧ t.ce k = wentOn c 1 ∧
      Posted s t c.ctx ev.toNat y.toNat clr ∧ t.mem = s.mem) ∧
    (s.bw < c.gw + 2 → exec (.xsig clr y ev) s = .next s)
/-- XLOOP and XJMP (R350): a loop counter that is not zero is lowered, its index rises and the engine goes to its target; at zero the loop is left. -/
def EngineLoops (l : BitVec 2) (n : BitVec 16) (off : BitVec 36) : Prop :=
  ∀ (s : State) (k : Nat) (c : CopyEngine), EngineAt s k c → c.l.length = 4 → c.i.length = 4 →
    let old := if c.lact.getLsbD l.toNat then c.l.getD l.toNat 0 else n.toNat - 1
    let ix := if c.lact.getLsbD l.toNat then c.i.getD l.toNat 0 else 0
    let to_ := c.pc + BitVec.ofInt 64 (8 * off.toInt)
    (0 < old → to_.toNat < 2 ^ 57 → ∃ t, exec (.xloop l n off) s = .next t ∧
      CeOnly s t k { c with pc := to_, lact := c.lact ||| (1#4 <<< l.toNat), l := c.l.set l.toNat (old - 1), i := c.i.set l.toNat (ix + 1) }) ∧
    (old = 0 → ∃ t, exec (.xloop l n off) s = .next t ∧
      CeOnly s t k (wentOn { c with lact := c.lact &&& ~~~(1#4 <<< l.toNat), l := c.l.set l.toNat 0, i := c.i.set l.toNat 0 } 1))
def EngineJumps (off : BitVec 36) : Prop :=
  ∀ (s : State) (k : Nat) (c : CopyEngine), EngineAt s k c → (c.pc + BitVec.ofInt 64 (8 * off.toInt)).toNat < 2 ^ 57 →
    ∃ t, exec (.xjmp off) s = .next t ∧ CeOnly s t k { c with pc := c.pc + BitVec.ofInt 64 (8 * off.toInt) }
/-- XPLACE (R231, R351): the pages of its record's box are asked for, and the engine waits for PLACE_COMPLETE. -/
def EnginePlaces (pin : Bool) (tier : BitVec 2) (ra : BitVec 51) : Prop :=
  ∀ (s : State) (k : Nat) (c : CopyEngine) (bs : List Byte) (r : Shape), EngineAt s k c → eBytes s (ceAgent s k 0 0) (64 * ra.toNat) 64 = .ok bs → shapeOf (leNat bs) = some r →
    r.space = 0 → ∃ t op, exec (.xplace pin tier ra) s = .next t ∧
      t = { s with ces := t.ces, places := s.places ++ [op], migs := t.migs, pages := t.pages, contexts := t.contexts, nextId := t.nextId } ∧ CeNow s t k { c with waiting := true } ∧
      op.engine = some (k / 8, k % 8) ∧ op.ctx = c.ctx ∧ op.tier = tier.toNat ∧ op.pin = pin ∧ op.pages = (placePages c.ctx tier.toNat pin (boxPages s c.ctx r) s).2
/-- The record of a window holds CUR, and the engine's number with ACT (R343). -/
def WindowSays (s t : State) (k va cur : Nat) (act : Bool) : Prop :=
  ∀ pa l, eTr s (ceAgent s k 0 0) .write (va + 24) = .ok (pa, l) → isWindow pa = false → t.mem = Memory.store s.mem pa (leBytes 2 cur ++ leBytes 1 (k % 8 + if act then 8 else 0))
/-- The engine can write the record of its window, of which no host holds a copy (R302). -/
def WindowOpen (s : State) (k va : Nat) : Prop := ∃ pa l, eTr s (ceAgent s k 0 0) .write (va + 24) = .ok (pa, l) ∧ gateOpen s pa true = true
/-- XSTRM (R343, R344): with a good record the window is open from its CUR. -/
def EngineStreams (ra : BitVec 51) : Prop :=
  ∀ (s : State) (k : Nat) (c : CopyEngine) (bs : List Byte), EngineAt s k c → eBytes s (ceAgent s k 0 0) (64 * ra.toNat) 64 = .ok bs → layerBad (leNat bs) = false →
    WindowOpen s k (64 * ra.toNat) → ∃ t gw, exec (.xstrm ra) s = .next t ∧ WindowSays s t k (64 * ra.toNat) (layerWinOf (leNat bs)).cur true ∧
      CeNow s t k { c with gw := gw, window := some (64 * ra.toNat), record := leNat bs, layer := (layerWinOf (leNat bs)).cur, promoted := (layerWinOf (leNat bs)).cur, page := 0, taken := false }
/-- XFENCE and XEND (R351): they wait until BWCLK has passed the engine's writes by 2; XEND leaves the engine idle, and posts where it says so. -/
def EngineFences : Prop :=
  ∀ (s : State) (k : Nat) (c : CopyEngine), EngineAt s k c →
    (c.gw + 2 ≤ s.bw → ∃ t, exec .xfence s = .next t ∧ CeOnly s t k (wentOn c 1)) ∧ (s.bw < c.gw + 2 → exec .xfence s = .next s)
def EngineEnds (post : Bool) (ev : BitVec 16) : Prop :=
  ∀ (s : State) (k : Nat) (c : CopyEngine), EngineAt s k c →
    (post = false → ∃ t, exec (.xend post ev) s = .next t ∧ CeOnly s t k { c with state := 0, stopReq := false }) ∧
    (post = true → c.gw + 2 ≤ s.bw → MayPost s c.ctx ev.toNat false → NotThere s c.ctx ev.toNat k → ∃ t, exec (.xend post ev) s = .next t ∧
      t.ce k = { c with state := 0, stopReq := false } ∧ Posted s t c.ctx ev.toNat 1 false) ∧
    (post = true → s.bw < c.gw + 2 → exec (.xend post ev) s = .next s)

/-- CE_START (R347): an engine that is present, and idle or stopped by a fault, runs from its PC with its loops cleared. -/
def EngineStarts (die e : Nat) : Prop :=
  ∀ (s : State) (c : CopyEngine), 8 * die + e < s.ces.length → s.ce (8 * die + e) = c → cePresent s (8 * die + e) = true → (c.state = 0 ∨ c.state = 3) →
    ∃ t, exec (.ceStart die e) s = .next t ∧
      CeOnly s t (8 * die + e) { c with cause := 0, lact := 0, l := [0, 0, 0, 0], i := [0, 0, 0, 0], state := 1, xfer := none, window := none, taken := false, stopReq := false, waiting := false }
/-- CE_STOP (R347): an engine in a transfer or a window stops at its end; another is idle at once and waits nowhere. -/
def EngineStops (die e : Nat) : Prop :=
  ∀ (s : State) (c : CopyEngine), 8 * die + e < s.ces.length → e < 8 → s.ce (8 * die + e) = c → (c.state = 1 ∨ c.state = 2) →
    ∃ t, exec (.ceStop die e) s = .next t ∧ t = { s with ces := t.ces, events := t.events, places := t.places } ∧
      (∀ v ∈ t.events, ∀ w ∈ v.waiters, ¬ (w.eng = true ∧ w.a = 8 * die + e)) ∧
      (c.xfer.isSome = true ∨ c.window.isSome = true → CeNow s t (8 * die + e) { c with stopReq := true, waiting := false } ∧ t.places = s.places) ∧
      (c.xfer = none → c.window = none → CeNow s t (8 * die + e) { c with state := 0, waiting := false } ∧ ∀ p, p ∈ t.places ↔ p ∈ s.places ∧ p.engine ≠ some (die, e))
/-- CE_TRANSFER_COMPLETE of a transfer (R349): it goes on by one write, and with its last the engine goes on, with GW and its flags; a full granule holds it. -/
def TransfersEnd (die e : Nat) : Prop :=
  ∀ (s : State) (c : CopyEngine) (q : CopyCmd) (j : CopyJob), 8 * die + e < s.ces.length → s.ce (8 * die + e) = c → c.xfer = some q → ceJob s (8 * die + e) q = .ok j →
    let done (t : State) (gw : Nat) (fl : FFlags) : Prop := exec (.ceTransferComplete die e) s = .next t ∧
      CeNow s t (8 * die + e) (wentOn { c with gw := max c.gw gw, flags := c.flags ||| fl } (if q.kind = 1 then 2 else 1)) ∧ t.groups = s.groups
    let r := runJob s j q.at_ q.gw q.fl
    (r.stop = none → r.done = true → ∃ t, done t r.w.gw r.w.fl ∧ t.mem = r.w.s.mem) ∧
    (r.stop = none → r.done = false → ∃ t, exec (.ceTransferComplete die e) s = .next t ∧ t.mem = r.w.s.mem ∧ t.groups = s.groups ∧
      CeNow s t (8 * die + e) { c with gw := max c.gw r.w.gw, xfer := some { q with at_ := r.at_, gw := r.w.gw, fl := r.w.fl } }) ∧
    (r.stop = some .full → ∃ t, exec (.ceTransferComplete die e) s = .next t ∧ CeOnly s t (8 * die + e) { c with gw := max c.gw q.gw }) ∧
    ∀ (src : Option (List Int)) (x : List Int) (pa n v : Nat) (fl : FFlags), OneElement s j q src x pa n v fl →
      ∃ t gw, done t gw (q.fl ||| fl) ∧ s.bw ≤ gw ∧ t.mem = Memory.store s.mem pa (leBytes n v)
/-- CE_TRANSFER_COMPLETE of a layer window (R343 to R345): it promotes the pages of the layers in its depth, posts EVRES for each layer, takes EVDONE of the layer it is at and then writes the
next CUR, and at its end, or after a STOP, closes the record. -/
def WindowsStep (die e : Nat) : Prop :=
  ∀ (s : State) (c : CopyEngine) (va : Nat), 8 * die + e < s.ces.length → s.ce (8 * die + e) = c → c.xfer = none → c.window = some va →
    let k := 8 * die + e
    let w := layerWinOf c.record
    let run := exec (.ceTransferComplete die e) s
    (c.taken = true → WindowOpen s k va → ∃ t gw, run = .next t ∧ CeNow s t k { c with gw := gw, taken := false, layer := c.layer + 1 } ∧ WindowSays s t k va (c.layer + 1) true) ∧
    (c.taken = false → c.stopReq = true → WindowOpen s k va → ∃ t gw, run = .next t ∧ WindowSays s t k va c.layer false ∧
      CeNow s t k { c with gw := gw, window := none, waiting := false, state := 0, stopReq := false }) ∧
    (c.taken = false → c.stopReq = false → w.nlayer ≤ c.layer → WindowOpen s k va → ∃ t gw, run = .next t ∧ WindowSays s t k va c.layer false ∧
      CeNow s t k (wentOn { c with gw := gw, window := none } 1)) ∧
    (c.taken = false → c.stopReq = false → c.layer < w.nlayer → c.promoted < min (c.layer + w.depth) w.nlayer →
      (∀ v l o, (layerPages s c.ctx w c.promoted)[c.page]? = some v → pageLeaf s c.ctx (v * 4096) = some (l, o, v) → o < 18 → (s.page c.ctx v).pin = none → (s.page c.ctx v).held = false →
        migrating s c.ctx v = false → overBudget s c.ctx (2 ^ o) = false → ∃ t, run = .next t ∧ (t.page c.ctx v).held = true ∧ (t.page c.ctx v).promoted = true ∧ (t.page c.ctx v).rcp = w.reads ∧
          (if inT1 l.pfn then t.migs = s.migs ∧ CeNow s t k { c with state := 1, page := c.page + 1 }
            else (∃ m, t.migs = s.migs ++ [m] ∧ m.ctx = c.ctx ∧ m.vpage = v) ∧ CeNow s t k { c with state := 1 })) ∧
      ((layerPages s c.ctx w c.promoted)[c.page]? = none → c.gw + 2 ≤ s.bw → MayPost s c.ctx w.evres false → NotThere s c.ctx w.evres k →
        ∃ t, run = .next t ∧ t.ce k = { c with promoted := c.promoted + 1, page := 0 } ∧ Posted s t c.ctx w.evres 1 false)) ∧
    (c.taken = false → c.stopReq = false → c.layer < w.nlayer → min (c.layer + w.depth) w.nlayer ≤ c.promoted → c.waiting = false → (s.event c.ctx w.evdone).stream = none →
      (1 ≤ (s.event c.ctx w.evdone).count → ∃ t, run = .next t ∧ CeNow s t k { c with taken := true } ∧ (t.event c.ctx w.evdone).count = (s.event c.ctx w.evdone).count - 1) ∧
      ((s.event c.ctx w.evdone).count = 0 → eventRoom s c.ctx w.evdone true = true → ∃ t, run = .next t ∧ CeNow s t k { c with waiting := true, state := 2 } ∧
        (t.event c.ctx w.evdone).waiters = (s.event c.ctx w.evdone).waiters ++ [{ eng := true, a := k, v := 1, dec := true }]))

/-! ## The core's own steps -/

/-- Warp `w` of group `g` stands at a clause head with entry `e`, and its group and team let it run (R53, R57, R130). -/
structure HeadStands (s : State) (gid wid : Nat) (g : Group) (w : Warp) (e : Entry) : Prop where
  group : s.group gid = some g
  warp : g.warp wid = some w
  first : ∃ es, w.entries = e :: es
  head : e.cl = none
  runs : g.st = .active ∧ g.stopped = false ∧ g.halted = false ∧ w.parked = false ∧ w.held = false ∧ g.mayRun wid = true
  context : g.ctxStop = false ∨ (s.ctx g.ctx).enable = true
  team : teamHolds s g = false
/-- The framing of a clause (R55): the marker, zeros in the header's low bits, control flow and REP only where they may stand, and an engine class the group may use. -/
structure ClauseOk (s : State) (g : Group) (h : DWord) (ws : List DWord) : Prop where
  mark : hdrMark h = true ∧ h.extractLsb' 0 38 = 0
  inner : ∀ i, i + 1 < ws.length → wordCtl (hdrEng h) (ws.getD i 0) = false
  last : wordRep (hdrEng h) (ws.getD (ws.length - 1) 0) = false
  engine : hdrEng h = 3 → (s.ctx g.ctx).priv = true ∨ g.inPriv = true
  role : (hdrEng h = 1 → g.role = 1) ∧ (hdrEng h = 2 → g.role = 0)
/-- CLAUSE_START (R55, R58): once its DCW counters read zero, as the FCLK cycle found them, the clause's first instruction may issue; a clause whose framing is wrong traps with ILLCL, PROT or ROLE before any of its instructions. -/
def ClausesStart (gid wid : Nat) : Prop :=
  ∀ (s : State) (g : Group) (w : Warp) (e : Entry) (h : DWord) (ws : List DWord), HeadStands s gid wid g w e → fetchClause s g e = .words h ws →
    let run := exec (.clauseStart gid wid) s
    let traps := fun code info => CanEnter (headIssue s g w e) false (s.ctx g.ctx).tvec →
      ∃ t, run = .next t ∧ Entered s (headIssue s g w e) code e.mask e.h info (s.ctx g.ctx).tvec t
    (ClauseOk s g h ws → (hdrRf h = true → g.inHandler = false → rfBlocked g wid e = false ∧ (rfPeers g e).length ≤ 1) →
      (∀ i, i < 6 → (hdrDcw h).getLsbD i = true → g.old.dcv i = 0 ∧ ∀ p ∈ g.held, p.1 ≠ i) →
      ∃ t k, run = .next t ∧ t = { Reached s t with groups := t.groups } ∧ OtherGroupsSame gid s t ∧
        t.group gid = some k ∧ k = { g with warps := k.warps } ∧
        k.warp wid = some { w with entries := { e with cl := some { eng := hdrEng h, cnt := hdrCnt h, yld := hdrYld h, ws := ws, dcw := hdrDcw h } } :: w.entries.drop 1 } ∧
        ∀ q, q ≠ wid → k.warp q = g.warp q) ∧
    (ClauseOk s g h ws → (hdrRf h = false ∨ g.inHandler = true) → g.held = [] → (∃ i, i < 6 ∧ (hdrDcw h).getLsbD i = true ∧ g.old.dcv i ≠ 0) → run = .next s) ∧
    ((hdrMark h = false ∨ h.extractLsb' 0 38 ≠ 0) → traps 0x02 0) ∧
    (hdrMark h = true → h.extractLsb' 0 38 = 0 → (∃ i, i + 1 < ws.length ∧ wordCtl (hdrEng h) (ws.getD i 0) = true) → traps 0x02 1)
/-- RF_MERGE (R123): the warps `ps` that stand at one RF head become one warp, once no other warp of the group can still reach it. -/
def WarpsMerge (gid wid : Nat) : Prop :=
  ∀ (s : State) (g : Group) (w : Warp) (e : Entry) (h : DWord), HeadStands s gid wid g w e → fetchWord s g.core g.ctx g.inPriv e.mask e.h = .word h →
    hdrMark h = true → hdrRf h = true → g.inHandler = false → 2 ≤ (rfPeers g e).length →
    (∀ q ∈ g.warps, (∀ p ∈ rfPeers g e, p.wid ≠ q.wid) → q.entries ≠ [] → q.parked = false ∧ ∀ a ∈ q.entries, a.prio.toNat ≤ e.prio.toNat) →
    ∃ t k m, exec (.rfMerge gid wid) s = .next t ∧ t = { s with groups := t.groups } ∧ OtherGroupsSame gid s t ∧ t.group gid = some k ∧ k = { g with warps := k.warps } ∧
      (∀ q, q ∈ k.warps ↔ q = m ∨ (q ∈ g.warps ∧ ∀ p ∈ rfPeers g e, p.wid ≠ q.wid)) ∧ m.pend = (rfPeers g e).flatMap (fun p => p.pend) ∧ m.rpc = 0 ∧ m.parked = false ∧
      ∀ p ∈ rfPeers g e, ∀ a ∈ p.entries, ∀ l, Mask.has a.mask l = true → ∃ b ∈ m.entries, Mask.has b.mask l = true ∧ b.pc = a.pc ∧ b.prio = a.prio
/-- GROUP_ACTIVATE (R129): of a core with fewer than 8 active groups, the READY one that has waited longest becomes active. -/
def GroupsActivate (gid : Nat) : Prop :=
  ∀ (s : State) (g : Group), s.group gid = some g → g.st = .ready → (s.groups.filter (fun q => q.core == g.core && q.st == .active)).length < 8 →
    (∀ q ∈ s.groups, q.core = g.core → q.st = .ready → g.since ≤ q.since) →
    ∃ t, exec (.groupActivate gid) s = .next t ∧ t = { s with groups := t.groups } ∧ OtherGroupsSame gid s t ∧
      t.group gid = some { g with st := .active, since := s.bw, lastIssue := s.bw }
/-- The warp waits for something outside it (R129, R130): at a barrier, a ring, an event, an engine or memory, asleep, or at a counter that stands above its bound. -/
def WaitsOutside (g : Group) (w : Warp) : Prop :=
  match w.wait with
  | .none | .other | .fence | .phase .. | .bank => False
  | .waitdc n v => v < g.dcv n
  | _ => True
/-- GROUP_IDLE_TIMEOUT (R129, R130): a group all of whose warps wait leaves the active set; one in which none has issued for 32 FCLK gives its slot to a READY one, at once between clauses and
else at the next clause boundary. -/
def GroupsIdle (gid : Nat) : Prop :=
  ∀ (s : State) (g : Group), s.group gid = some g → g.st = .active → g.stopped = false →
    ((∀ w ∈ g.warps, w.parked = true ∨ w.held = true ∨ g.mayRun w.wid = false ∨ WaitsOutside g w) →
      ∃ t, exec (.groupIdleTimeout gid) s = .next t ∧ t = { s with groups := t.groups } ∧ OtherGroupsSame gid s t ∧ t.group gid = some { g with st := .waiting, since := s.bw }) ∧
    ((∃ w ∈ g.warps, warpWaits s g w = false) → (∃ q ∈ s.groups, q.core = g.core ∧ q.st = .ready) → g.lastIssue + fclkTicks s g.core 32 ≤ s.bw →
      ∃ t, exec (.groupIdleTimeout gid) s = .next t ∧ t = { s with groups := t.groups } ∧ OtherGroupsSame gid s t ∧
        ((∀ w ∈ g.warps, w.inClause = false) → t.group gid = some { g with st := .ready, since := s.bw }) ∧
        ((∃ w ∈ g.warps, w.inClause = true ∧ w.parked = false ∧ g.mayRun w.wid = true) → t.group gid = some { g with yieldDue := true }))
/-- COLLECTOR_DISPATCH (R136, R250): the collector gives an instruction to the lanes, unless a lane-mode change is pending. -/
def CollectorsDispatch (core : Nat) : Prop :=
  ∀ (s : State) (g : Group), s.groups.find? (fun q => q.core == core && q.coll != 0) = some g → s.group g.gid = some g →
    ((s.cluster (clusterOf core)).pend = false → ∃ t, exec (.collectorDispatch core) s = .next t ∧ t = { s with groups := t.groups } ∧ OtherGroupsSame g.gid s t ∧
      t.group g.gid = some { g with coll := g.coll - 1 }) ∧
    ((s.cluster (clusterOf core)).pend = true → exec (.collectorDispatch core) s = .next s)
/-- UNCORRECTABLE_ERROR (R266, R392): the register, granule, tile, line or block is poisoned, a TLB is dropped, and SERPT of the cluster records it. -/
def ErrorsPoison (site arg lanes : Nat) : Prop :=
  ∀ s : State,
    let ue := fun (t : State) core => core / 128 < s.clusters.length → (t.cluster (core / 128)).serpt.getLsbD 63 = true
    (∀ g, s.group site = some g → arg < 256 → (g.vreg arg).isGen = true → ∃ t h, exec (.uncorrectableError 0 site arg lanes) s = .next t ∧
      t = { s with groups := t.groups, clusters := t.clusters } ∧ OtherGroupsSame site s t ∧ t.group site = some h ∧ h = { g with vpoison := h.vpoison } ∧ ue t g.core ∧
      ∀ r l, l < 64 → Mask.has (h.vpois r) l = (Mask.has (g.vpois r) l || (decide (r = arg) && lanes.testBit l && Mask.has g.all l))) ∧
    (HasTeam s site → arg < 1024 * (s.team site).banks.length → ∃ t, exec (.uncorrectableError 1 site arg lanes) s = .next t ∧
      t = { s with teams := t.teams, clusters := t.clusters } ∧ ue t (s.team site).core ∧ ∀ g, g ∈ (t.team site).spois ↔ g = arg ∨ g ∈ (s.team site).spois) ∧
    (HasTeam s site → arg < (s.team site).nt → ∃ t, exec (.uncorrectableError 2 site arg lanes) s = .next t ∧
      t = { s with teams := t.teams, clusters := t.clusters } ∧ ue t (s.team site).core ∧ (Amap.get {} (t.team site).tiles arg).fcause ≠ 0) ∧
    (∃ t, exec (.uncorrectableError 3 site arg lanes) s = .next t ∧ t = { s with l1 := t.l1, clusters := t.clusters } ∧ ue t site ∧
      ∀ l ∈ t.l1, l.core = site → l.line = arg → l.bad = true) ∧
    (∃ t, exec (.uncorrectableError 4 site arg lanes) s = .next t ∧ t = { s with tlb := t.tlb, clusters := t.clusters } ∧ ue t site ∧
      ∀ e, e ∈ t.tlb ↔ e ∈ s.tlb ∧ e.who ≠ if e.second then site / 128 else site) ∧
    (∃ t, exec (.uncorrectableError 6 site arg lanes) s = .next t ∧ t = { s with poison := t.poison } ∧ ∀ b, b ∈ t.poison ↔ b = site ∨ b ∈ s.poison)
/-- A corrected error (R134, R258, R266, R392): SERPT of the cluster counts it by its unit, CERF at bit 0, CESRAM at 16 or CETLB at 32, up to 0xFFFF; at 0x8000 Finat reads SERPT, which clears
the counts into its log. -/
def ErrorsCount (core unit_ i : Nat) : Prop :=
  ∀ s : State, core / 128 < s.clusters.length → core / 128 < 64 →
    let c := core / 128
    let v := (s.cluster c).serpt.toNat
    let f := if unit_ = 0 ∨ unit_ = 2 then 0 else if unit_ = 4 then 32 else 16
    let t := s.corrected core unit_ i
    (∀ k, k ≠ c → t.cluster k = s.cluster k) ∧ (∀ e ∈ t.tlb, e ∈ s.tlb) ∧ (unit_ ≠ 4 → t.tlb = s.tlb) ∧
    (v / 2 ^ f % 2 ^ 16 + 1 < 0x8000 → t = { s with clusters := t.clusters, tlb := t.tlb } ∧ (t.cluster c).serpt.toNat = v + 2 ^ f) ∧
    (v / 2 ^ f % 2 ^ 16 + 1 = 0x8000 → t = { s with clusters := t.clusters, tlb := t.tlb, pkg := { s.pkg with serlog := s.pkg.serlog ++ [(c, (v + 2 ^ f) % 2 ^ 48)] } } ∧
      (t.cluster c).serpt.toNat = v / 2 ^ 48 * 2 ^ 48)

/-- The warps of a fault record, and the record's place in its die's queue (R125, R287). -/
structure Replays (s t : State) (f : FaultRec) : Prop where
  state : t = { s with faults := t.faults, groups := t.groups }
  warps : ∀ p ∈ f.warps, ∀ g w, s.group p.1 = some g → g.warp p.2 = some w →
    ∃ h, t.group p.1 = some h ∧ h.warp p.2 = some { w with parked := false, held := false } ∧ h.st ≠ .waiting
  others : ∀ q : FaultRec, q.id ≠ f.id → (∃ b, { q with queued := b } ∈ s.faults) → ∃ b, { q with queued := b } ∈ t.faults
/-- RESOLVE and DENY (R125, R287, R319): the warps of the record replay; the record has gone, or stands denied until they have. -/
def FaultsAnswered (die record : Nat) : Prop :=
  ∀ (s : State) (f : FaultRec), s.faults.find? (fun q => q.die == die && q.id == record && q.queued && q.state == 0) = some f → s.remotes = [] →
    (∃ t, exec (.resolve die record) s = .next t ∧ Replays s t f ∧ ∀ q ∈ t.faults, q.id ≠ record) ∧
    ∃ t, exec (.deny die record) s = .next t ∧ Replays s t f ∧ (∃ q ∈ t.faults, q.id = record) ∧ ∀ q ∈ t.faults, q.id = record → q.state = 2 ∧ q.queued = false

/-! ## Resets -/

/-- COMPUTE_RESET (R374, R376): what the compute dies hold is lost and the reset runs from now; memory, context registers and host requests stay. Ignored while one runs or during a halt. -/
def ComputeResets (source : Nat) : Prop :=
  ∀ s : State, source < 2 →
    (s.pkg.reset = .idle → s.pkg.halt = false → ∃ t, exec (.computeReset source) s = .next t ∧
      t.pkg = { s.pkg with reset := .started s.bw, resetDone := false, bootFail := false } ∧ t.groups = [] ∧ t.teams = [] ∧ t.grids = [] ∧ t.reqs = [] ∧ t.events = [] ∧
      t.l1 = [] ∧ t.icache = [] ∧ t.tlb = [] ∧ t.faults = [] ∧ t.ces = List.replicate 64 {} ∧ t.mem = s.mem ∧ t.lines = s.lines ∧ t.contexts = s.contexts ∧ t.pages = s.pages ∧
      t.ports = s.ports ∧ t.hostReqs = s.hostReqs ∧ t.regions = s.regions ∧ t.inbound = s.inbound ∧ t.bw = s.bw) ∧
    ((s.pkg.reset ≠ .idle ∨ s.pkg.halt = true) → exec (.computeReset source) s = .next s)
/-- RESET_WRITE_BACK (R374, R383): a dirty line of a tenant's page is written back and leaves the L2; memory keeps its data. -/
def TenantLinesKept (line : Nat) : Prop :=
  ∀ (s : State) (t0 : Nat), s.pkg.reset = .started t0 → t0 + 1000 ≤ s.bw → (s.lineSt line).dirty = true → tenantLine s line = true → s.hostReqs = [] →
    ∃ t, exec (.resetWriteBack line) s = .next t ∧ t.mem = s.mem ∧ (t.lineSt line).dirty = false ∧ (t.lineSt line).inL2 = false ∧ ∀ k, k ≠ line → t.lineSt k = s.lineSt k
/-- RESET_L2_SWITCH (R374): 5 µs after its start the L2s are empty; dirty data that is not a tenant's has not reached memory. -/
def CachesReset : Prop :=
  ∀ (s : State) (t0 : Nat), s.pkg.reset = .started t0 → s.hostReqs = [] → (∀ l ∈ s.lines, l.old.length ≤ 128) →
    (t0 + 5000 ≤ s.bw → ∃ t, exec .resetL2Switch s = .next t ∧ t.pkg.reset = .switched t0 ∧ (∀ l ∈ t.lines, l.inL2 = false) ∧
      (∀ a, (∀ l ∈ s.lines, l.inL2 = true → l.dirty = true → tenantLine s l.line = false → a / 128 ≠ l.line) → Memory.read t.mem a = Memory.read s.mem a) ∧
      ∀ l ∈ s.lines, l.inL2 = true → l.dirty = true → tenantLine s l.line = false → (∀ q ∈ s.lines, q.line = l.line → q = l) →
        ∀ k, k < l.old.length → Memory.read t.mem (l.line * 128 + k) = l.old.getD k 0) ∧
    (s.bw < t0 + 5000 → exec .resetL2Switch s = .next s)
/-- A grid of context 0 that BOOTLR names (R382): its die and record. -/
def BootQueued (s t : State) (v : DWord) : Prop :=
  ∀ r b tb, (s.ctx 0).enable = true → readLaunch s { core := noCore (v.toNat % 8), ctx := 0, team := 0, who := 0 } (v.toNat / 64 % 2 ^ 51 * 64) = .ok (b, tb) → launchRec b tb = some r →
    t.pkg.bootFail = s.pkg.bootFail ∧ ∃ q ∈ t.grids, q.ctx = 0 ∧ q.record = r ∧ q.dies = [v.toNat % 8] ∧ q.next = [0] ∧ q.stamp = s.bw ∧ q.launcher = none
/-- COMPUTE_RESET_END (R374, R376, R382): the reset is over; context registers keep their values but for the meters, clusters start afresh, and BOOTLR's grid is queued. -/
def ComputeResetsEnd : Prop :=
  ∀ (s : State) (t0 : Nat), s.pkg.reset = .switched t0 → s.pkg.halt = false → s.hostReqs = [] →
    ∃ t, exec .computeResetEnd s = .next t ∧ t.pkg.reset = .idle ∧ t.pkg.resetDone = true ∧ t.mem = s.mem ∧ t.events = [] ∧ t.clusters.length = s.islands.length ∧
      (∀ c, c < s.contexts.length → t.ctx c = { s.ctx c with dlkcnt := 0, bwmeter := List.replicate 8 0, xhits := List.replicate 8 0, leftAt := List.replicate 8 0 }) ∧
      (s.pkg.bootlr.getLsbD 3 = false → t.grids = s.grids ∧ t.pkg = { s.pkg with reset := .idle, resetDone := true }) ∧
      (s.pkg.bootlr.getLsbD 3 = true → (s.ctx 0).enable = false → t.pkg.bootFail = true)
/-- BOOTLR_ENABLE (R382): EN set launches the boot grid, or sets RESETSTAT[1]; where EN was set already nothing is launched. -/
def BootEnables : Prop :=
  ∀ s : State,
    let v := s.pkg.bootlr
    (v.getLsbD 3 = false → s.pkg.reset = .idle → s.pkg.halt = false → ∃ t, exec .bootlrEnable s = .next t ∧ t.pkg.bootlr.getLsbD 3 = true ∧ t.mem = s.mem ∧
      ((s.ctx 0).enable = false → t.pkg.bootFail = true ∧ t.grids = s.grids) ∧
      BootQueued { s with pkg := { s.pkg with bootlr := t.pkg.bootlr } } t v) ∧
    (v.getLsbD 3 = true → ∃ t, exec .bootlrEnable s = .next t ∧ t = { s with pkg := { s.pkg with bootlr := t.pkg.bootlr } } ∧ t.pkg.bootlr.getLsbD 3 = true)
/-- KEEP_DOMAIN_RESET (R375, R400): the machine stands as after power-on, with its fuses, and with MODE and T2PROT as last written in force, while the register T2PROT
reads 0. It waits until every host request received has been answered, but at power-on; a host's is ignored during a halt. -/
def KeepResets (source : Nat) : Prop :=
  ∀ s : State, source < 5 →
    (¬ (source = 3 ∧ s.pkg.halt = true) → (source = 0 ∨ ∀ r ∈ s.hostReqs, r.held = 3) → ∃ t, exec (.keepDomainReset source) s = .next t ∧
      t = { State.reset with nextId := s.nextId, choice := t.choice, out := s.out, finat := s.finat, agenda := s.agenda, ports := t.ports, hbm := t.hbm, pkg := t.pkg } ∧
      t.pkg.svn = s.pkg.svn ∧ t.pkg.prov = s.pkg.prov ∧ t.pkg.kekv = s.pkg.kekv ∧ t.pkg.caps = s.pkg.caps ∧ t.pkg.t2protOn = s.pkg.t2prot ∧ t.pkg.t2prot = 0 ∧ t.pkg.reset = .idle ∧
      t.pkg.halt = false ∧ t.pkg.nodecfg = 0 ∧ t.pkg.bootlr = 0 ∧ t.ports.length = s.ports.length ∧
      ∀ p, p < s.ports.length → (t.ports.getD p {}).mode = (s.ports.getD p {}).modeCfg ∧ (t.ports.getD p {}).up = false ∧ (t.ports.getD p {}).ttroot = 0) ∧
    (source = 3 → s.pkg.halt = true → exec (.keepDomainReset source) s = .next s) ∧
    (source ≠ 0 → (∃ r ∈ s.hostReqs, r.held ≠ 3) → exec (.keepDomainReset source) s = .next s)

/-! ## Requests of a host -/

/-- Request `hid` stands in the ordering point, held for reason `h`. -/
def HostHeld (t : State) (hid port kind addr value h : Nat) : Prop :=
  ∃ r ∈ t.hostReqs, r.hid = hid ∧ r.port = port ∧ r.kind = kind ∧ r.addr = addr ∧ r.value = value ∧ r.held = h
/-- The answer of id `id` has left, with bytes `bs` (256 for poison). -/
def AnsweredOut (t : State) (id : Nat) (bs : List Nat) : Prop := (2 ^ 62 + id, bs) ∈ t.out
/-- The newest entry of a port's log (R368): VALID, LATE and its kind. -/
def Logged (s t : State) (port kind : Nat) (late : Bool) : Prop :=
  port < s.ports.length → (s.ports.getD port {}).loghead < (s.ports.getD port {}).log.length →
    let v := ((t.ports.getD port {}).log.getD (s.ports.getD port {}).loghead 0).toNat
    v.testBit 63 = true ∧ v.testBit 62 = late ∧ v / 2 ^ 60 % 4 = kind ∧ (t.ports.getD port {}).loghead = ((s.ports.getD port {}).loghead + 1) % 16
/-- HOST_MEM_REQUEST (R357, R361, R397): a line of lent memory is read or written and the region table records what the host may hold; a request waits for a snoop, an expansion, a reset
or a translation, and is refused during a level-2 halt. -/
def HostsAsk (port kind addr value : Nat) : Prop :=
  ∀ s : State, portServes s port = true →
    let n := s.nextId
    let a := addr / 64 * 64
    let mv := min (kind / 2 % 4) 2
    let run := exec (.hostMemRequest port kind addr value) s
    (s.pkg.halt = true → ∃ t, run = .next t ∧ t = { s with nextId := s.nextId + 1, out := t.out, ports := t.ports } ∧
      AnsweredOut t n (if kind.testBit 0 || kind.testBit 3 then [] else List.replicate 64 256) ∧ Logged s t port 3 false) ∧
    (s.pkg.halt = false → (∀ pa l o v, tenantTr s port a ≠ .ok pa l o v) → ∃ t, run = .next t ∧ t.mem = s.mem ∧ HostHeld t n port kind a value 2) ∧
    ∀ pa l o v, s.pkg.halt = false → tenantTr s port a = .ok pa l o v →
      ((s.preSwitch = true ∨ snooped s pa 64 = true ∨ s.packedAt pa = true) → ∃ t, run = .next t ∧ t.mem = s.mem ∧ HostHeld t n port kind a value 1) ∧
      (s.preSwitch = false → snooped s pa 64 = false → s.packedAt pa = false → (∀ r ∈ s.hostReqs, r.held = 1 → r.pa / 4096 ≠ pa / 4096) →
        (s.regionAt pa = none → mv ≠ 0 → (iodRegions s port false).length < 131072) →
        ∃ t, run = .next t ∧ ((kind.testBit 3 = true ∨ kind.testBit 0 = false) → ∀ r ∈ t.hostReqs, r.hid ≠ n) ∧
          (kind.testBit 3 = true → t.mem = s.mem ∧ AnsweredOut t n []) ∧
          (kind.testBit 3 = false → kind.testBit 0 = false → t.mem = s.mem ∧
            (s.poisoned pa 64 = false → AnsweredOut t n ((List.range 64).map (fun k => (s.rdByte (pa + k)).toNat))) ∧
            (s.poisoned pa 64 = true → AnsweredOut t n (List.replicate 64 256) ∧ Logged s t port 3 false)) ∧
          (kind.testBit 3 = false → kind.testBit 0 = true → s.pkg.reset = .idle → t.mem = Memory.store s.mem pa (leBytes 64 value) ∧
            ∃ r ∈ t.hostReqs, r.hid = n ∧ r.held = 4 ∧ s.bw + 2 ≤ r.ackAt) ∧
          (s.regionAt pa = none → if mv = 0 then t.regions = s.regions else
            ∃ r, t.regions = s.regions ++ [r] ∧ r.port = port ∧ r.has pa 1 = true ∧ r.st = if mv = 1 then .shared else .host))
/-- A host's write is completed with the tick at which BWCLK has passed its GWCT by 2 (R302), never before. -/
def HostsAcked : Prop :=
  ∀ (s : State) (q : HostReq), q ∈ s.hostReqs → q.held = 4 →
    (q.ackAt ≤ s.bw → AnsweredOut s.ackHosts q.hid [] ∧ q ∉ s.ackHosts.hostReqs) ∧ (s.bw < q.ackAt → q ∈ s.ackHosts.hostReqs)
/-- BISNP_COMPLETE (R361 to R363): the snoop is over; a recalled region has left the table, and the lines of a contested one that were snooped are none, or clean; memory changes only in its range. -/
def SnoopsEnd (hid : Nat) : Prop :=
  ∀ (s : State) (q : Snoop), s.snoops.find? (fun x => x.hid == hid) = some q → s.hostReqs = [] →
    ∃ t, exec (.bisnpComplete hid) s = .next t ∧ t.snoops = s.snoops.filter (fun x => x.hid != hid) ∧
      (∀ a, (a < q.base ∨ q.base + q.size ≤ a) → Memory.read t.mem a = Memory.read s.mem a) ∧ (s.regionAt q.base = none → t.regions = s.regions) ∧
      ∀ r, s.regionAt q.base = some r →
        (q.back = true → t.regions = s.regions.erase r) ∧
        (q.back = false → ∃ ls : List Nat, t.regions = s.regions.erase r ++ ({ r with lines := ls }).norm ∧ ls.length = r.lines.length ∧
          ∀ i, i < ls.length → ((∃ k, k < q.size / 64 ∧ (q.base + 64 * k) % 4096 / 64 = i) → ls.getD i 0 = if q.inv then 0 else min (r.lines.getD i 0) 1) ∧
            ((∀ k, k < q.size / 64 → (q.base + 64 * k) % 4096 / 64 ≠ i) → ls.getD i 0 = r.lines.getD i 0))
/-- HOST_DEADLINE (R365): 100 ns before its bound a request that is still held is answered with poison, or dropped, and logged LATE; not before. -/
def DeadlinesFall (hid : Nat) : Prop :=
  ∀ (s : State) (q : HostReq), s.hostReqs.find? (fun r => r.hid == hid && decide (r.held < 3)) = some q →
    (q.at_ + hostBound s q ≤ s.bw + 100 → ∃ t, exec (.hostDeadline hid) s = .next t ∧ t = { s with hostReqs := t.hostReqs, out := t.out, ports := t.ports } ∧
      AnsweredOut t hid (if q.kind.testBit 0 || q.kind.testBit 3 then [] else List.replicate 64 256) ∧ Logged s t q.port (if q.kind.testBit 0 then 1 else 0) true ∧
      (q.held = 2 → ∀ r ∈ t.hostReqs, r.hid = hid → r.held = 3) ∧ (q.held ≠ 2 → ∀ r ∈ t.hostReqs, r.hid ≠ hid)) ∧
    (s.bw + 100 < q.at_ + hostBound s q → exec (.hostDeadline hid) s = .next s)
/-- FINAT_UNTRANSLATABLE (R366, R367): a page of the tenant is filled where TENCTL allows it, else the request is refused and logged. -/
def FinatAnswers (hid : Nat) : Prop :=
  ∀ (s : State) (q : HostReq), s.hostReqs.find? (fun r => r.hid == hid && (r.held == 2 || r.held == 3)) = some q →
    let p := s.ports.getD q.port {}
    let fills := p.tenctl.getLsbD 2 && decide (q.addr < p.tenantSize)
    let run := exec (.finatUntranslatable hid) s
    (fills = false → (∀ pa l o v, tenantTr s q.port q.addr ≠ .ok pa l o v) →
      (q.held ≠ 3 → ∃ t, run = .next t ∧ t = { s with hostReqs := s.hostReqs.filter (fun r => r.hid != hid), out := t.out, ports := t.ports } ∧
        AnsweredOut t q.hid (if q.kind.testBit 0 || q.kind.testBit 3 then [] else List.replicate 64 256) ∧ Logged s t q.port (if q.kind.testBit 0 then 1 else 0) false) ∧
      (q.held = 3 → run = .next { s with hostReqs := s.hostReqs.filter (fun r => r.hid != hid) })) ∧
    ((fills = true ∨ ∃ pa l o v, tenantTr s q.port q.addr = .ok pa l o v) → q.held = 3 → s.hostReqs = [q] → ∃ t, run = .next t ∧
      t = { s with hostReqs := [], mem := t.mem, lines := t.lines, choice := t.choice } ∧ ((∃ pa l o v, tenantTr s q.port q.addr = .ok pa l o v) → t.mem = s.mem))

/-- BAR0_READ (R356, R368, R397): function 0's log, rings and counters; reading a log entry clears its VALID, and SIGOVF itself; other registers read zero; during a halt poison is read. -/
def Bar0Reads (port offset : Nat) : Prop :=
  ∀ s : State, (fnContext s port (offset / 2 ^ 16)).isSome = true →
    let n := 2 ^ 50 + port * 2 ^ 32 + offset
    let o := offset % 2 ^ 16 / 8 * 8
    let p := s.ports.getD port {}
    let run := exec (.bar0Read port offset) s
    let gives := fun (v : Nat) (f : Port → Port) => run = .next { s with ports := modAt f port s.ports, out := s.out ++ [(2 ^ 62 + n, (leBytes 8 v).map (fun b => b.toNat))] }
    (s.pkg.halt = true → ∃ t, run = .next t ∧ t = { s with out := t.out, ports := t.ports } ∧ AnsweredOut t n (List.replicate 8 256) ∧ Logged s t port 3 false) ∧
    (s.pkg.halt = false → 0x2000 ≤ o → o < 0x2400 → ∃ t bs, run = .next t ∧ t = { s with choice := s.choice + 1, out := s.out ++ [(2 ^ 62 + n, bs)] } ∧ bs.length = 8 ∧ ∀ b ∈ bs, b < 256) ∧
    (s.pkg.halt = false → offset < 2 ^ 16 →
      (0x1000 ≤ o → o < 0x1080 → gives (p.log.getD ((o - 0x1000) / 8) 0).toNat (fun p => { p with log := modAt (fun v => v &&& 0x7FFFFFFFFFFFFFFF#64) ((o - 0x1000) / 8) p.log })) ∧
      (o = 0x1080 → gives p.loghead (fun p => p)) ∧ (o = 0x1100 → gives p.sigcons (fun p => p)) ∧ (o = 0x1108 → gives p.sigprod (fun p => p)) ∧
      (o = 0x1110 → gives p.sigovf (fun p => { p with sigovf := 0 }))) ∧
    (s.pkg.halt = false → 2 ^ 16 ≤ offset → ¬ (0x2000 ≤ o ∧ o < 0x2400) → run = .next { s with out := s.out ++ [(2 ^ 62 + n, List.replicate 8 0)] })
/-- PORT_LINK_UP and PORT_LINK_DOWN (R355, R359, R379): an enabled port of a mode trains at a width; it goes down once READY is clear and nothing is held, or because its partner has gone. -/
def LinksChange (port : Nat) : Prop :=
  ∀ s : State, port < s.ports.length →
    let p := s.ports.getD port {}
    (∀ w, port < 8 → p.up = false → p.mode ≠ 3 → p.tenctl.getLsbD 63 = true → w ∈ [1, 2, 4, 8, 16] → ∃ t, exec (.portLinkUp port w) s = .next t ∧
      t = { s with ports := t.ports, ordering := s.ordering.filter (fun o => o.1 != port) } ∧ t.ports.getD port {} = { p with up := true, lwidth := w } ∧
      ∀ k, k ≠ port → t.ports.getD k {} = s.ports.getD k {}) ∧
    (p.up = true → (p.tenctl.getLsbD 63 = true ∨ ((∀ r ∈ s.hostReqs, r.port = port → r.held = 3) ∧ ∀ q ∈ s.inbound, q.port ≠ port)) → ∃ t, exec (.portLinkDown port) s = .next t ∧
      t = { s with ports := t.ports, hostReqs := s.hostReqs.filter (fun r => r.port != port) } ∧ t.ports.getD port {} = { p with up := false, lwidth := 0 } ∧
      ∀ k, k ≠ port → t.ports.getD k {} = s.ports.getD k {}) ∧
    (p.up = true → p.tenctl.getLsbD 63 = false → (∃ q ∈ s.inbound, q.port = port) → exec (.portLinkDown port) s = .next s)

/-! ## Root ports, and accesses that find no answer -/

/-- A request of a root port arrives as entry `pid` (R371): one page at most, of a port that is up. -/
def RootAsks (s : State) (port addr size : Nat) : Prop := rootServes s port = true ∧ 0 < size ∧ addr % 4096 + size ≤ 4096 ∧ ∀ r ∈ s.inbound, r.pid < s.nextId
/-- The parts of a request, one for each line it touches (R379). -/
def partsOf (addr size pa : Nat) (l : Leaf) : List InPart := inParts addr size pa l (addr / 128) ((addr + size - 1) / 128 - addr / 128 + 1)
/-- INBOUND_POSTED_WRITE (R371, R372, R379): the write stands at its function's ordering point, released at once where nothing of the function is before it; an untranslatable one is dropped
and logged, and with 256 held nothing arrives. -/
def InboundWrites (port fn addr value size : Nat) : Prop :=
  ∀ s : State, RootAsks s port addr size →
    let run := exec (.inboundPostedWrite port fn addr value size) s
    let held := (s.inbound.filter (fun q => q.port / 4 == port / 4 && !q.read)).length
    (256 ≤ held → run = .next s) ∧
    (held < 256 → (s.pkg.halt = true ∨ inboundTr s port .write addr = none) → ∃ t, run = .next t ∧ t = { s with out := t.out, ports := t.ports } ∧ Logged s t port 3 false) ∧
    ∀ pa l, held < 256 → s.pkg.halt = false → inboundTr s port .write addr = some (pa, l) →
      let q : Inbound := { pid := s.nextId, port := port, fn := fn, addr := addr, value := value, size := size, parts := partsOf addr size pa l }
      ((∀ r ∈ s.inbound, r.fnOf ≠ (port, fn)) →
        run = .next { s with nextId := s.nextId + 1, inbound := s.inbound ++ [{ q with released := true, stamp := s.fnStamp port fn }] }) ∧
      ((∃ h, s.inbound.find? (fun r => r.fnOf == (port, fn)) = some h ∧ h.read = false ∧ h.released = true) →
        run = .next { s with nextId := s.nextId + 1, inbound := s.inbound ++ [q] })
/-- INBOUND_READ (R371, R372): with nothing of its function before it and no host copy in the way, the bytes are read and answered; an untranslatable one is refused and logged. -/
def InboundReads (port fn addr size : Nat) : Prop :=
  ∀ s : State, RootAsks s port addr size →
    let run := exec (.inboundRead port fn addr size) s
    let ends := fun bs => ∃ t, run = .next t ∧ t = { s with nextId := s.nextId + 1, out := t.out, ports := t.ports } ∧ AnsweredOut t s.nextId bs ∧ Logged s t port 3 false
    (s.pkg.halt = true → ends (List.replicate size 256)) ∧
    (s.pkg.halt = false → (∀ r ∈ s.inbound, r.fnOf ≠ (port, fn)) →
      (inboundTr s port .read addr = none → ends [512]) ∧
      ∀ pa l, inboundTr s port .read addr = some (pa, l) → isWindow pa = false → s.preSwitch = false →
        (∀ p ∈ partsOf addr size pa l, isWindow p.pa = false ∧ s.packedAt p.pa = false ∧ (deviceGate s (p.pa / 128) false false).2 = true) → s.poisoned pa size = false →
        run = .next { s with nextId := s.nextId + 1, choice := s.choice + 1,
                             out := s.out ++ [(2 ^ 62 + s.nextId, (List.range size).map (fun k => (s.rdByte (pa + k)).toNat))] })
/-- ROUTE_ACK (R372, R379): the one part of a released write is performed at its home; the write has gone, and its GWCT joins its function's. -/
def RoutesAck (port pid route : Nat) : Prop :=
  ∀ (s : State) (q : Inbound) (p : InPart), s.inbound.find? (fun r => r.pid == pid) = some q → q.port = port → q.read = false →
    (q.released = false → exec (.routeAck port pid route) s = .next s) ∧
    (q.released = true → q.parts = [p] → p.done = false → p.route = route → isRemote p.pa = false → isWindow p.pa = false → s.packedAt p.pa = false → s.pkg.reset = .idle →
      (deviceGate s (p.pa / 128) true false).2 = true →
      ∃ t, exec (.routeAck port pid route) s = .next t ∧ t.mem = Memory.store s.mem p.pa (leBytes p.n (q.value / 256 ^ p.off)) ∧ (∀ r ∈ t.inbound, r.pid ≠ pid) ∧
        s.fnStamp port q.fn ≤ t.fnStamp port q.fn ∧ q.stamp ≤ t.fnStamp port q.fn ∧ s.bw ≤ t.fnStamp port q.fn)

/-- The lanes of a part join the lanes that are not performed. -/
def lostLanes (r : Req) (p : Part) : Mask := p.accs.foldl (fun m a => m ||| r.laneBits a) r.bad
/-- A request of one part ends without it: a result is ready with its lanes poisoned, or the write is done for its counter to report. -/
structure PartLost (s t : State) (r : Req) (p : Part) : Prop where
  mem : t.mem = s.mem
  answers : r.kind.answers = true → t.req r.rid = none ∧ ∀ g w d, s.group r.gid = some g → w ∈ g.warps → d ∈ w.pend → d.rid = r.rid → ∃ h v q, t.group r.gid = some h ∧
    v ∈ h.warps ∧ q ∈ v.pend ∧ q.rid = r.rid ∧ q.ready = true ∧ q.dst = d.dst ∧ q.writes = (({ r with bad := lostLanes r p }).writes g.width).map (RegWrite.restrict d.lanes)
  stores : r.kind.answers = false → ∃ q, t.req r.rid = some q ∧ q.bad = lostLanes r p ∧ ∀ z ∈ q.parts, z.performed = true ∧ z.done = true
/-- OUTBOUND_LOAD_TIMEOUT and UNREACHABLE_TIMEOUT (R371, R406): 50 µs after it was sent a load of an outbound window, or a request to a node that cannot be reached, ends in a fault; not before. -/
def RequestsTimeOut (rid : Nat) : Prop :=
  ∀ (s : State) (r : Req) (p : Part), s.req rid = some r → r.rid = rid → r.sent = true → r.parts = [p] → p.performed = false →
    (isOutbound (p.line * 128) = true → r.kind.answers = true → r.sentAt + 50000 ≤ s.bw → ∃ t, exec (.outboundLoadTimeout rid) s = .next t ∧ PartLost s t r p) ∧
    (isRemote (p.line * 128) = true → reachable s (p.line * 128 / 2 ^ 48 - 1) = false → r.sentAt + 50000 ≤ s.bw → ∃ t, exec (.unreachableTimeout rid) s = .next t ∧ PartLost s t r p ∧
      (r.kind.answers = false → ∃ q, t.req rid = some q ∧ q.far = true ∧ q.cause = if s.rpol then 0x0F else 0x13)) ∧
    (s.bw < r.sentAt + 50000 → exec (.outboundLoadTimeout rid) s = .next s ∧ exec (.unreachableTimeout rid) s = .next s)

/-! ## The Droveway -/

/-- LINK_UP, LINK_NARROW and LINK_DOWN (R398, R403, R406), SYNC_LOST and SYNC_HELD (R407). -/
def LinksStep (j : Nat) : Prop :=
  ∀ s : State, j < s.links.length →
    let l := s.links.getD j {}
    let only := fun (t : State) => t = { s with links := t.links, choice := t.choice } ∧ ∀ k, k ≠ j → t.links.getD k {} = s.links.getD k {}
    (j < 36 → l.width = 0 → linkCap s j ≠ 0 → ∃ t n, exec (.linkUp j) s = .next t ∧ only t ∧ n < 2 ^ 14 ∧ t.links.getD j {} = { l with width := linkCap s j, peer := n }) ∧
    (l.width = 2 → ∃ t n, exec (.linkNarrow j) s = .next t ∧ only t ∧ t.links.getD j {} = { l with width := 1, retry := min 65535 (l.retry + n) }) ∧
    (∃ t, exec (.linkDown j) s = .next t ∧ only t ∧ t.links.getD j {} = { l with width := 0 }) ∧
    (∃ t, exec .syncLost s = .next t ∧ t = { s with links := t.links, pkg := { s.pkg with sync := false } } ∧ ∀ n, n ≠ s.nodeId → reachable t n = false) ∧
    exec .syncHeld s = .next { s with pkg := { s.pkg with sync := true } }

/-- An access of another node through the export tables (R408): exports are enabled, and a leaf at level 0 to 2 admits it to aligned memory that is not poisoned and stands expanded. -/
structure Exports (s : State) (kind va n : Nat) (l : Leaf) (pa : Nat) : Prop where
  open_ : s.pkg.nodecfg.getLsbD 28 = true ∧ va < 2 ^ 48 ∧ s.expctx < 97
  walk : ∃ o v0, walk s (va / 4096) 3 (s.ctx s.expctx).ptroot = .leaf l o v0 ∧ pa = leafPa l v0 va
  admits : l.node = s.nodeId ∧ l.ten = 0 ∧ l.x = false ∧ l.xf = false ∧ (2 ≤ kind → l.w = true)
  whole : pa % n = 0 ∧ s.poisoned pa n = false ∧ s.packedAt pa = false
/-- REMOTE_REQUEST (R408, R410, R412): a load, a fill, a store or an atomic of another node is performed at its home and answered; an address outside the exports is a remote fault, one that
is not mapped waits for the fault service; a signal packet joins the signals. -/
def RemotesAsk (src kind va tidx value : Nat) : Prop :=
  ∀ s : State, reachable s src = true → src ≠ s.nodeId → (∀ r ∈ s.remotes, r.id < s.nextId) →
    let run := exec (.remoteRequest src kind va tidx value) s
    let id := 2 ^ 40 + tidx / 8 * 2 ^ 14 + src
    let n := if kind = 1 then 128 else 2 ^ (tidx % 8)
    (kind = 256 → ∃ t q, run = .next t ∧ t = { s with signals := s.signals ++ [q], nextId := s.nextId + 1 } ∧ q.sid = s.nextId ∧ 2 ^ 64 ≤ q.gid ∧ q.port = src ∧ q.dc = 6 ∧
      q.ctx = va % 2 ^ 7 ∧ q.kind = va / 2 ^ 7 % 4 ∧ q.clr = va.testBit 9 ∧ q.ev = va / 2 ^ 16 % 2 ^ 16 ∧ q.value.toNat = va / 2 ^ 32 % 2 ^ 32 ∧ q.src = va / 2 ^ 64 % 2 ^ 7 ∧
      q.node = s.nodeId ∧ q.stamp = value ∧ q.posted = false) ∧
    (kind < 256 → (s.pkg.nodecfg.getLsbD 28 = false ∨ 2 ^ 48 ≤ va ∨ 97 ≤ s.expctx) →
      ∃ t, run = .next t ∧ t.mem = s.mem ∧ AnsweredOut t id [if s.rpol then 257 else 256] ∧ ∀ r ∈ t.remotes, r.id ≠ s.nextId) ∧
    (kind < 256 → s.pkg.nodecfg.getLsbD 28 = true → va < 2 ^ 48 → s.expctx < 97 → (∃ lv, walk s (va / 4096) 3 (s.ctx s.expctx).ptroot = .absent lv) → (s.ctx s.expctx).fsvc = true →
      s.denied (s.ctx s.expctx).asid va = false → ∃ t, run = .next t ∧ t.mem = s.mem ∧
        ∃ r ∈ t.remotes, r.id = s.nextId ∧ r.src = src ∧ r.kind = kind ∧ r.va = va ∧ r.tidx = tidx ∧ r.value = value) ∧
    ∀ l pa, Exports s kind va n l pa →
      (kind = 0 → ∃ t, run = .next t ∧ t.mem = s.mem ∧ AnsweredOut t id ((List.range n).map (fun k => (s.rdByte (pa + k)).toNat))) ∧
      (kind = 1 → ∃ t, run = .next t ∧ t.mem = s.mem ∧ AnsweredOut t id ((s.bw + leaseLen l.lc) :: (List.range 128).map (fun k => (s.rdByte (pa + k)).toNat)) ∧
        (t.lineSt (pa / 128)).hw = max (s.lineSt (pa / 128)).hw (s.bw + leaseLen l.lc)) ∧
      (kind = 2 → s.pkg.reset = .idle → ∃ t g, run = .next t ∧ t.mem = Memory.store s.mem pa (leBytes n value) ∧ s.bw ≤ g ∧ AnsweredOut t id [g]) ∧
      (3 ≤ kind → kind < 31 → s.pkg.reset = .idle → n = 4 ∨ n = 8 → ∃ t g, run = .next t ∧ s.bw ≤ g ∧
        t.mem = Memory.store s.mem pa (leBytes n (atomNew ((kind - 3) / 2) n (s.rd pa n) (value % 2 ^ 64) (value / 2 ^ 64))) ∧
        AnsweredOut t id (g :: if kind % 2 = 0 then [s.rd pa n] else []))

/-! ## Collectives -/

/-- COLLECTIVE_DOORBELL (R413): an aligned record address enters the queue of its context; a misaligned one is counted in CBAD; a full queue takes nothing. -/
def DoorbellsRing (die ctx value : Nat) : Prop :=
  ∀ s : State,
    let n := (s.collectives.filter (fun q => q.die == die && q.ctx == ctx && !q.marker)).length
    (value % 64 ≠ 0 → exec (.collectiveDoorbell die ctx value) s = .next { s with pkg := { s.pkg with cbad := min (s.pkg.cbad + 1) 65535 } }) ∧
    (value % 64 = 0 → n < 16 → ∃ q, exec (.collectiveDoorbell die ctx value) s = .next { s with collectives := s.collectives ++ [q], nextId := s.nextId + 1 } ∧
      q.id = s.nextId ∧ q.die = die ∧ q.ctx = ctx ∧ q.addr = BitVec.ofNat 64 value ∧ q.at_ = s.bw ∧ q.marker = false ∧ q.data = none ∧ q.fail = 0 ∧ q.done = false) ∧
    (value % 64 = 0 → 16 ≤ n → exec (.collectiveDoorbell die ctx value) s = .next s)
/-- COLLECTIVE_DOORBELL_READ (R413): a load of the doorbell brings the number of free entries. -/
def DoorbellsRead (die ctx rid : Nat) : Prop :=
  ∀ (s : State) (r : Req) (p : Part) (a : Acc), s.req rid = some r → r.rid = rid → r.parts = [p] → p.performed = false → p.line * 128 = doorBase + die * 4096 → p.accs = [a] →
    r.ctx = ctx → r.kind = .load → conflicts s r.gid rid p.accs = false →
    ∃ t, exec (.collectiveDoorbellRead die ctx rid) s = .next t ∧ t.mem = s.mem ∧ t.collectives = s.collectives ∧
      Answered s t r 0 [(a.lane, ldeConv a.conv r.daz ((16 - (s.collectives.filter (fun q => q.die == die && q.ctx == ctx && !q.marker)).length) % 2 ^ (8 * a.n)))]

/-- Record `q` heads its queue, and its bytes say `r` (R413). -/
structure Heads (s : State) (die ctx : Nat) (q : Collective) (v : Nat) : Prop where
  first : s.collectives.find? (fun c => c.die == die && c.ctx == ctx) = some q
  real : q.marker = false
  bytes : ∃ bs, eBytes s (collAgent die ctx) q.addr.toNat 64 = .ok bs ∧ leNat bs = v
/-- The record has completed with a code (R415): its flag holds success or the code, and it waits to post, or has gone. -/
structure CollEnds (s t : State) (q : Collective) (r : CollRec) (code : Nat) : Prop where
  waits : r.even = true → ∃ c ∈ t.collectives, c.id = q.id ∧ c.done = true ∧ c.fail = code
  gone : r.even = false → ∀ c ∈ t.collectives, c.id = q.id → c.marker = true
  none_ : r.flag = 0 → t.mem = s.mem
  flag : ∀ pa l, r.flag ≠ 0 → eTr s (collAgent q.die q.ctx) .write r.flag = .ok (pa, l) → isWindow pa = false →
    t.mem = Memory.store s.mem pa (leBytes 8 (if code = 0 then 1 else 2 ^ 63 + code * 2 ^ 56))
  others : ∀ c ∈ s.collectives, c.id ≠ q.id → c ∈ t.collectives
/-- No host's copy keeps the flag from being written (R302). -/
def FlagOpen (s : State) (q : Collective) (r : CollRec) : Prop :=
  r.flag ≠ 0 → ∀ pa l, eTr s (collAgent q.die q.ctx) .write r.flag = .ok (pa, l) → gateOpen s pa true = true
/-- COLLECTIVE_COMPLETE and COLLECTIVE_TIMEOUT (R414, R415): the head of a queue joins its members, writes DST, completes and posts; it fails where its record is invalid, a member's differs
or a fault is found, and, when TMO has passed before every member joined, with code 2. -/
def CollectivesStep (die ctx : Nat) : Prop :=
  ∀ (s : State) (q : Collective) (v : Nat), Heads s die ctx q v →
    let r := collRec v
    let run := exec (.collectiveComplete die ctx 0) s
    let ends := fun (u : State) code => FlagOpen u q r → ∃ t, run = .next t ∧ CollEnds u t q r code
    (q.done = true → q.gw + 2 ≤ s.bw → MayPost s ctx r.evdone false → ∃ t, run = .next t ∧ t.mem = s.mem ∧ Posted s t ctx r.evdone 1 false ∧
      ∀ c ∈ t.collectives, c.id = q.id → c.marker = true) ∧
    (q.done = false → collBad v = true → ends s 1) ∧
    (q.done = false → collBad v = false → q.fail ≠ 0 → ends s q.fail) ∧
    (∀ data u g, q.done = false → collBad v = false → q.fail = 0 → q.data = some data → unitWrite (collAgent die ctx) (collResult r data) r.dst s 0 = .ok (u, g) → ends u 0) ∧
    (∀ tab ms, q.done = false → collBad v = false → q.fail = 0 → q.data = none → eBytes s (collAgent die ctx) r.members (4 * (r.nmem + 1)) = .ok tab →
      memberTable tab (r.nmem + 1) = some ms → (∀ m ∈ ms, m.1 = s.nodeId) →
      (∀ l, joinData s ctx r tab ms = .data l → ∃ t, run = .next t ∧ t.mem = s.mem ∧ ∃ c ∈ t.collectives, c.id = q.id ∧ c.data = some l) ∧
      (∀ k, joinData s ctx r tab ms = .code k → ∃ t, run = .next t ∧ t.mem = s.mem ∧ ∃ c ∈ t.collectives, c.id = q.id ∧ c.fail = k) ∧
      (joinData s ctx r tab ms = .wait → run = .next s)) ∧
    (q.done = false → q.data = none → q.fail = 0 → r.tmo ≠ 0 →
      (q.at_ + 1000 * r.tmo ≤ s.bw → FlagOpen s q r → ∃ t, exec (.collectiveTimeout die ctx) s = .next t ∧ CollEnds s t q r 2) ∧
      (s.bw < q.at_ + 1000 * r.tmo → exec (.collectiveTimeout die ctx) s = .next s))

/-! ## Power, heat, alarms and attestation -/

/-- Only the islands, and with them their clusters, have changed. -/
def IslandsOnly (s t : State) : Prop := t = { s with islands := t.islands, clusters := t.clusters, out := t.out }
/-- POWER_INTERVAL (R385, R386, R387, R401): each microsecond the bucket takes SUSTW less P, the next SUSTW and cap follow, and where P exceeded the cap in force no island's cap rises. -/
def PowersStep (mw : Nat) : Prop :=
  ∀ s : State,
    let p := s.pkg
    let next : Nat := if p.coolin ≤ 55 then 8000 else max (8000 - 200 * (p.coolin - 55)) 4000
    let bucket := min (((p.bucket : Int) * 1000000 + (1000 * p.sustw : Nat) - (mw : Nat)) / 1000000).toNat 36000000
    (p.pwAt < s.bw / 1000 → ∃ t, exec (.powerInterval mw) s = .next t ∧
      t = { s with islands := t.islands, clusters := t.clusters, out := t.out, choice := t.choice, pkg := t.pkg } ∧
      t.pkg = { p with bucket := bucket, sustw := next, capw := (if p.boost = true ∧ p.coolin < 75 ∧ bucket ≠ 0 then p.boostw else next), pw := min 65535 (mw / 1000), pwAt := p.pwAt + 1 } ∧
      (1000 * p.capw < mw → ∀ i, (t.islands.getD i {}).fcap ≤ (s.islands.getD i {}).fcap ∧ (t.cluster i).gpwr ≤ (s.cluster i).gpwr)) ∧
    (s.bw / 1000 ≤ p.pwAt → exec (.powerInterval mw) s = .next s)
/-- An announcement of tick `a` is on its way to island `r`. -/
def announced (r : Island) (a fcap gpwr : Nat) : Island := { r with pending := r.pending ++ [(a + 4000, fcap, gpwr)] }
/-- A stack of the die stands at LEVEL 11. -/
abbrev Hot (s : State) (die : Nat) : Prop := (s.hbm[2 * die]?).map (·.level) = some 3 ∨ (s.hbm[2 * die + 1]?).map (·.level) = some 3
/-- An island of the group lies on a hot die. -/
abbrev HotGroup (s : State) (group : Nat) : Prop := ∃ i ∈ List.range 64, (s.islands.getD i {}).thrgrp = group ∧ Hot s (i / 8)
/-- THROTTLE_ANNOUNCEMENT (R388, R390): the islands of the group hold it until 4,000 ticks after its tick, and one of this package leaves for the others; one from elsewhere whose tick has passed is
applied at once and counted LATE. While a die of the group is hot, an announcement above 800 MHz is followed by one of 800. -/
def Throttles (group fcap gpwr : Nat) : Prop :=
  ∀ s : State, s.islands.length = 64 → 400 ≤ fcap → fcap ≤ 1800 → 1 ≤ gpwr → gpwr ≤ 16 →
    let run := exec (.throttleAnnouncement group fcap gpwr) s
    let a := group / 2 ^ 16 - 1
    let hot := HotGroup s (group % 2 ^ 16) ∧ 800 < fcap
    let packet := fun (f : Nat) => (2 ^ 60 + 2 ^ 20 + group % 2 ^ 16, [f, gpwr, s.bw])
    (0 < group → group < 2 ^ 16 → ¬ hot → ∃ t, run = .next t ∧ t = { s with islands := t.islands, out := s.out ++ [packet fcap] } ∧
      ∀ i, i < 64 → t.islands.getD i {} = if (s.islands.getD i {}).thrgrp = group then announced (s.islands.getD i {}) s.bw fcap gpwr else s.islands.getD i {}) ∧
    (0 < group → group < 2 ^ 16 → hot → ∃ t, run = .next t ∧ t = { s with islands := t.islands, out := s.out ++ [packet fcap, packet 800] } ∧
      ∀ i, i < 64 → t.islands.getD i {} = if (s.islands.getD i {}).thrgrp = group then announced (announced (s.islands.getD i {}) s.bw fcap gpwr) s.bw 800 gpwr else s.islands.getD i {}) ∧
    (2 ^ 16 ≤ group → group % 2 ^ 16 ≠ 0 → ¬ hot → ∃ t, run = .next t ∧ t = { s with islands := t.islands, clusters := t.clusters } ∧
      ∀ i, i < 64 →
        ((s.islands.getD i {}).thrgrp ≠ group % 2 ^ 16 → t.islands.getD i {} = s.islands.getD i {}) ∧
        ((s.islands.getD i {}).thrgrp = group % 2 ^ 16 → t.islands.getD i {} =
          if a + 4000 < s.bw then { s.islands.getD i {} with fcap := fcap, late := min 255 ((s.islands.getD i {}).late + 1) } else announced (s.islands.getD i {}) a fcap gpwr)) ∧
    (2 ^ 16 ≤ group → group % 2 ^ 16 ≠ 0 → hot → ∃ t, run = .next t ∧ t = { s with islands := t.islands, clusters := t.clusters, out := s.out ++ [packet 800] } ∧
      ∀ i, i < 64 → ((s.islands.getD i {}).thrgrp ≠ group % 2 ^ 16 → t.islands.getD i {} = s.islands.getD i {}) ∧
        ((s.islands.getD i {}).thrgrp = group % 2 ^ 16 → (s.bw + 4000, 800, gpwr) ∈ (t.islands.getD i {}).pending))
/-- ANNOUNCEMENT_APPLY (R387, R388): those of the earliest tick are applied when it has come, the lower cap and the lower power of several; FCLK follows in steps of 25 MHz. While a stack of the die is hot the cap is at most 800 (R390). -/
def AnnouncementsApply (i : Nat) : Prop :=
  ∀ (s : State) (tick : Nat), i < s.islands.length → i < s.clusters.length →
    let r := s.islands.getD i {}
    let due := r.pending.filter (fun p => p.1 == tick)
    let capped := fun (f : Nat) => f ≤ 800 ∨ ¬ Hot s (i / 8)
    due ≠ [] → (∀ p ∈ r.pending, tick ≤ p.1) → r.thrgrp ≠ 0 →
    (tick ≤ s.bw → ∃ t p q, exec (.announcementApply i) s = .next t ∧ IslandsOnly s t ∧ p ∈ due ∧ (∀ x ∈ due, p.2.1 ≤ x.2.1) ∧ q ∈ due ∧ (∀ x ∈ due, q.2.2 ≤ x.2.2) ∧
      (∃ f, (capped p.2.1 → f = p.2.1) ∧ (¬ capped p.2.1 → f = 800) ∧ t.islands.getD i {} = { r with fcap := f, pending := r.pending.filter (fun x => x.1 != tick) } ∧
        t.cluster i = { s.cluster i with gpwr := q.2.2, fmhz := min r.freq f / 25 * 25 }) ∧
      ∀ k, k ≠ i → t.islands.getD k {} = s.islands.getD k {} ∧ t.cluster k = s.cluster k) ∧
    (s.bw < tick → exec (.announcementApply i) s = .next s)
/-- LEVEL after a sample (R389): it rises above 85, 95 and 105 degrees, and falls at 82, 92 and 100. -/
def levelStep (level temp : Nat) : Nat :=
  if level < 3 ∧ 85 + 10 * level < temp then level + 1 else if 0 < level ∧ temp ≤ (if level = 3 then 100 else 72 + 10 * level) then level - 1 else level
/-- HBM_TEMP_SAMPLE (R389, R390): every 32 µs a stack's LEVEL moves by one step, no lower than REFCTL; at 3 its die's islands are capped at 800 MHz. -/
def StacksSample (k temp : Nat) : Prop :=
  ∀ (s : State) (h : Stack), s.hbm[k]? = some h → h.level ≤ 3 →
    let l := max (levelStep h.level (temp % 256)) s.pkg.refctl
    (h.sampAt < s.bw / 32000 → ∃ t, exec (.hbmTempSample k temp) s = .next t ∧ t = { s with hbm := t.hbm, islands := t.islands, clusters := t.clusters, out := t.out } ∧
      t.hbm[k]? = some { temp := BitVec.ofNat 8 temp, level := l, sampAt := h.sampAt + 1 } ∧ (∀ j, j ≠ k → t.hbm[j]? = s.hbm[j]?) ∧
      ((l ≠ 3 ∨ h.level = 3) → t.islands = s.islands ∧ t.clusters = s.clusters ∧ t.out = s.out) ∧
      (l = 3 → h.level ≠ 3 → ∀ c, c < 8 → k / 2 * 8 + c < s.islands.length → (s.islands.getD (k / 2 * 8 + c) {}).thrgrp = 0 → (t.islands.getD (k / 2 * 8 + c) {}).fcap ≤ 800)) ∧
    (s.bw / 32000 ≤ h.sampAt → exec (.hbmTempSample k temp) s = .next s)

/-- SECURITY_ALARM (R397): level 1 raises SECALARM in context 0's groups; level 2 halts the dies and refuses the hosts; level 3 also destroys the keys. -/
def AlarmsAct (source : Nat) : Prop :=
  ∀ s : State,
    let told := fun (t : State) level => t.pkg.alarm = max s.pkg.alarm level ∧ (0, 2 ^ 64, cSECALARM, source) ∈ t.finat ∧ t.mem = s.mem
    let halted := fun (t : State) => t.pkg.halt = true ∧ (∀ r, r ∈ t.hostReqs ↔ r ∈ s.hostReqs ∧ r.held = 4) ∧ (s.pkg.reset = .idle → t.groups = [] ∧ t.l1 = [] ∧ t.pkg.reset = .started s.bw) ∧
      ∀ r ∈ s.hostReqs, r.held < 3 → AnsweredOut t r.hid (if r.kind.testBit 0 || r.kind.testBit 3 then [] else List.replicate 64 256)
    (source = 1 → ∃ t, exec (.securityAlarm 1 1 0) s = .next t ∧ told t 1 ∧ t.pkg.halt = s.pkg.halt ∧
      ∀ gid, (∀ q ∈ s.groups, q.gid = gid → q.ctx ≠ 0) → t.group gid = s.group gid) ∧
    (source = 2 ∨ source = 3 → ∃ t, exec (.securityAlarm 2 source 0) s = .next t ∧ told t 2 ∧ halted t ∧ t.pkg.prov = s.pkg.prov ∧ t.pkg.kekv = s.pkg.kekv) ∧
    (source = 4 → ∃ t, exec (.securityAlarm 3 4 0) s = .next t ∧ told t 3 ∧ halted t ∧ t.pkg.prov = false ∧ t.pkg.kekv = false)
/-- ATTESTATION_REQUEST and ATTESTATION_REPORT_DONE (R396): the report, or zeros without an identity, is written at ATTBUF in context 0, and once BWCLK has passed its GWCT by 2 the
event posts. -/
def Attests (value : Nat) : Prop :=
  (∀ s : State, exec (.attestationRequest value) s = .next { s with pkg := { s.pkg with attEv := some (value % 2 ^ 16), attGw := none } }) ∧
  ∀ (s : State) (ev : Nat) (nonce : List Byte),
    let a : Agent := { core := noCore 0, ctx := 0, team := 0, who := 0 }
    let buf := s.pkg.attbuf.toNat / 8192 * 8192
    s.pkg.attEv = some ev →
    (∀ g, s.pkg.attGw = some g →
      (g + 2 ≤ s.bw → MayPost s 0 ev false → ∃ t, exec .attestationReportDone s = .next t ∧ t.mem = s.mem ∧ t.pkg.attEv = none ∧ Posted s t 0 ev 1 false) ∧
      (s.bw < g + 2 → exec .attestationReportDone s = .next s)) ∧
    (s.pkg.attGw = none → eBytes s a buf 32 = .ok nonce → ∃ bs : List Byte, bs.length = 8192 ∧ (s.pkg.prov = false → ∀ b ∈ bs, b = 0) ∧
      (s.pkg.prov = true → bs.take 48 = nonce ++ leBytes 8 s.bw ++ leBytes 8 s.pkg.svn.toNat) ∧
      ∀ u g, unitWrite a bs buf s 0 = .ok (u, g) → ∃ t, exec .attestationReportDone s = .next t ∧ t.mem = u.mem ∧ t.pkg.attEv = some ev ∧ t.pkg.attGw = some g)

/-! ## The machine as a whole -/

/-- The next move is the turn of warp `w` of group `g`, which stands with entry `e` inside the started clause `cl`. -/
structure TurnOf (s : State) (r : WarpRef) (rest : List Move) (g : Group) (w : Warp) (e : Entry) (cl : Clause) : Prop where
  next : s.agenda = .issue r :: rest
  group : s.group r.gid = some g
  warp : g.warp r.wid = some w
  first : ∃ es, w.entries = e :: es
  inside : e.cl = some cl
/-- The cycle that runs lets the warp take a port of its core (R126): it has not issued in it, fewer than two instructions have issued there, and no warp of the core that has waited longer
since its last issue would issue. -/
def PortsShare : Prop :=
  ∀ (s : State) (r : WarpRef) (rest : List Move) (g : Group) (w : Warp) (e : Entry) (cl : Clause), TurnOf s r rest g w e cl → r.wid = w.wid →
    let s' := { s with agenda := rest }
    let issued := (s.groups.filter (fun h => h.core == g.core)).foldl (fun n h => n + h.issued.length) 0
    (s'.portAllows r = true → w.wid ∉ g.issued ∧ issued < 2) ∧ (s'.portAllows r = false → step s = .next s') ∧
    ∀ (h : Group) (v : Warp) (a : Entry), h ∈ s.groups → h.core = g.core → h.st = .active → v ∈ h.warps → v.first = some a → a.cl.isSome = true → v.wid ∉ h.issued →
      (h.gid ≠ g.gid ∨ v.wid ≠ w.wid) → v.turn < w.turn → wouldIssue s' { gid := h.gid, wid := v.wid } = true → s'.portAllows r = false
/-- What a tick of BWCLK begins in a cluster, and an FCLK cycle of it (R248, R249, R265). -/
def begun (k : Cluster) : Cluster := if k.gate = 3 then k else { k with facc := (k.facc + k.fmhz) % 1000, owed := k.owed + (k.facc + k.fmhz) / 1000 }
def cycled (k : Cluster) : Cluster :=
  { k with fclk := k.fclk + 1, owed := k.owed - 1, lclk := k.lclk + if k.pend = true ∧ k.draining = false then 0
    else if k.lmode = 0 then (k.fclk + 1) / 2 - k.fclk / 2 else if k.lmode = 2 then 2 else 1 }
/-- Time (R248, R249): while something is due in the FCLK cycle that runs time stands; an FCLK cycle that is owed begins in the clusters that owe one; with none owed BWCLK ticks, with
the posts and answers that wait for its value (R302, R315). Clusters stand through a compute reset (R374). -/
def TimePasses : Prop :=
  ∀ (s : State) (rest : List Move), s.agenda = .tick :: rest →
    let s' := { s with agenda := rest }
    let owed (k : Nat) : Prop := s.pkg.reset = .idle ∧ k < s.clusters.length ∧ (s.cluster k).owed ≠ 0
    (s'.mustAct = true → step s = .next s') ∧
    (s'.mustAct = false → (∀ k, ¬ owed k) → ∃ cl : List Cluster, cl.length = s.clusters.length ∧
      step s = .next ({ s' with bw := s.bw + 1, served := [], clusters := cl }.postDone.ackHosts) ∧
      ∀ k, k < s.clusters.length → cl.getD k {} = if s.pkg.reset = .idle then begun (s.cluster k) else s.cluster k) ∧
    (s'.mustAct = false → (∃ k, owed k) → ∃ t, step s = .next t ∧ t = { s' with groups := t.groups, teams := t.teams, served := [], clusters := t.clusters } ∧
      (∀ k, k < s.clusters.length → t.cluster k = if (s.cluster k).owed = 0 then s.cluster k else cycled (s.cluster k)) ∧
      ∀ gid g, s.group gid = some g → ∃ h, t.group gid = some h ∧ h.v = g.v ∧ h.s = g.s ∧ (owed (g.core / 128) → h.issued = [] ∧ h.commits = []))
/-- A step runs what it decodes: a clause's word at the program counter where the warp may take a port, the start of a clause at its head, the word at an engine's PC, as memory holds it or as it was fetched up to 64 bytes ahead (R347), a step of the table, a corrected error, a flit sent again (R403), or a replacement, after which no line and no lease is lost (R273, R274). -/
def StepRuns : Prop :=
  (∀ (s : State) (r : WarpRef) (rest : List Move) (g : Group) (w : Warp) (e : Entry) (cl : Clause) (v : DWord) (i : Instr), TurnOf s r rest g w e cl →
    ({ s with agenda := rest }).portAllows r = true → clauseWord s g.core g.ctx g.inPriv e.mask cl e.h e.pc = .word v → decode cl.eng v = .ok i →
    step s = exec i { s with agenda := rest, issuer := some r }) ∧
  (∀ (s : State) (r : WarpRef) (rest : List Move) (g : Group) (w : Warp) (e : Entry) (es : List Entry), s.agenda = .issue r :: rest → s.group r.gid = some g → g.warp r.wid = some w →
    w.entries = e :: es → e.cl = none → step s = exec (.clauseStart r.gid r.wid) { s with agenda := rest, issuer := some r }) ∧
  (∀ (s : State) (die k : Nat) (rest : List Move) (i : Instr) (b b2 : List Byte), s.agenda = .engine die k :: rest →
    let n := 8 * die + k
    let s' : State := { s with agenda := rest, engine := some n }
    let c := s.ce n
    ceIdleRun c = true → c.ahead = [] → eBytes s' (ceAgent s' n 0 0) c.pc.toNat 8 = .ok b →
    (if (BitVec.ofNat 64 (leNat b)).extractLsb' 59 5 = 1#5 then eBytes s' (ceAgent s' n 0 0) (c.pc.toNat + 8) 8 = .ok b2 else b2 = []) →
    decodeCe (BitVec.ofNat 64 (leNat b)) (BitVec.ofNat 64 (leNat b2)) = .ok i → step s = exec i s') ∧
  (∀ (s : State) (die k : Nat) (rest : List Move) (i : Instr), s.agenda = .engine die k :: rest →
    let s' : State := ({ s with agenda := rest, engine := some (8 * die + k) } : State).ceTrim (8 * die + k)
    (∀ w ∈ (s'.ce (8 * die + k)).ahead, (s'.ce (8 * die + k)).pc.toNat ≤ w.1 ∧ w.1 ≤ (s'.ce (8 * die + k)).pc.toNat + 64) ∧
    (ceFetch s' (8 * die + k) = .word i → step s = exec i s')) ∧
  (∀ (s : State) (rest : List Move) (die k j : Nat), s.agenda = .ahead die k j :: rest →
    let c := s.ce (8 * die + k)
    ∃ t l, step s = .next t ∧ t = { s with agenda := rest, ces := t.ces } ∧ t.ce (8 * die + k) = { c with ahead := l } ∧
      (∀ w ∈ l, w ∈ c.ahead ∨ c.pc.toNat < w.1 ∧ w.1 ≤ c.pc.toNat + 64 ∧
        ∃ b, eBytes { s with agenda := rest } (ceAgent s (8 * die + k) 0 0) w.1 8 = .ok b ∧ w.2 = BitVec.ofNat 64 (leNat b)) ∧
      ∀ i, i ≠ 8 * die + k → t.ce i = s.ce i) ∧
  (∀ (s : State) (rest : List Move) (i : Instr), s.agenda = .event i :: rest → isEvent i = true → step s = exec i { s with agenda := rest }) ∧
  (∀ (s : State) (rest : List Move) (core u i : Nat), s.agenda = .corrected core u i :: rest → step s = .next ({ s with agenda := rest }.corrected core u i)) ∧
  (∀ (s : State) (rest : List Move) (j : Nat), s.agenda = .retried j :: rest → j < s.links.length →
    let l := s.links.getD j {}
    (l.width ≠ 0 → ∃ t, step s = .next t ∧ t = { s with agenda := rest, links := t.links } ∧ t.links.getD j {} = { l with retry := min 65535 (l.retry + 1) } ∧
      ∀ k, k ≠ j → t.links.getD k {} = s.links.getD k {}) ∧
    (l.width = 0 → step s = .next { s with agenda := rest })) ∧
  ∀ (s : State) (c : Cached) (i : Nat) (rest : List Move), s.agenda = .replace c i :: rest → ∃ t, step s = .next t ∧
    t = { s with agenda := rest, l1 := t.l1, icache := t.icache, tlb := t.tlb, walkc := t.walkc, lines := t.lines, eh := t.eh, contexts := t.contexts } ∧
    (∀ e ∈ t.l1, e ∈ s.l1) ∧ (∀ e ∈ t.icache, e ∈ s.icache) ∧ (∀ e ∈ t.tlb, e ∈ s.tlb) ∧ (∀ e ∈ t.walkc, e ∈ s.walkc) ∧ (c ≠ .l2 → t.lines = s.lines ∧ t.contexts = s.contexts) ∧
    ∀ l, c = .l2 → s.lines[i % s.lines.length]? = some l → l.inL2 = true →
      ((∃ p ∈ s.pins, p.line = l.line) → t.lines = s.lines) ∧
      ((∀ p ∈ s.pins, p.line ≠ l.line) → (t.lineSt l.line).inL2 = false ∧ (t.lineSt l.line).hw = 0 ∧ (∀ k, k ≠ l.line → t.lineSt k = s.lineSt k) ∧
        (s.bw < (s.lineSt l.line).hw → Amap.get 0 t.eh (sliceKey l.line) = max (Amap.get 0 s.eh (sliceKey l.line)) (s.lineSt l.line).hw))
/-- A clause's words are those that memory, or the instruction cache, holds after its header (R54, R282): word k stands 8 (k + 1) bytes after it. -/
def ClauseWords : Prop :=
  ∀ (s : State) (g : Group) (e : Entry) (h : DWord) (ws : List DWord), fetchClause s g e = .words h ws → hdrMark h = true →
    fetchWord s g.core g.ctx g.inPriv e.mask e.h = .word h ∧ ws.length = hdrCnt h + 1 ∧
      ∀ k, k < ws.length → fetchWord s g.core g.ctx g.inPriv e.mask (e.h + 8 + BitVec.ofNat 64 (8 * k)) = .word (ws.getD k 0)

/-- Words of the copy engines (R83). -/
def ceWord (i : Instr) : Bool :=
  match i with
  | .xcopy .. | .xgath .. | .xwait .. | .xsig .. | .xloop .. | .xjmp .. | .xplace .. | .xstrm .. | .xfence | .xend .. => true
  | _ => false

/-- Instructions whose whole effect is on registers (R92, R94, R97, R100, R106, R107). -/
def registerOnly (i : Instr) : Prop :=
  match i with
  | .iadd _ | .iaddImm _ | .isub _ | .isubImm _ | .iadc _ | .iadcImm _ | .isbc _ | .isbcImm _ | .ineg _ | .inegImm _ | .iabs _ | .iabsImm _ | .imin _ | .iminImm _
  | .imax _ | .imaxImm _ | .imul _ | .imulImm _ | .imulh _ | .imulhImm _ | .imad _ | .imadImm _ | .imadw _ | .imadwImm _ | .icmp _ | .icmpImm _ | .isat _ | .isatImm _
  | .iadd64 _ | .iadd64Imm _ | .isub64 _ | .isub64Imm _ | .icmp64 _ | .icmp64Imm _ | .lea _ | .leaImm _ | .lea64 _
  | .andL _ | .andLImm _ | .orL _ | .orLImm _ | .xorL _ | .xorLImm _ | .notL _ | .notLImm _ | .lut3 _ | .lut3Imm _ | .shl _ | .shlImm _ | .shr _ | .shrImm _ | .sar _ | .sarImm _
  | .rot _ | .rotImm _ | .fshl _ | .fshlImm _ | .fshr _ | .fshrImm _ | .popc _ | .clz _ | .ctz _ | .brev _ | .bfx _ | .bfi _ | .prmb _ | .sel _
  | .mov _ | .movi _ | .movhi _ | .sxt _ | .zxt _ | .fadd _ | .fsub _ | .fmul _ | .ffma _ | .fmin _ | .fmax _ | .fcmp _ => True
  | _ => False

/-- The causes of the sources: one of the earliest stage, and among those of the lowest code (R52). -/
def Chosen (cs : List Cause) (c : Cause) : Prop := c ∈ cs ∧ ∀ d ∈ cs, c.stage < d.stage ∨ (c.stage = d.stage ∧ c.code ≤ d.code)
/-- The lanes of every cause that is the chosen one. -/
def chosenLanes (cs : List Cause) (c : Cause) : Mask := (cs.filter (fun d => d.stage == c.stage && d.code == c.code)).foldl (fun m d => m ||| d.tfm) 0
/-- An integer instruction whose sources raise causes traps precisely (R51, R52, R138): the chosen cause is taken, and nothing else happens; in a software handler, or with a vector of zero, it
is a double trap (R139, R323). -/
def TrapsPrecisely : Prop :=
  ∀ (i : Instr) (s : State) (x : Issue) (prio : BitVec 8) (k : Lane 32) (c : Cause), WellFormed i → Issues s i x prio → intLane i x = some k → MidClause x → Free x (x.dests 1) →
    (∀ p ∈ k.srcs, p.wait = false) → (∀ f ∈ s.faults, f.state ≠ 2) → Chosen (k.srcs.flatMap (fun p => p.causes)) c → c.code < 0x20 →
    let vec := (s.ctx x.g.ctx).tvec
    (CanEnter x false vec → ∃ t d info, exec i s = .next t ∧ Entered s x c.code (chosenLanes (k.srcs.flatMap (fun p => p.causes)) c) d info vec t) ∧
    ((x.g.inHandler = true ∨ vec = 0) → ∃ t h, exec i s = .next t ∧ t = { s with groups := t.groups, finat := t.finat } ∧ OtherGroupsSame x.g.gid s t ∧
      t.group x.g.gid = some h ∧ h.stopped = true ∧ h = { x.g with stopped := true, causes := h.causes } ∧ ∃ r, t.finat = s.finat ++ [r] ∧ r.1 = x.g.ctx ∧ r.2.1 = x.g.gid)

/-- Little-endian memory (R3): byte k of an n-byte value at address a stands at a + k, and no other byte changes; a word's bits [7:0] are the first of its eight bytes. -/
def LittleEndian : Prop :=
  (∀ (m : List Host.Cell) (a n v : Nat),
    (∀ k, k < n → Memory.read (Memory.store m a (leBytes n v)) (a + k) = BitVec.ofNat 8 (v / 256 ^ k)) ∧
    (∀ b, (b < a ∨ a + n ≤ b) → Memory.read (Memory.store m a (leBytes n v)) b = Memory.read m b) ∧
    leNat (Memory.bytes (Memory.store m a (leBytes n v)) a n) = v % 256 ^ n) ∧
  (∀ (s : State) (core ctx : Nat) (priv : Bool) (m : Mask) (va : DWord) (pa : Nat) (l : Leaf), accessTr s core ctx .fetch va.toNat = .ok pa l → s.icHit core (pa / 128) = none →
    (s.lineSt (pa / 128)).cp = false → s.poisoned pa 8 = false → isWindow pa = false → isWindow (pa + 7) = false →
    ∃ w, fetchWord s core ctx priv m va = .word w ∧ ∀ k, k < 8 → w.extractLsb' (8 * k) 8 = Memory.read s.mem (pa + k)) ∧
  ∀ bs : List Byte, bs.length = 8 → ∀ k, k < 8 → (BitVec.ofNat 64 (wordOfBytes bs)).extractLsb' (8 * k) 8 = bs.getD k 0

/-- A write of DBGRES (R399) of value v, on die d: the group it names, if HALT.GROUP halted it there, goes on with its frontier as it was; otherwise nothing happens. -/
def Resumed (d v : Nat) (s t : State) : Prop :=
  t = { s with groups := t.groups } ∧ ∀ gid g, s.group gid = some g →
    t.group gid = some { g with halted := g.halted &&
      !(decide (v / 2 ^ 37 % 2 ^ 3 = 0 ∧ v / 2 ^ 47 % 2 ^ 17 = 0) && decide (g.core / 1024 = d ∧ g.ctx = v / 2 ^ 40 % 2 ^ 7 ∧ (g.teamid * 16 + g.index) % 2 ^ 37 = v % 2 ^ 37)) }
/-- DBGRES is written by MTSP or by a debugger's write, and reads zero (R399). -/
def DebugWrites : Prop :=
  ∀ (s : State) (d v : Nat), d < 8 → v < 2 ^ 64 →
    (∃ t, exec (.dbgresWrite d v) s = .next t ∧ Resumed d v s t) ∧
    (∃ t, writeReg s (2 * 2 ^ 28 + d * 2 ^ 20 + 0x300) v = some t ∧ Resumed d v s t) ∧
    readReg s (2 * 2 ^ 28 + d * 2 ^ 20 + 0x300) = some (0, s) ∧
    ∀ gid wid g, s.group gid = some g → g.halted = true → exec (.clauseStart gid wid) s = .next s

/-- The number of a register (R306): its block, unit and index. -/
def regNo (block unit_ r : Nat) : Nat := block * 2 ^ 28 + unit_ * 2 ^ 20 + r
/-- What the register reads in a state. -/
def reads (s : State) (i : Nat) : Option Nat := (readReg s i).map (fun p => p.1)

end Sys2Proof.Rules

open Sys2Proof Sys2Proof.Machine Sys2Proof.Rules

/-- R92, R93 with R62, R88 to R90: the 30 integer and address instructions of 32-bit results compute their row in each active lane. -/
def Obligations.IntegerRowsComplete : Prop := ∀ i, Computes32 i (intLane i)

/-- R92, R93, R97: the integer instructions of 64-bit results, and MOV of 64 bits, compute their row in each active lane. -/
def Obligations.LongRowsComplete : Prop := ∀ i, Computes64 i (longLane i)

/-- R94 to R97, R100: the logic, bit and move instructions, SEL and CCRD compute their row in each active lane. -/
def Obligations.LogicRowsComplete : Prop := ∀ i, Computes32 i (bitLane i)

/-- R101 to R104, R107 to R109: FP32 and packed arithmetic, comparisons, classes and conversions complete with their results. -/
def Obligations.FloatRowsComplete : Prop :=
  (∀ i, ComputesF32 i (floatLane i)) ∧
    ∀ a, ComputesF64 (.ficvt a) (fun x => if zfld x % 4 = 3 then some (ficvt64Row x) else none)

/-- R105, R146 to R148, R153, R154, R164 to R166 with R73: the special functions, the exchanges between lanes and the limb
instructions issue, and promise their result in each active lane. -/
def Obligations.LateRowsComplete : Prop := (∀ i, Promises32 i (lateLane i)) ∧ ∀ i, Promises64 i (late64 i)

/-- R149 to R152: an integer RED gives every active lane, and XR, the operation over the active lanes; an integer SCAN gives each
lane the operation over the active lanes up to it, or below it under EXCL, and XR the whole. -/
def Obligations.IntegerReductionsComplete : Prop :=
  (∀ a, Reduces (.red a) (fun x => redOp x < 8) (fun x _ => redOver x (Mask.lanes x.act)) (fun x => redOver x (Mask.lanes x.act))) ∧
    ∀ a, Reduces (.scan a) (fun x => redOp x < 8)
      (fun x l => redOver x ((Mask.lanes x.act).filter (fun j => if x.mb 5 then decide (j < l) else decide (j ≤ l))))
      (fun x => redOver x (Mask.lanes x.act))

/-- R30, R31, R149 to R151: with no exception enabled, RED of FP32 values follows the tree of R31, and SCAN folds them in ascending
lane order, from the first active lane, or, for an EXCL sum, from +0.0. -/
def Obligations.FloatReductionsComplete : Prop :=
  (∀ a, Reduces (.red a) (fun x => 8 ≤ redOp x ∧ x.g.old.fcr.extractLsb' 4 5 = 0#5) (fun x _ => redTreeVal x) (fun x => redTreeVal x)) ∧
    ∀ a, Reduces (.scan a) (fun x => 8 ≤ redOp x ∧ x.g.old.fcr.extractLsb' 4 5 = 0#5)
      (fun x l => if x.mb 5 then seqOver x (redOp x == 8) ((Mask.lanes x.act).filter (fun j => decide (j < l)))
        else seqOver x false ((Mask.lanes x.act).filter (fun j => decide (j ≤ l))))
      (fun x => seqOver x false (Mask.lanes x.act))

/-- R99, R100, R110, R115, R118, R155, R163: MTS, CCWR, LNWR, BIND, UNBIND, AMAXCLR, NOP and a WAITDC whose counter is low enough
have their effect on the group and no other. -/
def Obligations.GroupEffectsComplete : Prop := ∀ i, Effects i (groupEffect i)

/-- R36, R37, R110: AMAXRD writes AMAX to its destination once no earlier instruction of the warp may still change it, and under CLR
sets AMAX to +0.0 with it, before what other warps commit in the same FCLK cycle. -/
def Obligations.AmaxReadCompletes : Prop :=
  ∀ (a : RArgs) (s : State) (x : Issue) (prio : BitVec 8), WellFormed (.amaxrd a) → Issues s (.amaxrd a) x prio →
    specWaits x 18 = false → Free x (x.dests 1) →
    ∃ t g, exec (.amaxrd a) s = .next t ∧ Commits x prio s t (if x.mb 0 then clearedAmax x g else g) ∧
      Result32 x g .z (fun _ => x.g.amax) noCode noCode noCode noCode 0

/-- R111 to R113 with R63, R122: BR, BRX, CALL, CALLX and RET put each passing lane after its target's header, with that header's
priority, the others after h', and write the link h' of CALL and CALLX. -/
def Obligations.BranchesComplete : Prop := ∀ i, Branches i

/-- R114, R115: EXIT ends its passing lanes, in a handler those of TAM with them, and sends the others on to h'; YIELD sends every lane on to h' and
gives the slot up to a READY group. -/
def Obligations.ExitAndYieldComplete : Prop := (∀ a, Exits a) ∧ ∀ a, Yields a

/-- R76: REP sets the repeat state of RPC for the next instruction, and changes no register. -/
def Obligations.RepeatCompletes : Prop := ∀ a, Repeats a

/-- R116, R138: TRAP and BKPT enter the handler at the vector with the handler registers written, when a lane passes; when none does, the
warp goes on to h'. -/
def Obligations.TrapsComplete : Prop := (∀ a, Traps a) ∧ ∀ a, Breaks a

/-- R117: RTT ends the handler, restores TAM's lanes with TPRIO and RPC where they stood, or, after TRAP and BKPT, after the header h', and thaws
the warps that the handler froze. -/
def Obligations.HandlerReturnCompletes : Prop := (∀ a, Resumes a) ∧ ∀ a, ResumesPast a

/-- R156 to R158, R256, R257, R335: BAR and CBAR wait at their barrier and go on once released; BARRIER_ARRIVAL merges the group's warps and counts its
arrival, once the group's scratchpad accesses, and at a BAR its writes to P registers, are performed, and after the fence of FENCE; BARRIER_RELEASE and CBAR_RELEASE release the groups that have arrived. -/
def Obligations.BarriersComplete : Prop :=
  (∀ a, Bars a) ∧ (∀ a, Cbars a) ∧ (∀ gid, Arrives gid) ∧ (∀ team b, BarReleases team b) ∧ ∀ cluster ctx b, CbarReleases cluster ctx b

/-- R159 to R162, R335: ARRIVE lowers PEND of its stage, at once or when its counter reads zero (ARRIVAL_APPLY), and not before the group's
earlier scratchpad accesses and writes to P registers are performed; WAITPH goes on in the phase it
names, or waits. -/
def Obligations.RingsComplete : Prop := (∀ a, RingArrives a) ∧ (∀ gid, ArrivalApplies gid) ∧ ∀ a, PhaseWaits a

/-- R319, R301: EVWAIT goes on where COUNT reaches its value, lowering it with DEC, or joins the event's waiters; EVPOST adds to COUNT, or sets
it, and serves the waiters in the order they came. -/
def Obligations.NamedEventsComplete : Prop := (∀ a, EventWaits a) ∧ ∀ a, EventPosts a

/-- R225, R226: FENCE and CPUB wait for their fence, FENCE_COMPLETE ends it when the group's writes have returned and the scope's skew has
passed, and CPUB then clears the marks of its range and drops it from the instruction caches in scope. -/
def Obligations.FencesComplete : Prop := (∀ a, Fences a) ∧ (∀ gid wid, FenceEnds gid wid) ∧ ∀ a, Publishes a

/-- R171 to R176: the instructions that load, compose, invert, shuffle and read out permutations join the Crook's queue with their result pending; PIDN
writes the identity. -/
def Obligations.PermutationsIssue : Prop := CrookIssues ∧ (∀ a, Pidns a) ∧ ∀ a, Pcycs a

/-- R177: PAPPLY promises x of the lane that π sends to each active lane. -/
def Obligations.PermutationApplies : Prop := ∀ a, Promises32 (.papply a) (fun x => some (papplyRow x))

/-- R171, R173 to R179: the Crook takes its oldest instruction with the registers in force, for the time of the table, and then writes pd, or makes the index
vector or the settings image of ps ready. -/
def Obligations.CrookSteps : Prop := (∀ core, CrookStarts core) ∧ ∀ core, CrookEnds core

/-- R181 to R183, R188 to R190: GANG sets the group's gang; MMA waits at the Hurdle, or is released with its records, shape and counter;
HURDLE_RELEASE releases a gang whose groups have all arrived alike. -/
def Obligations.MatrixIssues : Prop := (∀ a, Acts (.gang a) gangAct) ∧ (∀ a, Mmas a) ∧ ∀ gid, HurdleReleases gid

/-- R180, R184, R190, R197 to R201, R203: ACLR, MXCLR, ALD, AST and TFETCH act or join their queue, AMOV and MXRD promise what they read. -/
def Obligations.TilesIssue : Prop :=
  Clears ∧ Sides ∧ (∀ a, Promises32 (.amov a) (fun x => some (amovRow x))) ∧ ∀ a, Promises64 (.mxrd a) (fun x => some (mxrdRow x))

/-- R191, R192, R196, R197, R199, R200, R202, R203: the engine's steps. An MMA occupies the engine and then writes its region, ALD loads one and AST
stores one, TFETCH pins its lines, and a fault on the way is kept on the tile. -/
def Obligations.MatrixSteps : Prop :=
  ∀ core, OccupancyStarts core ∧ MmaEnds core ∧ TileFaults core ∧ AldEnds core ∧ AstEnds core ∧ TfetchEnds core

/-- R259, R260, R263: the limiter's steps grant starts as the table says, falling steps and pre-ramps end, and PWRHINT asks for a pre-ramp or ends one. -/
def Obligations.LimiterSteps : Prop :=
  (∀ cluster, LimiterRises cluster) ∧ (∀ core, FallsEnd core) ∧ (∀ core, PrerampEnds core) ∧ ∀ a, Acts (.pwrhint a) (hintAct a)

/-- R48, R50, R212, R216 to R219, R222, R223: LD, LDE and returning atomics send their request, or take their value from the L1, and leave their result pending. -/
def Obligations.LoadsIssue : Prop := (∀ a, Lds a) ∧ (∀ a, Ldes a) ∧ ∀ a, Atoms a

/-- R215 to R219, R222 to R224: ST, STE and REDM send their request and raise their counter, after the fence of a release; PREF fills what it reaches. -/
def Obligations.StoresIssue : Prop := (∀ a, Sts a) ∧ (∀ a, Stes a) ∧ (∀ a, Redms a) ∧ ∀ a, Prefs a

/-- R210, R211, R217, R220, R221, R223, R255: the local accesses act on the team's scratchpad, LDF and STF by the full-empty bits, and LDW reads its window. -/
def Obligations.LocalAccesses : Prop :=
  (∀ a, Ldls a) ∧ (∀ a, Stls a) ∧ (∀ a, Ldfs a) ∧ (∀ a, Stfs a) ∧ (∀ gid wid, WaitReleases gid wid) ∧ (∀ a, Atomls a) ∧ ∀ a, Ldws a

/-- R217, R223, R273, R275, R292, R371, R408: HOME_REQUEST performs one part of a request at its home: a load brings the bytes of memory, a store writes them, an
atomic returns the old value and leaves the new one; what is beyond the package is sent there. -/
def Obligations.HomesPerform : Prop := ∀ rid i, HomeRequests rid i ∧ FarRequests rid i

/-- R73, R215, R255, R274, R432: an invalidation drops the copies it covers, a store's GWCT comes back and its counter falls, a result is written when its window
has closed, and a cluster access is performed in the other team's scratchpad. -/
def Obligations.ResultsReturn : Prop :=
  (∀ iid, Invalidates iid) ∧ (∀ rid, StoresEnd rid) ∧ (∀ gid wid rid, ResultsLand gid wid rid) ∧ ∀ rid, ClusterAccesses rid

/-- R228 to R230, R278 to R280: OBJDECL makes an object or says why not, PHASE arrives in one and goes on in the next phase, PHASE_VIEW_UPDATE brings the phase to a core,
and OBJREL ends the object. -/
def Obligations.ObjectsComplete : Prop :=
  (∀ a, Declares a) ∧ (∀ a, ObjReleases a) ∧ (∀ a, Phases a) ∧ ∀ core die obj, ViewsUpdate core die obj

/-- R231, R232, R338 to R342: PLACE asks for the moves of its pages, PLACEW waits for its window, moves begin and end, and pages are packed and unpacked. -/
def Obligations.PlacementComplete : Prop :=
  (∀ a, Places a) ∧ (∀ rid, PlacesEnd rid) ∧ (∀ a, PlaceWaits a) ∧ (∀ mid, MigrationStarts mid) ∧ (∀ mid, MigrationSwitches mid) ∧
    ∀ page unit_, Compresses page unit_

/-- R227, R236 to R241: COPY, COPYG, COPYS and FILL join their queue, which reads the records of its head, moves its elements and lets it go, or keeps its fault; QFENCE
puts its markers. -/
def Obligations.CopiesComplete : Prop :=
  CopiesIssue ∧ (∀ core queue, CopyStarts core queue) ∧ (∀ core queue, CopyEnds core queue) ∧ (∀ core queue, CopyFaults core queue) ∧ ∀ a, Joins a

/-- R253, R254, R264: BANKCFG waits until BANKCFG_CHANGE has cleared the bank and changed its mode; SLEEP waits until its tick has come. -/
def Obligations.BanksAndSleepComplete : Prop :=
  (∀ a, Bankcfgs a) ∧ (∀ team, BanksChange team) ∧ (∀ a, Sleeps a) ∧ ∀ gid wid, SleepersWake gid wid

/-- R248, R250, R265: a lane-mode change relocks and ends; an idle cluster is gated and a woken one is on. -/
def Obligations.ClusterStepsComplete : Prop := ∀ c, LanesRelock c ∧ GatesStep c

/-- R301, R356, R369, R370, R410 to R412: SIGNAL sends its record's signal; it is delivered to an event, a ring or another node, or dropped, and is acknowledged; a host
signals through a function's window. -/
def Obligations.SignalsComplete : Prop :=
  (∀ a, Signals a) ∧ (∀ sid, SignalsDeliver sid) ∧ (∀ sid, RingsWrite sid) ∧ (∀ sid, SignalsAck sid) ∧ ∀ port addr value, WindowsSignal port addr value

/-- R308 to R317, R265: LAUNCH queues its grid; teams are placed, their groups start in the launch state and end, and with them teams and grids; SPAWN's threads gather in bins, which launch. -/
def Obligations.LaunchesComplete : Prop :=
  (∀ a, Launches a) ∧ (∀ a, Spawns a) ∧ (∀ die bin, BinsLaunch die bin) ∧ (∀ die slot core, TeamsPlace die slot core) ∧ (∀ gid, GroupsStart gid) ∧
    (∀ gid, GroupsEnd gid) ∧ GridsDone

/-- R289, R290, R305 to R307, R331, R399: TLBINV, CFLUSH, MTSP, MFSP, HALT, a register write and a debug resume have their effect. -/
def Obligations.SystemInstructionsComplete : Prop :=
  (∀ a, Tlbinvs a) ∧ (∀ a, Cflushes a) ∧ (∀ a, Mtsps a) ∧ (∀ a, Mfsps a) ∧ (∀ a, Halts a) ∧ (∀ i v, RegistersWrite i v) ∧ ∀ die v, DebugResumes die v

/-- R320 to R330: CTXSAVE stops and saves a context on its dies, CTXLOAD requeues it; teams drain, are saved or flushed, one makes room for another, and a stalled context takes DLK. -/
def Obligations.SavesComplete : Prop :=
  (∀ a, Ctxsaves a) ∧ (∀ a, Ctxloads a) ∧ (∀ die ctx, SummariesWrite die ctx) ∧ (∀ team, TeamsSave team) ∧ (∀ team, DrainsEnd team) ∧
    (∀ die ctx, SavesAdmit die ctx) ∧ ∀ die ctx, WatchdogsExpire die ctx

/-- R343 to R351, R319, R301: a copy engine's words: transfers begin, waits and signals meet events, loops and jumps move its PC, XPLACE and XSTRM begin, XFENCE and XEND end. -/
def Obligations.EngineWordsComplete : Prop :=
  (∀ step l cl ra, Transfers (.xcopy step l cl ra) 0 step l cl ra none) ∧ (∀ step l cl ra idx, Transfers (.xgath step l cl ra idx) 1 step l cl ra (some idx)) ∧
    (∀ dec v ev, EngineWaits dec v ev) ∧ (∀ clr y ev, EngineSignals clr y ev) ∧ (∀ l n off, EngineLoops l n off) ∧ (∀ off, EngineJumps off) ∧
    (∀ pin tier ra, EnginePlaces pin tier ra) ∧ (∀ ra, EngineStreams ra) ∧ EngineFences ∧ ∀ post ev, EngineEnds post ev

/-- R343 to R345, R347, R349: an engine starts and stops, its transfers end with their elements moved, and its layer window goes from layer to layer. -/
def Obligations.EngineStepsComplete : Prop :=
  ∀ die e, EngineStarts die e ∧ EngineStops die e ∧ TransfersEnd die e ∧ WindowsStep die e

/-- R55, R58, R123, R126, R129, R130, R136, R248, R249, R266: clauses start, warps merge, groups enter and leave the active set, the collector dispatches, errors poison and corrected errors are counted; the ports of a
core go to the warps that have waited longest, two in an FCLK cycle, and time passes cycle by cycle and tick by tick. -/
def Obligations.CoreStepsComplete : Prop :=
  (∀ gid wid, ClausesStart gid wid ∧ WarpsMerge gid wid) ∧ (∀ gid, GroupsActivate gid ∧ GroupsIdle gid) ∧ (∀ core, CollectorsDispatch core) ∧
    (∀ site arg lanes, ErrorsPoison site arg lanes ∧ ErrorsCount site arg lanes) ∧ PortsShare ∧ TimePasses

/-- R125, R287: the fault service's RESOLVE and DENY let the waiting warps replay. -/
def Obligations.FaultAnswersComplete : Prop := ∀ die record, FaultsAnswered die record

/-- R374 to R376, R382, R383, R400: a compute reset stops the dies, keeps tenants' data, empties the L2s, ends and boots; a keep-domain reset brings the package up. -/
def Obligations.ResetsComplete : Prop :=
  (∀ source, ComputeResets source) ∧ (∀ line, TenantLinesKept line) ∧ CachesReset ∧ ComputeResetsEnd ∧ BootEnables ∧ ∀ source, KeepResets source

/-- R355 to R368, R397: a host's requests to lent memory, its snoops and deadlines, Finat's answers, BAR0 reads and the ports' links act as the rules say. -/
def Obligations.HostRequestsComplete : Prop :=
  (∀ port kind addr value, HostsAsk port kind addr value) ∧ HostsAcked ∧ (∀ hid, SnoopsEnd hid ∧ DeadlinesFall hid ∧ FinatAnswers hid) ∧
    (∀ port offset, Bar0Reads port offset) ∧ ∀ port, LinksChange port

/-- R371, R372, R379, R406: requests of root ports are ordered, performed and acknowledged by route; a load or a request that finds no answer within 50 µs ends in a fault. -/
def Obligations.InboundComplete : Prop :=
  (∀ port fn addr value size, InboundWrites port fn addr value size) ∧ (∀ port fn addr size, InboundReads port fn addr size) ∧
    (∀ port pid route, RoutesAck port pid route) ∧ ∀ rid, RequestsTimeOut rid

/-- R398, R403, R406 to R408, R410, R412: the links of the Droveway change as the rules say, and other nodes' accesses to exported memory are performed, held or refused. -/
def Obligations.FabricComplete : Prop := (∀ j, LinksStep j) ∧ ∀ src kind va tidx value, RemotesAsk src kind va tidx value

/-- R413 to R415: doorbells queue records, and the collective unit joins, folds, writes, completes or times out. -/
def Obligations.CollectivesComplete : Prop :=
  (∀ die ctx value, DoorbellsRing die ctx value) ∧ (∀ die ctx rid, DoorbellsRead die ctx rid) ∧ ∀ die ctx, CollectivesStep die ctx

/-- R385 to R390: the energy bucket, the islands' caps and announcements, and the stacks' levels step as the rules say. -/
def Obligations.PowerStepsComplete : Prop :=
  (∀ mw, PowersStep mw) ∧ (∀ group fcap gpwr, Throttles group fcap gpwr) ∧ (∀ i, AnnouncementsApply i) ∧ ∀ k temp, StacksSample k temp

/-- R396, R397: alarms halt what their level says, and attestation writes its report and posts. -/
def Obligations.AlarmsComplete : Prop := (∀ source, AlarmsAct source) ∧ ∀ value, Attests value

/-- A step runs the instruction that the bytes at the program counter decode to: the warp's clause word, the copy engine's word, or the step of the table; a tick and a replacement change what they name (R54, R58, R83, R126, R282). -/
def Obligations.StepRunsDecoded : Prop := StepRuns ∧ ClauseWords

/-- Words that the spec writes out decode to what they stand for. -/
def Obligations.SpecWordsDecode : Prop :=
  decode 0 0x0480_014A_0600_0007#64 = .ok (.lea64 { d := 20, x := 0x140, y := 0x180, m := 7 }) ∧
  decode 0 0x1100_00A0_5831_2C00#64 = .ok (.lut3 { d := 10, x := 11, y := 12, z := 0x96 }) ∧
  decode 0 0x9100_10A0_1000_0000#64 = .ok (.red { d := 0x10A, x := 2 }) ∧
  decode 0 0xE100_000E_1704_0001#64 = .ok (.evwait { x := 0x1C2, y := 0x1C1, m := 1 }) ∧
  decode 0 0xC040_10A8_1000_8000#64 = .ok (.st { d := 0x10A, x := 0x102, wid := 2 }) ∧
  decode 1 0x4000_0008_3000_0000#64 = .ok (.gang { x := 0x106 }) ∧
  decode 3 0x4140_1038_1000_0000#64 = .ok (.mfsp { d := 0x103, x := 0x102 }) ∧
  decode 3 0x4000_0008_2414_0008#64 = .ok (.tlbinv { x := 0x104, y := 0x105, m := 8 })

/-- R60 to R66, R80 to R84, R348: the decoder gives back every well-formed instruction from its encoding, and a word that decodes is the encoding of what it decodes to. -/
def Obligations.EncodingsAgree : Prop :=
  (∀ i : Instr, WellFormed i → isEvent i = false → ceWord i = false → ∃ w, encode i = [w] ∧ decode i.engClass w = .ok i) ∧
  (∀ i : Instr, WellFormed i → ceWord i = true → decodeCe ((encode i).getD 0 0) ((encode i).getD 1 0) = .ok i) ∧
  ∀ (eng : BitVec 2) (w : DWord) (i : Instr), decode eng w = .ok i → WellFormed i ∧ encode i = [w]

/-- R207 and the model's canonical memory: every step keeps memory, and every team's scratchpad, in canonical form. -/
def Obligations.StepKeepsCanonical : Prop := ∀ s t : State, s.Canonical → step s = .next t → t.Canonical

/-- The state after reset is canonical: the invariant's beginning. -/
def Obligations.ResetIsCanonical : Prop := State.reset.Canonical

/-- R305, R306, R358, R373, R385, R387, R402: after reset only context 0 is enabled and privileged, the registers of every block read their reset values, and no team, request or memory byte stands. -/
def Obligations.ResetValues : Prop :=
  (∀ k, k < 97 → reads State.reset (regNo 0 k 0) = some ((if k = 0 then 0xD000 else 0) + k) ∧
    [0x001, 0x002, 0x003, 0x006, 0x007, 0x008, 0x009, 0x100, 0x108, 0x202].map (fun r => reads State.reset (regNo 0 k r)) = List.replicate 10 (some 0) ∧
    reads State.reset (regNo 0 k 0x004) = some 10000 ∧ reads State.reset (regNo 0 k 0x005) = some 256 ∧ reads State.reset (regNo 0 k 0x203) = some 1) ∧
  (∀ p, p < 8 → reads State.reset (regNo 4 p 1) = some 0x400000 ∧ [0x002, 0x004, 0x005, 0x006, 0x007, 0x008].map (fun r => reads State.reset (regNo 4 p r)) = List.replicate 6 (some 0)) ∧
  (∀ i, i < 64 → reads State.reset (regNo 5 i 0) = some (1800 * 2 ^ 16 + 1800)) ∧
  reads State.reset (regNo 5 64 0) = some (45 * 2 ^ 48 + 2 ^ 32 + 10000 * 2 ^ 16 + 8000) ∧ reads State.reset (regNo 5 64 1) = some (8000 * 2 ^ 48 + 36000) ∧
  reads State.reset (regNo 7 0 0) = some 0 ∧ reads State.reset (regNo 7 0 1) = some 0 ∧ (∀ j, j < 36 → reads State.reset (regNo 7 (j + 1) 0) = some 0) ∧
  (∀ a, Memory.read State.reset.mem a = 0) ∧ State.reset.groups = [] ∧ State.reset.teams = [] ∧ State.reset.reqs = [] ∧ State.reset.bw = 0

/-- R46, R51: whatever comes of it (a result, a trap, a wait or parked lanes), a step of a register-only instruction leaves every byte of memory and of scratchpad, and every request in flight. -/
def Obligations.RegisterOnlyLeavesMemory : Prop :=
  ∀ (i : Instr) (s t : State), registerOnly i → exec i s = .next t → t.mem = s.mem ∧ t.teams = s.teams ∧ t.reqs = s.reqs ∧ t.events = s.events

/-- R51, R52, R138, R139: integer instructions trap precisely, taking the cause of the earliest stage and lowest code. -/
def Obligations.TrapsArePrecise : Prop := TrapsPrecisely

/-- R3: memory is little-endian, and instruction words are read so. -/
def Obligations.MemoryIsLittleEndian : Prop := LittleEndian

/-- R399: a write of DBGRES resumes the group it names and does nothing else. -/
def Obligations.DebugResumeActs : Prop := DebugWrites
end

