-- ==== Sys2Proof/Laws/State.lean ====
section
/-! SUPPORT. The small lemmas of State's updates: what each leaves alone, field by field, and what it writes. -/

namespace Sys2Proof.Machine

variable (s : State)

/-- What `setGroup` leaves alone. -/
@[simp] theorem State.setGroup_same (gid : Nat) (f : Group → Group) :
    (s.setGroup gid f).bw = s.bw ∧ (s.setGroup gid f).teams = s.teams ∧ (s.setGroup gid f).grids = s.grids ∧
    (s.setGroup gid f).cores = s.cores ∧ (s.setGroup gid f).clusters = s.clusters ∧ (s.setGroup gid f).dies = s.dies ∧
    (s.setGroup gid f).contexts = s.contexts ∧ (s.setGroup gid f).mem = s.mem ∧ (s.setGroup gid f).poison = s.poison ∧
    (s.setGroup gid f).lines = s.lines ∧ (s.setGroup gid f).eh = s.eh ∧ (s.setGroup gid f).l1 = s.l1 ∧
    (s.setGroup gid f).icache = s.icache ∧ (s.setGroup gid f).tlb = s.tlb ∧ (s.setGroup gid f).walkc = s.walkc ∧
    (s.setGroup gid f).reqs = s.reqs ∧ (s.setGroup gid f).invals = s.invals ∧ (s.setGroup gid f).faults = s.faults ∧
    (s.setGroup gid f).fold = s.fold ∧ (s.setGroup gid f).views = s.views ∧ (s.setGroup gid f).events = s.events ∧
    (s.setGroup gid f).bins = s.bins ∧ (s.setGroup gid f).ces = s.ces ∧ (s.setGroup gid f).saves = s.saves ∧
    (s.setGroup gid f).places = s.places ∧ (s.setGroup gid f).migs = s.migs ∧ (s.setGroup gid f).pages = s.pages ∧
    (s.setGroup gid f).ports = s.ports ∧ (s.setGroup gid f).regions = s.regions ∧
    (s.setGroup gid f).snoops = s.snoops ∧ (s.setGroup gid f).hostReqs = s.hostReqs ∧
    (s.setGroup gid f).inbound = s.inbound ∧ (s.setGroup gid f).remotes = s.remotes ∧
    (s.setGroup gid f).ordering = s.ordering ∧ (s.setGroup gid f).signals = s.signals ∧
    (s.setGroup gid f).links = s.links ∧ (s.setGroup gid f).collectives = s.collectives ∧
    (s.setGroup gid f).islands = s.islands ∧ (s.setGroup gid f).hbm = s.hbm ∧ (s.setGroup gid f).pkg = s.pkg ∧
    (s.setGroup gid f).out = s.out ∧ (s.setGroup gid f).finat = s.finat ∧ (s.setGroup gid f).served = s.served ∧ (s.setGroup gid f).nextId = s.nextId ∧
    (s.setGroup gid f).choice = s.choice ∧ (s.setGroup gid f).issuer = s.issuer ∧
    (s.setGroup gid f).engine = s.engine ∧ (s.setGroup gid f).agenda = s.agenda :=
  by repeat' constructor

/-- What `setWarp` leaves alone. -/
@[simp] theorem State.setWarp_same (gid wid : Nat) (f : Warp → Warp) :
    (s.setWarp gid wid f).bw = s.bw ∧ (s.setWarp gid wid f).teams = s.teams ∧ (s.setWarp gid wid f).grids = s.grids ∧
    (s.setWarp gid wid f).cores = s.cores ∧ (s.setWarp gid wid f).clusters = s.clusters ∧
    (s.setWarp gid wid f).dies = s.dies ∧ (s.setWarp gid wid f).contexts = s.contexts ∧
    (s.setWarp gid wid f).mem = s.mem ∧ (s.setWarp gid wid f).poison = s.poison ∧
    (s.setWarp gid wid f).lines = s.lines ∧ (s.setWarp gid wid f).eh = s.eh ∧ (s.setWarp gid wid f).l1 = s.l1 ∧
    (s.setWarp gid wid f).icache = s.icache ∧ (s.setWarp gid wid f).tlb = s.tlb ∧
    (s.setWarp gid wid f).walkc = s.walkc ∧ (s.setWarp gid wid f).reqs = s.reqs ∧
    (s.setWarp gid wid f).invals = s.invals ∧ (s.setWarp gid wid f).faults = s.faults ∧
    (s.setWarp gid wid f).fold = s.fold ∧ (s.setWarp gid wid f).views = s.views ∧
    (s.setWarp gid wid f).events = s.events ∧ (s.setWarp gid wid f).bins = s.bins ∧
    (s.setWarp gid wid f).ces = s.ces ∧ (s.setWarp gid wid f).saves = s.saves ∧
    (s.setWarp gid wid f).places = s.places ∧ (s.setWarp gid wid f).migs = s.migs ∧
    (s.setWarp gid wid f).pages = s.pages ∧ (s.setWarp gid wid f).ports = s.ports ∧
    (s.setWarp gid wid f).regions = s.regions ∧ (s.setWarp gid wid f).snoops = s.snoops ∧
    (s.setWarp gid wid f).hostReqs = s.hostReqs ∧ (s.setWarp gid wid f).inbound = s.inbound ∧
    (s.setWarp gid wid f).remotes = s.remotes ∧ (s.setWarp gid wid f).ordering = s.ordering ∧
    (s.setWarp gid wid f).signals = s.signals ∧ (s.setWarp gid wid f).links = s.links ∧
    (s.setWarp gid wid f).collectives = s.collectives ∧ (s.setWarp gid wid f).islands = s.islands ∧
    (s.setWarp gid wid f).hbm = s.hbm ∧ (s.setWarp gid wid f).pkg = s.pkg ∧ (s.setWarp gid wid f).out = s.out ∧
    (s.setWarp gid wid f).finat = s.finat ∧ (s.setWarp gid wid f).served = s.served ∧ (s.setWarp gid wid f).nextId = s.nextId ∧
    (s.setWarp gid wid f).choice = s.choice ∧ (s.setWarp gid wid f).issuer = s.issuer ∧
    (s.setWarp gid wid f).engine = s.engine ∧ (s.setWarp gid wid f).agenda = s.agenda :=
  by repeat' constructor

/-- What `setTeam` leaves alone. -/
@[simp] theorem State.setTeam_same (tid : Nat) (f : Team → Team) :
    (s.setTeam tid f).bw = s.bw ∧ (s.setTeam tid f).groups = s.groups ∧ (s.setTeam tid f).grids = s.grids ∧
    (s.setTeam tid f).cores = s.cores ∧ (s.setTeam tid f).clusters = s.clusters ∧ (s.setTeam tid f).dies = s.dies ∧
    (s.setTeam tid f).contexts = s.contexts ∧ (s.setTeam tid f).mem = s.mem ∧ (s.setTeam tid f).poison = s.poison ∧
    (s.setTeam tid f).lines = s.lines ∧ (s.setTeam tid f).eh = s.eh ∧ (s.setTeam tid f).l1 = s.l1 ∧
    (s.setTeam tid f).icache = s.icache ∧ (s.setTeam tid f).tlb = s.tlb ∧ (s.setTeam tid f).walkc = s.walkc ∧
    (s.setTeam tid f).reqs = s.reqs ∧ (s.setTeam tid f).invals = s.invals ∧ (s.setTeam tid f).faults = s.faults ∧
    (s.setTeam tid f).fold = s.fold ∧ (s.setTeam tid f).views = s.views ∧ (s.setTeam tid f).events = s.events ∧
    (s.setTeam tid f).bins = s.bins ∧ (s.setTeam tid f).ces = s.ces ∧ (s.setTeam tid f).saves = s.saves ∧
    (s.setTeam tid f).places = s.places ∧ (s.setTeam tid f).migs = s.migs ∧ (s.setTeam tid f).pages = s.pages ∧
    (s.setTeam tid f).ports = s.ports ∧ (s.setTeam tid f).regions = s.regions ∧ (s.setTeam tid f).snoops = s.snoops ∧
    (s.setTeam tid f).hostReqs = s.hostReqs ∧ (s.setTeam tid f).inbound = s.inbound ∧
    (s.setTeam tid f).remotes = s.remotes ∧ (s.setTeam tid f).ordering = s.ordering ∧
    (s.setTeam tid f).signals = s.signals ∧ (s.setTeam tid f).links = s.links ∧
    (s.setTeam tid f).collectives = s.collectives ∧ (s.setTeam tid f).islands = s.islands ∧
    (s.setTeam tid f).hbm = s.hbm ∧ (s.setTeam tid f).pkg = s.pkg ∧ (s.setTeam tid f).out = s.out ∧
    (s.setTeam tid f).finat = s.finat ∧ (s.setTeam tid f).served = s.served ∧ (s.setTeam tid f).nextId = s.nextId ∧ (s.setTeam tid f).choice = s.choice ∧
    (s.setTeam tid f).issuer = s.issuer ∧ (s.setTeam tid f).engine = s.engine ∧ (s.setTeam tid f).agenda = s.agenda :=
  by repeat' constructor

/-- What `setPreg` leaves alone. -/
@[simp] theorem State.setPreg_same (tid p : Nat) (v : PReg) :
    (s.setPreg tid p v).bw = s.bw ∧ (s.setPreg tid p v).groups = s.groups ∧ (s.setPreg tid p v).grids = s.grids ∧
    (s.setPreg tid p v).cores = s.cores ∧ (s.setPreg tid p v).clusters = s.clusters ∧
    (s.setPreg tid p v).dies = s.dies ∧ (s.setPreg tid p v).contexts = s.contexts ∧ (s.setPreg tid p v).mem = s.mem ∧
    (s.setPreg tid p v).poison = s.poison ∧ (s.setPreg tid p v).lines = s.lines ∧ (s.setPreg tid p v).eh = s.eh ∧
    (s.setPreg tid p v).l1 = s.l1 ∧ (s.setPreg tid p v).icache = s.icache ∧ (s.setPreg tid p v).tlb = s.tlb ∧
    (s.setPreg tid p v).walkc = s.walkc ∧ (s.setPreg tid p v).reqs = s.reqs ∧ (s.setPreg tid p v).invals = s.invals ∧
    (s.setPreg tid p v).faults = s.faults ∧ (s.setPreg tid p v).fold = s.fold ∧ (s.setPreg tid p v).views = s.views ∧
    (s.setPreg tid p v).events = s.events ∧ (s.setPreg tid p v).bins = s.bins ∧ (s.setPreg tid p v).ces = s.ces ∧
    (s.setPreg tid p v).saves = s.saves ∧ (s.setPreg tid p v).places = s.places ∧ (s.setPreg tid p v).migs = s.migs ∧
    (s.setPreg tid p v).pages = s.pages ∧ (s.setPreg tid p v).ports = s.ports ∧
    (s.setPreg tid p v).regions = s.regions ∧ (s.setPreg tid p v).snoops = s.snoops ∧
    (s.setPreg tid p v).hostReqs = s.hostReqs ∧ (s.setPreg tid p v).inbound = s.inbound ∧
    (s.setPreg tid p v).remotes = s.remotes ∧ (s.setPreg tid p v).ordering = s.ordering ∧
    (s.setPreg tid p v).signals = s.signals ∧ (s.setPreg tid p v).links = s.links ∧
    (s.setPreg tid p v).collectives = s.collectives ∧ (s.setPreg tid p v).islands = s.islands ∧
    (s.setPreg tid p v).hbm = s.hbm ∧ (s.setPreg tid p v).pkg = s.pkg ∧ (s.setPreg tid p v).out = s.out ∧
    (s.setPreg tid p v).finat = s.finat ∧ (s.setPreg tid p v).served = s.served ∧ (s.setPreg tid p v).nextId = s.nextId ∧
    (s.setPreg tid p v).choice = s.choice ∧ (s.setPreg tid p v).issuer = s.issuer ∧
    (s.setPreg tid p v).engine = s.engine ∧ (s.setPreg tid p v).agenda = s.agenda :=
  by repeat' constructor

/-- What `setGrid` leaves alone. -/
@[simp] theorem State.setGrid_same (id : Nat) (f : Grid → Grid) :
    (s.setGrid id f).bw = s.bw ∧ (s.setGrid id f).groups = s.groups ∧ (s.setGrid id f).teams = s.teams ∧
    (s.setGrid id f).cores = s.cores ∧ (s.setGrid id f).clusters = s.clusters ∧ (s.setGrid id f).dies = s.dies ∧
    (s.setGrid id f).contexts = s.contexts ∧ (s.setGrid id f).mem = s.mem ∧ (s.setGrid id f).poison = s.poison ∧
    (s.setGrid id f).lines = s.lines ∧ (s.setGrid id f).eh = s.eh ∧ (s.setGrid id f).l1 = s.l1 ∧
    (s.setGrid id f).icache = s.icache ∧ (s.setGrid id f).tlb = s.tlb ∧ (s.setGrid id f).walkc = s.walkc ∧
    (s.setGrid id f).reqs = s.reqs ∧ (s.setGrid id f).invals = s.invals ∧ (s.setGrid id f).faults = s.faults ∧
    (s.setGrid id f).fold = s.fold ∧ (s.setGrid id f).views = s.views ∧ (s.setGrid id f).events = s.events ∧
    (s.setGrid id f).bins = s.bins ∧ (s.setGrid id f).ces = s.ces ∧ (s.setGrid id f).saves = s.saves ∧
    (s.setGrid id f).places = s.places ∧ (s.setGrid id f).migs = s.migs ∧ (s.setGrid id f).pages = s.pages ∧
    (s.setGrid id f).ports = s.ports ∧ (s.setGrid id f).regions = s.regions ∧ (s.setGrid id f).snoops = s.snoops ∧
    (s.setGrid id f).hostReqs = s.hostReqs ∧ (s.setGrid id f).inbound = s.inbound ∧
    (s.setGrid id f).remotes = s.remotes ∧ (s.setGrid id f).ordering = s.ordering ∧
    (s.setGrid id f).signals = s.signals ∧ (s.setGrid id f).links = s.links ∧
    (s.setGrid id f).collectives = s.collectives ∧ (s.setGrid id f).islands = s.islands ∧
    (s.setGrid id f).hbm = s.hbm ∧ (s.setGrid id f).pkg = s.pkg ∧ (s.setGrid id f).out = s.out ∧
    (s.setGrid id f).finat = s.finat ∧ (s.setGrid id f).served = s.served ∧ (s.setGrid id f).nextId = s.nextId ∧ (s.setGrid id f).choice = s.choice ∧
    (s.setGrid id f).issuer = s.issuer ∧ (s.setGrid id f).engine = s.engine ∧ (s.setGrid id f).agenda = s.agenda :=
  by repeat' constructor

/-- What `setCore` leaves alone. -/
@[simp] theorem State.setCore_same (c : Nat) (f : Core → Core) :
    (s.setCore c f).bw = s.bw ∧ (s.setCore c f).groups = s.groups ∧ (s.setCore c f).teams = s.teams ∧
    (s.setCore c f).grids = s.grids ∧ (s.setCore c f).clusters = s.clusters ∧ (s.setCore c f).dies = s.dies ∧
    (s.setCore c f).contexts = s.contexts ∧ (s.setCore c f).mem = s.mem ∧ (s.setCore c f).poison = s.poison ∧
    (s.setCore c f).lines = s.lines ∧ (s.setCore c f).eh = s.eh ∧ (s.setCore c f).l1 = s.l1 ∧
    (s.setCore c f).icache = s.icache ∧ (s.setCore c f).tlb = s.tlb ∧ (s.setCore c f).walkc = s.walkc ∧
    (s.setCore c f).reqs = s.reqs ∧ (s.setCore c f).invals = s.invals ∧ (s.setCore c f).faults = s.faults ∧
    (s.setCore c f).fold = s.fold ∧ (s.setCore c f).views = s.views ∧ (s.setCore c f).events = s.events ∧
    (s.setCore c f).bins = s.bins ∧ (s.setCore c f).ces = s.ces ∧ (s.setCore c f).saves = s.saves ∧
    (s.setCore c f).places = s.places ∧ (s.setCore c f).migs = s.migs ∧ (s.setCore c f).pages = s.pages ∧
    (s.setCore c f).ports = s.ports ∧ (s.setCore c f).regions = s.regions ∧ (s.setCore c f).snoops = s.snoops ∧
    (s.setCore c f).hostReqs = s.hostReqs ∧ (s.setCore c f).inbound = s.inbound ∧
    (s.setCore c f).remotes = s.remotes ∧ (s.setCore c f).ordering = s.ordering ∧
    (s.setCore c f).signals = s.signals ∧ (s.setCore c f).links = s.links ∧
    (s.setCore c f).collectives = s.collectives ∧ (s.setCore c f).islands = s.islands ∧ (s.setCore c f).hbm = s.hbm ∧
    (s.setCore c f).pkg = s.pkg ∧ (s.setCore c f).out = s.out ∧ (s.setCore c f).finat = s.finat ∧ (s.setCore c f).served = s.served ∧
    (s.setCore c f).nextId = s.nextId ∧ (s.setCore c f).choice = s.choice ∧ (s.setCore c f).issuer = s.issuer ∧
    (s.setCore c f).engine = s.engine ∧ (s.setCore c f).agenda = s.agenda :=
  by repeat' constructor

/-- What `setCluster` leaves alone. -/
@[simp] theorem State.setCluster_same (k : Nat) (f : Cluster → Cluster) :
    (s.setCluster k f).bw = s.bw ∧ (s.setCluster k f).groups = s.groups ∧ (s.setCluster k f).teams = s.teams ∧
    (s.setCluster k f).grids = s.grids ∧ (s.setCluster k f).cores = s.cores ∧ (s.setCluster k f).dies = s.dies ∧
    (s.setCluster k f).contexts = s.contexts ∧ (s.setCluster k f).mem = s.mem ∧ (s.setCluster k f).poison = s.poison ∧
    (s.setCluster k f).lines = s.lines ∧ (s.setCluster k f).eh = s.eh ∧ (s.setCluster k f).l1 = s.l1 ∧
    (s.setCluster k f).icache = s.icache ∧ (s.setCluster k f).tlb = s.tlb ∧ (s.setCluster k f).walkc = s.walkc ∧
    (s.setCluster k f).reqs = s.reqs ∧ (s.setCluster k f).invals = s.invals ∧ (s.setCluster k f).faults = s.faults ∧
    (s.setCluster k f).fold = s.fold ∧ (s.setCluster k f).views = s.views ∧ (s.setCluster k f).events = s.events ∧
    (s.setCluster k f).bins = s.bins ∧ (s.setCluster k f).ces = s.ces ∧ (s.setCluster k f).saves = s.saves ∧
    (s.setCluster k f).places = s.places ∧ (s.setCluster k f).migs = s.migs ∧ (s.setCluster k f).pages = s.pages ∧
    (s.setCluster k f).ports = s.ports ∧ (s.setCluster k f).regions = s.regions ∧
    (s.setCluster k f).snoops = s.snoops ∧ (s.setCluster k f).hostReqs = s.hostReqs ∧
    (s.setCluster k f).inbound = s.inbound ∧ (s.setCluster k f).remotes = s.remotes ∧
    (s.setCluster k f).ordering = s.ordering ∧ (s.setCluster k f).signals = s.signals ∧
    (s.setCluster k f).links = s.links ∧ (s.setCluster k f).collectives = s.collectives ∧
    (s.setCluster k f).islands = s.islands ∧ (s.setCluster k f).hbm = s.hbm ∧ (s.setCluster k f).pkg = s.pkg ∧
    (s.setCluster k f).out = s.out ∧ (s.setCluster k f).finat = s.finat ∧ (s.setCluster k f).served = s.served ∧ (s.setCluster k f).nextId = s.nextId ∧
    (s.setCluster k f).choice = s.choice ∧ (s.setCluster k f).issuer = s.issuer ∧
    (s.setCluster k f).engine = s.engine ∧ (s.setCluster k f).agenda = s.agenda :=
  by repeat' constructor

/-- What `setCtx` leaves alone. -/
@[simp] theorem State.setCtx_same (k : Nat) (f : Context → Context) :
    (s.setCtx k f).bw = s.bw ∧ (s.setCtx k f).groups = s.groups ∧ (s.setCtx k f).teams = s.teams ∧
    (s.setCtx k f).grids = s.grids ∧ (s.setCtx k f).cores = s.cores ∧ (s.setCtx k f).clusters = s.clusters ∧
    (s.setCtx k f).dies = s.dies ∧ (s.setCtx k f).mem = s.mem ∧ (s.setCtx k f).poison = s.poison ∧
    (s.setCtx k f).lines = s.lines ∧ (s.setCtx k f).eh = s.eh ∧ (s.setCtx k f).l1 = s.l1 ∧
    (s.setCtx k f).icache = s.icache ∧ (s.setCtx k f).tlb = s.tlb ∧ (s.setCtx k f).walkc = s.walkc ∧
    (s.setCtx k f).reqs = s.reqs ∧ (s.setCtx k f).invals = s.invals ∧ (s.setCtx k f).faults = s.faults ∧
    (s.setCtx k f).fold = s.fold ∧ (s.setCtx k f).views = s.views ∧ (s.setCtx k f).events = s.events ∧
    (s.setCtx k f).bins = s.bins ∧ (s.setCtx k f).ces = s.ces ∧ (s.setCtx k f).saves = s.saves ∧
    (s.setCtx k f).places = s.places ∧ (s.setCtx k f).migs = s.migs ∧ (s.setCtx k f).pages = s.pages ∧
    (s.setCtx k f).ports = s.ports ∧ (s.setCtx k f).regions = s.regions ∧ (s.setCtx k f).snoops = s.snoops ∧
    (s.setCtx k f).hostReqs = s.hostReqs ∧ (s.setCtx k f).inbound = s.inbound ∧ (s.setCtx k f).remotes = s.remotes ∧
    (s.setCtx k f).ordering = s.ordering ∧ (s.setCtx k f).signals = s.signals ∧ (s.setCtx k f).links = s.links ∧
    (s.setCtx k f).collectives = s.collectives ∧ (s.setCtx k f).islands = s.islands ∧ (s.setCtx k f).hbm = s.hbm ∧
    (s.setCtx k f).pkg = s.pkg ∧ (s.setCtx k f).out = s.out ∧ (s.setCtx k f).finat = s.finat ∧ (s.setCtx k f).served = s.served ∧
    (s.setCtx k f).nextId = s.nextId ∧ (s.setCtx k f).choice = s.choice ∧ (s.setCtx k f).issuer = s.issuer ∧
    (s.setCtx k f).engine = s.engine ∧ (s.setCtx k f).agenda = s.agenda :=
  by repeat' constructor

/-- What `setCe` leaves alone. -/
@[simp] theorem State.setCe_same (k : Nat) (f : CopyEngine → CopyEngine) :
    (s.setCe k f).bw = s.bw ∧ (s.setCe k f).groups = s.groups ∧ (s.setCe k f).teams = s.teams ∧
    (s.setCe k f).grids = s.grids ∧ (s.setCe k f).cores = s.cores ∧ (s.setCe k f).clusters = s.clusters ∧
    (s.setCe k f).dies = s.dies ∧ (s.setCe k f).contexts = s.contexts ∧ (s.setCe k f).mem = s.mem ∧
    (s.setCe k f).poison = s.poison ∧ (s.setCe k f).lines = s.lines ∧ (s.setCe k f).eh = s.eh ∧
    (s.setCe k f).l1 = s.l1 ∧ (s.setCe k f).icache = s.icache ∧ (s.setCe k f).tlb = s.tlb ∧
    (s.setCe k f).walkc = s.walkc ∧ (s.setCe k f).reqs = s.reqs ∧ (s.setCe k f).invals = s.invals ∧
    (s.setCe k f).faults = s.faults ∧ (s.setCe k f).fold = s.fold ∧ (s.setCe k f).views = s.views ∧
    (s.setCe k f).events = s.events ∧ (s.setCe k f).bins = s.bins ∧ (s.setCe k f).saves = s.saves ∧
    (s.setCe k f).places = s.places ∧ (s.setCe k f).migs = s.migs ∧ (s.setCe k f).pages = s.pages ∧
    (s.setCe k f).ports = s.ports ∧ (s.setCe k f).regions = s.regions ∧ (s.setCe k f).snoops = s.snoops ∧
    (s.setCe k f).hostReqs = s.hostReqs ∧ (s.setCe k f).inbound = s.inbound ∧ (s.setCe k f).remotes = s.remotes ∧
    (s.setCe k f).ordering = s.ordering ∧ (s.setCe k f).signals = s.signals ∧ (s.setCe k f).links = s.links ∧
    (s.setCe k f).collectives = s.collectives ∧ (s.setCe k f).islands = s.islands ∧ (s.setCe k f).hbm = s.hbm ∧
    (s.setCe k f).pkg = s.pkg ∧ (s.setCe k f).out = s.out ∧ (s.setCe k f).finat = s.finat ∧ (s.setCe k f).served = s.served ∧
    (s.setCe k f).nextId = s.nextId ∧ (s.setCe k f).choice = s.choice ∧ (s.setCe k f).issuer = s.issuer ∧
    (s.setCe k f).engine = s.engine ∧ (s.setCe k f).agenda = s.agenda :=
  by repeat' constructor

/-- What `wrBytes` leaves alone. -/
@[simp] theorem State.wrBytes_same (a : Nat) (bs : List Byte) :
    (s.wrBytes a bs).bw = s.bw ∧ (s.wrBytes a bs).groups = s.groups ∧ (s.wrBytes a bs).teams = s.teams ∧
    (s.wrBytes a bs).grids = s.grids ∧ (s.wrBytes a bs).cores = s.cores ∧ (s.wrBytes a bs).clusters = s.clusters ∧
    (s.wrBytes a bs).dies = s.dies ∧ (s.wrBytes a bs).contexts = s.contexts ∧ (s.wrBytes a bs).poison = s.poison ∧
    (s.wrBytes a bs).lines = s.lines ∧ (s.wrBytes a bs).eh = s.eh ∧ (s.wrBytes a bs).l1 = s.l1 ∧
    (s.wrBytes a bs).icache = s.icache ∧ (s.wrBytes a bs).tlb = s.tlb ∧ (s.wrBytes a bs).walkc = s.walkc ∧
    (s.wrBytes a bs).reqs = s.reqs ∧ (s.wrBytes a bs).invals = s.invals ∧ (s.wrBytes a bs).faults = s.faults ∧
    (s.wrBytes a bs).fold = s.fold ∧ (s.wrBytes a bs).views = s.views ∧ (s.wrBytes a bs).events = s.events ∧
    (s.wrBytes a bs).bins = s.bins ∧ (s.wrBytes a bs).ces = s.ces ∧ (s.wrBytes a bs).saves = s.saves ∧
    (s.wrBytes a bs).places = s.places ∧ (s.wrBytes a bs).migs = s.migs ∧ (s.wrBytes a bs).pages = s.pages ∧
    (s.wrBytes a bs).ports = s.ports ∧ (s.wrBytes a bs).regions = s.regions ∧ (s.wrBytes a bs).snoops = s.snoops ∧
    (s.wrBytes a bs).hostReqs = s.hostReqs ∧ (s.wrBytes a bs).inbound = s.inbound ∧
    (s.wrBytes a bs).remotes = s.remotes ∧ (s.wrBytes a bs).ordering = s.ordering ∧
    (s.wrBytes a bs).signals = s.signals ∧ (s.wrBytes a bs).links = s.links ∧
    (s.wrBytes a bs).collectives = s.collectives ∧ (s.wrBytes a bs).islands = s.islands ∧
    (s.wrBytes a bs).hbm = s.hbm ∧ (s.wrBytes a bs).pkg = s.pkg ∧ (s.wrBytes a bs).out = s.out ∧
    (s.wrBytes a bs).finat = s.finat ∧ (s.wrBytes a bs).served = s.served ∧ (s.wrBytes a bs).nextId = s.nextId ∧ (s.wrBytes a bs).choice = s.choice ∧
    (s.wrBytes a bs).issuer = s.issuer ∧ (s.wrBytes a bs).engine = s.engine ∧ (s.wrBytes a bs).agenda = s.agenda :=
  by repeat' constructor

/-- What `wr` leaves alone. -/
@[simp] theorem State.wr_same (a n v : Nat) :
    (s.wr a n v).bw = s.bw ∧ (s.wr a n v).groups = s.groups ∧ (s.wr a n v).teams = s.teams ∧
    (s.wr a n v).grids = s.grids ∧ (s.wr a n v).cores = s.cores ∧ (s.wr a n v).clusters = s.clusters ∧
    (s.wr a n v).dies = s.dies ∧ (s.wr a n v).contexts = s.contexts ∧ (s.wr a n v).poison = s.poison ∧
    (s.wr a n v).lines = s.lines ∧ (s.wr a n v).eh = s.eh ∧ (s.wr a n v).l1 = s.l1 ∧ (s.wr a n v).icache = s.icache ∧
    (s.wr a n v).tlb = s.tlb ∧ (s.wr a n v).walkc = s.walkc ∧ (s.wr a n v).reqs = s.reqs ∧
    (s.wr a n v).invals = s.invals ∧ (s.wr a n v).faults = s.faults ∧ (s.wr a n v).fold = s.fold ∧
    (s.wr a n v).views = s.views ∧ (s.wr a n v).events = s.events ∧ (s.wr a n v).bins = s.bins ∧
    (s.wr a n v).ces = s.ces ∧ (s.wr a n v).saves = s.saves ∧ (s.wr a n v).places = s.places ∧
    (s.wr a n v).migs = s.migs ∧ (s.wr a n v).pages = s.pages ∧ (s.wr a n v).ports = s.ports ∧
    (s.wr a n v).regions = s.regions ∧ (s.wr a n v).snoops = s.snoops ∧ (s.wr a n v).hostReqs = s.hostReqs ∧
    (s.wr a n v).inbound = s.inbound ∧ (s.wr a n v).remotes = s.remotes ∧ (s.wr a n v).ordering = s.ordering ∧
    (s.wr a n v).signals = s.signals ∧ (s.wr a n v).links = s.links ∧ (s.wr a n v).collectives = s.collectives ∧
    (s.wr a n v).islands = s.islands ∧ (s.wr a n v).hbm = s.hbm ∧ (s.wr a n v).pkg = s.pkg ∧
    (s.wr a n v).out = s.out ∧ (s.wr a n v).finat = s.finat ∧ (s.wr a n v).served = s.served ∧ (s.wr a n v).nextId = s.nextId ∧
    (s.wr a n v).choice = s.choice ∧ (s.wr a n v).issuer = s.issuer ∧ (s.wr a n v).engine = s.engine ∧
    (s.wr a n v).agenda = s.agenda :=
  by repeat' constructor

/-! ## What the updates write -/

@[simp] theorem State.fresh_fst : s.fresh.1 = s.nextId := rfl
@[simp] theorem State.free_fst : s.free.1 = s.choice := rfl
@[simp] theorem State.fresh_snd_mem : s.fresh.2.mem = s.mem := rfl
@[simp] theorem State.free_snd_mem : s.free.2.mem = s.mem := rfl
@[simp] theorem State.fresh_snd_groups : s.fresh.2.groups = s.groups := rfl
@[simp] theorem State.free_snd_groups : s.free.2.groups = s.groups := rfl
@[simp] theorem State.wrBytes_mem (a : Nat) (bs : List Byte) : (s.wrBytes a bs).mem = Memory.store s.mem a bs := rfl
@[simp] theorem State.wr_mem (a n v : Nat) : (s.wr a n v).mem = Memory.store s.mem a (leBytes n v) := rfl

/-- Changing records by a key leaves the records of another key. -/
theorem find_updWhere_ne {α : Type} (key : α → Nat) (k j : Nat) (f : α → α) (hf : ∀ x, key (f x) = key x) (h : j ≠ k) (l : List α) :
    (updWhere (fun x => key x == k) f l).find? (fun x => key x == j) = l.find? (fun x => key x == j) := by
  induction l with
  | nil => rfl
  | cons x r ih =>
    rw [updWhere, List.map_cons] at *
    by_cases hx : key x = k
    · have hc : (key x == k) = true := by simp [hx]
      have hj : ¬ (key x == j) = true := by simp [hx, h.symm]
      have hj' : ¬ (key (f x) == j) = true := by rw [hf]; exact hj
      rw [if_pos hc, List.find?_cons_of_neg (p := fun x => key x == j) hj', List.find?_cons_of_neg (p := fun x => key x == j) hj, ih]
    · rw [if_neg (by simpa using hx)]
      by_cases hj : (key x == j) = true
      · rw [List.find?_cons_of_pos (p := fun x => key x == j) hj, List.find?_cons_of_pos (p := fun x => key x == j) hj]
      · rw [List.find?_cons_of_neg (p := fun x => key x == j) hj, List.find?_cons_of_neg (p := fun x => key x == j) hj, ih]

/-- The first record of a key, changed. -/
theorem find_updWhere_self {α : Type} (key : α → Nat) (k : Nat) (f : α → α) (hf : ∀ x, key (f x) = key x) (l : List α) :
    (updWhere (fun x => key x == k) f l).find? (fun x => key x == k) = (l.find? (fun x => key x == k)).map f := by
  induction l with
  | nil => rfl
  | cons x r ih =>
    rw [updWhere, List.map_cons] at *
    by_cases hx : key x = k
    · have hc : (key x == k) = true := by simp [hx]
      have hc' : (key (f x) == k) = true := by rw [hf]; exact hc
      rw [if_pos hc, List.find?_cons_of_pos (p := fun x => key x == k) hc', List.find?_cons_of_pos (p := fun x => key x == k) hc]; rfl
    · have hc : ¬ (key x == k) = true := by simpa using hx
      rw [if_neg hc, List.find?_cons_of_neg (p := fun x => key x == k) hc, List.find?_cons_of_neg (p := fun x => key x == k) hc, ih]

theorem State.group_setGroup_ne (gid k : Nat) (f : Group → Group) (hf : ∀ g, (f g).gid = g.gid) (h : k ≠ gid) :
    (s.setGroup gid f).group k = s.group k :=
  find_updWhere_ne Group.gid gid k f hf h s.groups

theorem State.group_setGroup_self (gid : Nat) (f : Group → Group) (hf : ∀ g, (f g).gid = g.gid) :
    (s.setGroup gid f).group gid = (s.group gid).map f :=
  find_updWhere_self Group.gid gid f hf s.groups

@[simp] theorem Group.setWarp_gid (g : Group) (wid : Nat) (f : Warp → Warp) : (g.setWarp wid f).gid = g.gid := rfl

/-- Two changes of the same group, one after the other. -/
theorem State.setGroup_setGroup (gid : Nat) (f h : Group → Group) (hf : ∀ g, (f g).gid = g.gid) :
    (s.setGroup gid f).setGroup gid h = s.setGroup gid (fun g => h (f g)) := by
  simp only [State.setGroup, updWhere, List.map_map]
  congr 1
  apply List.map_congr_left
  intro g _
  by_cases hg : g.gid = gid <;> simp [hg, hf]

theorem State.setWarp_eq (gid wid : Nat) (f : Warp → Warp) : s.setWarp gid wid f = s.setGroup gid (fun g => g.setWarp wid f) := rfl

end Sys2Proof.Machine
end

