-- ==== Sys2Proof/Laws/Memory.lean ====
section
/-! SUPPORT. Sparse maps keep their canonical form, and what a read gives after a write; the same of memory. -/

namespace Sys2Proof.Machine

section
variable {α : Type} {d : α}

theorem Amap.above_mono {b c : Nat} (h : c ≤ b) {m : Amap α} (hm : Amap.above b m = true) : Amap.above c m = true := by
  simp only [Amap.above, List.all_eq_true, decide_eq_true_eq] at *
  exact fun p hp => lt_of_le_of_lt h (hm p hp)

theorem Amap.above_erase {b : Nat} {m : Amap α} (hm : Amap.above b m = true) (a : Nat) : Amap.above b (m.erase a) = true := by
  simp only [Amap.above, Amap.erase, List.all_eq_true, decide_eq_true_eq] at *
  exact fun p hp => hm p (List.mem_of_mem_filter hp)

theorem Amap.above_insert {b : Nat} {m : Amap α} {a : Nat} (v : α) (hm : Amap.above b m = true) (ha : b < a) :
    Amap.above b (m.insert a v) = true := by
  induction m with
  | nil => simp [Amap.insert, Amap.above, ha]
  | cons p r ih =>
    obtain ⟨k, w⟩ := p
    simp only [Amap.above, List.all_cons, Bool.and_eq_true, decide_eq_true_eq] at hm ih
    rw [Amap.insert]
    split <;> simp [Amap.above, hm.1, ha]
    · simpa using hm.2
    · simpa using ih hm.2

theorem Amap.erase_cons_self (r : Amap α) (a : Nat) (w : α) : Amap.erase ((a, w) :: r) a = r.erase a := by
  simp [Amap.erase]

theorem Amap.erase_cons_ne (r : Amap α) {a k : Nat} (w : α) (h : k ≠ a) : Amap.erase ((k, w) :: r) a = (k, w) :: r.erase a := by
  simp [Amap.erase, h]

theorem Amap.get_erase_self (m : Amap α) (a : Nat) : Amap.get d (m.erase a) a = d := by
  induction m with
  | nil => rfl
  | cons p r ih =>
    obtain ⟨k, w⟩ := p
    by_cases h : k = a
    · rw [h, Amap.erase_cons_self]; exact ih
    · rw [Amap.erase_cons_ne _ _ h, Amap.get, if_neg (Ne.symm h)]; exact ih

theorem Amap.get_erase_ne (m : Amap α) {a b : Nat} (h : b ≠ a) : Amap.get d (m.erase a) b = Amap.get d m b := by
  induction m with
  | nil => rfl
  | cons p r ih =>
    obtain ⟨k, w⟩ := p
    by_cases hk : k = a
    · rw [hk, Amap.erase_cons_self, Amap.get, if_neg h]; exact ih
    · rw [Amap.erase_cons_ne _ _ hk, Amap.get, Amap.get, ih]

theorem Amap.get_insert_self (m : Amap α) (a : Nat) (v : α) : Amap.get d ((m.erase a).insert a v) a = v := by
  have h : ∀ m : Amap α, (∀ p ∈ m, p.1 ≠ a) → Amap.get d (m.insert a v) a = v := by
    intro m
    induction m with
    | nil => intro _; simp [Amap.insert, Amap.get]
    | cons p r ih =>
      obtain ⟨k, w⟩ := p
      intro hp
      have hk : a ≠ k := (hp (k, w) (by simp)).symm
      rw [Amap.insert]
      split
      · simp [Amap.get]
      · simp only [Amap.get, hk, if_false]
        exact ih (fun q hq => hp q (by simp [hq]))
  exact h _ (fun p hp => by simpa using (List.mem_filter.mp hp).2)

theorem Amap.get_insert_ne (m : Amap α) {a b : Nat} (v : α) (h : b ≠ a) : Amap.get d (m.insert a v) b = Amap.get d m b := by
  induction m with
  | nil => simp [Amap.insert, Amap.get, h]
  | cons p r ih =>
    obtain ⟨k, w⟩ := p
    rw [Amap.insert]
    split
    · simp [Amap.get, h]
    · simp only [Amap.get, ih]

variable [DecidableEq α]

/-- A read after a write to the same key gives what was written. -/
@[simp] theorem Amap.get_set_self (m : Amap α) (a : Nat) (v : α) : Amap.get d (Amap.set d m a v) a = v := by
  by_cases h : v = d
  · rw [Amap.set, if_pos h, h]; exact Amap.get_erase_self m a
  · rw [Amap.set, if_neg h]; exact Amap.get_insert_self m a v

/-- A write to a key leaves the others. -/
theorem Amap.get_set_ne (m : Amap α) {a b : Nat} (v : α) (h : b ≠ a) : Amap.get d (Amap.set d m a v) b = Amap.get d m b := by
  by_cases hv : v = d
  · rw [Amap.set, if_pos hv, Amap.get_erase_ne _ h]
  · rw [Amap.set, if_neg hv, Amap.get_insert_ne _ _ h, Amap.get_erase_ne _ h]

theorem Amap.get_set (m : Amap α) (a b : Nat) (v : α) :
    Amap.get d (Amap.set d m a v) b = if b = a then v else Amap.get d m b := by
  split
  · rename_i h; rw [h]; exact Amap.get_set_self m a v
  · rename_i h; exact Amap.get_set_ne m v h

theorem Amap.wf_erase {m : Amap α} (hm : Amap.wf d m = true) (a : Nat) : Amap.wf d (m.erase a) = true := by
  induction m with
  | nil => rfl
  | cons p r ih =>
    obtain ⟨k, w⟩ := p
    simp only [Amap.wf, Bool.and_eq_true, decide_eq_true_eq] at hm
    by_cases h : k = a
    · rw [h, Amap.erase_cons_self]; exact ih hm.2
    · rw [Amap.erase_cons_ne _ _ h]
      simp [Amap.wf, hm.1.1, Amap.above_erase hm.1.2, ih hm.2]

theorem Amap.wf_insert {m : Amap α} (hm : Amap.wf d m = true) {a : Nat} (ha : ∀ p ∈ m, p.1 ≠ a) {v : α} (hv : v ≠ d) :
    Amap.wf d (m.insert a v) = true := by
  induction m with
  | nil => simp [Amap.insert, Amap.wf, Amap.above, hv]
  | cons p r ih =>
    obtain ⟨k, w⟩ := p
    simp only [Amap.wf, Bool.and_eq_true, decide_eq_true_eq] at hm
    have hk : k ≠ a := ha (k, w) (by simp)
    rw [Amap.insert]
    split
    · rename_i h
      have : Amap.above a ((k, w) :: r) = true := by
        have := Amap.above_mono h.le hm.1.2
        simpa [Amap.above, h] using this
      simp [Amap.wf, hv, hm.1.1, hm.1.2, hm.2, this]
    · have hlt : k < a := by omega
      simp [Amap.wf, hm.1.1, Amap.above_insert v hm.1.2 hlt, ih hm.2 (fun q hq => ha q (by simp [hq]))]

/-- A write keeps the canonical form. -/
theorem Amap.wf_set {m : Amap α} (hm : Amap.wf d m = true) (a : Nat) (v : α) : Amap.wf d (Amap.set d m a v) = true := by
  by_cases h : v = d
  · rw [Amap.set, if_pos h]; exact Amap.wf_erase hm a
  · rw [Amap.set, if_neg h]
    exact Amap.wf_insert (Amap.wf_erase hm a) (fun p hp => by simpa using (List.mem_filter.mp hp).2) h

end

/-! ## Memory -/

theorem Memory.wf_write {m : List Host.Cell} (h : Memory.wf m) (a : Nat) (b : Byte) : Memory.wf (Memory.write m a b) :=
  Amap.wf_set h a b

theorem Memory.wf_store {m : List Host.Cell} (h : Memory.wf m) (a : Nat) (bs : List Byte) : Memory.wf (Memory.store m a bs) := by
  induction bs generalizing m a with
  | nil => exact h
  | cons b r ih => exact ih (Memory.wf_write h a b) (a + 1)

@[simp] theorem Memory.read_write_self (m : List Host.Cell) (a : Nat) (b : Byte) : Memory.read (Memory.write m a b) a = b :=
  Amap.get_set_self m a b

theorem Memory.read_write_ne (m : List Host.Cell) {a c : Nat} (b : Byte) (h : c ≠ a) :
    Memory.read (Memory.write m a b) c = Memory.read m c :=
  Amap.get_set_ne m b h

/-- A store leaves every byte outside it. -/
theorem Memory.read_store_outside (m : List Host.Cell) (a : Nat) (bs : List Byte) {c : Nat} (h : c < a ∨ a + bs.length ≤ c) :
    Memory.read (Memory.store m a bs) c = Memory.read m c := by
  induction bs generalizing m a with
  | nil => rfl
  | cons b r ih =>
    simp only [List.length_cons] at h
    rw [Memory.store, ih _ _ (by omega), Memory.read_write_ne _ _ (by omega)]

/-- A read inside a store gives the byte stored there. -/
theorem Memory.read_store_inside (m : List Host.Cell) (a : Nat) (bs : List Byte) {k : Nat} (h : k < bs.length) :
    Memory.read (Memory.store m a bs) (a + k) = bs[k] := by
  induction bs generalizing m a k with
  | nil => simp at h
  | cons b r ih =>
    cases k with
    | zero =>
      rw [Memory.store, Memory.read_store_outside _ _ _ (by omega)]
      exact Memory.read_write_self m a b
    | succ k =>
      have hk : k < r.length := by simpa using h
      have := ih (Memory.write m a b) (a + 1) hk
      rw [Memory.store, show a + (k + 1) = a + 1 + k by omega, this]; rfl

@[simp] theorem leBytes_length (n v : Nat) : (leBytes n v).length = n := by
  induction n generalizing v with
  | zero => rfl
  | succ n ih => simp [leBytes, ih]

theorem Memory.bytes_store (m : List Host.Cell) (a : Nat) (bs : List Byte) :
    Memory.bytes (Memory.store m a bs) a bs.length = bs := by
  induction bs generalizing m a with
  | nil => rfl
  | cons b r ih =>
    rw [List.length_cons, Memory.bytes, Memory.store, Memory.read_store_outside _ _ _ (by omega), Memory.read_write_self]
    exact congrArg _ (ih (Memory.write m a b) (a + 1))

theorem leNat_leBytes (n v : Nat) : leNat (leBytes n v) = v % 256 ^ n := by
  induction n generalizing v with
  | zero => simp [leBytes, leNat, Nat.mod_one]
  | succ n ih =>
    rw [leBytes, leNat, ih, BitVec.toNat_ofNat, pow_succ' 256 n, Nat.mod_mul]

/-- A number stored is the number read (R3). -/
theorem State.rd_wr (s : State) (a n v : Nat) : (s.wr a n v).rd a n = v % 256 ^ n := by
  have := Memory.bytes_store s.mem a (leBytes n v)
  rw [leBytes_length] at this
  rw [State.rd, State.wr_mem, this, leNat_leBytes]

theorem State.wr_canonical {s : State} (h : Memory.wf s.mem) (a n v : Nat) : Memory.wf (s.wr a n v).mem :=
  Memory.wf_store h a _

end Sys2Proof.Machine
end

