-- ==== Sys2Proof/Laws/Read.lean ====
section
/-! SUPPORT. What reading operands from device memory changes: slices and caches, what they cost, and the tier manager's counts. -/

namespace Sys2Proof.Machine

/-- `t` is `s` but for slices, caches, contexts' meters, pages and moves, and the free values used. -/
def ReadsOnly (s t : State) : Prop :=
  t = { s with contexts := t.contexts, lines := t.lines, eh := t.eh, l1 := t.l1, icache := t.icache, tlb := t.tlb, walkc := t.walkc,
               migs := t.migs, pages := t.pages, choice := t.choice }

theorem ReadsOnly.refl (s : State) : ReadsOnly s s := rfl

theorem ReadsOnly.trans {s t u : State} (a : ReadsOnly s t) (b : ReadsOnly t u) : ReadsOnly s u := by
  unfold ReadsOnly at *; rw [b, a]

theorem ReadsOnly.foldl {α : Type} (f : State → α → State) (hf : ∀ s a, ReadsOnly s (f s a)) (l : List α) (s : State) :
    ReadsOnly s (l.foldl f s) := by
  induction l generalizing s with
  | nil => exact .refl s
  | cons a r ih => exact (hf s a).trans (ih (f s a))

theorem State.setCtx_reads (s : State) (k : Nat) (f : Context → Context) : ReadsOnly s (s.setCtx k f) := rfl

theorem State.setLine_reads (s : State) (n : Nat) (f : Line → Line) : ReadsOnly s (s.setLine n f) := by
  unfold State.setLine; split <;> rfl

theorem State.dropLine_reads (s : State) (n : Nat) : ReadsOnly s (s.dropLine n) :=
  ReadsOnly.trans (t := { s with l1 := _, icache := _, eh := _ }) rfl (State.setLine_reads _ _ _)

theorem State.writeBack_reads (s : State) (l : Line) : ReadsOnly s (s.writeBack l) := by
  unfold State.writeBack; split <;> rfl

theorem State.makeRoom_reads (s : State) (n : Nat) : ReadsOnly s (s.makeRoom n).1 := by
  unfold State.makeRoom
  extract_lets near set may
  split
  · rfl
  · split
    · rfl
    · split
      · rfl
      · exact ReadsOnly.trans (t := { s with choice := s.choice + 1 }) rfl ((State.writeBack_reads _ _).trans (State.dropLine_reads _ _))

theorem State.touchLine_reads (s : State) (n ctx rc : Nat) (k : Touch) (alloc : Bool) : ReadsOnly s (s.touchLine n ctx rc k alloc) := by
  unfold State.touchLine
  extract_lets l home r s1
  split
  · have hr : ReadsOnly s r.1 := by
      show ReadsOnly s (if alloc then s.makeRoom n else (s, false)).1
      split
      · exact State.makeRoom_reads s n
      · rfl
    split
    · exact hr.trans ((State.setLine_reads _ _ _).trans rfl)
    · exact hr
  · have h0 : ReadsOnly s s1 := by
      show ReadsOnly s (if l.owner = ctx then s else s.setCtx ctx (fun c => { c with xhits := modAt (· + 1) home c.xhits }))
      split <;> rfl
    refine h0.trans ?_
    cases k <;> dsimp only
    · split
      · rfl
      · split
        · exact State.dropLine_reads _ _
        · exact State.setLine_reads _ _ _
    · rfl
    · split
      · rfl
      · exact State.setLine_reads _ _ _

theorem State.readLine_reads (s : State) (n ctx : Nat) : ReadsOnly s (s.readLine n ctx) := by
  unfold State.readLine; split
  · rfl
  · exact State.touchLine_reads ..

theorem State.walked_reads (s : State) (core ctx va : Nat) : ReadsOnly s (s.walked core ctx va) := by
  unfold State.walked
  extract_lets c
  split
  · rfl
  · exact ReadsOnly.foldl _ (fun s l => State.readLine_reads s l ctx) _ s

theorem State.setTlb_reads (s : State) (a : List TlbEntry) (b : List WalkEntry) : ReadsOnly s { s with tlb := a, walkc := b } := rfl

theorem State.fillTlb_reads (s : State) (core ctx va : Nat) : ReadsOnly s (s.fillTlb core ctx va) := by
  unfold State.fillTlb
  extract_lets c vpn st s1
  split
  · rfl
  · have h1 : ReadsOnly s s1 := State.walked_reads s core ctx va
    clear_value s1
    refine h1.trans ?_
    split
    · exact State.setTlb_reads ..
    · exact .refl _

theorem State.setT1held_reads (s : State) (ctx : Nat) : ReadsOnly s (s.setT1held ctx) := rfl

theorem State.setPage_reads (s : State) (ctx v : Nat) (f : PageSt → PageSt) : ReadsOnly s (s.setPage ctx v f) := rfl

theorem State.askMove_reads (s : State) (ctx v : Nat) (up : Bool) : ReadsOnly s (s.askMove ctx v up) := rfl

theorem State.demotePage_reads (s : State) (ctx v : Nat) : ReadsOnly s (s.demotePage ctx v) := by
  unfold State.demotePage
  extract_lets st s1
  split
  · rfl
  · have h1 : ReadsOnly s s1 := (State.setPage_reads _ _ _ _).trans (State.setT1held_reads _ _)
    refine h1.trans ?_
    split
    · split
      · exact State.askMove_reads ..
      · exact .refl _
    · exact .refl _

theorem State.countReads_reads (s : State) (ls : List Nat) : ReadsOnly s (s.countReads ls) := by
  unfold State.countReads
  refine ReadsOnly.foldl _ (fun s p => ?_) _ s
  extract_lets mine all size
  split
  · rfl
  · split
    · rfl
    · split
      · exact (State.setPage_reads _ _ _ _).trans (State.demotePage_reads _ _ _)
      · rfl

/-- Everything that reading operands can change. -/
theorem readVas_reads (core ctx : Nat) (vas : List Nat) (s : State) : ReadsOnly s (readVas core ctx vas s) := by
  unfold readVas
  refine ReadsOnly.foldl _ (fun s va => ?_) _ s
  split
  · exact (State.fillTlb_reads _ _ _ _).trans ((State.readLine_reads _ _ _).trans (State.countReads_reads _ _))
  · rfl

@[simp] theorem readVas_nil (core ctx : Nat) (s : State) : readVas core ctx [] s = s := rfl
@[simp] theorem readVas_groups (core ctx : Nat) (vas : List Nat) (s : State) : (readVas core ctx vas s).groups = s.groups := by
  rw [readVas_reads core ctx vas s]
@[simp] theorem readVas_teams (core ctx : Nat) (vas : List Nat) (s : State) : (readVas core ctx vas s).teams = s.teams := by
  rw [readVas_reads core ctx vas s]
@[simp] theorem readVas_mem (core ctx : Nat) (vas : List Nat) (s : State) : (readVas core ctx vas s).mem = s.mem := by
  rw [readVas_reads core ctx vas s]
@[simp] theorem readVas_nextId (core ctx : Nat) (vas : List Nat) (s : State) : (readVas core ctx vas s).nextId = s.nextId := by
  rw [readVas_reads core ctx vas s]
@[simp] theorem readVas_reqs (core ctx : Nat) (vas : List Nat) (s : State) : (readVas core ctx vas s).reqs = s.reqs := by
  rw [readVas_reads core ctx vas s]
theorem readVas_group (core ctx : Nat) (vas : List Nat) (s : State) (gid : Nat) : (readVas core ctx vas s).group gid = s.group gid := by
  unfold State.group; rw [readVas_groups]

end Sys2Proof.Machine
end

