-- ==== Sys2Proof/Laws/Pipeline.lean ====
section
/-! SUPPORT. What the shared pipeline does, once: where an instruction may issue, and what it commits. -/

namespace Sys2Proof.Machine

theorem State.find_gid {s : State} {gid : Nat} {g : Group} (h : s.group gid = some g) : g.gid = gid := by
  have := List.find?_some h
  simpa using this

theorem Group.find_wid {g : Group} {wid : Nat} {w : Warp} (h : g.warp wid = some w) : w.wid = wid := by
  have := List.find?_some h
  simpa using this

/-- Everything the issuing position says. -/
theorem State.position_inv {s : State} {i : Instr} {x : Issue} (h : s.position i = some x) :
    ∃ r, s.issuer = some r ∧ s.group r.gid = some x.g ∧ x.g.warp r.wid = some x.w ∧ (∃ es, x.w.entries = x.e :: es) ∧
      x.e.cl = some x.cl ∧ x.s = s ∧ x.n = info i ∧ x.a = args i ∧ x.act = x.e.mask &&& condMask (args i).cond x.g ∧
      x.full = (x.e.mask == x.g.all && (args i).cond == 0#4) ∧ x.g.st = .active ∧ x.g.stopped = false ∧
      x.g.mayRun r.wid = true := by
  unfold State.position at h
  split at h
  · cases h
  · rename_i r hr
    split at h
    · cases h
    · rename_i g hg
      split at h
      · cases h
      · rename_i w hw
        split at h
        · cases h
        · rename_i e es he
          split at h
          · cases h
          · rename_i cl hcl
            split at h
            · cases h
            · rename_i hc
              simp only [Bool.or_eq_true, not_or, bne_iff_ne, ne_eq, Decidable.not_not, Bool.not_eq_true', Bool.not_eq_true] at hc
              obtain ⟨⟨⟨⟨⟨⟨⟨ha, hs⟩, _⟩, _⟩, _⟩, _⟩, hm⟩, _⟩ := hc
              cases h
              have hrw := Group.find_wid hw
              rw [hrw] at hm
              exact ⟨r, hr, hg, hw, ⟨es, he⟩, hcl, rfl, rfl, rfl, rfl, rfl, ha, hs, by simpa using hm⟩

/-- The issuing group is the state's. -/
theorem State.position_group {s : State} {i : Instr} {x : Issue} (h : s.position i = some x) : s.group x.g.gid = some x.g := by
  obtain ⟨r, _, hg, _⟩ := State.position_inv h
  rw [State.find_gid hg]; exact hg

theorem State.position_s {s : State} {i : Instr} {x : Issue} (h : s.position i = some x) : x.s = s := by
  obtain ⟨r, _, _, _, _, _, hs, _⟩ := State.position_inv h
  exact hs

theorem State.position_warp {s : State} {i : Instr} {x : Issue} (h : s.position i = some x) : x.g.warp x.w.wid = some x.w := by
  obtain ⟨r, _, _, hw, _⟩ := State.position_inv h
  rw [Group.find_wid hw]; exact hw

/-- An instruction that issues goes through its meaning. -/
theorem runIssue_finish {s : State} {i : Instr} {x : Issue} {prio : BitVec 8} {f : Issue → Out} (h : Issues s i x prio) :
    runIssue s i f = .next (finishIssue x f) := by
  have h2 : (x.vector && decide (4 ≤ s.collector x.g.core)) = false := by
    rw [Bool.and_eq_false_imp]; intro hd
    have := h.collector hd
    simp; omega
  simp only [runIssue, h.pos, h.held, h.dcw, h.due, h.counter, h2, Bool.false_eq_true, if_false]

/-- An outcome with nothing against it is committed. -/
theorem runIssue_commit {s : State} {i : Instr} {x : Issue} {prio : BitVec 8} {f : Issue → Out} (h : Issues s i x prio)
    (ho : Clean x (f x)) : runIssue s i f = .next (commitOut x prio (f x)) := by
  obtain ⟨ho1, ho2, ho3, ho4, ho5, ho6⟩ := ho
  rw [runIssue_finish h]
  simp only [finishIssue, ho1, h.header, h.role, ho2, ho3, ho4, ho5, ho6, pickCause, Bool.false_eq_true, if_false, List.append_nil,
    List.filter_nil]

/-- An outcome that holds the warp back leaves the machine, but for the windows it may cut. -/
theorem runIssue_hold {s : State} {i : Instr} {x : Issue} {prio : BitVec 8} {f : Issue → Out} (h : Issues s i x prio)
    (ho : (f x).hold = true) :
    runIssue s i f = .next (cutWindows x.s x.g.gid x.w.wid (f x).cut) := by
  rw [runIssue_finish h]
  simp [finishIssue, ho]

/-- The V registers that a list of writes turns GEN are among those it writes. -/
theorem gens_subset (ws : List RegWrite) {r : Nat} (h : r ∈ ws.flatMap (fun w => match w with
    | .vr r (.gen _) => [r]
    | .vl r m _ => if m = 0 then [] else [r]
    | _ => [])) : RegId.v r ∈ ws.flatMap RegWrite.dst := by
  simp only [List.mem_flatMap] at h ⊢
  obtain ⟨w, hw, hr⟩ := h
  refine ⟨w, hw, ?_⟩
  cases w with
  | vr k v => cases v <;> simp_all [RegWrite.dst]
  | vl k m vals => by_cases hm : m = 0 <;> simp_all [RegWrite.dst]
  | _ => simp_all

theorem flatMap_length_le {α β γ : Type} (l : List α) (f : α → List β) (g : α → List γ) (h : ∀ a ∈ l, (f a).length ≤ (g a).length) :
    (l.flatMap f).length ≤ (l.flatMap g).length := by
  induction l with
  | nil => simp
  | cons a r ih =>
    simp only [List.flatMap_cons, List.length_append]
    have := h a (by simp)
    have := ih (fun b hb => h b (by simp [hb]))
    omega

theorem dedup_length_le {α : Type} [DecidableEq α] (l : List α) : l.dedup.length ≤ l.length := (List.dedup_sublist l).length_le

theorem regBudget_nil {x : Issue} {o : Out} {rs : List RegId} (h : Free x rs) (hw : ∀ r ∈ o.writes.flatMap RegWrite.dst, r ∈ rs) :
    regBudget x o = [] := by
  unfold regBudget
  extract_lets gens pend new
  have hnew : new.map RegId.v ⊆ x.g.notGen rs := by
    intro r hr
    obtain ⟨n, hn, rfl⟩ := List.mem_map.mp hr
    obtain ⟨hn1, hn2⟩ := List.mem_filter.mp hn
    exact List.mem_filter.mpr ⟨hw _ (gens_subset _ (List.mem_dedup.mp hn1)), by simpa using hn2⟩
  have hnd : (new.map RegId.v).Nodup :=
    (List.Nodup.filter _ (List.nodup_dedup _)).map (fun a b hab => by cases hab; rfl)
  have hlen : new.length ≤ (x.g.notGen rs).length := by
    have := (hnd.subperm hnew).length_le
    simpa using this
  have hp : pend.length ≤ (x.g.warps.flatMap (fun w => w.pend.flatMap (fun p => p.writes))).length := by
    refine (List.length_filter_le _ _).trans ((dedup_length_le _).trans ?_)
    refine flatMap_length_le _ _ _ (fun w _ => flatMap_length_le _ _ _ (fun p _ => ?_))
    calc _ ≤ (p.writes.flatMap (fun v => [v])).length := flatMap_length_le _ _ _ (fun v _ => by
            cases v with
            | vr k v => cases v <;> simp
            | _ => simp)
      _ = _ := by simp
  rcases h.budget with h0 | h1
  · have : new = [] := by simpa [h0] using hlen
    simp [this]
  · rw [if_pos]
    simp only [Bool.or_eq_true, decide_eq_true_eq]
    right; omega

theorem lawar_nil {x : Issue} {o : Out} {rs : List RegId} (h : Free x rs)
    (hw : ∀ r ∈ o.dst ++ o.writes.flatMap RegWrite.dst, r ∈ rs) : lawar x o = [] := by
  have hz : ∀ (l : List Pending) (m : Mask),
      (∀ p ∈ l, p.lanes &&& x.act = 0 ∨ p.dst.any (o.dst ++ o.writes.flatMap RegWrite.dst).contains = false) →
      l.foldl (fun m p => if p.dst.any (o.dst ++ o.writes.flatMap RegWrite.dst).contains then m ||| (p.lanes &&& x.act) else m) m = m := by
    intro l
    induction l with
    | nil => intro m _; rfl
    | cons p r ih =>
      intro m hp
      rw [List.foldl_cons]
      have : (if p.dst.any (o.dst ++ o.writes.flatMap RegWrite.dst).contains then m ||| (p.lanes &&& x.act) else m) = m := by
        rcases hp p (by simp) with h0 | h0
        · rw [h0]; split <;> simp
        · rw [h0, if_neg (by simp)]
      rw [this]
      exact ih m (fun q hq => hp q (by simp [hq]))
  have := hz x.w.pend 0 (by
    intro p hp
    by_cases hl : p.lanes &&& x.act = 0
    · exact .inl hl
    · right
      rw [List.any_eq_false]
      intro r hr
      have : r ∉ o.dst ++ o.writes.flatMap RegWrite.dst := fun hm => h.pending p hp hl r (hw r hm) hr
      simpa using this)
  unfold lawar
  simp only [this]
  simp

/-! ## What is committed -/

theorem State.setGroup_id (s : State) (gid : Nat) : s.setGroup gid (fun g => g) = s := by
  simp [State.setGroup, updWhere]

@[simp] theorem Group.setV_gid (g : Group) (r : Nat) (v : VReg) : (g.setV r v).gid = g.gid := rfl
@[simp] theorem Group.setPois_gid (g : Group) (r : Nat) (m : Mask) : (g.setPois r m).gid = g.gid := rfl
@[simp] theorem Group.setS_gid (g : Group) (r : Nat) (v : DWord) : (g.setS r v).gid = g.gid := rfl
@[simp] theorem Group.orFsr_gid (g : Group) (v : Word) : (g.orFsr v).gid = g.gid := rfl
@[simp] theorem Group.writeLanes_gid (g : Group) (r : Nat) (m : Mask) (vs : List Word) : (g.writeLanes r m vs).gid = g.gid := rfl
@[simp] theorem Group.applyW_gid (g : Group) (w : RegWrite) : (g.applyW w).gid = g.gid := by
  cases w <;> simp only [Group.applyW] <;> (try split) <;> rfl
@[simp] theorem Group.updAmax_gid (g : Group) (n : Nat) : (g.updAmax n).gid = g.gid := by
  unfold Group.updAmax; (repeat' split) <;> rfl

theorem foldl_gid {α : Type} (f : Group → α → Group) (hf : ∀ g a, (f g a).gid = g.gid) (l : List α) (g : Group) :
    (l.foldl f g).gid = g.gid := by
  induction l generalizing g with
  | nil => rfl
  | cons a r ih => rw [List.foldl_cons, ih, hf]

/-- A register write is no P register's. -/
def RegWrite.noP : RegWrite → Prop
  | .pr .. => False
  | _ => True

theorem State.applyWs_eq (s : State) (gid tid : Nat) (ws : List RegWrite) (h : ∀ w ∈ ws, w.noP) :
    s.applyWs gid tid ws = s.setGroup gid (fun g => ws.foldl Group.applyW g) := by
  induction ws generalizing s with
  | nil => simp only [State.applyWs, List.foldl_nil]; exact (State.setGroup_id s gid).symm
  | cons w r ih =>
    have hr := fun s => ih s (fun v hv => h v (by simp [hv]))
    have hw := h w (by simp)
    have : s.applyWs gid tid (w :: r) = (s.setGroup gid (fun g => g.applyW w)).applyWs gid tid r := by
      cases w <;> first | rfl | exact absurd hw (by simp [RegWrite.noP])
    rw [this, hr, State.setGroup_setGroup _ _ _ _ (by simp)]
    rfl

theorem OnlyGroup.refl_setGroup {s : State} {gid : Nat} {g : Group} (hg : s.group gid = some g) (f : Group → Group)
    (hf : ∀ g, (f g).gid = g.gid) : OnlyGroup gid s (s.setGroup gid f) (f g) :=
  ⟨rfl, fun k hk => State.group_setGroup_ne s gid k f hf hk, f g, by rw [State.group_setGroup_self s gid f hf, hg]; rfl, rfl⟩

theorem SchedOnly.trans {g h k : Group} (a : SchedOnly g h) (b : SchedOnly h k) : SchedOnly g k := by
  unfold SchedOnly at *; rw [b, a]

theorem OnlyGroup.step {gid : Nat} {s t u : State} {g : Group} (h : OnlyGroup gid s t g) (hu : u = { t with groups := u.groups })
    (ho : OtherGroupsSame gid t u) (hg : ∀ k, t.group gid = some k → ∃ m, u.group gid = some m ∧ SchedOnly k m) : OnlyGroup gid s u g := by
  obtain ⟨h1, h2, k, hk, hs⟩ := h
  refine ⟨by rw [hu, h1], fun j hj => (ho j hj).trans (h2 j hj), ?_⟩
  obtain ⟨m, hm, hkm⟩ := hg k hk
  exact ⟨m, hm, hs.trans hkm⟩

/-- A change of scheduling keeps what a group was made into. -/
theorem OnlyGroup.sched {gid : Nat} {s t : State} {g : Group} (h : OnlyGroup gid s t g) (f : Group → Group)
    (hf : ∀ g, SchedOnly g (f g)) : OnlyGroup gid s (t.setGroup gid f) g := by
  have hid : ∀ g, (f g).gid = g.gid := fun g => by have := hf g; unfold SchedOnly at this; rw [this]
  refine h.step rfl (fun k hk => State.group_setGroup_ne t gid k f hid hk) (fun k hk => ⟨f k, ?_, hf k⟩)
  rw [State.group_setGroup_self t gid f hid, hk]; rfl

theorem OnlyGroup.yieldSlot {gid : Nat} {s t : State} {g : Group} (h : OnlyGroup gid s t g) : OnlyGroup gid s (t.yieldSlot gid) g := by
  unfold State.yieldSlot
  split
  · exact h
  · split
    · exact h.sched _ (fun _ => rfl)
    · split <;> exact h.sched _ (fun _ => rfl)

theorem OnlyGroup.clauseEnd {gid : Nat} {s t : State} {g : Group} (h : OnlyGroup gid s t g) (y : Bool) :
    OnlyGroup gid s (t.clauseEnd gid y) g := by
  unfold State.clauseEnd
  have h1 := h.sched (fun g => if g.haltDue then { g with halted := true, haltDue := false } else g)
    (fun g => by
      by_cases hg : g.haltDue = true
      · simp only [hg, if_true]; rfl
      · simp only [hg]; rfl)
  extract_lets s1 due
  by_cases hd : (y || due) = true
  · rw [if_pos hd]; exact h1.yieldSlot
  · rw [if_neg hd]; exact h1

theorem OnlyGroup.advance {x : Issue} {s t : State} {g : Group} (h : OnlyGroup x.g.gid s t g) (prio : BitVec 8) (ps : List Pending) :
    OnlyGroup x.g.gid s (advance x t prio ps) g := by
  unfold Sys2Proof.Machine.advance
  have h1 := fun f : Warp → Warp => h.sched (fun k => k.setWarp x.w.wid f) (fun _ => rfl)
  have h2 := fun (f : Warp → Warp) n => (h1 f).sched (x.mark n) (fun _ => rfl)
  dsimp only
  by_cases hl : (x.last && !x.more) = true
  · rw [if_pos hl]; exact (h2 _ _).clauseEnd _
  · rw [if_neg hl]; exact h2 _ _

/-- What a group notes of the cycle that runs is no register. -/
theorem OnlyGroup.commit {gid : Nat} {s t : State} {g : Group} {m : Mask} {fl : Word} {mags : List Nat}
    (h : OnlyGroup gid s t (g.commit m fl mags)) : OnlyGroup gid s t (mags.foldl Group.updAmax (g.orFsr fl)) := by
  obtain ⟨h1, h2, k, hk, hs⟩ := h
  refine ⟨h1, h2, k, hk, SchedOnly.trans ?_ hs⟩
  unfold Group.commit
  split
  · rfl
  · rfl

@[simp] theorem Group.commit_gid (g : Group) (m : Mask) (fl : Word) (mags : List Nat) : (g.commit m fl mags).gid = g.gid := by
  have : (mags.foldl Group.updAmax (g.orFsr fl)).gid = g.gid := by rw [foldl_gid _ (by simp)]; rfl
  unfold Group.commit
  split <;> exact this

/-- A plain outcome: its writes, its flags and AMAX, and the advance; `h` is what its effect does to the group. -/
theorem commitOut_plain {s : State} {i : Instr} {x : Issue} {o : Out} (hp : s.position i = some x) (prio : BitVec 8) (hd : o.dly = false)
    (hs : o.stay = false) (hc : o.ctl = none) (hgone : o.gone = false) (hpost : o.post = fun s => s) (hw : ∀ w ∈ o.writes, w.noP)
    (h : Group → Group) (hh : ∀ g, (h g).gid = g.gid) (he : ∀ s, o.eff s = s.setGroup x.g.gid h) :
    OnlyGroup x.g.gid (readVas x.g.core x.g.ctx o.vas s) (commitOut x prio o)
      (h ((o.writes.foldl Group.applyW x.g).commit x.act (o.fsr x) o.amax)) := by
  have hxs := State.position_s hp
  have hg : (readVas x.g.core x.g.ctx o.vas s).group x.g.gid = some x.g := by
    rw [readVas_group]; exact State.position_group hp
  have hfold : ∀ g : Group, (o.writes.foldl Group.applyW g).gid = g.gid := foldl_gid _ (by simp) _
  unfold commitOut
  simp only [hd, hs, hc, hgone, hpost, hxs, Bool.false_eq_true, if_false, he, State.applyWs_eq _ _ _ _ hw, false_and]
  generalize readVas x.g.core x.g.ctx o.vas s = b at hg ⊢
  rw [State.setGroup_setGroup _ _ _ _ hfold, State.setGroup_setGroup _ _ _ _ (fun g => by rw [Group.commit_gid]; exact hfold g)]
  refine OnlyGroup.advance (OnlyGroup.refl_setGroup hg _ (fun g => ?_)) prio _
  rw [hh, Group.commit_gid, hfold]

end Sys2Proof.Machine
end

