-- ==== Sys2Proof/Laws/Lanes.lean ====
section
/-! SUPPORT. What the writes of a lane-by-lane result make of the group. -/

namespace Sys2Proof.Machine

theorem Mask.has_or_bit (m : Mask) (l k : Nat) (hk : k < 64) : Mask.has (m ||| (1#64 <<< l)) k = (Mask.has m k || decide (k = l)) := by
  simp only [Mask.has, BitVec.getLsbD_or, BitVec.getLsbD_shiftLeft, BitVec.getLsbD_one]
  by_cases h : k = l
  · subst h; simp [hk]
  · by_cases h2 : k < l
    · simp [h, h2]
    · have : k - l ≠ 0 := by omega
      simp [h, this]

theorem Mask.has_foldl (p : Nat → Bool) (L : List Nat) (m : Mask) {k : Nat} (hk : k < 64) :
    Mask.has (L.foldl (fun m l => if p l then m ||| (1#64 <<< l) else m) m) k = (Mask.has m k || (decide (k ∈ L) && p k)) := by
  induction L generalizing m with
  | nil => simp
  | cons l r ih =>
    rw [List.foldl_cons, ih]
    by_cases hp : p l = true
    · rw [if_pos hp, Mask.has_or_bit _ _ _ hk]
      by_cases h : k = l
      · subst h; simp [hp]
      · simp [h]
    · rw [if_neg hp]
      by_cases h : k = l
      · subst h; simp [hp]
      · simp [h]

/-- A mask made lane by lane holds the lanes that meet the test. -/
theorem Mask.has_where (p : Nat → Bool) {k : Nat} (hk : k < 64) : Mask.has (Mask.where_ p) k = p k := by
  rw [Mask.where_, Mask.has_foldl p _ _ hk]
  simp [Mask.has, hk]

theorem Mask.has_merge (a m b : Mask) {k : Nat} (hk : k < 64) :
    Mask.has (a &&& ~~~m ||| b &&& m) k = if Mask.has m k then Mask.has b k else Mask.has a k := by
  simp only [Mask.has, BitVec.getLsbD_or, BitVec.getLsbD_and, BitVec.getLsbD_not, hk, decide_true, Bool.true_and]
  by_cases h : m.getLsbD k = true <;> simp [h]

@[simp] theorem Group.vreg_setV (g : Group) (r k : Nat) (v : VReg) : (g.setV r v).vreg k = if k = r then v else g.vreg k :=
  Amap.get_set ..
@[simp] theorem Group.vreg_setPois (g : Group) (r k : Nat) (m : Mask) : (g.setPois r m).vreg k = g.vreg k := rfl
@[simp] theorem Group.sreg_setS (g : Group) (r k : Nat) (v : DWord) : (g.setS r v).sreg k = if k = r then v else g.sreg k :=
  Amap.get_set ..
@[simp] theorem Group.sreg_setV (g : Group) (r k : Nat) (v : VReg) : (g.setV r v).sreg k = g.sreg k := rfl
@[simp] theorem Group.sreg_setPois (g : Group) (r k : Nat) (m : Mask) : (g.setPois r m).sreg k = g.sreg k := rfl
@[simp] theorem Group.vreg_setS (g : Group) (r k : Nat) (v : DWord) : (g.setS r v).vreg k = g.vreg k := rfl

theorem VReg.lane_ofFn (w : Nat) (f : Nat → Word) {l : Nat} (h : l < w) (hl : l < 64) : (VReg.ofFn w f).lane l = f l := by
  simp [VReg.ofFn, VReg.lane, List.getD, hl, h]

theorem getD_map_range {α : Type} (f : Nat → α) (d : α) {l : Nat} (hl : l < 64) : ((List.range 64).map f).getD l d = f l := by
  simp [List.getD, hl]

/-- The codes alone. -/
theorem Group.applyW_cc (g : Group) (m c z n v : Mask) :
    g.applyW (.cc m c z n v) = { g with c := g.c &&& ~~~m ||| c &&& m, z := g.z &&& ~~~m ||| z &&& m,
                                        n := g.n &&& ~~~m ||| n &&& m, vf := g.vf &&& ~~~m ||| v &&& m } := rfl

/-- The codes after `putCC` (R89). -/
theorem putCC_codes (x : Issue) (g : Group) (c z n v : Nat → Bool) :
    ∃ cm zm nm vm, (x.putCC c z n v).foldl Group.applyW g = { g with c := cm, z := zm, n := nm, vf := vm } ∧
      ∀ l, l < 64 → Mask.has cm l = (if x.a.wcc ∧ Mask.has x.act l then c l else Mask.has g.c l) ∧
        Mask.has zm l = (if x.a.wcc ∧ Mask.has x.act l then z l else Mask.has g.z l) ∧
        Mask.has nm l = (if x.a.wcc ∧ Mask.has x.act l then n l else Mask.has g.n l) ∧
        Mask.has vm l = (if x.a.wcc ∧ Mask.has x.act l then v l else Mask.has g.vf l) := by
  unfold Issue.putCC
  by_cases h : x.a.wcc = true ∧ x.act ≠ 0
  · rw [if_pos h]
    refine ⟨_, _, _, _, rfl, fun l hl => ?_⟩
    simp only [Mask.has_merge _ _ _ hl, Mask.has_where _ hl, h.1, true_and, and_self]
  · rw [if_neg h]
    refine ⟨g.c, g.z, g.n, g.vf, rfl, fun l hl => ?_⟩
    by_cases hw : x.a.wcc = true
    · have h0 : x.act = 0 := by by_contra hne; exact h ⟨hw, hne⟩
      simp [h0, Mask.has]
    · simp [hw]

/-- What the writes of a 32-bit result make of the group (R41, R88, R89). `sh` is its shape, whose lanes are the results. -/
theorem put32_result (x : Issue) (ext : Ext) (sh : Option VReg) (f : Nat → Word) (c z n v : Nat → Bool) (fl : Word)
    (hsh : ∀ r, sh = some r → ∀ l, r.lane l = f l) (hfull : x.full = true → ∀ l, l < x.g.width → l < 64 → Mask.has x.act l = true) :
    Result32 x (((x.put32 ext sh f ++ x.putCC c z n v).foldl Group.applyW x.g).orFsr fl) ext f c z n v fl := by
  rw [List.foldl_append]
  obtain ⟨cm, zm, nm, vm, hcc, hl⟩ := putCC_codes x ((x.put32 ext sh f).foldl Group.applyW x.g) c z n v
  rw [hcc]
  have key : ∃ V P S Q, (x.put32 ext sh f).foldl Group.applyW x.g = { x.g with v := V, vpoison := P, s := S, spoison := Q } ∧
      (∀ r, Amap.get 0 S r = if isS x.fd ∧ r = fnum x.fd then ext.apply (f 0) else x.g.sreg r) ∧
      (∀ r l, l < x.g.width → l < 64 → (Amap.get (.uni 0) V r : VReg).lane l =
        if isS x.fd = false ∧ r = x.fd.toNat ∧ Mask.has x.act l then f l else (x.g.vreg r).lane l) := by
    unfold Issue.put32
    by_cases hS : isS x.fd = true
    · simp only [hS, if_true, List.foldl_cons, List.foldl_nil]
      refine ⟨_, _, _, _, rfl, fun r => ?_, fun r l _ _ => ?_⟩
      · refine (Amap.get_set _ _ _ _).trans ?_; simp only [true_and]; cases ext <;> rfl
      · simp only [Bool.true_eq_false, false_and, if_false]; rfl
    · rw [if_neg hS]
      simp only [Bool.not_eq_true] at hS
      simp only [hS]
      by_cases h0 : x.act = 0
      · simp only [h0, if_true, List.foldl_nil]
        refine ⟨x.g.v, x.g.vpoison, x.g.s, x.g.spoison, rfl, fun r => ?_, fun r l _ _ => ?_⟩
        · simp only [false_and, if_false, Bool.false_eq_true]; rfl
        · have : Mask.has (0 : Mask) l = false := by simp [Mask.has]
          simp only [this, Bool.false_eq_true, and_false, if_false]; rfl
      · rw [if_neg h0]
        by_cases hf : x.full = true
        · rw [if_pos hf, List.foldl_cons, List.foldl_nil]
          refine ⟨_, _, _, _, rfl, fun r => ?_, fun r l hw hl6 => ?_⟩
          · simp only [false_and, if_false, Bool.false_eq_true]; rfl
          · have ha := hfull hf l hw hl6
            refine (congrArg (fun v : VReg => v.lane l) (Amap.get_set x.g.v _ _ _)).trans ?_
            simp only [ha, and_true]
            by_cases hr : r = x.fd.toNat
            · simp only [hr, and_self, if_true]
              cases sh with
              | some w => exact hsh w rfl l
              | none => exact VReg.lane_ofFn _ _ hw hl6
            · simp only [hr, and_false, if_false]; rfl
        · rw [if_neg hf, List.foldl_cons, List.foldl_nil]
          have ha : ∀ vals, x.g.applyW (.vl x.fd.toNat x.act vals) = x.g.writeLanes x.fd.toNat x.act vals := by
            intro vals; simp only [Group.applyW]; rw [if_neg h0]
          rw [ha]
          refine ⟨_, _, _, _, rfl, fun r => ?_, fun r l hw hl => ?_⟩
          · simp only [false_and, if_false, Bool.false_eq_true]; rfl
          · change ((Group.setV _ _ _).vreg r).lane l = _
            rw [Group.vreg_setV]
            by_cases hr : r = x.fd.toNat
            · simp only [hr, if_true, true_and]
              rw [VReg.lane_ofFn _ _ hw hl, getD_map_range _ _ hl]
            · simp only [hr, false_and, and_false, if_false]
  obtain ⟨V, P, S, Q, hk, hs, hv⟩ := key
  rw [hk] at hl ⊢
  exact ⟨rfl, hs, hv, hl⟩

/-- A write of whole V registers, or of lanes, changes only the V registers and their poison. -/
def RegWrite.onlyV : RegWrite → Prop
  | .vr .. => True
  | .vl .. => True
  | _ => False

theorem foldl_onlyV (ws : List RegWrite) (h : ∀ w ∈ ws, w.onlyV) (g : Group) :
    ∃ V P, ws.foldl Group.applyW g = { g with v := V, vpoison := P } := by
  induction ws generalizing g with
  | nil => exact ⟨g.v, g.vpoison, rfl⟩
  | cons w r ih =>
    obtain ⟨V, P, hw⟩ : ∃ V P, g.applyW w = { g with v := V, vpoison := P } := by
      have := h w (by simp)
      cases w with
      | vr k v => exact ⟨_, _, rfl⟩
      | vl k m vals =>
        by_cases hm : m = 0
        · exact ⟨g.v, g.vpoison, by simp only [Group.applyW]; rw [if_pos hm]⟩
        · exact ⟨(g.writeLanes k m vals).v, (g.writeLanes k m vals).vpoison, by simp only [Group.applyW]; rw [if_neg hm]; rfl⟩
      | _ => exact absurd this (by simp [RegWrite.onlyV])
    obtain ⟨V', P', hr⟩ := ih (fun v hv => h v (by simp [hv])) (g.applyW w)
    exact ⟨V', P', by rw [List.foldl_cons, hr, hw]⟩

theorem vreg_pair (g : Group) (d : Nat) (lo hi : VReg) (r : Nat) :
    (([.vr d lo, .vr (d + 1) hi] : List RegWrite).foldl Group.applyW g).vreg r =
      if r = d + 1 then hi else if r = d then lo else g.vreg r := by
  simp only [List.foldl_cons, List.foldl_nil, Group.applyW, Group.vreg_setPois, Group.vreg_setV]

theorem vreg_writeLanes (g : Group) (k r : Nat) (m : Mask) (vals : List Word) {l : Nat} (hw : l < g.width) (hl : l < 64) :
    ((g.writeLanes k m vals).vreg r).lane l = if r = k ∧ Mask.has m l then vals.getD l 0 else (g.vreg r).lane l := by
  rw [Group.writeLanes, Group.vreg_setPois, Group.vreg_setV]
  by_cases hr : r = k
  · simp only [hr, if_true, true_and]
    rw [VReg.lane_ofFn _ _ hw hl]
  · simp only [hr, false_and, if_false]

/-- The lanes of the V registers after the writes of a 64-bit result in V registers. -/
theorem put64_lanes (x : Issue) (uni : Bool) (f : Nat → DWord) (hS : isS x.fd = false) (hsh : uni = true → ∀ l, f l = f 0)
    (hfull : x.full = true → ∀ l, l < x.g.width → l < 64 → Mask.has x.act l = true) (r l : Nat) (hw : l < x.g.width) (hl : l < 64) :
    (((x.put64 uni f).foldl Group.applyW x.g).vreg r).lane l =
      if r = x.fd.toNat ∧ Mask.has x.act l then (f l).extractLsb' 0 32
      else if r = x.fd.toNat + 1 ∧ Mask.has x.act l then (f l).extractLsb' 32 32 else (x.g.vreg r).lane l := by
  have hne : x.fd.toNat + 1 ≠ x.fd.toNat := by omega
  unfold Issue.put64
  simp only [hS, Bool.false_eq_true, if_false]
  by_cases h0 : x.act = 0
  · have : Mask.has (0 : Mask) l = false := by simp [Mask.has]
    simp only [h0, if_true, List.foldl_nil, this, Bool.false_eq_true, and_false, if_false]
  · rw [if_neg h0]
    by_cases hf : x.full = true
    · rw [if_pos hf]
      have ha := hfull hf l hw hl
      have fin : ∀ lo hi : VReg, lo.lane l = (f l).extractLsb' 0 32 → hi.lane l = (f l).extractLsb' 32 32 →
          ((([.vr x.fd.toNat lo, .vr (x.fd.toNat + 1) hi] : List RegWrite).foldl Group.applyW x.g).vreg r).lane l =
          if r = x.fd.toNat ∧ Mask.has x.act l then (f l).extractLsb' 0 32
          else if r = x.fd.toNat + 1 ∧ Mask.has x.act l then (f l).extractLsb' 32 32 else (x.g.vreg r).lane l := by
        intro lo hi h1 h2
        rw [vreg_pair]
        simp only [ha, and_true]
        by_cases hr1 : r = x.fd.toNat + 1
        · rw [if_pos hr1, if_neg (by omega), if_pos hr1, h2]
        · by_cases hr : r = x.fd.toNat
          · rw [if_neg hr1, if_pos hr, if_pos hr, h1]
          · rw [if_neg hr1, if_neg hr, if_neg hr, if_neg hr1]
      by_cases hu : uni = true
      · rw [if_pos hu]; exact fin _ _ (by rw [hsh hu l]; rfl) (by rw [hsh hu l]; rfl)
      · rw [if_neg hu]; exact fin _ _ (VReg.lane_ofFn _ _ hw hl) (VReg.lane_ofFn _ _ hw hl)
    · rw [if_neg hf]
      have ha : ∀ (g : Group) r vals, g.applyW (.vl r x.act vals) = g.writeLanes r x.act vals := by
        intro g r vals; simp only [Group.applyW]; rw [if_neg h0]
      simp only [List.foldl_cons, List.foldl_nil, ha]
      rw [vreg_writeLanes _ _ _ _ _ (by exact hw) hl, vreg_writeLanes _ _ _ _ _ hw hl, getD_map_range _ _ hl, getD_map_range _ _ hl]
      by_cases hr1 : r = x.fd.toNat + 1
      · simp only [hr1, true_and, hne, false_and, if_false]
      · simp only [hr1, false_and, if_false]

/-- What the writes of a 64-bit result make of the group (R41, R88, R89). -/
theorem put64_result (x : Issue) (uni : Bool) (f : Nat → DWord) (c z n v : Nat → Bool) (fl : Word)
    (hsh : uni = true → ∀ l, f l = f 0) (hfull : x.full = true → ∀ l, l < x.g.width → l < 64 → Mask.has x.act l = true) :
    Result64 x (((x.put64 uni f ++ x.putCC c z n v).foldl Group.applyW x.g).orFsr fl) f c z n v fl := by
  rw [List.foldl_append]
  obtain ⟨cm, zm, nm, vm, hcc, hl⟩ := putCC_codes x ((x.put64 uni f).foldl Group.applyW x.g) c z n v
  rw [hcc]
  by_cases hS : isS x.fd = true
  · have hk : (x.put64 uni f).foldl Group.applyW x.g = x.g.applyW (.sr (fnum x.fd) (f 0)) := by
      unfold Issue.put64; rw [if_pos hS]; rfl
    rw [hk] at hl ⊢
    refine ⟨rfl, fun r => ?_, fun r l _ _ => ?_, hl⟩
    · refine (Amap.get_set _ _ _ _).trans ?_; simp only [hS, true_and]; rfl
    · simp only [hS, Bool.true_eq_false, false_and, if_false]; rfl
  · simp only [Bool.not_eq_true] at hS
    have hv := fun r l => put64_lanes x uni f hS hsh hfull r l
    obtain ⟨V, P, hk⟩ := foldl_onlyV (x.put64 uni f) (by
      unfold Issue.put64; simp only [hS, Bool.false_eq_true, if_false]
      split
      · simp
      · split
        · split <;> simp [RegWrite.onlyV]
        · simp [RegWrite.onlyV]) x.g
    rw [hk] at hl hv ⊢
    refine ⟨rfl, fun r => ?_, fun r l hw hl6 => ?_, hl⟩
    · simp only [hS, Bool.false_eq_true, false_and, if_false]; rfl
    · simp only [hS, true_and]; exact hv r l hw hl6

/-! ## A lane-by-lane instruction completes -/

theorem Mask.has_width {w l : Nat} (hw : l < w) (hl : l < 64) : Mask.has (Mask.width w) l = true := by
  simp only [Mask.has, Mask.width, BitVec.getLsbD_ofNat, hl, decide_true, Bool.true_and]
  rw [Nat.testBit_two_pow_sub_one]; simpa using hw

/-- With a full mask every lane of the group is active (R41). -/
theorem position_full {s : State} {i : Instr} {x : Issue} (h : s.position i = some x) (hf : x.full = true) :
    ∀ l, l < x.g.width → l < 64 → Mask.has x.act l = true := by
  intro l hw hl
  obtain ⟨_, _, _, _, _, _, _, _, _, hact, hfull, _⟩ := State.position_inv h
  rw [hf] at hfull
  have h2 := Eq.symm hfull
  rw [Bool.and_eq_true] at h2
  have he : x.e.mask = x.g.all := by simpa using h2.1
  have hc : (args i).cond = 0#4 := by simpa using h2.2
  have hm : condMask (args i).cond x.g = ~~~0#64 := by rw [hc]; rfl
  rw [hact, hm, he]
  simp only [Mask.has, BitVec.getLsbD_and, BitVec.getLsbD_not, hl, decide_true, Bool.true_and]
  have := Mask.has_width hw hl
  simpa [Group.all, Mask.has] using this

theorem mem_dests (x : Issue) (size : Nat) (r : RegId) (h : (isS x.fd = true ∧ r = .s (fnum x.fd)) ∨
    (isS x.fd = false ∧ ∃ k < size, r = .v (x.fd.toNat + k)) ∨ (x.a.wcc = true ∧ r = .cc)) : r ∈ x.dests size := by
  unfold Issue.dests
  rcases h with ⟨h, rfl⟩ | ⟨h, k, hk, rfl⟩ | ⟨h, rfl⟩
  · simp [h]
  · simp [h, hk]
  · simp [h]

theorem putCC_dst (x : Issue) (c z n v : Nat → Bool) : ∀ r ∈ (x.putCC c z n v).flatMap RegWrite.dst, x.a.wcc = true ∧ r = .cc := by
  unfold Issue.putCC
  split
  · rename_i h; simp [RegWrite.dst, h.1]
  · simp

/-- The forms of a 32-bit result's writes. -/
theorem put32_forms (x : Issue) (ext : Ext) (sh : Option VReg) (f : Nat → Word) :
    (isS x.fd = true ∧ ∃ v, x.put32 ext sh f = [.sr (fnum x.fd) v]) ∨
    (isS x.fd = false ∧ (x.put32 ext sh f = [] ∨ (∃ v, x.put32 ext sh f = [.vr x.fd.toNat v]) ∨
      ∃ vs, x.put32 ext sh f = [.vl x.fd.toNat x.act vs])) := by
  by_cases hS : isS x.fd = true
  · left; refine ⟨hS, ?_⟩; unfold Issue.put32; rw [if_pos hS]; exact ⟨_, rfl⟩
  · right; refine ⟨by simpa using hS, ?_⟩
    unfold Issue.put32; rw [if_neg hS]
    by_cases h0 : x.act = 0
    · rw [if_pos h0]; exact .inl rfl
    · rw [if_neg h0]
      by_cases hf : x.full = true
      · rw [if_pos hf]; exact .inr (.inl ⟨_, rfl⟩)
      · rw [if_neg hf]; exact .inr (.inr ⟨_, rfl⟩)

/-- The forms of a 64-bit result's writes. -/
theorem put64_forms (x : Issue) (uni : Bool) (f : Nat → DWord) :
    (isS x.fd = true ∧ ∃ v, x.put64 uni f = [.sr (fnum x.fd) v]) ∨
    (isS x.fd = false ∧ (x.put64 uni f = [] ∨ (∃ v w, x.put64 uni f = [.vr x.fd.toNat v, .vr (x.fd.toNat + 1) w]) ∨
      ∃ vs ws, x.put64 uni f = [.vl x.fd.toNat x.act vs, .vl (x.fd.toNat + 1) x.act ws])) := by
  by_cases hS : isS x.fd = true
  · left; refine ⟨hS, ?_⟩; unfold Issue.put64; rw [if_pos hS]; exact ⟨_, rfl⟩
  · right; refine ⟨by simpa using hS, ?_⟩
    unfold Issue.put64; rw [if_neg hS]
    by_cases h0 : x.act = 0
    · rw [if_pos h0]; exact .inl rfl
    · rw [if_neg h0]
      by_cases hf : x.full = true
      · rw [if_pos hf]
        by_cases hu : uni = true
        · rw [if_pos hu]; exact .inr (.inl ⟨_, _, rfl⟩)
        · rw [if_neg hu]; exact .inr (.inl ⟨_, _, rfl⟩)
      · rw [if_neg hf]; exact .inr (.inr ⟨_, _, rfl⟩)

theorem put32_dst (x : Issue) (ext : Ext) (sh : Option VReg) (f : Nat → Word) :
    ∀ r ∈ (x.put32 ext sh f).flatMap RegWrite.dst, r ∈ x.dests 1 := by
  intro r hr
  rcases put32_forms x ext sh f with ⟨hS, v, h⟩ | ⟨hS, h | ⟨v, h⟩ | ⟨v, h⟩⟩ <;> rw [h] at hr
  · exact mem_dests x 1 r (.inl ⟨hS, by simpa [RegWrite.dst] using hr⟩)
  · simp at hr
  · exact mem_dests x 1 r (.inr (.inl ⟨hS, 0, by omega, by simpa [RegWrite.dst] using hr⟩))
  · exact mem_dests x 1 r (.inr (.inl ⟨hS, 0, by omega, by simpa [RegWrite.dst] using hr⟩))

theorem put64_dst (x : Issue) (uni : Bool) (f : Nat → DWord) :
    ∀ r ∈ (x.put64 uni f).flatMap RegWrite.dst, r ∈ x.dests 2 := by
  intro r hr
  rcases put64_forms x uni f with ⟨hS, v, h⟩ | ⟨hS, h | ⟨v, w, h⟩ | ⟨v, w, h⟩⟩ <;> rw [h] at hr
  · exact mem_dests x 2 r (.inl ⟨hS, by simpa [RegWrite.dst] using hr⟩)
  · simp at hr
  all_goals
    have : r = .v x.fd.toNat ∨ r = .v (x.fd.toNat + 1) := by simpa [RegWrite.dst] using hr
    rcases this with h | h
    · exact mem_dests x 2 r (.inr (.inl ⟨hS, 0, by omega, h⟩))
    · exact mem_dests x 2 r (.inr (.inl ⟨hS, 1, by omega, h⟩))

theorem put32_noP (x : Issue) (ext : Ext) (sh : Option VReg) (f : Nat → Word) : ∀ w ∈ x.put32 ext sh f, w.noP := by
  rcases put32_forms x ext sh f with ⟨_, v, h⟩ | ⟨_, h | ⟨v, h⟩ | ⟨v, h⟩⟩ <;> rw [h] <;> simp [RegWrite.noP]

theorem put64_noP (x : Issue) (uni : Bool) (f : Nat → DWord) : ∀ w ∈ x.put64 uni f, w.noP := by
  rcases put64_forms x uni f with ⟨_, v, h⟩ | ⟨_, h | ⟨v, w, h⟩ | ⟨v, w, h⟩⟩ <;> rw [h] <;> simp [RegWrite.noP]

theorem putCC_noP (x : Issue) (c z n v : Nat → Bool) : ∀ w ∈ x.putCC c z n v, w.noP := by
  unfold Issue.putCC
  split <;> simp [RegWrite.noP]

/-- Readable sources add nothing to an outcome but WOB. -/
theorem Out.ofSrcs_readable {x : Issue} {os : List Opr} (h : Readable os) (o : Out) (hh : o.hold = false) (hc : o.causes = [])
    (hp : o.parks = []) : Out.ofSrcs x os o =
      { o with hold := false, cut := fun q => o.cut q || os.any (fun p => specPend p.cut q), causes := [],
               wob := o.wob || os.any (fun p => p.wob), vas := o.vas ++ os.flatMap Opr.vas, parks := [] } := by
  have h1 : os.any (fun p => p.wait) = false := by
    rw [List.any_eq_false]; intro p hp'; simp [(h p hp').2.1]
  have h0 : os.any Opr.failed = false := by
    rw [List.any_eq_false]; intro p hp'; simp [(h p hp').2.2.2]
  have h2 : os.flatMap (fun p => p.causes) = [] := by
    rw [List.flatMap_eq_nil_iff]; intro p hp'; exact (h p hp').1
  have h3 : ∀ g : Opr → List (Nat × Nat × Nat), (∀ p ∈ os, g p = []) → os.flatMap g = [] :=
    fun g hg => List.flatMap_eq_nil_iff.mpr hg
  unfold Out.ofSrcs
  rw [h3]
  · simp only [h0, h1, h2, hh, hc, hp, Bool.or_false, Bool.and_true, Bool.not_false, List.append_nil, Bool.false_eq_true, if_false]
  · intro p hp'; simp only [(h p hp').2.2.1]

/-- The FSR flags of an outcome whose lanes raise none. -/
theorem Out.fsr_none (x : Issue) (o : Out) (h : o.fl = fun _ => 0) : o.fsr x = if o.wob then 32 else 0 := by
  have hz : ∀ (l : List Nat) (m : FFlags), l.foldl (fun m _ => m ||| (0 : FFlags)) m = m := by
    intro l; induction l with
    | nil => intro m; rfl
    | cons a r ih => intro m; rw [List.foldl_cons, ih]; simp
  simp only [Out.fsr, h, hz]
  simp

theorem fpx_none (x : Issue) (o : Out) (h : o.fl = fun _ => 0) : fpxCauses x o = [] := by
  have : Mask.where_ (fun l => o.fl l &&& x.g.old.fcr.extractLsb' 4 5 != 0#5) = 0 := by
    have hz : ∀ (l : List Nat) (m : Mask), l.foldl (fun m l => if ((o.fl l &&& x.g.old.fcr.extractLsb' 4 5 != 0#5) = true) then m ||| (1#64 <<< l) else m) m = m := by
      intro l; induction l with
      | nil => intro m; rfl
      | cons a r ih => intro m; rw [List.foldl_cons, ih]; simp [h]
    exact hz _ _
  unfold fpxCauses
  simp only [this]
  simp

/-- A lane-by-lane instruction of 32-bit results with nothing against it goes to the next state and writes its results. -/
theorem runIssue_laneOut32 {s : State} {i : Instr} {x : Issue} {prio : BitVec 8} {f : Issue → Out} (h : Issues s i x prio)
    (ext : Ext) (srcs : List Opr) (sh : Option VReg) (g : Nat → CC) (hf : f x = laneOut32 x ext srcs sh g) (hr : Readable srcs)
    (hfree : Free x (x.dests 1)) (hsh : ∀ r, sh = some r → ∀ l, r.lane l = BitVec.ofNat 32 (g l).r) :
    ∃ t k, runIssue s i f = .next t ∧ OnlyGroup x.g.gid (x.read srcs s) t k ∧
      Result32 x k ext (fun l => BitVec.ofNat 32 (g l).r) (fun l => (g l).c) (fun l => (g l).z) (fun l => (g l).n) (fun l => (g l).v)
        (if srcs.any (fun p => p.wob) then 32 else 0) := by
  have hx := Out.ofSrcs_readable hr (x := x)
    { writes := x.put32 ext sh (fun l => BitVec.ofNat 32 (g l).r)
        ++ x.putCC (fun l => (g l).c) (fun l => (g l).z) (fun l => (g l).n) (fun l => (g l).v) } rfl rfl rfl
  have hfx : f x = _ := hf.trans (show laneOut32 x ext srcs sh g = _ from hx)
  have hdst : ∀ r ∈ (f x).writes.flatMap RegWrite.dst, r ∈ x.dests 1 := by
    rw [hfx]; intro r hr
    simp only [List.flatMap_append, List.mem_append] at hr
    rcases hr with hr | hr
    · exact put32_dst x _ _ _ r hr
    · obtain ⟨h1, h2⟩ := putCC_dst x _ _ _ _ r hr
      exact mem_dests x 1 r (.inr (.inr ⟨h1, h2⟩))
  have hcl : Clean x (f x) :=
    ⟨by rw [hfx], by rw [hfx], by rw [hfx], lawar_nil hfree (by rw [show (f x).dst = [] by rw [hfx], List.nil_append]; exact hdst),
      regBudget_nil hfree hdst, fpx_none x _ (by rw [hfx])⟩
  have hvas : readVas x.g.core x.g.ctx (f x).vas s = x.read srcs s := by rw [hfx]; rfl
  refine ⟨_, _, runIssue_commit h hcl, OnlyGroup.commit (hvas.subst (motive := fun b => OnlyGroup _ b _ _) (commitOut_plain h.pos prio
    (by rw [hfx]) (by rw [hfx]) (by rw [hfx]) (by rw [hfx]) (by rw [hfx]) ?_ (fun g => g) (fun _ => rfl) (fun s => ?_))), ?_⟩
  · rw [hfx]; intro w hw
    rcases List.mem_append.mp hw with hw | hw
    · exact put32_noP x _ _ _ w hw
    · exact putCC_noP x _ _ _ _ w hw
  · rw [hfx]; exact (State.setGroup_id s _).symm
  · have hfsr : (f x).fsr x = if srcs.any (fun p => p.wob) then 32 else 0 := by
      rw [Out.fsr_none x _ (by rw [hfx])]; rw [hfx]; simp
    rw [hfsr]; rw [hfx]
    exact put32_result x ext sh _ _ _ _ _ _ hsh (position_full h.pos)

/-- The same for 64-bit results. -/
theorem runIssue_laneOut64 {s : State} {i : Instr} {x : Issue} {prio : BitVec 8} {f : Issue → Out} (h : Issues s i x prio)
    (srcs : List Opr) (uni : Bool) (g : Nat → CC) (hf : f x = laneOut64 x srcs uni g) (hr : Readable srcs)
    (hfree : Free x (x.dests 2)) (hsh : uni = true → ∀ l, BitVec.ofNat 64 (g l).r = BitVec.ofNat 64 (g 0).r) :
    ∃ t k, runIssue s i f = .next t ∧ OnlyGroup x.g.gid (x.read srcs s) t k ∧
      Result64 x k (fun l => BitVec.ofNat 64 (g l).r) (fun l => (g l).c) (fun l => (g l).z) (fun l => (g l).n) (fun l => (g l).v)
        (if srcs.any (fun p => p.wob) then 32 else 0) := by
  have hx := Out.ofSrcs_readable hr (x := x)
    { writes := x.put64 uni (fun l => BitVec.ofNat 64 (g l).r)
        ++ x.putCC (fun l => (g l).c) (fun l => (g l).z) (fun l => (g l).n) (fun l => (g l).v) } rfl rfl rfl
  have hfx : f x = _ := hf.trans (show laneOut64 x srcs uni g = _ from hx)
  have hdst : ∀ r ∈ (f x).writes.flatMap RegWrite.dst, r ∈ x.dests 2 := by
    rw [hfx]; intro r hr
    simp only [List.flatMap_append, List.mem_append] at hr
    rcases hr with hr | hr
    · exact put64_dst x _ _ r hr
    · obtain ⟨h1, h2⟩ := putCC_dst x _ _ _ _ r hr
      exact mem_dests x 2 r (.inr (.inr ⟨h1, h2⟩))
  have hcl : Clean x (f x) :=
    ⟨by rw [hfx], by rw [hfx], by rw [hfx], lawar_nil hfree (by rw [show (f x).dst = [] by rw [hfx], List.nil_append]; exact hdst),
      regBudget_nil hfree hdst, fpx_none x _ (by rw [hfx])⟩
  have hvas : readVas x.g.core x.g.ctx (f x).vas s = x.read srcs s := by rw [hfx]; rfl
  refine ⟨_, _, runIssue_commit h hcl, OnlyGroup.commit (hvas.subst (motive := fun b => OnlyGroup _ b _ _) (commitOut_plain h.pos prio
    (by rw [hfx]) (by rw [hfx]) (by rw [hfx]) (by rw [hfx]) (by rw [hfx]) ?_ (fun g => g) (fun _ => rfl) (fun s => ?_))), ?_⟩
  · rw [hfx]; intro w hw
    rcases List.mem_append.mp hw with hw | hw
    · exact put64_noP x _ _ w hw
    · exact putCC_noP x _ _ _ _ w hw
  · rw [hfx]; exact (State.setGroup_id s _).symm
  · have hfsr : (f x).fsr x = if srcs.any (fun p => p.wob) then 32 else 0 := by
      rw [Out.fsr_none x _ (by rw [hfx])]; rw [hfx]; simp
    rw [hfsr]; rw [hfx]
    exact put64_result x uni _ _ _ _ _ _ hsh (position_full h.pos)

end Sys2Proof.Machine
end

