-- ==== Sys2Proof/Tests/Slice0.lean ====
section
/-! SUPPORT. Tests of the decoder, of well-formedness and of single steps. Words and results come from the spec: its encoding
tables and worked examples, or a calculation by hand from its rules. -/

namespace Sys2Proof.Tests
open Sys2Proof.Machine
set_option Elab.async false

/-! ## Ill-formed terms, one for each check -/

/-- Every term is refused. -/
abbrev Refused (l : List Instr) : Prop := ∀ i ∈ l, i.wf = false

/-- COND 15, LA on a short-latency instruction, LA or WCC where the entry has none, a COND that must be AL (R45, R72, R89). -/
theorem test_wf_control : Refused [.iadd { cond := 15, d := 8, x := 10, y := 12 }, .iadd { la := 1, d := 8, x := 10, y := 12 },
    .sel { wcc := 1, d := 8, x := 10, y := 12 }, .br { cond := 15 }, .lnwr { cond := 1, d := 8, x := 10, y := 12 }] := by decide +kernel
/-- An operand class the entry does not take, an odd pair, an unused field that is not zero (R66, R67, R87). -/
theorem test_wf_fields : Refused [.iadd { d := 0x1C0, x := 10, y := 12 }, .iadd { d := 0x140, x := 10, y := 12 }, .iadd64 { d := 9, x := 10, y := 12 },
    .iadd64 { d := 8, x := 11, y := 12 }, .iadd64 { d := 8, x := 0x141, y := 12 }, .iadd { d := 8, x := 10, y := 12, z := 1 },
    .ineg { d := 8, x := 10, y := 1 }, .movi { d := 8, x := 1 }] := by decide +kernel
/-- A rounding override where nothing is rounded, or below 4, and an M bit the entry does not name (R61, R66). -/
theorem test_wf_modifiers : Refused [.iadd { d := 8, x := 10, y := 12, m := 0x100 }, .fadd { d := 8, x := 10, y := 12, m := 0x40 },
    .iadd { d := 8, x := 10, y := 12, m := 4 }, .frcp { d := 8, x := 10, m := 1 }] := by decide +kernel
/-- A scalar form with a condition, WCC or a V source, and one that the entry lacks (R44, R68, R88). -/
theorem test_wf_scalar : Refused [.iadd { cond := 1, d := 0x108, x := 0x10A, y := 0x10C }, .iadd { wcc := 1, d := 0x108, x := 0x10A, y := 0x10C },
    .iadd { d := 0x108, x := 10, y := 0x10C }, .sel { d := 0x108, x := 0x10A, y := 0x10C }] := by decide +kernel
/-- Fields that an entry itself bounds: HINT, LUT3's table, MOVHI's half, format codes and positions, widths, scopes and counters. -/
theorem test_wf_entries : Refused [.br { hint := 2 }, .lut3 { d := 8, x := 10, y := 12, z := 256 }, .movhi { d := 8, imm := 0x20000 },
    .movhi { d := 0x108, imm := 0x40000 }, .fcvt { d := 8, x := 10, y := 12, z := 5 }, .fcvt { d := 8, x := 10, y := 12, z := 1, m := 4 },
    .sxt { d := 8, x := 10, m := 3 }, .ld { d := 8, x := 10, scope := 7, dc := 6 }, .ld { d := 8, x := 10, dc := 0 }, .st { d := 8, x := 10, dc := 7 },
    .ld { d := 8, x := 10, cp := 1, dc := 6 }, .ldl { d := 8, x := 10, scope := 1, dc := 6 }, .mma { x := 0x108, y := 0x10A, dc := 7 },
    .rep { imm := 0x7FFFFFF }, .trapI { imm := 0x7FFFFFF }] := by decide +kernel
/-- Copy-engine words (R348, R352): a class with STEP 0, an index base not a multiple of 4, no passes, tier 3, an event not posted to. -/
theorem test_wf_words : Refused [.xcopy false 1 0 0, .xgath false 1 0 0 0, .xgath true 0 0 0 2, .xloop 0 0 0, .xplace false 3 0, .xend false 1] := by
  decide +kernel

/-! ## Words from the encoding tables, one for every instruction (R60, R80 to R82) -/

/-- Each word, in a clause of the class before it, decodes to the instruction after it. -/
abbrev Decodes (l : List (BitVec 2 × DWord × Instr)) : Prop := ∀ p ∈ l, decode p.1 p.2.1 = .ok p.2.2

theorem test_decode_integer : Decodes [
    (0, 0x0000_E080_5030_0000, .iadd { cond := 3, wcc := 1, d := 8, x := 0xA, y := 0xC }),
    (0, 0x0040_E080_5030_0000, .isub { cond := 3, wcc := 1, d := 8, x := 0xA, y := 0xC }),
    (0, 0x0080_E080_5030_0000, .iadc { cond := 3, wcc := 1, d := 8, x := 0xA, y := 0xC }),
    (0, 0x00C0_E080_5030_0000, .isbc { cond := 3, wcc := 1, d := 8, x := 0xA, y := 0xC }),
    (0, 0x0100_E080_5000_0000, .ineg { cond := 3, wcc := 1, d := 8, x := 0xA }),
    (0, 0x0140_E080_5000_0000, .iabs { cond := 3, wcc := 1, d := 8, x := 0xA }),
    (0, 0x0180_E080_5030_0000, .imin { cond := 3, wcc := 1, d := 8, x := 0xA, y := 0xC }),
    (0, 0x01C0_E080_5030_0000, .imax { cond := 3, wcc := 1, d := 8, x := 0xA, y := 0xC }),
    (0, 0x0200_E080_5030_0000, .imul { cond := 3, wcc := 1, d := 8, x := 0xA, y := 0xC }),
    (0, 0x0240_E080_5030_0000, .imulh { cond := 3, wcc := 1, d := 8, x := 0xA, y := 0xC }),
    (0, 0x0280_E080_5030_1C00, .imad { cond := 3, wcc := 1, d := 8, x := 0xA, y := 0xC, z := 0xE }),
    (0, 0x02C0_E080_5030_1C00, .imadw { cond := 3, wcc := 1, d := 8, x := 0xA, y := 0xC, z := 0xE }),
    (0, 0x0300_E080_5030_0000, .icmp { cond := 3, wcc := 1, d := 8, x := 0xA, y := 0xC }),
    (0, 0x0340_E080_5030_0000, .isat { cond := 3, wcc := 1, d := 8, x := 0xA, y := 0xC }),
    (0, 0x0380_E080_5030_0000, .iadd64 { cond := 3, wcc := 1, d := 8, x := 0xA, y := 0xC }),
    (0, 0x03C0_E080_5030_0000, .isub64 { cond := 3, wcc := 1, d := 8, x := 0xA, y := 0xC }),
    (0, 0x0400_E080_5030_0000, .icmp64 { cond := 3, wcc := 1, d := 8, x := 0xA, y := 0xC }),
    (0, 0x0440_E080_5030_0000, .lea { cond := 3, wcc := 1, d := 8, x := 0xA, y := 0xC }),
    (0, 0x0480_E080_5030_0000, .lea64 { cond := 3, wcc := 1, d := 8, x := 0xA, y := 0xC })] := by decide +kernel

theorem test_decode_integer_immediate : Decodes [
    (0, 0x0800_E080_5030_1C00, .iaddImm { cond := 3, wcc := 1, d := 8, x := 0xA, imm := 0x301C00 }),
    (0, 0x0840_E080_5030_1C00, .isubImm { cond := 3, wcc := 1, d := 8, x := 0xA, imm := 0x301C00 }),
    (0, 0x0880_E080_5030_1C00, .iadcImm { cond := 3, wcc := 1, d := 8, x := 0xA, imm := 0x301C00 }),
    (0, 0x08C0_E080_5030_1C00, .isbcImm { cond := 3, wcc := 1, d := 8, x := 0xA, imm := 0x301C00 }),
    (0, 0x0900_E080_0030_1C00, .inegImm { cond := 3, wcc := 1, d := 8, imm := 0x301C00 }),
    (0, 0x0940_E080_0030_1C00, .iabsImm { cond := 3, wcc := 1, d := 8, imm := 0x301C00 }),
    (0, 0x0980_E080_5030_1C00, .iminImm { cond := 3, wcc := 1, d := 8, x := 0xA, imm := 0x301C00 }),
    (0, 0x09C0_E080_5030_1C00, .imaxImm { cond := 3, wcc := 1, d := 8, x := 0xA, imm := 0x301C00 }),
    (0, 0x0A00_E080_5030_1C00, .imulImm { cond := 3, wcc := 1, d := 8, x := 0xA, imm := 0x301C00 }),
    (0, 0x0A40_E080_5030_1C00, .imulhImm { cond := 3, wcc := 1, d := 8, x := 0xA, imm := 0x301C00 }),
    (0, 0x0A80_E080_5030_1C00, .imadImm { cond := 3, wcc := 1, d := 8, x := 0xA, imm := 0x301C00 }),
    (0, 0x0AC0_E080_5030_1C00, .imadwImm { cond := 3, wcc := 1, d := 8, x := 0xA, imm := 0x301C00 }),
    (0, 0x0B00_E080_5030_1C00, .icmpImm { cond := 3, wcc := 1, d := 8, x := 0xA, imm := 0x301C00 }),
    (0, 0x0B40_E080_5030_1C00, .isatImm { cond := 3, wcc := 1, d := 8, x := 0xA, imm := 0x301C00 }),
    (0, 0x0B80_E080_5030_1C00, .iadd64Imm { cond := 3, wcc := 1, d := 8, x := 0xA, imm := 0x301C00 }),
    (0, 0x0BC0_E080_5030_1C00, .isub64Imm { cond := 3, wcc := 1, d := 8, x := 0xA, imm := 0x301C00 }),
    (0, 0x0C00_E080_5030_1C00, .icmp64Imm { cond := 3, wcc := 1, d := 8, x := 0xA, imm := 0x301C00 }),
    (0, 0x0C40_E080_5030_1C00, .leaImm { cond := 3, wcc := 1, d := 8, x := 0xA, imm := 0x301C00 })] := by decide +kernel

theorem test_decode_logic : Decodes [
    (0, 0x1000_E080_5030_0000, .andL { cond := 3, wcc := 1, d := 8, x := 0xA, y := 0xC }),
    (0, 0x1040_E080_5030_0000, .orL { cond := 3, wcc := 1, d := 8, x := 0xA, y := 0xC }),
    (0, 0x1080_E080_5030_0000, .xorL { cond := 3, wcc := 1, d := 8, x := 0xA, y := 0xC }),
    (0, 0x10C0_E080_5000_0000, .notL { cond := 3, wcc := 1, d := 8, x := 0xA }),
    (0, 0x1100_E080_5030_1C00, .lut3 { cond := 3, wcc := 1, d := 8, x := 0xA, y := 0xC, z := 0xE }),
    (0, 0x1140_E080_5030_0000, .shl { cond := 3, wcc := 1, d := 8, x := 0xA, y := 0xC }),
    (0, 0x1180_E080_5030_0000, .shr { cond := 3, wcc := 1, d := 8, x := 0xA, y := 0xC }),
    (0, 0x11C0_E080_5030_0000, .sar { cond := 3, wcc := 1, d := 8, x := 0xA, y := 0xC }),
    (0, 0x1200_E080_5030_0000, .rot { cond := 3, wcc := 1, d := 8, x := 0xA, y := 0xC }),
    (0, 0x1240_E080_5030_1C00, .fshl { cond := 3, wcc := 1, d := 8, x := 0xA, y := 0xC, z := 0xE }),
    (0, 0x1280_E080_5030_1C00, .fshr { cond := 3, wcc := 1, d := 8, x := 0xA, y := 0xC, z := 0xE }),
    (0, 0x12C0_E080_5000_0000, .popc { cond := 3, wcc := 1, d := 8, x := 0xA }),
    (0, 0x1300_E080_5000_0000, .clz { cond := 3, wcc := 1, d := 8, x := 0xA }),
    (0, 0x1340_E080_5000_0000, .ctz { cond := 3, wcc := 1, d := 8, x := 0xA }),
    (0, 0x1380_E080_5000_0000, .brev { cond := 3, wcc := 1, d := 8, x := 0xA }),
    (0, 0x13C0_E080_5030_1C00, .bfx { cond := 3, wcc := 1, d := 8, x := 0xA, y := 0xC, z := 0xE }),
    (0, 0x1400_E080_5030_1C00, .bfi { cond := 3, wcc := 1, d := 8, x := 0xA, y := 0xC, z := 0xE }),
    (0, 0x1440_E080_5030_1C00, .prmb { cond := 3, wcc := 1, d := 8, x := 0xA, y := 0xC, z := 0xE }),
    (0, 0x1480_C080_5030_0000, .sel { cond := 3, d := 8, x := 0xA, y := 0xC })] := by decide +kernel

theorem test_decode_logic_immediate : Decodes [
    (0, 0x1800_E080_5030_1C00, .andLImm { cond := 3, wcc := 1, d := 8, x := 0xA, imm := 0x301C00 }),
    (0, 0x1840_E080_5030_1C00, .orLImm { cond := 3, wcc := 1, d := 8, x := 0xA, imm := 0x301C00 }),
    (0, 0x1880_E080_5030_1C00, .xorLImm { cond := 3, wcc := 1, d := 8, x := 0xA, imm := 0x301C00 }),
    (0, 0x18C0_E080_0030_1C00, .notLImm { cond := 3, wcc := 1, d := 8, imm := 0x301C00 }),
    (0, 0x1900_E080_5030_1C00, .lut3Imm { cond := 3, wcc := 1, d := 8, x := 0xA, imm := 0x301C00 }),
    (0, 0x1940_E080_5030_1C00, .shlImm { cond := 3, wcc := 1, d := 8, x := 0xA, imm := 0x301C00 }),
    (0, 0x1980_E080_5030_1C00, .shrImm { cond := 3, wcc := 1, d := 8, x := 0xA, imm := 0x301C00 }),
    (0, 0x19C0_E080_5030_1C00, .sarImm { cond := 3, wcc := 1, d := 8, x := 0xA, imm := 0x301C00 }),
    (0, 0x1A00_E080_5030_1C00, .rotImm { cond := 3, wcc := 1, d := 8, x := 0xA, imm := 0x301C00 }),
    (0, 0x1A40_E080_5030_1C00, .fshlImm { cond := 3, wcc := 1, d := 8, x := 0xA, imm := 0x301C00 }),
    (0, 0x1A80_E080_5030_1C00, .fshrImm { cond := 3, wcc := 1, d := 8, x := 0xA, imm := 0x301C00 })] := by decide +kernel

theorem test_decode_move : Decodes [
    (0, 0x2000_E080_5000_0000, .mov { cond := 3, wcc := 1, d := 8, x := 0xA }),
    (0, 0x2040_E080_0030_1C00, .movi { cond := 3, wcc := 1, d := 8, imm := 0x301C00 }),
    (0, 0x2080_E080_0000_1C00, .movhi { cond := 3, wcc := 1, d := 8, imm := 0x1C00 }),
    (0, 0x20C0_E080_5000_0000, .sxt { cond := 3, wcc := 1, d := 8, x := 0xA }),
    (0, 0x2100_E080_5000_0000, .zxt { cond := 3, wcc := 1, d := 8, x := 0xA }),
    (0, 0x2140_C080_5000_0001, .mfs { cond := 3, d := 8, x := 0xA, m := 1 }),
    (0, 0x2180_18E8_5000_0000, .mts { d := 0x18E, x := 0x10A }),
    (0, 0x21C0_C080_0000_0000, .ccrd { cond := 3, d := 8 }),
    (0, 0x2200_C000_5000_0000, .ccwr { cond := 3, x := 0xA })] := by decide +kernel

theorem test_decode_float : Decodes [
    (0, 0x4000_E080_5030_0000, .fadd { cond := 3, wcc := 1, d := 8, x := 0xA, y := 0xC }),
    (0, 0x4040_E080_5030_0000, .fsub { cond := 3, wcc := 1, d := 8, x := 0xA, y := 0xC }),
    (0, 0x4080_E080_5030_0000, .fmul { cond := 3, wcc := 1, d := 8, x := 0xA, y := 0xC }),
    (0, 0x40C0_E080_5030_1C00, .ffma { cond := 3, wcc := 1, d := 8, x := 0xA, y := 0xC, z := 0xE }),
    (0, 0x4100_E080_5030_0000, .fmin { cond := 3, wcc := 1, d := 8, x := 0xA, y := 0xC }),
    (0, 0x4140_E080_5030_0000, .fmax { cond := 3, wcc := 1, d := 8, x := 0xA, y := 0xC }),
    (0, 0x4180_E080_5030_0000, .fcmp { cond := 3, wcc := 1, d := 8, x := 0xA, y := 0xC }),
    (0, 0x41C0_E080_5000_0000, .fclass { cond := 3, wcc := 1, d := 8, x := 0xA }),
    (0, 0x4200_E080_5000_0000, .frnd { cond := 3, wcc := 1, d := 8, x := 0xA })] := by decide +kernel

theorem test_decode_packed : Decodes [
    (0, 0x4400_C080_5030_0000, .hadd2 { cond := 3, d := 8, x := 0xA, y := 0xC }),
    (0, 0x4440_C080_5030_0000, .hmul2 { cond := 3, d := 8, x := 0xA, y := 0xC }),
    (0, 0x4480_C080_5030_1C00, .hfma2 { cond := 3, d := 8, x := 0xA, y := 0xC, z := 0xE }),
    (0, 0x44C0_C080_5030_0000, .badd2 { cond := 3, d := 8, x := 0xA, y := 0xC }),
    (0, 0x4500_C080_5030_0000, .bmul2 { cond := 3, d := 8, x := 0xA, y := 0xC }),
    (0, 0x4540_C080_5030_1C00, .bfma2 { cond := 3, d := 8, x := 0xA, y := 0xC, z := 0xE })] := by decide +kernel

theorem test_decode_special_function : Decodes [
    (0, 0x5014_E080_5000_0000, .frcp { la := 5, cond := 3, wcc := 1, d := 8, x := 0xA }),
    (0, 0x5054_E080_5000_0000, .frsq { la := 5, cond := 3, wcc := 1, d := 8, x := 0xA }),
    (0, 0x5094_E080_5000_0000, .fsqrt { la := 5, cond := 3, wcc := 1, d := 8, x := 0xA }),
    (0, 0x50D4_E080_5000_0000, .fexp2 { la := 5, cond := 3, wcc := 1, d := 8, x := 0xA }),
    (0, 0x5114_E080_5000_0000, .flog2 { la := 5, cond := 3, wcc := 1, d := 8, x := 0xA }),
    (0, 0x5154_E080_5000_0000, .fsin { la := 5, cond := 3, wcc := 1, d := 8, x := 0xA }),
    (0, 0x5194_E080_5000_0000, .fcos { la := 5, cond := 3, wcc := 1, d := 8, x := 0xA }),
    (0, 0x51D4_E080_5000_0000, .ftanh { la := 5, cond := 3, wcc := 1, d := 8, x := 0xA }),
    (0, 0x5214_E080_5030_0000, .fdiv { la := 5, cond := 3, wcc := 1, d := 8, x := 0xA, y := 0xC })] := by decide +kernel

theorem test_decode_conversion : Decodes [
    (0, 0x6000_C080_5030_0000, .fcvt { cond := 3, d := 8, x := 0xA, y := 0xC }),
    (0, 0x6040_C080_5030_0000, .icvt { cond := 3, d := 8, x := 0xA, y := 0xC }),
    (0, 0x6080_C080_5030_0000, .ficvt { cond := 3, d := 8, x := 0xA, y := 0xC }),
    (0, 0x60C0_C080_5030_1C01, .pack { cond := 3, d := 8, x := 0xA, y := 0xC, z := 0xE, m := 1 }),
    (0, 0x6100_C080_5000_0001, .unpk { cond := 3, d := 8, x := 0xA, m := 1 }),
    (0, 0x6140_0080_0000_0000, .amaxrd { d := 8 }),
    (0, 0x6180_0000_0000_0000, .amaxclr {})] := by decide +kernel

theorem test_decode_control : Decodes [
    (0, 0x8000_C000_5030_1C00, .br { cond := 3, off := 0x50301C00 }),
    (0, 0x8040_C000_5000_0000, .brx { cond := 3, x := 0xA }),
    (0, 0x8080_C000_5030_1C00, .call { cond := 3, off := 0x50301C00 }),
    (0, 0x80C0_C080_5000_0000, .callx { cond := 3, d := 8, x := 0xA }),
    (0, 0x8100_C000_5000_0000, .ret { cond := 3, x := 0xA }),
    (0, 0x8140_C000_0000_0000, .exitI { cond := 3 }),
    (0, 0x8180_C000_0000_0000, .yieldI { cond := 3 }),
    (0, 0x81C0_C000_0000_0000, .nop { cond := 3 }),
    (0, 0x8200_0000_0000_0000, .rep {}),
    (0, 0x8240_C000_0000_0000, .trapI { cond := 3 }),
    (0, 0x8280_C000_0000_0000, .bkpt { cond := 3 }),
    (0, 0x82C0_0000_0000_0000, .rtt {}),
    (0, 0x8300_C000_0000_0000, .waitdc { cond := 3 })] := by decide +kernel

theorem test_decode_cross_lane : Decodes [
    (0, 0x9014_E080_5030_0000, .shfl { la := 5, cond := 3, wcc := 1, d := 8, x := 0xA, y := 0xC }),
    (0, 0x9054_C080_5000_0000, .vote { la := 5, cond := 3, d := 8, x := 0xA }),
    (0, 0x9094_C080_5000_0000, .matchI { la := 5, cond := 3, d := 8, x := 0xA }),
    (0, 0x90D4_C080_5030_0000, .bcast { la := 5, cond := 3, d := 8, x := 0xA, y := 0xC }),
    (0, 0x9114_C080_5000_0000, .red { la := 5, cond := 3, d := 8, x := 0xA }),
    (0, 0x9154_C080_5000_0000, .scan { la := 5, cond := 3, d := 8, x := 0xA }),
    (0, 0x9194_C080_5000_0000, .xrd { la := 5, cond := 3, d := 8, x := 0xA }),
    (0, 0x91D4_C080_5030_0000, .lnrd { la := 5, cond := 3, d := 8, x := 0xA, y := 0xC }),
    (0, 0x9200_0080_5030_0000, .lnwr { d := 8, x := 0xA, y := 0xC })] := by decide +kernel

theorem test_decode_synchronisation : Decodes [
    (0, 0xE000_0000_5000_0000, .bar { x := 0xA }),
    (0, 0xE040_C000_5000_0000, .arrive { cond := 3, x := 0xA }),
    (0, 0xE080_C000_5000_0000, .waitph { cond := 3, x := 0xA }),
    (0, 0xE0C0_0000_5000_0000, .cbar { x := 0xA }),
    (0, 0xE100_C000_5030_0000, .evwait { cond := 3, x := 0xA, y := 0xC }),
    (0, 0xE140_C000_5030_0000, .evpost { cond := 3, x := 0xA, y := 0xC }),
    (0, 0xE240_0000_0000_0000, .bankcfg {}),
    (0, 0xE280_0000_0000_1C01, .pwrhint { imm := 0x1C01 }),
    (0, 0xE2C0_0000_0000_1C00, .sleep { imm := 0x1C00 }),
    (0, 0xE180_1080_0000_0000, .signal { x := 0x108 }),
    (0, 0xE1C0_1080_0000_0000, .launch { x := 0x108 }),
    (0, 0xE200_1080_5000_0001, .spawn { x := 0x108, y := 0xA, mode := 1 })] := by decide +kernel

theorem test_decode_long_integer : Decodes [
    (0, 0xA000_0000_0000_0001, .bind { imm := 1 }),
    (0, 0xA040_0000_0000_0000, .unbind {}),
    (0, 0xA094_E080_5030_0000, .ladd { la := 5, cond := 3, wcc := 1, d := 8, x := 0xA, y := 0xC }),
    (0, 0xA0D4_E080_5030_0000, .ladc { la := 5, cond := 3, wcc := 1, d := 8, x := 0xA, y := 0xC }),
    (0, 0xA114_E080_5030_0000, .lsub { la := 5, cond := 3, wcc := 1, d := 8, x := 0xA, y := 0xC }),
    (0, 0xA154_E080_5030_0000, .lsbc { la := 5, cond := 3, wcc := 1, d := 8, x := 0xA, y := 0xC }),
    (0, 0xA194_E080_5000_0000, .lneg { la := 5, cond := 3, wcc := 1, d := 8, x := 0xA }),
    (0, 0xA1D4_E080_5030_0000, .lcmp { la := 5, cond := 3, wcc := 1, d := 8, x := 0xA, y := 0xC }),
    (0, 0xA214_E080_5030_0000, .lshl { la := 5, cond := 3, wcc := 1, d := 8, x := 0xA, y := 0xC }),
    (0, 0xA254_E080_5030_0000, .lshr { la := 5, cond := 3, wcc := 1, d := 8, x := 0xA, y := 0xC }),
    (0, 0xA294_E080_5030_0000, .lsar { la := 5, cond := 3, wcc := 1, d := 8, x := 0xA, y := 0xC }),
    (0, 0xA2D4_E080_5030_1C00, .lmad { la := 5, cond := 3, wcc := 1, d := 8, x := 0xA, y := 0xC, z := 0xE })] := by decide +kernel

theorem test_decode_permutation : Decodes [
    (0, 0xA800_0000_5000_0000, .pldi { x := 0xA }),
    (0, 0xA840_0000_5000_0000, .plds { x := 0xA }),
    (0, 0xA880_C080_0000_0000, .psti { cond := 3, d := 8 }),
    (0, 0xA8C0_C080_0000_0000, .psts { cond := 3, d := 8 }),
    (0, 0xA900_0000_0000_1C00, .pcomp { z := 0xE }),
    (0, 0xA940_0000_0000_0000, .pinv {}),
    (0, 0xA980_0000_0000_0000, .prand {}),
    (0, 0xA9C0_0000_0000_0000, .pidn {}),
    (0, 0xAA14_C080_5000_0000, .papply { la := 5, cond := 3, d := 8, x := 0xA }),
    (0, 0xAA54_C080_5000_0000, .pcyc { la := 5, cond := 3, d := 8, x := 0xA })] := by decide +kernel

theorem test_decode_matrix : Decodes [
    (1, 0x4000_0000_5000_0000, .gang { x := 0xA }),
    (1, 0x4040_1088_5030_0000, .mma { x := 0x108, y := 0x10A, z := 0xC }),
    (1, 0x4080_0000_0000_0000, .aclr {}),
    (1, 0x40C0_1080_0030_0000, .ald { x := 0x108, z := 0xC }),
    (1, 0x4100_1088_5030_0000, .ast { x := 0x108, y := 0x10A, z := 0xC }),
    (1, 0x4154_C080_5000_0000, .amov { la := 5, cond := 3, d := 8, x := 0xA }),
    (1, 0x4194_C080_0000_0000, .mxrd { la := 5, cond := 3, d := 8 }),
    (1, 0x41C0_C000_0000_0001, .mxclr { cond := 3, m := 1 }),
    (1, 0x4200_1080_0000_1801, .tfetch { x := 0x108, dc := 3, mode := 1 })] := by decide +kernel

theorem test_decode_memory : Decodes [
    (0, 0xC000_C080_5030_1C06, .ld { cond := 3, d := 8, x := 0xA, off := 0x18, scope := 3, cp := 8, dc := 6 }),
    (0, 0xC040_C080_5030_1C00, .st { cond := 3, d := 8, x := 0xA, off := 0x18, scope := 3, cp := 8 }),
    (0, 0xC080_C080_5006_8006, .lde { cond := 3, d := 8, x := 0xA, off := 3, wid := 2, dc := 6 }),
    (0, 0xC0C0_C080_5006_8006, .ste { cond := 3, d := 8, x := 0xA, off := 3, wid := 2, dc := 6 }),
    (0, 0xC114_C080_5030_0006, .ldl { la := 5, cond := 3, d := 8, x := 0xA, off := 0x18, dc := 6 }),
    (0, 0xC140_C080_5030_0000, .stl { cond := 3, d := 8, x := 0xA, off := 0x18 }),
    (0, 0xC194_C080_5030_0006, .ldf { la := 5, cond := 3, d := 8, x := 0xA, off := 0x18, dc := 6 }),
    (0, 0xC1C0_C080_5030_0000, .stf { cond := 3, d := 8, x := 0xA, off := 0x18 }),
    (0, 0xC214_C080_5030_0006, .ldw { la := 5, cond := 3, d := 8, x := 0xA, off := 0x18, dc := 6 }),
    (0, 0xC240_C080_5006_8006, .atom { cond := 3, d := 8, x := 0xA, off := 3, wid := 2, dc := 6 }),
    (0, 0xC280_C080_5006_8006, .atoml { cond := 3, d := 8, x := 0xA, off := 3, wid := 2, dc := 6 }),
    (0, 0xC2C0_C080_5006_8006, .redm { cond := 3, d := 8, x := 0xA, off := 3, wid := 2, dc := 6 }),
    (0, 0xC300_C000_5030_0006, .pref { cond := 3, x := 0xA, off := 0x18, dc := 6 }),
    (0, 0xC340_C000_0000_0006, .fence { cond := 3, dc := 6 }),
    (0, 0xC380_C080_5000_2006, .cpub { cond := 3, d := 8, x := 0xA, scope := 4, dc := 6 }),
    (0, 0xC3C0_0000_5000_0000, .qfence { x := 0xA }),
    (0, 0xC400_1080_5000_0000, .phase { d := 0x108, x := 0xA }),
    (0, 0xC440_1088_5000_3003, .objdecl { x := 0x108, y := 0x10A, dc := 6, mode := 3 }),
    (0, 0xC480_0000_5000_0000, .objrel { x := 0xA }),
    (0, 0xC4C0_1080_0000_0000, .place { x := 0x108 }),
    (0, 0xC500_1080_0000_3000, .placew { x := 0x108, dc := 6 })] := by decide +kernel

theorem test_decode_copy_unit : Decodes [
    (2, 0x4000_1080_0000_0000, .copy { x := 0x108 }),
    (2, 0x4040_1080_5000_0000, .copyg { x := 0x108, y := 0xA }),
    (2, 0x4080_1080_5000_0000, .copys { x := 0x108, y := 0xA }),
    (2, 0x40C0_1080_5000_0000, .fill { x := 0x108, y := 0xA })] := by decide +kernel

theorem test_decode_system : Decodes [
    (3, 0x4000_0000_5030_0000, .tlbinv { x := 0xA, y := 0xC }),
    (3, 0x4040_0080_5000_1C06, .cflush { d := 8, x := 0xA, scope := 3, cp := 8, dc := 6 }),
    (3, 0x4080_1080_5000_0000, .ctxsave { x := 0x108, y := 0xA }),
    (3, 0x40C0_1080_5000_0000, .ctxload { x := 0x108, y := 0xA }),
    (3, 0x4100_0000_5030_0000, .mtsp { x := 0xA, y := 0xC }),
    (3, 0x4140_1080_5000_0000, .mfsp { d := 0x108, x := 0xA }),
    (3, 0x4180_0000_5000_0001, .halt { x := 0xA, m := 1 })] := by decide +kernel

/-- Copy-engine words (R83, R348); the first six are worked ones (R380, R384). -/
theorem test_decode_copy_engine : ∀ p ∈ ([(0x1001_0000_0001_0110, 0, .xwait true 1 0x110), (0x0400_0000_0800_0400, 0, .xcopy true 0 0 0x8000400),
    (0x2000_004F_FFFF_FFFF, 0, .xloop 0 4 0xFFFFFFFFF), (0x1800_0000_0001_0120, 0, .xsig false 1 0x120), (0x4800_0000_0000_0000, 0, .xend false 0),
    (0x4800_0000_0001_0005, 0, .xend true 5), (0x0D20_0000_0000_0040, 0x1000, .xgath true 1 1 0x40 0x1000), (0x2800_000F_FFFF_FFFE, 0, .xjmp 0xFFFFFFFFE),
    (0x3048_0000_0000_0080, 0, .xplace true 1 0x80), (0x3800_0000_0000_00C0, 0, .xstrm 0xC0), (0x4000_0000_0000_0000, 0, .xfence)] :
    List (DWord × DWord × Instr)), decodeCe p.1 p.2.1 = .ok p.2.2 := by decide +kernel

/-- Words that the spec's worked programs write out. -/
theorem test_decode_worked : Decodes [
    (0, 0x0480_014A_0600_0007, .lea64 { d := 20, x := 0x140, y := 0x180, m := 7 }),
    (0, 0x1100_00A0_5831_2C00, .lut3 { d := 10, x := 11, y := 12, z := 0x96 }),
    (0, 0x6000_0080_4C10_0601, .fcvt { d := 8, x := 9, y := 0x104, z := 3, m := 1 }),
    (0, 0x9140_0060_2800_0020, .scan { d := 6, x := 5, m := 0x20 }),
    (0, 0x9100_10A0_1000_0000, .red { d := 0x10A, x := 2 }),
    (0, 0x0300_2118_1700_0000, .icmp { wcc := 1, d := 17, x := 0x102, y := 0x1C0 }),
    (0, 0x8003_8010_0000_0022, .br { cond := 14, hint := 1, off := 34 }),
    (0, 0x8000_001F_FFFF_FFEC, .br { hint := 1, off := 0xFFFFFFFEC }),
    (0, 0x900C_0030_0004_0004, .shfl { la := 3, d := 3, y := 1, m := 4 }),
    (0, 0x1240_0050_0003_8200, .fshl { d := 5, z := 0x1C1 }),
    (0, 0xC180_0040_0801_0086, .ldf { d := 4, x := 1, wid := 4, cp := 1, dc := 6 }),
    (0, 0xC000_1088_1800_F006, .ld { d := 0x108, x := 0x103, wid := 3, scope := 6, dc := 6 }),
    (0, 0xC040_10A8_1000_8000, .st { d := 0x10A, x := 0x102, wid := 2 }),
    (0, 0xE0C0_000E_8000_0000, .cbar { x := 0x1D0 }), (0, 0xE100_000E_1704_0001, .evwait { x := 0x1C2, y := 0x1C1, m := 1 }),
    (0, 0xE180_1060_0000_1000, .signal { x := 0x106, dc := 2 }), (0, 0xE1C0_1080_0000_1000, .launch { x := 0x108, dc := 2 }),
    (0, 0xE280_0000_0000_0081, .pwrhint { imm := 0x81 }), (0, 0xE2C0_0000_0000_03E8, .sleep { imm := 1000 }),
    (0, 0xA800_0000_3800_0009, .pldi { x := 7, m := 9 })] := by decide +kernel
theorem test_decode_worked_engines : Decodes [
    (1, 0x4000_0008_3000_0000, .gang { x := 0x106 }), (1, 0x4040_1148_A840_08A0, .mma { x := 0x114, y := 0x115, z := 0x10, dc := 1, mode := 0xA0 }),
    (1, 0x4100_10CF_8800_1000, .ast { x := 0x10C, y := 0x1F1, dc := 2 }), (1, 0x4200_1140_0000_1800, .tfetch { x := 0x114, dc := 3 }),
    (2, 0x4000_1140_0000_0800, .copy { x := 0x114, dc := 1 }),
    (3, 0x4140_1038_1000_0000, .mfsp { d := 0x103, x := 0x102 }), (3, 0x4000_0008_2414_0008, .tlbinv { x := 0x104, y := 0x105, m := 8 }),
    (3, 0x4040_1078_3000_1A06, .cflush { d := 0x107, x := 0x106, scope := 3, cp := 4, dc := 6 })] := by decide +kernel

/-- An opcode that no map assigns, and one that the system space lacks (R80 to R84). -/
theorem test_decode_refused : decode 0 0xFFC0_0000_0000_0000 = .error (.unassigned 0x3FF) ∧ decode 3 0xC000_1088_1800_F006 = .error (.unassigned 0x300) ∧
    decodeCe 0x5000_0000_0000_0000 0 = .error (.unassigned 10) := by decide +kernel
/-- Every copy of the words written above is what the encoder writes. -/
theorem test_encode_worked : encode (.lea64 { d := 20, x := 0x140, y := 0x180, m := 7 }) = [0x0480_014A_0600_0007] ∧
    encode (.mma { x := 0x114, y := 0x115, z := 0x10, dc := 1, mode := 0xA0 }) = [0x4040_1148_A840_08A0] ∧ encode (.xloop 0 4 0xFFFFFFFFF) = [0x2000_004F_FFFF_FFFF] := by
  decide +kernel

/-! ## Single steps -/

/-- One group of context 0, one warp wide, whose next word, in a clause of class `eng`, is `i`; it ends its clause only where it must. -/
def grp (eng : BitVec 2) (i : Instr) : Group :=
  let w := (encode i).getD 0 0
  { noGroup with
    role := if eng = 1 then 1 else if eng = 2 then 0 else 2, width := 64
    warps := [{ wid := 0, entries := [{ prio := 40, pc := 0x40001008, mask := Mask.width 64, h := 0x40001000,
                                         cl := some { eng := eng, cnt := if wordCtl eng w then 0 else 1, yld := false, ws := [w, w] } }] }] }
/-- Two pages of 1 GiB in core 0's TLB: data at 0, code above it; and, in the code, headers of priority 30 after the clause, 20 at 0x40002000 and 255 at 0x40003000. -/
def dataPage : TlbEntry :=
  { second := false, who := 0, asid := 0, vpn := 0, order := 18
    leaf := { pfn := 0, w := true, x := false, xf := false, coh := 0, lc := 0, fmt := 0, bg := 0, ten := 0, node := 0 } }
def codePage : TlbEntry := { dataPage with vpn := 2 ^ 18, leaf := { dataPage.leaf with pfn := 2 ^ 18, w := false, x := true, xf := true } }
def code : List Host.Cell :=
  [0x40001010, 0x40001018].foldl (fun m a => Memory.store m a (leBytes 8 0xF047800000000000))
    (Memory.store (Memory.store [] 0x40002000 (leBytes 8 0xF045000000000000)) 0x40003000 (leBytes 8 0xF03FC00000000000))
def team0 : Team := { noTeam with nt := 4, banks := [true] }
/-- The package after reset with that group in place, its turn come. -/
def at_ (g : Group) : State :=
  { State.reset with groups := [g], teams := [team0], tlb := [dataPage, codePage], mem := code, issuer := some { gid := 0, wid := 0 }, nextId := 1 }
/-- What is left of the group after one step of `i`. -/
def after (i : Instr) (s : State) : Group := match exec i s with | .next t => (t.group 0).getD noGroup | _ => noGroup
/-- The same, with what its pending results will write. -/
def landed (i : Instr) (s : State) : Group :=
  let g := after i s
  g.warps.foldl (fun g w => w.pend.foldl (fun g p => p.on g) g) g
/-- Lanes 0 to n − 1 of a register. -/
def lanes (g : Group) (r n : Nat) : List Nat := (List.range n).map (fun l => ((g.vreg r).lane l).toNat)
/-- A register with these lanes, zero above. -/
def gen (l : List Nat) : VReg := .gen ((List.range 64).map (fun k => BitVec.ofNat 32 (l.getD k 0)))

def addPair : Group := { grp 0 (.iadd { wcc := 1, d := 4, x := 6, y := 8 }) with v := [(6, .uni 0xFFFFFFFF), (7, .uni 1), (8, .uni 1)] }
/-- R93: the low words of 0x1_FFFF_FFFF + 1 give 0 with C and Z. -/
theorem test_iadd_carry : let g := after (.iadd { wcc := 1, d := 4, x := 6, y := 8 }) (at_ addPair)
    g.vreg 4 = .uni 0 ∧ g.c = Mask.width 64 ∧ g.z = Mask.width 64 ∧ g.n = 0 ∧ g.vf = 0 := by decide +kernel
/-- R93: and the high words with that carry give 2. -/
theorem test_iadc_carry : (after (.iadc { d := 5, x := 7, y := 9 }) (at_ { addPair with
    warps := (grp 0 (.iadc { d := 5, x := 7, y := 9 })).warps, c := Mask.width 64 })).vreg 5 |>.lane 63 |>.toNat |> (· = 2) := by decide +kernel
/-- R93: ISAT of 300 and −5 to 8 bits, unsigned and signed. -/
theorem test_isat : (let f (m : BitVec 9) (v : Word) := ((after (.isat { d := 10, x := 11, y := 0x1C8, m := m }) (at_ { grp 0 (.isat { d := 10, x := 11, y := 0x1C8, m := m }) with v := [(11, .uni v)] })).vreg 10).lane 0
    (f 1 300, f 0 300, f 1 (-5), f 0 (-5))) = (255, 127, 0, -5) := by decide +kernel
/-- R89: the largest signed number compared with −1: the difference is out of range, so N and V. -/
theorem test_icmp_overflow : let i : Instr := .icmp { wcc := 1, d := 4, x := 6, y := 8 }
    let g := after i (at_ { grp 0 i with v := [(6, .uni 0x7FFFFFFF), (8, .uni 0xFFFFFFFF)] })
    g.vreg 4 = .uni 1 ∧ g.n = Mask.width 64 ∧ g.vf = Mask.width 64 ∧ g.z = 0 := by decide +kernel
/-- R95: table 0x96 is the three-way exclusive or. -/
theorem test_lut3 : let i : Instr := .lut3 { d := 10, x := 11, y := 12, z := 0x96 }
    (after i (at_ { grp 0 i with v := [(10, .uni 0xFF00FF00), (11, .uni 0xF0F0F0F0), (12, .uni 0xCCCCCCCC)] })).vreg 10 = .uni 0xC33CC33C := by decide +kernel
/-- R94: a shift by 32 gives 0, an arithmetic one the sign. -/
theorem test_shift_past : (let f (i : Instr) := ((after i (at_ { grp 0 i with v := [(11, .uni 0x80000001)] })).vreg 10).lane 5
    (f (.shl { d := 10, x := 11, y := 0x1E0 }), f (.sarImm { d := 10, x := 11, imm := 40 }))) = (0, 0xFFFFFFFF) := by decide +kernel
/-- R151's worked case: the exclusive scan of 3, 1, 4, 1, 5, 9, 2, 6. -/
theorem test_scan_excl : let i : Instr := .scan { d := 6, x := 5, m := 0x20 }
    let g := landed i (at_ { grp 0 i with v := [(5, gen [3, 1, 4, 1, 5, 9, 2, 6])], xrseq := 40 })
    lanes g 6 8 = [0, 3, 4, 8, 9, 14, 23, 25] ∧ g.xr = 31 := by decide +kernel
/-- R105: the square root of 2.25 is 1.5, that of 2.0 rounds to 0x3FB504F3. -/
theorem test_fsqrt : let i : Instr := .fsqrt { d := 4, x := 6 }
    lanes (landed i (at_ { grp 0 i with v := [(6, gen [0x40100000, 0x40000000])] })) 4 2 = [0x3FC00000, 0x3FB504F3] := by decide +kernel
/-- R101: 1.0 + 2^−24 is a tie and stays 1.0 with IX; 1.0 − 1.0 is +0.0. -/
theorem test_fadd_tie : let i : Instr := .fadd { d := 4, x := 6, y := 8 }
    let g := after i (at_ { grp 0 i with v := [(6, gen [0x3F800000, 0x3F800000]), (8, gen [0x33800000, 0xBF800000])] })
    lanes g 4 2 = [0x3F800000, 0] ∧ g.fsr = 1 := by decide +kernel

/-- The sample values of the format table, as FP32 words: 1.0, −0.0, −2.5, 448.0, 1,000.0, 2^−9. -/
def samples : List Nat := [0x3F800000, 0x80000000, 0xC0200000, 0x43E00000, 0x447A0000, 0x3B000000]
/-- An FP32 word rounded to a format. -/
def rounds (f : Fmt) (v : Nat) : Nat := (f.roundFv { mode := .rne } (Fmt.fp32.decode v)).1
/-- R12's worked encodings. -/
theorem test_formats : samples.map (rounds .fp32) = samples ∧ samples.map (rounds .fp16) = [0x3C00, 0x8000, 0xC100, 0x5F00, 0x63D0, 0x1800] ∧
    samples.map (rounds .bf16) = [0x3F80, 0x8000, 0xC020, 0x43E0, 0x447A, 0x3B00] ∧
    (samples.take 4).map (rounds .e4m3) = [0x38, 0x80, 0xC2, 0x7E] ∧ samples.map (rounds .e5m2) = [0x3C, 0x80, 0xC1, 0x5F, 0x64, 0x18] := by decide +kernel
/-- The first FP32 word at or below 0.1 rounded to the narrow formats; −3,000 in BF16. -/
theorem test_formats_inexact : [Fmt.fp16, .bf16, .e4m3, .e5m2].map (fun f => rounds f 0x3DCCCCCD) = [0x2E66, 0x3DCD, 0x1D, 0x2E] ∧
    rounds .bf16 0xC53B8000 = 0xC53C := by decide +kernel

/-- R173's worked case: elements 0 to 3 go to 2, 0, 3, 1; the settings image, the cycle length of element 0 and the inverse. -/
theorem test_crook : let p := PReg.ofPerm 2 [2, 0, 3, 1]
    p.perm = [2, 0, 3, 1] ∧ [0, 4, 8, 60].map (fun l => (p.image l).toNat) = [2, 1, 1, 2] ∧ p.inv.perm = [1, 3, 0, 2] := by decide +kernel
/-- R191's worked case: chunks of exact sums added in order give 0x4B800002. -/
theorem test_mma_chunks : let b (v : Nat) : Fv := Fmt.bf16.decode v
    let z (n : Nat) : List Fv := List.replicate n (b 0)
    (mmaElem 0 32 64 0 ([b 0x4580, b 0x3F80, b 0xC580] ++ z 29 ++ [b 0x4580, b 0x4000] ++ z 30)
      ([b 0x4580, b 0x3F80, b 0x4580] ++ z 29 ++ [b 0x4580, b 0x3F80] ++ z 30)).1 = 0x4B800002 := by decide +kernel

/-- R122's worked case: lanes 0 to 15, 20 and 21 branch to the clause of priority 20, the others go on to the one of priority 30. Slices 4 and 6 to 15
are one warp, 0 to 3 one, and 5, which holds lanes of both, one. -/
theorem test_branch_splits : let i : Instr := .br { cond := 2, hint := 0, off := 0x200 }
    (after i (at_ { grp 0 i with z := ~~~0x30FFFF })).warps.map (fun w => w.entries.map (fun e => (e.prio.toNat, e.pc, e.mask))) =
      [[(30, 0x40001018, 0xC00000), (20, 0x40002008, 0x300000)], [(20, 0x40002008, 0xFFFF)], [(30, 0x40001018, 0xFFFFFFFFFF0F0000)]] := by decide +kernel
end Sys2Proof.Tests
end

