-- ==== Sys2Proof/Tests/Witness.lean ====
section
/-! SUPPORT. Witnesses: for every statement that has hypotheses, a state and operands that meet them together. -/

namespace Sys2Proof.Tests
open Sys2Proof.Machine Sys2Proof.Rules
set_option Elab.async false

/-! ## Deciding the hypotheses -/

/-- The position from which `i` issues at `s`, or one of no group. -/
def pos (s : State) (i : Instr) : Issue :=
  match s.position i with
  | some x => x
  | none => { s := s, g := noGroup, w := { wid := 0, entries := [] }, e := { prio := 0, pc := 0, mask := 0, h := 0 },
              cl := { eng := 0, cnt := 0, yld := false }, n := info i, a := args i, act := 0, full := false, k := 0, rmask := 0, last := false, more := false }
/-- The priority of the clause after it. -/
def prioOf (x : Issue) : BitVec 8 :=
  match (if x.last && !x.n.ctl && !x.more then nextHeader x x.hn x.e.mask else .ok 0) with | .ok p => p | .error _ => 0
def headed (x : Issue) : Bool := match (if x.last && !x.n.ctl && !x.more then nextHeader x x.hn x.e.mask else .ok 0) with | .ok _ => true | .error _ => false
/-- `i` issues at `s`. -/
def issues (s : State) (i : Instr) : Bool :=
  i.wf && (s.position i).isSome && decide (heldIn (pos s i).g (pos s i).e.mask (fun k => decide (k < 6) && (pos s i).cl.dcw.getLsbD k) = [])
    && !dcwOpen (pos s i).g (pos s i).cl.dcw && !mustWait (pos s i) && !dcHeld (pos s i) && (!(pos s i).vector || decide (s.collector (pos s i).g.core < 4)) && decide (roleCauses (pos s i) = []) && headed (pos s i)
theorem issued {s : State} {i : Instr} (h : issues s i = true) : WellFormed i ∧ Issues s i (pos s i) (prioOf (pos s i)) := by
  simp only [issues, Bool.and_eq_true, Bool.or_eq_true, Bool.not_eq_true', decide_eq_true_eq] at h
  obtain ⟨⟨⟨⟨⟨⟨⟨⟨hw, hp⟩, he⟩, ho⟩, hm⟩, hd⟩, hc⟩, hr⟩, hh⟩ := h
  refine ⟨hw, ?_, he, ho, hm, hd, fun k => ?_, hr, ?_⟩
  · obtain ⟨x, hx⟩ := Option.isSome_iff_exists.1 hp
    simp [pos, hx]
  · rcases hc with hc | hc
    · simp [hc] at k
    · exact hc
  · simp only [headed, prioOf] at hh ⊢
    split at hh <;> simp_all

def readable (os : List Opr) : Bool := os.all (fun p => decide (p.causes = []) && !p.wait && decide (p.park = none) && !p.failed)
theorem readableOf {os : List Opr} (h : readable os = true) : Readable os := by
  intro p hp
  have := List.all_eq_true.1 h p hp
  simpa [and_assoc] using this
def free (x : Issue) (rs : List RegId) : Bool := x.w.pend.isEmpty && decide (x.g.genCount + (x.g.warps.flatMap (fun w => w.pend.flatMap (fun p => p.writes))).length + (x.g.notGen rs).length ≤ x.g.budget)
theorem freeOf {x : Issue} {rs : List RegId} (h : free x rs = true) : Free x rs := by
  simp only [free, Bool.and_eq_true, List.isEmpty_iff, decide_eq_true_eq] at h
  exact ⟨by simp [h.1], .inr h.2⟩
/-- No exception is enabled in the issue's group. -/
theorem noTrapOf {x : Issue} {fl : Nat → FFlags} (h : x.g.old.fcr.extractLsb' 4 5 = 0) : NoTrap x fl := by
  intro l _
  simp [h]
/-- A word is read whichever lanes ask. -/
theorem fetchWord_lanes {s : State} {core ctx : Nat} {priv : Bool} {m n : Mask} {va w : DWord} (h : fetchWord s core ctx priv n va = .word w) :
    fetchWord s core ctx priv m va = .word w := by
  unfold fetchWord fetchVia at h ⊢
  split at h
  · cases h
  · cases h
  · split at h <;> cases h
  · split at h
    · exact h
    · repeat' split at h
      all_goals simp_all
/-- The header at `t` is aligned, and has priority `p`. -/
def hdrIs (x : Issue) (t : DWord) (p : BitVec 8) : Bool := t.toNat % 8 == 0 && match nextHeader x t 0#64 with | .ok q => q == p | .error _ => false
theorem headerAtOf {x : Issue} {t : DWord} {p : BitVec 8} (h : hdrIs x t p = true) : HeaderAt x t p := by
  rw [hdrIs, Bool.and_eq_true, beq_iff_eq] at h
  refine ⟨h.1, fun m => ?_⟩
  have h := h.2
  unfold nextHeader at h ⊢
  cases e : fetchWord x.s x.g.core x.g.ctx x.priv 0#64 t with
  | word w =>
    rw [e] at h
    rw [fetchWord_lanes e]
    by_cases k : hdrMark w = true <;> simp_all
  | trap c => rw [e] at h; cases h
  | absent lv va => rw [e] at h; cases h

/-- A word of class `eng`, where it stands after reset. -/
def st (eng : BitVec 2) (i : Instr) (f : Group → Group := id) : State := at_ (f (grp eng i))

/-- `i` issues at a state and a position that meet `p`. -/
abbrev HasIssue (i : Instr) (p : State → Issue → Prop) : Prop := ∃ s x prio, WellFormed i ∧ Issues s i x prio ∧ p s x
theorem has {s : State} {i : Instr} {p : State → Issue → Prop} (h : issues s i = true) (k : p s (pos s i)) : HasIssue i p :=
  ⟨s, pos s i, _, (issued h).1, (issued h).2, k⟩
/-- The warps of a group, changed. -/
def warped (f : Warp → Warp) (g : Group) : Group := { g with warps := g.warps.map f }
def relw : Group → Group := warped (fun w => { w with released := true })

/-! ## Results -/

/-- `i` issues at `s`, its sources are readable and `n` destination registers are free. -/
def ready (s : State) (i : Instr) (os : List Opr) (rs : List RegId) : Bool :=
  issues s i && readable os && free (pos s i) rs && (pos s i).g.old.fcr.extractLsb' 4 5 == 0
theorem readyOf {s : State} {i : Instr} {os : List Opr} {rs : List RegId} (h : ready s i os rs = true) :
    WellFormed i ∧ Issues s i (pos s i) (prioOf (pos s i)) ∧ Readable os ∧ Free (pos s i) rs ∧ ∀ fl, NoTrap (pos s i) fl := by
  simp only [ready, Bool.and_eq_true, beq_iff_eq] at h
  exact ⟨(issued h.1.1.1).1, (issued h.1.1.1).2, readableOf h.1.1.2, freeOf h.1.2, fun _ => noTrapOf h.2⟩

/-- Where the instructions of these tests stand: a group of 64 lanes whose registers hold 0 and whose integers are of two limbs. -/
def here (i : Instr) : State := st i.engClass i (fun g => { g with limb := 257 })
abbrev at0 (i : Instr) : Issue := pos (here i) i

/-- The hypotheses of the statements of 32-bit and 64-bit rows, at `here`. -/
abbrev Has32 (r : Instr → Issue → Option (Lane 32)) (i : Instr) : Prop :=
  ∃ s x prio k, WellFormed i ∧ Issues s i x prio ∧ r i x = some k ∧ Readable k.srcs ∧ Free x (x.dests 1)
def meets32 (r : Instr → Issue → Option (Lane 32)) (i : Instr) : Bool :=
  match r i (at0 i) with | some k => ready (here i) i k.srcs ((at0 i).dests 1) | none => false
theorem meets32_spec {r : Instr → Issue → Option (Lane 32)} {i : Instr} (h : meets32 r i = true) :
    Has32 r i := by
  unfold meets32 at h
  split at h
  · rename_i k e
    exact ⟨_, _, _, k, (readyOf h).1, (readyOf h).2.1, e, (readyOf h).2.2.1, (readyOf h).2.2.2.1⟩
  · cases h
abbrev Has64 (r : Instr → Issue → Option (Lane 64)) (i : Instr) : Prop :=
  ∃ s x prio k, WellFormed i ∧ Issues s i x prio ∧ r i x = some k ∧ Readable k.srcs ∧ Free x (x.dests 2)
def meets64 (r : Instr → Issue → Option (Lane 64)) (i : Instr) : Bool :=
  match r i (at0 i) with | some k => ready (here i) i k.srcs ((at0 i).dests 2) | none => false
theorem meets64_spec {r : Instr → Issue → Option (Lane 64)} {i : Instr} (h : meets64 r i = true) :
    Has64 r i := by
  unfold meets64 at h
  split at h
  · rename_i k e
    exact ⟨_, _, _, k, (readyOf h).1, (readyOf h).2.1, e, (readyOf h).2.2.1, (readyOf h).2.2.2.1⟩
  · cases h
/-- Those of floating-point rows. -/
abbrev HasF {w : Nat} (n : Nat) (r : Instr → Issue → Option (FLane w)) (i : Instr) : Prop :=
  ∃ s x prio k, WellFormed i ∧ Issues s i x prio ∧ r i x = some k ∧ Readable k.srcs ∧ Free x (x.dests n) ∧ NoTrap x k.fl
def meetsF {w : Nat} (n : Nat) (r : Instr → Issue → Option (FLane w)) (i : Instr) : Bool :=
  match r i (at0 i) with | some k => ready (here i) i k.srcs ((at0 i).dests n) | none => false
theorem meetsF_spec {w n : Nat} {r : Instr → Issue → Option (FLane w)} {i : Instr} (h : meetsF n r i = true) :
    HasF n r i := by
  unfold meetsF at h
  split at h
  · rename_i k e
    exact ⟨_, _, _, k, (readyOf h).1, (readyOf h).2.1, e, (readyOf h).2.2.1, (readyOf h).2.2.2.1, (readyOf h).2.2.2.2 _⟩
  · cases h
/-- Those of late results. -/
abbrev HasL {w : Nat} (n : Nat) (r : Instr → Issue → Option (LateLane w)) (i : Instr) : Prop :=
  ∃ s x prio k, WellFormed i ∧ Issues s i x prio ∧ r i x = some k ∧ k.ok = true ∧ Readable k.srcs ∧ Free x (x.dests n) ∧ NoTrap x k.fl
def meetsL {w : Nat} (n : Nat) (r : Instr → Issue → Option (LateLane w)) (i : Instr) : Bool :=
  match r i (at0 i) with | some k => k.ok && ready (here i) i k.srcs ((at0 i).dests n) | none => false
theorem meetsL_spec {w n : Nat} {r : Instr → Issue → Option (LateLane w)} {i : Instr} (h : meetsL n r i = true) :
    HasL n r i := by
  unfold meetsL at h
  split at h
  · rename_i k e
    rw [Bool.and_eq_true] at h
    obtain ⟨ho, h⟩ := h
    exact ⟨_, _, _, k, (readyOf h).1, (readyOf h).2.1, e, ho, (readyOf h).2.2.1, (readyOf h).2.2.2.1, (readyOf h).2.2.2.2 _⟩
  · cases h
/-- Those of effects on the group. -/
abbrev HasE (r : Instr → Issue → Option Effect) (i : Instr) : Prop :=
  ∃ s x prio k, WellFormed i ∧ Issues s i x prio ∧ r i x = some k ∧ k.ok = true ∧ Readable k.srcs ∧ Free x k.dests
def meetsE (r : Instr → Issue → Option Effect) (i : Instr) : Bool :=
  match r i (at0 i) with | some k => k.ok && ready (here i) i k.srcs k.dests | none => false
theorem meetsE_spec {r : Instr → Issue → Option Effect} {i : Instr} (h : meetsE r i = true) :
    HasE r i := by
  unfold meetsE at h
  split at h
  · rename_i k e
    rw [Bool.and_eq_true] at h
    obtain ⟨ho, h⟩ := h
    exact ⟨_, _, _, k, (readyOf h).1, (readyOf h).2.1, e, ho, (readyOf h).2.2.1, (readyOf h).2.2.2.1⟩
  · cases h
theorem each {α : Type} {p : α → Bool} {q : α → Prop} {l : List α} (h : l.all p = true) (f : ∀ {a}, p a = true → q a) : ∀ a ∈ l, q a :=
  fun a m => f (List.all_eq_true.1 h a m)

def intRows : List Instr := [
    .iadd { cond := 2, wcc := 1, d := 8, x := 0xA, y := 0xC },
    .iaddImm { cond := 2, wcc := 1, d := 8, x := 0xA, imm := 0x301C00 },
    .isub { cond := 2, wcc := 1, d := 8, x := 0xA, y := 0xC },
    .isubImm { cond := 2, wcc := 1, d := 8, x := 0xA, imm := 0x301C00 },
    .iadc { cond := 2, wcc := 1, d := 8, x := 0xA, y := 0xC },
    .iadcImm { cond := 2, wcc := 1, d := 8, x := 0xA, imm := 0x301C00 },
    .isbc { cond := 2, wcc := 1, d := 8, x := 0xA, y := 0xC },
    .isbcImm { cond := 2, wcc := 1, d := 8, x := 0xA, imm := 0x301C00 },
    .ineg { cond := 2, wcc := 1, d := 8, x := 0xA },
    .inegImm { cond := 2, wcc := 1, d := 8, imm := 0x301C00 },
    .iabs { cond := 2, wcc := 1, d := 8, x := 0xA },
    .iabsImm { cond := 2, wcc := 1, d := 8, imm := 0x301C00 },
    .imin { cond := 2, wcc := 1, d := 8, x := 0xA, y := 0xC },
    .iminImm { cond := 2, wcc := 1, d := 8, x := 0xA, imm := 0x301C00 },
    .imax { cond := 2, wcc := 1, d := 8, x := 0xA, y := 0xC },
    .imaxImm { cond := 2, wcc := 1, d := 8, x := 0xA, imm := 0x301C00 },
    .imul { cond := 2, wcc := 1, d := 8, x := 0xA, y := 0xC },
    .imulImm { cond := 2, wcc := 1, d := 8, x := 0xA, imm := 0x301C00 },
    .imulh { cond := 2, wcc := 1, d := 8, x := 0xA, y := 0xC },
    .imulhImm { cond := 2, wcc := 1, d := 8, x := 0xA, imm := 0x301C00 },
    .imad { cond := 2, wcc := 1, d := 8, x := 0xA, y := 0xC, z := 0xE },
    .imadImm { cond := 2, wcc := 1, d := 8, x := 0xA, imm := 0x301C00 },
    .icmp { cond := 2, wcc := 1, d := 8, x := 0xA, y := 0xC },
    .icmpImm { cond := 2, wcc := 1, d := 8, x := 0xA, imm := 0x301C00 },
    .isat { cond := 2, wcc := 1, d := 8, x := 0xA, y := 0xC },
    .isatImm { cond := 2, wcc := 1, d := 8, x := 0xA, imm := 0x301C00 },
    .lea { cond := 2, wcc := 1, d := 8, x := 0xA, y := 0xC },
    .leaImm { cond := 2, wcc := 1, d := 8, x := 0xA, imm := 0x301C00 },
    .icmp64 { cond := 2, wcc := 1, d := 8, x := 0xA, y := 0xC },
    .icmp64Imm { cond := 2, wcc := 1, d := 8, x := 0xA, imm := 0x301C00 },
    .iadd { d := 0x10A, x := 0x10B, y := 0x1C5 }]
/-- IntegerRowsComplete. -/
theorem hyps_intRow : ∀ i ∈ intRows, Has32 intLane i := each (by decide +kernel : intRows.all (meets32 intLane) = true) meets32_spec

def longRows : List Instr := [
    .imadw { cond := 2, wcc := 1, d := 8, x := 0xA, y := 0xC, z := 0xE },
    .imadwImm { cond := 2, wcc := 1, d := 8, x := 0xA, imm := 0x301C00 },
    .iadd64 { cond := 2, wcc := 1, d := 8, x := 0xA, y := 0xC },
    .iadd64Imm { cond := 2, wcc := 1, d := 8, x := 0xA, imm := 0x301C00 },
    .isub64 { cond := 2, wcc := 1, d := 8, x := 0xA, y := 0xC },
    .isub64Imm { cond := 2, wcc := 1, d := 8, x := 0xA, imm := 0x301C00 },
    .lea64 { cond := 2, wcc := 1, d := 8, x := 0xA, y := 0xC },
    .mov { d := 8, x := 10, m := 1 },
    .movhi { d := 0x108, imm := 0x30001 },
    .mfs { d := 0x108, x := 0x190 }]
/-- LongRowsComplete. -/
theorem hyps_longRow : ∀ i ∈ longRows, Has64 longLane i := each (by decide +kernel : longRows.all (meets64 longLane) = true) meets64_spec

def logicRows : List Instr := [
    .andL { cond := 2, wcc := 1, d := 8, x := 0xA, y := 0xC },
    .andLImm { cond := 2, wcc := 1, d := 8, x := 0xA, imm := 0x301C00 },
    .orL { cond := 2, wcc := 1, d := 8, x := 0xA, y := 0xC },
    .orLImm { cond := 2, wcc := 1, d := 8, x := 0xA, imm := 0x301C00 },
    .xorL { cond := 2, wcc := 1, d := 8, x := 0xA, y := 0xC },
    .xorLImm { cond := 2, wcc := 1, d := 8, x := 0xA, imm := 0x301C00 },
    .notL { cond := 2, wcc := 1, d := 8, x := 0xA },
    .notLImm { cond := 2, wcc := 1, d := 8, imm := 0x301C00 },
    .lut3 { cond := 2, wcc := 1, d := 8, x := 0xA, y := 0xC, z := 0xE },
    .lut3Imm { cond := 2, wcc := 1, d := 8, x := 0xA, imm := 0x301C00 },
    .shl { cond := 2, wcc := 1, d := 8, x := 0xA, y := 0xC },
    .shlImm { cond := 2, wcc := 1, d := 8, x := 0xA, imm := 0x301C00 },
    .shr { cond := 2, wcc := 1, d := 8, x := 0xA, y := 0xC },
    .shrImm { cond := 2, wcc := 1, d := 8, x := 0xA, imm := 0x301C00 },
    .sar { cond := 2, wcc := 1, d := 8, x := 0xA, y := 0xC },
    .sarImm { cond := 2, wcc := 1, d := 8, x := 0xA, imm := 0x301C00 },
    .rot { cond := 2, wcc := 1, d := 8, x := 0xA, y := 0xC },
    .rotImm { cond := 2, wcc := 1, d := 8, x := 0xA, imm := 0x301C00 },
    .fshl { cond := 2, wcc := 1, d := 8, x := 0xA, y := 0xC, z := 0xE },
    .fshlImm { cond := 2, wcc := 1, d := 8, x := 0xA, imm := 0x301C00 },
    .fshr { cond := 2, wcc := 1, d := 8, x := 0xA, y := 0xC, z := 0xE },
    .fshrImm { cond := 2, wcc := 1, d := 8, x := 0xA, imm := 0x301C00 },
    .popc { cond := 2, wcc := 1, d := 8, x := 0xA },
    .clz { cond := 2, wcc := 1, d := 8, x := 0xA },
    .ctz { cond := 2, wcc := 1, d := 8, x := 0xA },
    .brev { cond := 2, wcc := 1, d := 8, x := 0xA },
    .bfx { cond := 2, wcc := 1, d := 8, x := 0xA, y := 0xC, z := 0xE },
    .bfi { cond := 2, wcc := 1, d := 8, x := 0xA, y := 0xC, z := 0xE },
    .prmb { cond := 2, wcc := 1, d := 8, x := 0xA, y := 0xC, z := 0xE },
    .sel { cond := 2, d := 8, x := 0xA, y := 0xC },
    .mov { cond := 2, wcc := 1, d := 8, x := 0xA },
    .movi { cond := 2, wcc := 1, d := 8, imm := 0x301C00 },
    .movhi { cond := 2, wcc := 1, d := 8, imm := 0x1C00 },
    .mfs { cond := 2, d := 8, x := 0xA, m := 1 },
    .sxt { cond := 2, wcc := 1, d := 8, x := 0xA },
    .zxt { cond := 2, wcc := 1, d := 8, x := 0xA },
    .ccrd { cond := 2, d := 8 }]
/-- LogicRowsComplete. -/
theorem hyps_logicRow : ∀ i ∈ logicRows, Has32 bitLane i := each (by decide +kernel : logicRows.all (meets32 bitLane) = true) meets32_spec

def floatRows : List Instr := [
    .fadd { cond := 2, wcc := 1, d := 8, x := 0xA, y := 0xC },
    .fsub { cond := 2, wcc := 1, d := 8, x := 0xA, y := 0xC },
    .fmul { cond := 2, wcc := 1, d := 8, x := 0xA, y := 0xC },
    .ffma { cond := 2, wcc := 1, d := 8, x := 0xA, y := 0xC, z := 0xE },
    .fmin { cond := 2, wcc := 1, d := 8, x := 0xA, y := 0xC },
    .fmax { cond := 2, wcc := 1, d := 8, x := 0xA, y := 0xC },
    .fcmp { cond := 2, wcc := 1, d := 8, x := 0xA, y := 0xC },
    .fclass { cond := 2, wcc := 1, d := 8, x := 0xA },
    .frnd { cond := 2, wcc := 1, d := 8, x := 0xA },
    .hadd2 { cond := 2, d := 8, x := 0xA, y := 0xC },
    .hmul2 { cond := 2, d := 8, x := 0xA, y := 0xC },
    .hfma2 { cond := 2, d := 8, x := 0xA, y := 0xC, z := 0xE },
    .badd2 { cond := 2, d := 8, x := 0xA, y := 0xC },
    .bmul2 { cond := 2, d := 8, x := 0xA, y := 0xC },
    .bfma2 { cond := 2, d := 8, x := 0xA, y := 0xC, z := 0xE },
    .fcvt { cond := 2, d := 8, x := 0xA, y := 0xC },
    .icvt { cond := 2, d := 8, x := 0xA, y := 0xC },
    .ficvt { cond := 2, d := 8, x := 0xA, y := 0xC },
    .pack { cond := 2, d := 8, x := 0xA, y := 0xC, z := 0xE, m := 1 },
    .unpk { cond := 2, d := 8, x := 0xA, m := 1 }]
/-- FloatRowsComplete, results of 32 bits. -/
theorem hyps_floatRow : ∀ i ∈ floatRows, HasF 1 floatLane i := each (by decide +kernel : floatRows.all (meetsF 1 floatLane) = true) meetsF_spec

def lateRows : List Instr := [
    .frcp { la := 5, cond := 2, wcc := 1, d := 8, x := 0xA },
    .frsq { la := 5, cond := 2, wcc := 1, d := 8, x := 0xA },
    .fsqrt { la := 5, cond := 2, wcc := 1, d := 8, x := 0xA },
    .fexp2 { la := 5, cond := 2, wcc := 1, d := 8, x := 0xA },
    .flog2 { la := 5, cond := 2, wcc := 1, d := 8, x := 0xA },
    .fsin { la := 5, cond := 2, wcc := 1, d := 8, x := 0xA },
    .fcos { la := 5, cond := 2, wcc := 1, d := 8, x := 0xA },
    .ftanh { la := 5, cond := 2, wcc := 1, d := 8, x := 0xA },
    .fdiv { la := 5, cond := 2, wcc := 1, d := 8, x := 0xA, y := 0xC },
    .shfl { la := 5, cond := 2, wcc := 1, d := 8, x := 0xA, y := 0xC },
    .vote { la := 5, cond := 2, d := 8, x := 0xA },
    .bcast { la := 5, cond := 2, d := 8, x := 0xA, y := 0xC },
    .lnrd { la := 5, cond := 2, d := 8, x := 0xA, y := 0xC },
    .xrd { la := 5, cond := 2, d := 8, x := 0xA },
    .ladd { la := 5, wcc := 1, d := 8, x := 0xA, y := 0xC },
    .ladc { la := 5, wcc := 1, d := 8, x := 0xA, y := 0xC },
    .lsub { la := 5, wcc := 1, d := 8, x := 0xA, y := 0xC },
    .lsbc { la := 5, wcc := 1, d := 8, x := 0xA, y := 0xC },
    .lneg { la := 5, wcc := 1, d := 8, x := 0xA },
    .lcmp { la := 5, wcc := 1, d := 8, x := 0xA, y := 0xC },
    .lshl { la := 5, wcc := 1, d := 8, x := 0xA, y := 0xC },
    .lshr { la := 5, wcc := 1, d := 8, x := 0xA, y := 0xC },
    .lsar { la := 5, wcc := 1, d := 8, x := 0xA, y := 0xC },
    .lmad { la := 5, wcc := 1, d := 8, x := 0xA, y := 0xC, z := 0xE }]
/-- LateRowsComplete, results of 32 bits. -/
theorem hyps_lateRow : ∀ i ∈ lateRows, HasL 1 lateLane i := each (by decide +kernel : lateRows.all (meetsL 1 lateLane) = true) meetsL_spec

def lateLongs : List Instr := [
    .vote { d := 8, x := 10, m := 3 },
    .matchI { la := 5, cond := 2, d := 8, x := 0xA },
    .lnrd { d := 8, x := 10, y := 12, m := 1 },
    .xrd { d := 0x108, x := 10 }]
/-- LateRowsComplete, results of 64 bits. -/
theorem hyps_lateLong : ∀ i ∈ lateLongs, HasL 2 late64 i := each (by decide +kernel : lateLongs.all (meetsL 2 late64) = true) meetsL_spec

def groupRows : List Instr := [
    .mts { d := 0x18E, x := 0x10A },
    .ccwr { cond := 2, x := 0xA },
    .lnwr { d := 8, x := 0xA, y := 0xC },
    .bind { imm := 1 },
    .unbind {},
    .amaxclr {},
    .nop { cond := 2 },
    .waitdc { cond := 2 }]
/-- GroupEffectsComplete. -/
theorem hyps_groupRow : ∀ i ∈ groupRows, HasE groupEffect i := each (by decide +kernel : groupRows.all (meetsE groupEffect) = true) meetsE_spec

/-- FloatRowsComplete, a result of 64 bits. -/
theorem hyps_ficvt64 : HasF 2 (fun _ x => if zfld x % 4 = 3 then some (ficvt64Row x) else none) (.ficvt { d := 8, x := 10, y := 12, z := 3 }) :=
  meetsF_spec (by decide +kernel)
/-- AmaxReadCompletes. -/
theorem hyps_amaxrd : ∃ s x prio, WellFormed (.amaxrd { d := 8 }) ∧ Issues s (.amaxrd { d := 8 }) x prio ∧ specWaits x 18 = false ∧ Free x (x.dests 1) :=
  have h : ready (here (.amaxrd { d := 8 })) (.amaxrd { d := 8 }) [] ((at0 (.amaxrd { d := 8 })).dests 1) = true := by decide +kernel
  ⟨_, _, _, (readyOf h).1, (readyOf h).2.1, by decide +kernel, (readyOf h).2.2.2.1⟩
/-- IntegerReductionsComplete and FloatReductionsComplete: integers of both widths, FP32 values, an exclusive scan. -/
def redRows : List Instr := [.red { d := 8, x := 10 }, .red { d := 8, x := 10, m := 7 }, .red { d := 8, x := 10, m := 0x10 }, .red { d := 0x108, x := 10, m := 1 },
  .scan { d := 8, x := 10, m := 2 }, .scan { d := 8, x := 10, m := 0x30 }]
def redFloats : List Instr := [.red { d := 8, x := 10, m := 8 }, .red { d := 8, x := 10, m := 10 }, .scan { d := 8, x := 10, m := 8 }, .scan { d := 8, x := 10, m := 0x29 }]
abbrev HasR (sel : Issue → Bool) (i : Instr) : Prop :=
  ∃ s x prio, WellFormed i ∧ Issues s i x prio ∧ sel x = true ∧ Readable [x.opX] ∧ Free x (x.dests (if redN x = 64 then 2 else 1))
def meetsR (sel : Issue → Bool) (i : Instr) : Bool :=
  sel (at0 i) && ready (here i) i [(at0 i).opX] ((at0 i).dests (if redN (at0 i) = 64 then 2 else 1))
theorem meetsR_spec {sel : Issue → Bool} {i : Instr} (h : meetsR sel i = true) : HasR sel i := by
  rw [meetsR, Bool.and_eq_true] at h
  exact ⟨_, _, _, (readyOf h.2).1, (readyOf h.2).2.1, h.1, (readyOf h.2).2.2.1, (readyOf h.2).2.2.2.1⟩
theorem hyps_redInt : ∀ i ∈ redRows, HasR (fun x => decide (redOp x < 8)) i := each (by decide +kernel : redRows.all (meetsR (fun x => decide (redOp x < 8))) = true) meetsR_spec
theorem hyps_redFloat : ∀ i ∈ redFloats, HasR (fun x => decide (8 ≤ redOp x) && x.g.fcr.extractLsb' 4 5 == 0#5) i :=
  each (by decide +kernel : redFloats.all (meetsR (fun x => decide (8 ≤ redOp x) && x.g.fcr.extractLsb' 4 5 == 0#5)) = true) meetsR_spec

/-! ## Control flow -/

theorem passAll {x : Issue} {f : Nat → DWord} {l : Nat} (h : x.act = x.e.mask) (hl : Mask.has x.e.mask l = true) : passOr x f l = f l := by
  simp [passOr, h, hl]
theorem passNone {x : Issue} {f : Nat → DWord} {l : Nat} (h : x.act = 0) : passOr x f l = x.hn := by simp [passOr, h, Mask.has]
theorem at64_uni {o : Opr} {a b : Word} {l : Nat} (h : o.lo = .uni a ∧ o.hi = .uni b) : o.at64 l = b ++ a := by simp [Opr.at64, h.1, h.2, VReg.lane]
theorem aside {x : Issue} {tgt : Nat → Option DWord} (h : x.g.limb.getLsbD 8 = false) : Together x tgt := fun k => by rw [h] at k; cases k

/-- V10 and V11 hold the address 0x40002000 of a header of priority 20. -/
def toV (g : Group) : Group := { g with v := [(10, .uni 0x40002000)] }
/-- The hypotheses of BranchesComplete. -/
abbrev HasBranch (i : Instr) : Prop := ∃ (s : State) (x : Issue) (prio : BitVec 8) (k : Branch) (pr : Nat → BitVec 8), WellFormed i ∧ Issues s i x prio ∧ branch i x = some k ∧ k.ok ∧ Readable k.srcs ∧ Free x k.dests ∧
    (∀ l, Mask.has x.e.mask l = true → HeaderAt x (passOr x k.tgt l) (pr l)) ∧ Together x (fun l => some (passOr x k.tgt l))
/-- Lanes that all pass go to one header; those that all fail go on to h'. -/
theorem branches_of {s : State} {i : Instr} {k : Branch} {t : DWord} (h : issues s i = true) (hb : branch i (pos s i) = some k) (ho : k.ok)
    (hr : (readable k.srcs && free (pos s i) k.dests) = true) (ht : ∀ l, k.tgt l = t) (hm : (pos s i).act = (pos s i).e.mask)
    (hd : (hdrIs (pos s i) t 20 && !(pos s i).g.limb.getLsbD 8) = true) : HasBranch i := by
  rw [Bool.and_eq_true] at hr hd
  refine ⟨_, _, _, k, fun _ => 20, (issued h).1, (issued h).2, hb, ho, readableOf hr.1, freeOf hr.2, fun l hl => ?_, aside (by simpa using hd.2)⟩
  rw [passAll hm hl, ht]
  exact headerAtOf hd.1
theorem branches_past {s : State} {i : Instr} {k : Branch} (h : issues s i = true) (hb : branch i (pos s i) = some k) (ho : k.ok)
    (hr : (readable k.srcs && free (pos s i) k.dests) = true) (hm : (pos s i).act = 0)
    (hd : (hdrIs (pos s i) (pos s i).hn 30 && !(pos s i).g.limb.getLsbD 8) = true) : HasBranch i := by
  rw [Bool.and_eq_true] at hr hd
  refine ⟨_, _, _, k, fun _ => 30, (issued h).1, (issued h).2, hb, ho, readableOf hr.1, freeOf hr.2, fun l _ => ?_, aside (by simpa using hd.2)⟩
  rw [passNone hm]
  exact headerAtOf hd.1
def iBr : Instr := .br { off := 0x200 }
def iBrx : Instr := .brx { x := 10 }
def iCall : Instr := .call { off := 0x200 }
def iCallx : Instr := .callx { d := 8, x := 10 }
def iCallxS : Instr := .callx { d := 0x108, x := 10 }
def iRet : Instr := .ret { x := 10 }
theorem hyps_br : HasBranch iBr := branches_of (s := st 0 iBr toV) (by decide +kernel) rfl trivial (by decide +kernel) (fun _ => rfl) (by decide +kernel) (by decide +kernel)
theorem hyps_call : HasBranch iCall := branches_of (s := st 0 iCall toV) (by decide +kernel) rfl trivial (by decide +kernel) (fun _ => rfl) (by decide +kernel) (by decide +kernel)
theorem hyps_brx : HasBranch iBrx :=
  branches_of (s := st 0 iBrx toV) (by decide +kernel) rfl trivial (by decide +kernel) (fun _ => at64_uni (a := 0x40002000) (b := 0) (by decide +kernel)) (by decide +kernel) (by decide +kernel)
theorem hyps_callx : HasBranch iCallx :=
  branches_of (s := st 0 iCallx toV) (by decide +kernel) rfl (fun _ => rfl) (by decide +kernel) (fun _ => at64_uni (a := 0x40002000) (b := 0) (by decide +kernel)) (by decide +kernel) (by decide +kernel)
theorem hyps_callxS : HasBranch iCallxS :=
  branches_of (s := st 0 iCallxS toV) (by decide +kernel) rfl (fun _ => rfl) (by decide +kernel) (fun _ => at64_uni (a := 0x40002000) (b := 0) (by decide +kernel)) (by decide +kernel) (by decide +kernel)
theorem hyps_ret : HasBranch iRet :=
  branches_of (s := st 0 iRet toV) (by decide +kernel) rfl trivial (by decide +kernel) (fun _ => at64_uni (a := 0x40002000) (b := 0) (by decide +kernel)) (by decide +kernel) (by decide +kernel)
/-- A branch that no lane takes. -/
theorem hyps_br_past : HasBranch (.br { cond := 1, off := 0x200 }) :=
  branches_past (s := st 0 (.br { cond := 1, off := 0x200 }) toV) (by decide +kernel) rfl trivial (by decide +kernel) (by decide +kernel) (by decide +kernel)

/-- ExitAndYieldComplete: the last thread ends; YIELD with a READY group on the core. -/
theorem hyps_exit : ∃ s x prio pr, WellFormed (.exitI {}) ∧ Issues s (.exitI {}) x prio ∧ (x.act ≠ x.e.mask → HeaderAt x x.hn pr) ∧
    Together x (fun l => if Mask.has x.act l then none else some x.hn) ∧ (lastOnes x → x.act = 0 ∨ (x.g.dc.all (· == 0) = true ∧ x.g.old.dc.all (· == 0) = true ∧ x.g.held = [])) :=
  have h : issues (st 0 (.exitI {})) (.exitI {}) = true := by decide +kernel
  ⟨_, _, _, 0, (issued h).1, (issued h).2, fun k => absurd (by decide +kernel) k, aside (by decide +kernel), fun _ => .inr (by decide +kernel)⟩
theorem hyps_exit_some : ∃ s x prio pr, WellFormed (.exitI { cond := 1 }) ∧ Issues s (.exitI { cond := 1 }) x prio ∧ x.act ≠ x.e.mask ∧ HeaderAt x x.hn pr ∧
    Together x (fun l => if Mask.has x.act l then none else some x.hn) :=
  have h : issues (st 0 (.exitI { cond := 1 }) (fun g => { g with z := 3 })) (.exitI { cond := 1 }) = true := by decide +kernel
  ⟨_, _, _, 30, (issued h).1, (issued h).2, by decide +kernel, headerAtOf (by decide +kernel), aside (by decide +kernel)⟩
theorem hyps_yield : ∃ s x prio pr, WellFormed (.yieldI {}) ∧ Issues s (.yieldI {}) x prio ∧ HeaderAt x x.hn pr ∧ x.act ≠ 0 ∧
    (∃ q ∈ s.groups, q.gid ≠ x.g.gid ∧ q.core = x.g.core ∧ q.st = .ready) ∧ (∀ w ∈ x.g.warps, w.wid ≠ x.w.wid → w.inClause = false) ∧
    ∀ e ∈ x.w.entries.drop 1, e.pc = e.h + 8 :=
  have h : issues { st 0 (.yieldI {}) with groups := [grp 0 (.yieldI {}), { noGroup with gid := 1, st := .ready }] } (.yieldI {}) = true := by decide +kernel
  ⟨_, _, _, 30, (issued h).1, (issued h).2, headerAtOf (by decide +kernel), by decide +kernel, by decide +kernel, by decide +kernel, by decide +kernel⟩
/-! ## Repeats, traps and returns -/

/-- Context 0 has both trap vectors at 0x40003000. -/
def vectored (s : State) : State := s.setCtx 0 (fun c => { c with tvec := 0x40003000, ptvec := 0x40003000 })
/-- RepeatCompletes: a REP of 4 of the IADD after it. -/
def sRep : State := at_ { grp 0 (.rep { imm := 0xC3 }) with
  warps := [{ wid := 0, entries := [{ prio := 40, pc := 0x40001008, mask := Mask.width 64, h := 0x40001000, cl := some { eng := 0, cnt := 1, yld := false, ws := [(encode (.rep { imm := 0xC3 })).getD 0 0, 0x0000008050300000] } }] }] }
theorem hyps_rep : ∃ s x prio, WellFormed (.rep { imm := 0xC3 }) ∧ Issues s (.rep { imm := 0xC3 }) x prio ∧ repFits x 3 3 := by
  have h : issues sRep (.rep { imm := 0xC3 }) = true := by decide +kernel
  refine ⟨_, _, _, (issued h).1, (issued h).2, fun w f hw hf => ?_⟩
  have e : clauseWord (pos sRep (.rep { imm := 0xC3 })).s (pos sRep (.rep { imm := 0xC3 })).g.core (pos sRep (.rep { imm := 0xC3 })).g.ctx (pos sRep (.rep { imm := 0xC3 })).priv
    (pos sRep (.rep { imm := 0xC3 })).e.mask (pos sRep (.rep { imm := 0xC3 })).cl (pos sRep (.rep { imm := 0xC3 })).e.h ((pos sRep (.rep { imm := 0xC3 })).e.pc + 8) =
      .word 0x0000008050300000 := by decide +kernel
  rw [e] at hw
  cases hw
  have m : opMap (pos sRep (.rep { imm := 0xC3 })).cl.eng (opcOf 0x0000008050300000) = some (fun w => .iadd (rOf w)) := rfl
  rw [m] at hf
  cases hf
  decide +kernel

/-- TrapsComplete: TRAP and BKPT that every lane, and no lane, passes; with a debugger attached BKPT enters the privileged vector. -/
theorem hyps_trap : ∃ s x prio pr, WellFormed (.trapI { imm := 7 }) ∧ Issues s (.trapI { imm := 7 }) x prio ∧ HeaderAt x x.hn pr ∧ x.act ≠ 0 ∧
    CanEnter x false (s.ctx x.g.ctx).tvec :=
  have h : issues (vectored (st 0 (.trapI { imm := 7 }))) (.trapI { imm := 7 }) = true := by decide +kernel
  ⟨_, _, _, 30, (issued h).1, (issued h).2, headerAtOf (by decide +kernel), by decide +kernel,
    .inl (by decide +kernel), by decide +kernel, 0xF03FC00000000000, by decide +kernel, by decide +kernel⟩
theorem hyps_trap_past : ∃ s x prio pr, WellFormed (.trapI { cond := 1 }) ∧ Issues s (.trapI { cond := 1 }) x prio ∧ HeaderAt x x.hn pr ∧ x.act = 0 :=
  have h : issues (vectored (st 0 (.trapI { cond := 1 }))) (.trapI { cond := 1 }) = true := by decide +kernel
  ⟨_, _, _, 30, (issued h).1, (issued h).2, headerAtOf (by decide +kernel), by decide +kernel⟩
theorem hyps_bkpt : ∃ s x prio, WellFormed (.bkpt {}) ∧ Issues s (.bkpt {}) x prio ∧ x.act ≠ 0 ∧ (s.ctx x.g.ctx).dbg = false ∧ CanEnter x false (s.ctx x.g.ctx).tvec :=
  have h : issues (vectored (st 0 (.bkpt {}))) (.bkpt {}) = true := by decide +kernel
  ⟨_, _, _, (issued h).1, (issued h).2, by decide +kernel, by decide +kernel,
    .inl (by decide +kernel), by decide +kernel, 0xF03FC00000000000, by decide +kernel, by decide +kernel⟩
theorem hyps_bkpt_debug : ∃ s x prio, WellFormed (.bkpt {}) ∧ Issues s (.bkpt {}) x prio ∧ x.act ≠ 0 ∧ (s.ctx x.g.ctx).dbg = true ∧ CanEnter x true (s.ctx x.g.ctx).ptvec :=
  have h : issues ((vectored (st 0 (.bkpt {}))).setCtx 0 (fun c => { c with dbg := true })) (.bkpt {}) = true := by decide +kernel
  ⟨_, _, _, (issued h).1, (issued h).2, by decide +kernel, by decide +kernel,
    .inl (by decide +kernel), by decide +kernel, 0xF03FC00000000000, by decide +kernel, by decide +kernel⟩
theorem hyps_bkpt_past : ∃ s x prio pr, WellFormed (.bkpt { cond := 1 }) ∧ Issues s (.bkpt { cond := 1 }) x prio ∧ x.act = 0 ∧ HeaderAt x x.hn pr :=
  have h : issues (st 0 (.bkpt { cond := 1 })) (.bkpt { cond := 1 }) = true := by decide +kernel
  ⟨_, _, _, 30, (issued h).1, (issued h).2, by decide +kernel, headerAtOf (by decide +kernel)⟩

/-- Fetching reads no group. -/
theorem walk_groups (s : State) (gs : List Group) (vpn : Nat) : ∀ n tab, walk { s with groups := gs } vpn n tab = walk s vpn n tab
  | 0, _ => rfl
  | n + 1, tab => by
    unfold walk
    simp only [walk_groups s gs vpn n]
    rfl
theorem access_groups (s : State) (gs : List Group) (core ctx : Nat) (k : AccK) (v : Nat) : accessTr { s with groups := gs } core ctx k v = accessTr s core ctx k v := by
  have a : tlbFind { s with groups := gs } = tlbFind s := rfl
  have b : walkStart { s with groups := gs } = walkStart s := rfl
  have c : State.ctx { s with groups := gs } = s.ctx := rfl
  have d : State.nodeId { s with groups := gs } = s.nodeId := rfl
  have t : tenantTr { s with groups := gs } = tenantTr s := by
    funext p x
    simp only [tenantTr, walk_groups s gs]
  have e : Machine.translate { s with groups := gs } core ctx v = Machine.translate s core ctx v := by
    simp only [Machine.translate, walk_groups s gs, a, b, c]
  simp only [accessTr, c, d, e, t]
theorem fetch_groups {s : State} (hr : s.regions = []) (gs : List Group) (core ctx : Nat) (priv : Bool) (m : Mask) (va : DWord) :
    fetchWord { s with groups := gs } core ctx priv m va = fetchWord s core ctx priv m va := by
  have a : recoverable { s with groups := gs } = recoverable s := rfl
  have b : State.icHit { s with groups := gs } = s.icHit := rfl
  have c : State.lineSt { s with groups := gs } = s.lineSt := rfl
  have d : State.poisoned { s with groups := gs } = s.poisoned := rfl
  have e : State.rdBytes { s with groups := gs } = s.rdBytes := rfl
  have f (a : Nat) : gateOpen { s with groups := gs } a false = gateOpen s a false := by simp [gateOpen, hr]
  simp only [fetchWord, fetchVia, access_groups, a, b, c, d, e, f]
def cIadd : Clause := { eng := 0, cnt := 1, yld := false, ws := [0x0000008050300000, 0x0000008050300000] }
def eIadd : Entry := { prio := 40, pc := 0x40001008, mask := Mask.width 64, h := 0x40001000, cl := some cIadd }
def wIadd : Warp := { wid := 0, entries := [eIadd] }
def hand (c : Word) : Handler :=
  { priv := false, tam := Mask.width 64, tfm := 1, tcause := c, tpc := 0x40001008, tprio := 40, taddr := 0, tinfo := 0, rpc := 0, frozen := [0], intr := some 0 }
/-- A group in a handler for cause `c`, at its RTT. -/
def interrupted (c : Word) : State :=
  let w := (encode (.rtt {})).getD 0 0
  let e : Entry := { prio := 255, pc := 0x40003008, mask := Mask.width 64, h := 0x40003000, cl := some { eng := 0, cnt := 0, yld := false, ws := [w] } }
  { vectored (at_ { grp 0 (.rtt {}) with warps := [wIadd, { wid := 1, entries := [e] }], handlers := [hand c] }) with issuer := some { gid := 0, wid := 1 } }
/-- HandlerReturnCompletes. -/
theorem hyps_rtt : ∃ (s : State) (x : Issue) (prio : BitVec 8) (d : Handler) (r : List Handler) (w : Warp) (e : Entry) (es : List Entry), WellFormed (.rtt {}) ∧
    Issues s (.rtt {}) x prio ∧ x.g.handlers = d :: r ∧ d.intr = some w.wid ∧ x.g.warp w.wid = some w ∧ w.entries = e :: es ∧ d.tam ≠ 0 ∧
    d.frozen.contains w.wid = true ∧ d.tcause.toNat % 256 ≠ 0x07 ∧ d.tcause.toNat % 256 ≠ 0x08 ∧ x.g.dead = false :=
  have h : issues (interrupted 1) (.rtt {}) = true := by decide +kernel
  ⟨interrupted 1, pos (interrupted 1) (.rtt {}), _, hand 1, [], wIadd, eIadd, [], (issued h).1, (issued h).2, by decide +kernel⟩
theorem hyps_rtt_past : ∃ (s : State) (x : Issue) (prio : BitVec 8) (d : Handler) (w : Warp) (e : Entry) (es : List Entry) (cl : Clause) (hw : DWord),
    WellFormed (.rtt {}) ∧ Issues s (.rtt {}) x prio ∧ x.g.handlers = [d] ∧ d.intr = some w.wid ∧ x.g.warp w.wid = some w ∧
    w.entries = e :: es ∧ e.cl = some cl ∧ d.tam ≠ 0 ∧ d.frozen.contains w.wid = true ∧
    (d.tcause.toNat % 256 = 0x07 ∨ d.tcause.toNat % 256 = 0x08) ∧ x.g.dead = false ∧
    (∀ q ∈ es, q.pc ≠ e.pc ∧ q.prio.toNat ≤ (d.tprio.extractLsb' 0 8).toNat ∧ (q.prio = d.tprio.extractLsb' 0 8 → e.pc.toNat < q.pc.toNat)) ∧
    (∀ gs, fetchWord { s with groups := gs } x.g.core x.g.ctx false d.tam (e.h + BitVec.ofNat 64 (8 * (cl.cnt + 2))) = .word hw) ∧ hdrMark hw = true :=
  have h : issues (interrupted 7) (.rtt {}) = true := by decide +kernel
  ⟨interrupted 7, pos (interrupted 7) (.rtt {}), _, hand 7, wIadd, eIadd, [], cIadd, 0xF047800000000000, (issued h).1, (issued h).2, by decide +kernel, by decide +kernel, by decide +kernel, by decide +kernel, by decide +kernel, by decide +kernel, by decide +kernel,
    .inl (by decide +kernel), by decide +kernel, by simp, fun gs => (fetch_groups rfl gs ..).trans (by decide +kernel), by decide +kernel⟩

/-! ## Barriers, rings, events and fences -/

def iBar : Instr := .bar { x := 0x1C1, m := 0x13 }
def iCbar : Instr := .cbar { x := 0x1C2, m := 0x03 }
/-- BarriersComplete: released, and not, with the largest count that a team of one group admits. -/
theorem hyps_bar_released : HasIssue iBar (fun _ x => x.w.released = true) := has (s := st 0 iBar relw) (by decide +kernel) (by decide +kernel)
theorem hyps_bar : HasIssue iBar (fun _ x => x.w.released = false ∧ Readable [x.opX] ∧ UniOk x x.opX ∧ uni32 x.opX = x.tm.ngrp) :=
  has (s := st 0 iBar) (by decide +kernel) ⟨by decide +kernel, readableOf (by decide +kernel), .inl (by decide +kernel), by decide +kernel⟩
theorem hyps_cbar_released : HasIssue iCbar (fun _ x => x.w.released = true) := has (s := st 0 iCbar relw) (by decide +kernel) (by decide +kernel)
theorem hyps_cbar : HasIssue iCbar (fun _ x => x.w.released = false ∧ Readable [x.opX] ∧ UniOk x x.opX ∧ 1 ≤ uni32 x.opX ∧ uni32 x.opX ≤ 4096) :=
  has (s := st 0 iCbar) (by decide +kernel) ⟨by decide +kernel, readableOf (by decide +kernel), .inl (by decide +kernel), by decide +kernel, by decide +kernel⟩
theorem hyps_cbar_ends : HasIssue (.cbar { x := 0x1C1 }) (fun _ x => x.w.released = false ∧ Readable [x.opX] ∧ UniOk x x.opX ∧ uni32 x.opX = 1) :=
  has (s := st 0 (.cbar { x := 0x1C1 })) (by decide +kernel) ⟨by decide +kernel, readableOf (by decide +kernel), .inl (by decide +kernel), by decide +kernel⟩
/-- Two warps of the group wait at a BAR. -/
def eBar : Entry := { prio := 40, pc := 0x40001008, mask := 0xFF, h := 0x40001000 }
def waitsAt (wt : Wait) : Group := { grp 0 .xfence with warps := [{ wid := 0, entries := [eBar], wait := wt }, { wid := 1, entries := [{ eBar with mask := 0xFF00 }], wait := wt }] }
theorem gathered_of {s : State} {g : Group} {w : Warp} {pc : DWord} {wt : Wait} {p : Wait → Prop} (h : g.warps.head? = some w ∧ w.wait = wt)
    (ha : g.warps.all (fun q => !q.parked && (match q.entries with | [e] => e.pc == pc && e.mask != 0 | _ => false)) = true) (hp : ∀ q ∈ g.warps, p q.wait)
    (ho : g.stopped = false ∧ w.arrived = false ∧ w.fence = none ∧ teamHolds s g = false) : Gathered s g w pc wt p := by
  refine ⟨h, fun q hq => ?_, ho⟩
  have k := List.all_eq_true.1 ha q hq
  rw [Bool.and_eq_true] at k
  refine ⟨by simpa using k.1, ?_, hp q hq⟩
  have k := k.2
  split at k
  · rename_i e he
    simp only [Bool.and_eq_true, beq_iff_eq, bne_iff_ne] at k
    exact ⟨e, he, k⟩
  · cases k
/-- A PINV, of this number and group, is in the Crook. -/
def inverting (rid gid : Nat) (s : State) : State :=
  s.setCore 0 (fun c => { c with crook := [{ rid := rid, gid := gid, wid := 0, team := 0, kind := .pinv, pd := 1, pa := 2, val := PReg.ofPerm 2 [2, 0, 3, 1] }] })
/-- A load from a team's scratchpad, of this number and group, is on its way. -/
def fetching (rid gid node : Nat) (s : State) : State :=
  { s with reqs := [{ rid := rid, gid := gid, wid := 0, core := 0, ctx := 0, kind := .load, dc := 6, parts := [{ line := 0, accs := [], cls := 0, node := node }], lanes := 1, inCluster := true }] }
theorem permIdle_of {s : State} {g : Group} {n : Nat} (h : (s.core g.core).crook.any (fun o => o.gid == g.gid && decide (o.rid < n)) = false) : ¬ PermWaits s g n :=
  fun ⟨o, hm, hg, hr, _⟩ => by
    have k := List.any_eq_false.1 h o hm
    simp [hg, hr] at k
theorem permWaits_of {s : State} {g : Group} {n : Nat} (h : ∃ o ∈ (s.core g.core).crook, o.gid = g.gid ∧ o.rid < n ∧ o.kind ∈ [.pldi, .plds, .pcomp, .pinv, .prand, .pidn]) :
    PermWaits s g n := h
theorem scratchIdle_of {s : State} {g : Group} {n : Nat} {q : Nat → Prop} (d : Nat → Bool) (hd : ∀ k, q k → d k = true)
    (h : s.reqs.any (fun r => r.gid == g.gid && decide (r.rid < n) && r.parts.any (fun p => d p.node)) = false) : ¬ ScratchWaits s g n q :=
  fun ⟨r, hm, hg, _, hr, p, hp, _, hq⟩ => by
    have k := List.any_eq_false.1 h r hm
    simp only [hg, beq_self_eq_true, hr, decide_true, Bool.true_and, List.any_eq_true, not_exists] at k
    exact k p ⟨hp, hd _ hq⟩
theorem barIdle_of {s : State} {g : Group} (h : (s.core g.core).crook.any (fun o => o.gid == g.gid && decide (o.rid < s.nextId)) = false)
    (k : s.reqs.any (fun r => r.gid == g.gid && decide (r.rid < s.nextId) && r.parts.any (fun p => p.node == g.team)) = false) : ¬ BarWaits s g :=
  fun o => o.elim (permIdle_of h) (scratchIdle_of (fun t => t == g.team) (fun _ e => by simp [e]) k)
theorem anyIdle_of {s : State} {g : Group} {n : Nat} (k : s.reqs.any (fun r => r.gid == g.gid && decide (r.rid < n) && r.parts.any (fun _ => true)) = false) :
    ¬ ScratchWaits s g n (fun _ => True) := scratchIdle_of (fun _ => true) (fun _ _ => rfl) k
theorem ringIdle_of {s : State} {g : Group} {n : Nat} (h : (s.core g.core).crook.any (fun o => o.gid == g.gid && decide (o.rid < n)) = false)
    (k : s.reqs.any (fun r => r.gid == g.gid && decide (r.rid < n) && r.parts.any (fun _ => true)) = false) : ¬ RingWaits s g n :=
  fun o => o.elim (permIdle_of h) (anyIdle_of k)
/-- The group's own write is still in the Crook; an access of its own to its team's scratchpad, or at a CBAR to another's, is on its way. -/
theorem hyps_arrival_perm : ∃ (s : State) (g : Group) (w : Warp) (pc : DWord) (b n : Nat), s.group 0 = some g ∧ g.gid = 0 ∧
    Gathered s g w pc (.bar b n false) (fun v => ∃ m, v = .bar b m false) ∧ BarWaits s g :=
  ⟨inverting 0 0 { at_ (waitsAt (.bar 3 1 false)) with nextId := 1 }, waitsAt (.bar 3 1 false), _, 0x40001008, 3, 1, by decide +kernel, by decide +kernel, gathered_of ⟨rfl, rfl⟩ (by decide +kernel : _ = true)
    (fun q hq => ⟨1, (by decide +kernel : ∀ q ∈ (waitsAt (.bar 3 1 false)).warps, q.wait = .bar 3 1 false) q hq⟩) (by decide +kernel), .inl (permWaits_of (by decide +kernel))⟩
theorem hyps_arrival_scratch : ∃ (s : State) (g : Group) (w : Warp) (pc : DWord) (b n : Nat), s.group 0 = some g ∧ g.gid = 0 ∧
    Gathered s g w pc (.bar b n true) (fun v => ∃ m, v = .bar b m true) ∧ BarWaits s g :=
  ⟨fetching 0 0 0 { at_ (waitsAt (.bar 3 1 true)) with nextId := 1 }, waitsAt (.bar 3 1 true), _, 0x40001008, 3, 1, by decide +kernel, by decide +kernel, gathered_of ⟨rfl, rfl⟩ (by decide +kernel : _ = true)
    (fun q hq => ⟨1, (by decide +kernel : ∀ q ∈ (waitsAt (.bar 3 1 true)).warps, q.wait = .bar 3 1 true) q hq⟩) (by decide +kernel),
    .inr ⟨_, List.mem_singleton.2 rfl, by decide +kernel, by decide +kernel, by decide +kernel, _, List.mem_singleton.2 rfl, by decide +kernel, by decide +kernel⟩⟩
theorem hyps_arrival_cluster_waits : ∃ (s : State) (g : Group) (w : Warp) (pc : DWord) (b n : Nat), s.group 0 = some g ∧ g.gid = 0 ∧
    Gathered s g w pc (.cbar b n true) (fun v => ∃ m, v = .cbar b m true) ∧ ScratchWaits s g s.nextId (fun _ => True) :=
  ⟨fetching 0 0 1 { at_ (waitsAt (.cbar 3 1 true)) with nextId := 1 }, waitsAt (.cbar 3 1 true), _, 0x40001008, 3, 1, by decide +kernel, by decide +kernel, gathered_of ⟨rfl, rfl⟩ (by decide +kernel : _ = true)
    (fun q hq => ⟨1, (by decide +kernel : ∀ q ∈ (waitsAt (.cbar 3 1 true)).warps, q.wait = .cbar 3 1 true) q hq⟩) (by decide +kernel),
    ⟨_, List.mem_singleton.2 rfl, by decide +kernel, by decide +kernel, by decide +kernel, _, List.mem_singleton.2 rfl, by decide +kernel, trivial⟩⟩
/-- The first arrival at a barrier, with a fence to come, and with none. -/
theorem hyps_arrival : ∃ (s : State) (g : Group) (w : Warp) (pc : DWord) (b n : Nat), s.group 0 = some g ∧ g.gid = 0 ∧
    Gathered s g w pc (.bar b n true) (fun v => ∃ m, v = .bar b m true) ∧ ¬ BarWaits s g ∧ w.pass ≠ 2 :=
  ⟨fetching 0 0 1 (inverting 0 1 { at_ (waitsAt (.bar 3 1 true)) with nextId := 1 }), waitsAt (.bar 3 1 true), _, 0x40001008, 3, 1, by decide +kernel, by decide +kernel, gathered_of ⟨rfl, rfl⟩ (by decide +kernel : _ = true)
    (fun q hq => ⟨1, (by decide +kernel : ∀ q ∈ (waitsAt (.bar 3 1 true)).warps, q.wait = .bar 3 1 true) q hq⟩) (by decide +kernel), barIdle_of (by decide +kernel) (by decide +kernel), by decide +kernel⟩
theorem hyps_arrival_counted : ∃ (s : State) (g : Group) (w : Warp) (pc : DWord) (b n : Nat), s.group 0 = some g ∧ g.gid = 0 ∧
    Gathered s g w pc (.bar b n false) (fun v => ∃ m, v = .bar b m false) ∧ ¬ BarWaits s g ∧ HasTeam s g.team ∧ (barOf s g.team b).cnt = 0 :=
  ⟨at_ (waitsAt (.bar 3 0 false)), waitsAt (.bar 3 0 false), _, 0x40001008, 3, 0, by decide +kernel, by decide +kernel, gathered_of ⟨rfl, rfl⟩ (by decide +kernel : _ = true)
    (fun q hq => ⟨0, (by decide +kernel : ∀ q ∈ (waitsAt (.bar 3 0 false)).warps, q.wait = .bar 3 0 false) q hq⟩) (by decide +kernel), barIdle_of (by decide +kernel) (by decide +kernel), ⟨team0, by decide +kernel, rfl⟩, by decide +kernel⟩
theorem hyps_arrival_cluster : ∃ (s : State) (g : Group) (w : Warp) (pc : DWord) (b n : Nat), s.group 0 = some g ∧ g.gid = 0 ∧
    Gathered s g w pc (.cbar b n false) (fun v => ∃ m, v = .cbar b m false) ∧ ¬ ScratchWaits s g s.nextId (fun _ => True) ∧ clusterOf g.core < s.clusters.length ∧ ((s.cluster (clusterOf g.core)).cbar g.ctx b).1.cnt = 0 :=
  ⟨at_ (waitsAt (.cbar 3 1 false)), waitsAt (.cbar 3 1 false), _, 0x40001008, 3, 1, by decide +kernel, by decide +kernel, gathered_of ⟨rfl, rfl⟩ (by decide +kernel : _ = true)
    (fun q hq => ⟨1, (by decide +kernel : ∀ q ∈ (waitsAt (.cbar 3 1 false)).warps, q.wait = .cbar 3 1 false) q hq⟩) (by decide +kernel), anyIdle_of (by decide +kernel), by decide +kernel, by decide +kernel⟩
/-- A barrier that the one group expected has reached. -/
def atBar : State :=
  { at_ (warped (fun w => { w with arrived := true }) (waitsAt (.bar 3 1 false))) with teams := [{ team0 with barriers := [(3, { exp := 1, cnt := 1, arrived := 1, full := true })] }] }
theorem hyps_release : ∃ (s : State) (g : Group) (w : Warp), HasTeam s 0 ∧ (barOf s 0 3).full = true ∧ s.group 0 = some g ∧ g.gid = 0 ∧
    g.team = 0 ∧ (barOf s 0 3).arrived.getLsbD g.index = true ∧ g.warp 1 = some w ∧ w.wid = 1 ∧ w.wait = .bar 3 1 false ∧ w.arrived = true :=
  ⟨atBar, _, _, ⟨_, List.mem_singleton.2 rfl, rfl⟩, by decide +kernel, rfl, by decide +kernel, by decide +kernel, by decide +kernel, rfl, by decide +kernel, by decide +kernel, by decide +kernel⟩
def atCbar : State := (at_ (warped (fun w => { w with arrived := true }) (waitsAt (.cbar 3 1 false)))).setCluster 0 (fun c => { c with fclk := 4, relAt := [(0, 4)] })
theorem hyps_cbar_release : ∃ (s : State) (g : Group) (w : Warp), 0 < s.clusters.length ∧ s.group 0 = some g ∧ g.gid = 0 ∧ g.ctx = 0 ∧ (0, 4) ∈ (s.cluster 0).relAt ∧
    4 ≤ (s.cluster 0).fclk ∧ g.warp 0 = some w ∧ w.wid = 0 ∧ w ∈ g.warps ∧ w.wait = .cbar 3 1 false ∧ w.arrived = true :=
  ⟨atCbar, _, _, by decide +kernel, rfl, by decide +kernel, by decide +kernel, by decide +kernel, by decide +kernel, rfl, by decide +kernel, by decide +kernel, by decide +kernel, by decide +kernel⟩

/-- RingsComplete: a ring of one stage of one arrival. -/
def ringed (s : State) : State := { s with teams := [{ team0 with rings := [(2, { e := 1, stages := [{}, {}] })] }] }
def iArr (z : BitVec 9) : Instr := .arrive { x := 0x1C1, z := z, m := 0x11 }
theorem hyps_arrive_none : HasIssue (.arrive { cond := 1, x := 0x1C1, z := 6, m := 0x11 }) (fun _ x => x.act = 0) :=
  has (s := ringed (st 0 (.arrive { cond := 1, x := 0x1C1, z := 6, m := 0x11 }))) (by decide +kernel) (by decide +kernel)
theorem mayArrive_of {s : State} {tid r k c : Nat} (h : ∃ t ∈ s.teams, t.tid = tid) (o : ringOk (s.team tid) r k = true ∧ 1 ≤ (stageOf s tid r k).pend ∧ 1 ≤ c ∧ c ≤ ringE s tid r) :
    MayArrive s tid r k c := ⟨h, o.1, o.2.1, o.2.2⟩
theorem hyps_arrive : HasIssue (iArr 6) (fun s x => x.act ≠ 0 ∧ Readable [x.opX] ∧ x.opX.uni = true ∧ MayArrive s x.g.team 2 1 (uni32 x.opX) ∧ ¬ RingWaits s x.g s.nextId) :=
  has (s := ringed (st 0 (iArr 6))) (by decide +kernel)
    ⟨by decide +kernel, readableOf (by decide +kernel), by decide +kernel, mayArrive_of ⟨_, List.mem_singleton.2 rfl, rfl⟩ (by decide +kernel), ringIdle_of (by decide +kernel) (by decide +kernel)⟩
theorem hyps_arrive_perm : HasIssue (iArr 6) (fun s x => x.act ≠ 0 ∧ Readable [x.opX] ∧ x.opX.uni = true ∧ MayArrive s x.g.team 2 1 (uni32 x.opX) ∧ RingWaits s x.g s.nextId) :=
  has (s := inverting 0 0 { ringed (st 0 (iArr 6)) with nextId := 1 }) (by decide +kernel)
    ⟨by decide +kernel, readableOf (by decide +kernel), by decide +kernel, mayArrive_of ⟨_, List.mem_singleton.2 rfl, rfl⟩ (by decide +kernel), Or.inl (permWaits_of (by decide +kernel))⟩
theorem hyps_arrive_deferred : HasIssue (iArr 5) (fun s x => x.act ≠ 0 ∧ Readable [x.opX] ∧ x.opX.uni = true ∧ MayArrive s x.g.team 2 1 (uni32 x.opX) ∧ x.g.deferred.length < 4) :=
  has (s := ringed (st 0 (iArr 5))) (by decide +kernel)
    ⟨by decide +kernel, readableOf (by decide +kernel), by decide +kernel, mayArrive_of ⟨_, List.mem_singleton.2 rfl, rfl⟩ (by decide +kernel), by decide +kernel⟩
def gDef : Group := { grp 0 .xfence with deferred := [{ ring := 2, stage := 1, c := 1, dc := 5 }] }
theorem hyps_arrival_apply : ∃ (s : State) (g : Group) (d : Arrival) (r : List Arrival), s.group 0 = some g ∧ g.gid = 0 ∧ g.deferred = d :: r ∧
    MayArrive s g.team d.ring d.stage d.c ∧ g.old.dcv d.dc = 0 ∧ ¬ RingWaits s g d.upto :=
  ⟨inverting 0 0 (ringed (at_ gDef)), gDef, _, _, rfl, by decide +kernel, rfl, mayArrive_of ⟨_, List.mem_singleton.2 rfl, rfl⟩ (by decide +kernel), by decide +kernel, ringIdle_of (by decide +kernel) (by decide +kernel)⟩
/-- A write that came before the arrival holds it. -/
def gDefP : Group := { grp 0 .xfence with deferred := [{ ring := 2, stage := 1, c := 1, dc := 5, upto := 1 }] }
theorem hyps_arrival_held : ∃ (s : State) (g : Group) (d : Arrival) (r : List Arrival), s.group 0 = some g ∧ g.gid = 0 ∧ g.deferred = d :: r ∧
    MayArrive s g.team d.ring d.stage d.c ∧ RingWaits s g d.upto :=
  ⟨inverting 0 0 (ringed (at_ gDefP)), gDefP, _, _, rfl, by decide +kernel, rfl, mayArrive_of ⟨_, List.mem_singleton.2 rfl, rfl⟩ (by decide +kernel), Or.inl (permWaits_of (by decide +kernel))⟩
def iWaitph (x : BitVec 9) : Instr := .waitph { x := x, m := 0x11 }
theorem hyps_waitph_released : HasIssue (iWaitph 0x1C1) (fun _ x => x.w.released = true ∨ x.act = 0) := has (s := ringed (st 0 (iWaitph 0x1C1) relw)) (by decide +kernel) (by decide +kernel)
/-- In the phase it names, and in the other. -/
theorem hyps_waitph : ∀ v : BitVec 9, v = 0x1C0 ∨ v = 0x1C1 → HasIssue (iWaitph v) (fun _ x => x.w.released = false ∧ x.act ≠ 0 ∧ Readable [x.opX] ∧ x.opX.uni = true ∧ ringOk x.tm 2 1 = true) := by
  rintro v (rfl | rfl)
  · exact has (s := ringed (st 0 (iWaitph 0x1C0))) (by decide +kernel) ⟨by decide +kernel, by decide +kernel, readableOf (by decide +kernel), by decide +kernel, by decide +kernel⟩
  · exact has (s := ringed (st 0 (iWaitph 0x1C1))) (by decide +kernel) ⟨by decide +kernel, by decide +kernel, readableOf (by decide +kernel), by decide +kernel, by decide +kernel⟩

/-- NamedEventsComplete: event 2 of context 0 has COUNT 0: a wait for 0 goes on, one for 1 waits. -/
def iEvw (y : BitVec 9) : Instr := .evwait { x := 0x1C2, y := y, m := 1 }
def iEvp : Instr := .evpost { x := 0x1C2, y := 0x1C1 }
theorem hyps_evwait_on : HasIssue (iEvw 0x1C1) (fun _ x => x.act = 0 ∨ (x.w.released = true ∧ x.w.snap = [])) := has (s := st 0 (iEvw 0x1C1) relw) (by decide +kernel) (by decide +kernel)
abbrev EvHyps (s : State) (x : Issue) : Prop := x.act ≠ 0 ∧ x.w.released = false ∧ Readable [x.opX, x.opY] ∧ EvOk x ∧ (s.event x.g.ctx (uni64 x.opX)).stream = none
theorem hyps_evwait : HasIssue (iEvw 0x1C0) (fun s x => EvHyps s x ∧ uni64 x.opY ≤ (s.event x.g.ctx (uni64 x.opX)).count) :=
  has (s := st 0 (iEvw 0x1C0)) (by decide +kernel)
    ⟨⟨by decide +kernel, by decide +kernel, readableOf (by decide +kernel), ⟨by decide +kernel, by decide +kernel, by decide +kernel, by decide +kernel⟩, by decide +kernel⟩, by decide +kernel⟩
theorem hyps_evwait_waits : HasIssue (iEvw 0x1C1) (fun s x => EvHyps s x ∧ (s.event x.g.ctx (uni64 x.opX)).count < uni64 x.opY ∧ eventRoom s x.g.ctx (uni64 x.opX) true = true) :=
  has (s := st 0 (iEvw 0x1C1)) (by decide +kernel)
    ⟨⟨by decide +kernel, by decide +kernel, readableOf (by decide +kernel), ⟨by decide +kernel, by decide +kernel, by decide +kernel, by decide +kernel⟩, by decide +kernel⟩, by decide +kernel, by decide +kernel⟩
/-- Thirty-two wait already, and no spill area stands. -/
theorem hyps_evwait_full : HasIssue (iEvw 0x1C1) (fun s x => EvHyps s x ∧ (s.event x.g.ctx (uni64 x.opX)).count < uni64 x.opY ∧ eventRoom s x.g.ctx (uni64 x.opX) true = false) :=
  has (s := { st 0 (iEvw 0x1C1) with events := [{ ctx := 0, ev := 2, waiters := List.replicate 32 { a := 9, b := 0, v := 1, dec := false } }] }) (by decide +kernel)
    ⟨⟨by decide +kernel, by decide +kernel, readableOf (by decide +kernel), ⟨by decide +kernel, by decide +kernel, by decide +kernel, by decide +kernel⟩, by decide +kernel⟩, by decide +kernel, by decide +kernel⟩
theorem hyps_evpost_none : HasIssue (.evpost { cond := 1, x := 0x1C2, y := 0x1C1 }) (fun _ x => x.act = 0) := has (s := st 0 (.evpost { cond := 1, x := 0x1C2, y := 0x1C1 })) (by decide +kernel) (by decide +kernel)
theorem hyps_evpost : HasIssue iEvp (fun s x => x.act ≠ 0 ∧ Readable [x.opX, x.opY] ∧ EvOk x ∧
    (x.w.pass ≠ 0 ∨ ((∀ r ∈ s.reqs, r.gid = x.g.gid → r.kind = .load) ∧ x.g.gw + 2 ≤ s.bw)) ∧ MayPost s x.g.ctx (uni64 x.opX) false) :=
  has (s := { st 0 iEvp with bw := 2 }) (by decide +kernel)
    ⟨by decide +kernel, readableOf (by decide +kernel), ⟨by decide +kernel, by decide +kernel, by decide +kernel, by decide +kernel⟩,
      .inr ⟨by decide +kernel, by decide +kernel⟩, .inr (by decide +kernel), by decide +kernel⟩
theorem hyps_evpost_waits : HasIssue iEvp (fun s x => x.act ≠ 0 ∧ Readable [x.opX, x.opY] ∧ EvOk x ∧ x.w.pass = 0 ∧ s.bw < x.g.gw + 2) :=
  has (s := st 0 iEvp) (by decide +kernel)
    ⟨by decide +kernel, readableOf (by decide +kernel), ⟨by decide +kernel, by decide +kernel, by decide +kernel, by decide +kernel⟩, by decide +kernel, by decide +kernel⟩

/-- FencesComplete: a fence of the package, whose skew of 40 has passed. -/
def iFence : Instr := .fence { scope := 6, dc := 6 }
def iCpub : Instr := .cpub { d := 0x1C1, x := 0x1C0, scope := 3, dc := 6 }
def passed : Group → Group := warped (fun w => { w with pass := 1 })
theorem hyps_fence_ended : HasIssue iFence (fun _ x => x.act = 0 ∨ (x.w.pass ≠ 0 ∧ ∀ q ∈ x.g.held, q.1 ≠ 6)) := has (s := st 0 iFence passed) (by decide +kernel) (by decide +kernel)
theorem hyps_fence : HasIssue iFence (fun _ x => x.act ≠ 0 ∧ x.w.pass = 0 ∧ ∀ q ∈ x.g.held, q.1 ≠ 6) := has (s := st 0 iFence) (by decide +kernel) (by decide +kernel)
def wFenced : Warp := { wid := 0, entries := [eBar], wait := .fence, fence := some { scope := 6, upto := 1 } }
theorem hyps_fence_complete : ∃ (s : State) (g : Group) (w : Warp) (f : FenceSt), s.group 0 = some g ∧ g.gid = 0 ∧ g.warp 0 = some w ∧ w.fence = some f ∧ g.stopped = false ∧ Fenced s g f :=
  ⟨{ at_ { grp 0 .xfence with warps := [wFenced] } with bw := 40 }, { grp 0 .xfence with warps := [wFenced] }, wFenced, _, rfl, by decide +kernel, by decide +kernel, rfl, by decide +kernel,
    ⟨by decide +kernel, by decide +kernel⟩⟩
theorem hyps_cpub_none : HasIssue (.cpub { cond := 1, d := 0x1C1, x := 0x1C0, scope := 3, dc := 6 }) (fun _ x => x.act = 0) :=
  has (s := st 0 (.cpub { cond := 1, d := 0x1C1, x := 0x1C0, scope := 3, dc := 6 })) (by decide +kernel) (by decide +kernel)
theorem rangeOk_page {x : Issue} {a len : Nat} (h : 1 ≤ len ∧ a + len ≤ 4096) (ha : a < 4096) {pa : Nat} {lf : Leaf} (k : accessTr x.s x.g.core x.g.ctx .read 0 = .ok pa lf) :
    RangeOk x a len := by
  refine ⟨h.1, by omega, fun va hv _ hl => ?_⟩
  have : va = 0 := by omega
  exact ⟨pa, lf, this ▸ k⟩
theorem hyps_cpub : ∀ f : Group → Group, f = id ∨ f = passed → HasIssue iCpub (fun _ x => x.act ≠ 0 ∧ Readable [x.opX, x.opD] ∧ x.opX.uni = true ∧ x.opD.uni = true ∧
    RangeOk x (uni64 x.opX) (uni64 x.opD) ∧ (x.w.pass = 0 ↔ f = id)) := by
  have hne : id ≠ passed := fun h => absurd (congrFun h (grp 0 iCpub)) (by decide +kernel)
  rintro f (rfl | rfl)
  · exact has (s := st 0 iCpub id) (by decide +kernel)
      ⟨by decide +kernel, readableOf (by decide +kernel), by decide +kernel, by decide +kernel, rangeOk_page (pa := 0) (lf := dataPage.leaf) (by decide +kernel) (by decide +kernel) (by decide +kernel),
        fun _ => rfl, fun _ => by decide +kernel⟩
  · exact has (s := st 0 iCpub passed) (by decide +kernel)
      ⟨by decide +kernel, readableOf (by decide +kernel), by decide +kernel, by decide +kernel, rangeOk_page (pa := 0) (lf := dataPage.leaf) (by decide +kernel) (by decide +kernel) (by decide +kernel),
        fun h => absurd h (by decide +kernel), fun h => absurd h.symm hne⟩

/-! ## Permutations and the Crook -/

theorem room_of {x : Issue} (h : (x.s.core x.g.core).crook = []) : CrookRoom x := by simp [CrookRoom, h]
theorem noPoison_of {x : Issue} {n : Nat} (h : x.g.vpois x.vecX = 0) : NoPoison x n := fun l _ => by simp [h, Mask.has]
theorem hyps_pldi : HasIssue (.pldi { x := 7, m := 9 }) (fun _ x => CrookRoom x ∧ (indexVector x 2).Perm (List.range (2 ^ 2)) ∧ NoPoison x (min (2 ^ 2) 64) ∧ Free x [.p 1]) :=
  has (s := st 0 (.pldi { x := 7, m := 9 }) (fun g => { g with v := [(7, gen [2, 0, 3, 1])] })) (by decide +kernel)
    ⟨room_of (by decide +kernel), by decide +kernel, noPoison_of (by decide +kernel),
      freeOf (by decide +kernel)⟩
/-- The smallest permutation, of two elements. -/
theorem hyps_prand : HasIssue (.prand { m := 8 }) (fun _ x => CrookRoom x ∧ Free x [.p 1]) :=
  has (s := st 0 (.prand { m := 8 })) (by decide +kernel) ⟨room_of (by decide +kernel), freeOf (by decide +kernel)⟩
theorem hyps_pcomp : HasIssue (.pcomp { z := 10, m := 8 }) (fun _ x => CrookRoom x ∧ Free x [.p 1]) :=
  has (s := st 0 (.pcomp { z := 10, m := 8 })) (by decide +kernel) ⟨room_of (by decide +kernel), freeOf (by decide +kernel)⟩
theorem hyps_pinv : HasIssue (.pinv { z := 2, m := 8 }) (fun _ x => CrookRoom x ∧ Free x [.p 1]) :=
  has (s := st 0 (.pinv { z := 2, m := 8 })) (by decide +kernel) ⟨room_of (by decide +kernel), freeOf (by decide +kernel)⟩
theorem hyps_psti : HasIssue (.psti { d := 41, z := 2 }) (fun _ x => CrookRoom x ∧ Free x (x.dests 1)) :=
  has (s := st 0 (.psti { d := 41, z := 2 })) (by decide +kernel) ⟨room_of (by decide +kernel), freeOf (by decide +kernel)⟩
theorem hyps_psts : HasIssue (.psts { d := 40, z := 2 }) (fun _ x => CrookRoom x ∧ x.g.width = 64 ∧ Free x (x.dests 1)) :=
  has (s := st 0 (.psts { d := 40, z := 2 })) (by decide +kernel) ⟨room_of (by decide +kernel), by decide +kernel, freeOf (by decide +kernel)⟩
/-- The settings image of R173's worked case: every bit of it is one of NLOG or of a switch that exists. -/
def image : List Nat := (List.range 64).map (fun l => if l = 0 ∨ l = 60 then 2 else if l = 4 ∨ l = 8 then 1 else 0)
def iPlds : Instr := .plds { x := 40, m := 8 }
def sPlds : State := st 0 iPlds (fun g => { g with v := [(40, gen image)] })
theorem hyps_plds : HasIssue iPlds (fun _ x => CrookRoom x ∧ x.g.width = 64 ∧ ImageOk x ∧ NoPoison x 64 ∧ Free x [.p 1]) := by
  refine has (s := sPlds) (by decide +kernel) ⟨room_of (by decide +kernel), by decide +kernel, ⟨by decide +kernel, by decide +kernel, fun b hb k => ?_⟩, noPoison_of (by decide +kernel), freeOf (by decide +kernel)⟩
  · have hn : imageNlog (pos sPlds iPlds) = 2 := by decide +kernel
    have hv : (pos sPlds iPlds).g.vreg (pos sPlds iPlds).vecX = gen image := by decide +kernel
    have all : ((List.range 2048).all (fun b => !(((gen image).lane (b / 32)).getLsbD (b % 32)) || decide ((1920 ≤ b ∧ b < 1924) ∨ (b / 128 < 3 ∧ b % 128 < 2)))) = true := by decide +kernel
    have := List.all_eq_true.1 all b (List.mem_range.2 hb)
    rw [imageBit, hv] at k
    rw [hn]
    simpa [k] using this
theorem hyps_pidn : HasIssue (.pidn { m := 9 }) (fun s x => Free x [.p 1] ∧ (∀ o ∈ (s.core x.g.core).crook, ¬ (o.writesP = true ∧ o.team = x.g.team ∧ o.pd = 1)) ∧ HasTeam s x.g.team) :=
  has (s := st 0 (.pidn { m := 9 })) (by decide +kernel) ⟨freeOf (by decide +kernel), by decide +kernel, ⟨_, List.mem_singleton.2 rfl, rfl⟩⟩
def opPinv : CrookOp := { rid := 5, gid := 0, wid := 0, team := 0, kind := .pinv, pd := 1, pa := 2, val := PReg.ofPerm 2 [2, 0, 3, 1] }
def crooked (s : State) (o : CrookOp) : State := s.setCore 0 (fun c => { c with crook := [o] })
theorem hyps_pidn_after : HasIssue (.pidn { m := 9 }) (fun s x => Free x [.p 1] ∧ ∃ o ∈ (s.core x.g.core).crook, o.writesP = true ∧ o.team = x.g.team ∧ o.pd = 1) :=
  has (s := crooked (st 0 (.pidn { m := 9 })) opPinv) (by decide +kernel) ⟨freeOf (by decide +kernel), opPinv, by decide +kernel, by decide +kernel⟩
def iPapply : Instr := .papply { d := 9, x := 8, z := 1 }
theorem hyps_papply : HasIssue iPapply (fun _ x => (papplyRow x).ok = true ∧ Readable (papplyRow x).srcs ∧ Free x (x.dests 1) ∧ NoTrap x (papplyRow x).fl) :=
  has (s := st 0 iPapply) (by decide +kernel) ⟨by decide +kernel, readableOf (by decide +kernel), freeOf (by decide +kernel), noTrapOf (by decide +kernel)⟩
def iPcyc (m : BitVec 9) : Instr := .pcyc { d := 0x106, x := if m < 3 then 0 else 0x1C0, z := 1, m := m }
theorem hyps_pcyc : HasIssue (iPcyc 0) (fun _ x => CrookRoom x ∧ pidnDue x 1 = false ∧ Free x (x.dests 1)) :=
  has (s := st 0 (iPcyc 0)) (by decide +kernel) ⟨room_of (by decide +kernel), by decide +kernel, freeOf (by decide +kernel)⟩
theorem hyps_pcyc_at : HasIssue (iPcyc 3) (fun _ x => CrookRoom x ∧ pidnDue x 1 = false ∧ Readable [x.opX] ∧ Free x (x.dests 1)) :=
  has (s := st 0 (iPcyc 3)) (by decide +kernel) ⟨room_of (by decide +kernel), by decide +kernel, readableOf (by decide +kernel), freeOf (by decide +kernel)⟩
/-- CrookSteps: an operation that waits, and one whose time has come. -/
theorem hyps_crook_start : ∃ (s : State) (o : CrookOp) (r : List CrookOp), (s.core 0).crook = o :: r ∧ o.started = false :=
  ⟨crooked State.reset opPinv, opPinv, [], by decide +kernel, by decide +kernel⟩
theorem hyps_crook_end : ∃ (s : State) (o : CrookOp) (r : List CrookOp), (s.core 0).crook = o :: r ∧ o.started = true ∧ o.endAt ≤ (s.cluster (clusterOf 0)).fclk ∧
    o.writesP = true ∧ HasTeam s o.team ∧ ∀ q ∈ r, q.kind ≠ .pidn :=
  ⟨crooked { State.reset with teams := [team0] } { opPinv with started := true }, { opPinv with started := true }, [], by decide +kernel, by decide +kernel, by decide +kernel, by decide +kernel,
    ⟨_, List.mem_singleton.2 rfl, rfl⟩, by decide +kernel⟩

/-! ## The matrix engine -/

/-- A tile record of 16 rows of 32 BF16 elements, at 0x4000, and one whose second row starts at 4,096. -/
def recordOf (base stride : Nat) : Nat := base + 16 * 2 ^ 64 + 32 * 2 ^ 80 + stride * 2 ^ 96
/-- A MATRIX group whose S20 and S21 name records at 0x2000 and 0x2020. -/
def withRecords (s : State) : State := { s with mem := Memory.store (Memory.store s.mem 0x2000 (leBytes 32 (recordOf 0x4000 64))) 0x2020 (leBytes 32 (recordOf 0x4800 64)) }
def sRegs (g : Group) : Group := { g with s := [(20, 0x2000), (21, 0x2020), (22, 3)] }
def iMma : Instr := .mma { x := 0x114, y := 0x115, mode := 0, dc := 1 }
def sMma : State := withRecords (st 1 iMma sRegs)
/-- What an MMA brings to the Hurdle. -/
def hurdleAt (x : Issue) (a : EArgs) : HurdleSt :=
  { wid := x.w.wid, gangreg := x.g.gangreg, mode := a.mode.toNat, z := a.z.toNat, xv := x.opX.at64 0, yv := x.opY.at64 0, q := a.q.toNat, dc := a.dc.toNat, mask := x.e.mask, order := x.s.nextId,
    at_ := (x.s.cluster (clusterOf x.g.core)).fclk }
def good {ε α : Type} (e : Except ε α) : Bool := match e with | .ok _ => true | .error _ => false
theorem okOf {ε α : Type} {e : Except ε α} (h : good e = true) : ∃ a, e = .ok a := by
  cases e with
  | ok a => exact ⟨a, rfl⟩
  | error _ => cases h
theorem eBytes_of {s : State} {a : Agent} {va n : Nat} {bs : List Byte} (h : (match eBytes s a va n with | .ok l => decide (l = bs) | .error _ => false) = true) : eBytes s a va n = .ok bs := by
  split at h
  · rename_i l e
    rw [e, of_decide_eq_true h]
  · cases h
def bytesA : List Byte := leBytes 32 (recordOf 0x4000 64)
def bytesB : List Byte := leBytes 32 (recordOf 0x4800 64)
theorem recOk_of {s : State} {g : Group} {addr : Nat} {bs : List Byte} {krow write : Bool} (h : (match eBytes s (agentOf g) addr 32 with | .ok l => decide (l = bs) | .error _ => false) = true)
    (k : addr % 32 = 0 ∧ trecBad (leNat bs) = false ∧ ((trecOf addr (leNat bs)).base % 16 = 0 ∧ (trecOf addr (leNat bs)).rstride % 16 = 0) ∧
      windowsOk s (s.team g.team) (trecOf addr (leNat bs)) krow write = []) : RecOk s g addr bs krow write :=
  ⟨k.1, eBytes_of h, k.2.1, fun _ => k.2.2.1, k.2.2.2⟩
theorem hyps_gang_none : HasIssue (.gang { x := 0x1C0 }) (fun _ x => (gangAct x).ok ∧ Readable (gangAct x).srcs) :=
  has (s := st 1 (.gang { x := 0x1C0 })) (by decide +kernel)
    ⟨⟨.inl (by decide +kernel), by decide +kernel, by decide +kernel, fun h => absurd (by decide +kernel) h⟩, readableOf (by decide +kernel)⟩
/-- Two MATRIX groups become a gang. -/
def sGang : State :=
  let s := st 1 (.gang { x := 0x116 }) sRegs
  { s with groups := s.groups ++ [{ noGroup with gid := 1, role := 1, index := 1 }], teams := [{ team0 with ngrp := 2 }] }
theorem hyps_gang : HasIssue (.gang { x := 0x116 }) (fun _ x => (gangAct x).ok ∧ Readable (gangAct x).srcs ∧ uni64 x.opX = 3) := by
  refine has (s := sGang) (by decide +kernel) ⟨⟨.inl (by decide +kernel), by decide +kernel, by decide +kernel, fun _ => ⟨by decide +kernel, by decide +kernel, by decide +kernel, by decide +kernel, fun i hi => ?_⟩⟩,
    readableOf (by decide +kernel), by decide +kernel⟩
  have h : uni64 (pos sGang (.gang { x := 0x116 })).opX = 3 := by decide +kernel
  rw [h] at hi
  rcases i with _ | _ | i
  · exact ⟨by decide +kernel, _, rfl, by decide +kernel⟩
  · exact ⟨by decide +kernel, _, rfl, by decide +kernel⟩
  · rw [Nat.testBit_lt_two_pow (lt_of_lt_of_le (by decide : 3 < 2 ^ 2) (Nat.pow_le_pow_right (by decide) (by omega)))] at hi
    cases hi
theorem hyps_mma_released : HasIssue iMma (fun _ x => x.w.released = true) := has (s := st 1 iMma relw) (by decide +kernel) (by decide +kernel)
theorem hyps_mma_gang : HasIssue iMma (fun _ x => x.w.released = false ∧ x.g.hurdle = [] ∧ Readable [x.opX, x.opY] ∧ gangCnt x.g.gangreg ≠ 0) :=
  has (s := st 1 iMma (fun g => { sRegs g with gangreg := gangWord 0 3 })) (by decide +kernel) ⟨by decide +kernel, by decide +kernel, readableOf (by decide +kernel), by decide +kernel⟩
theorem hyps_mma : HasIssue iMma (fun s x => x.w.released = false ∧ x.g.hurdle = [] ∧ Readable [x.opX, x.opY] ∧ gangCnt x.g.gangreg = 0 ∧
    MmaOk s x.g (hurdleAt x { x := 0x114, y := 0x115, mode := 0, dc := 1 }) bytesA bytesB) :=
  has (s := sMma) (by decide +kernel) ⟨by decide +kernel, by decide +kernel, readableOf (by decide +kernel), by decide +kernel,
    ⟨by decide +kernel, by decide +kernel⟩, recOk_of (by decide +kernel) (by decide +kernel), recOk_of (by decide +kernel) (by decide +kernel), by decide +kernel, by decide +kernel, by decide +kernel⟩
/-- A solo group that stands at the Hurdle is released. -/
def hur : HurdleSt := { wid := 0, gangreg := 0, mode := 0, z := 0, xv := 0x2000, yv := 0x2020, q := 0, dc := 1, mask := Mask.width 64, order := 0 }
def gHur : Group := { grp 1 iMma with hurdle := [hur] }
def sHur : State := (withRecords (at_ gHur)).setCluster 0 (fun c => { c with fclk := 1 })
theorem hyps_hurdle : ∃ (s : State) (g low : Group) (h hl : HurdleSt) (r rl : List HurdleSt) (ba bb : List Byte), s.group 0 = some g ∧ g.hurdle = h :: r ∧ (s.team g.team).st = .resident ∧
    (∀ q ∈ gangGroups s g h, AtHurdle s q hl) ∧ ((gangGroups s g h).map (·.gid)).Nodup ∧
    low ∈ gangGroups s g h ∧ low.hurdle = hl :: rl ∧ (∀ q ∈ gangGroups s g h, q.index < low.index → False) ∧ (∀ q ∈ gangGroups s g h, q.index = low.index → q = low) ∧ MmaOk s low hl ba bb := by
  have e : gangGroups sHur gHur hur = [gHur] := by decide +kernel
  refine ⟨sHur, gHur, gHur, hur, hur, [], [], bytesA, bytesB, by decide +kernel, by decide +kernel, by decide +kernel, ?_, by rw [e]; decide +kernel, by rw [e]; exact List.mem_singleton.2 rfl, rfl, ?_, ?_,
    ⟨⟨by decide +kernel, by decide +kernel⟩, recOk_of (by decide +kernel) (by decide +kernel), recOk_of (by decide +kernel) (by decide +kernel), by decide +kernel, by decide +kernel, by decide +kernel⟩⟩
  · rw [e]
    intro q hq
    rw [List.mem_singleton.1 hq]
    exact ⟨by decide +kernel, hur, [], rfl, rfl, by decide +kernel, by decide +kernel, _, rfl⟩
  · rw [e]
    intro q hq
    rw [List.mem_singleton.1 hq]
    exact fun h => absurd h (by decide +kernel)
  · rw [e]
    intro q hq _
    exact List.mem_singleton.1 hq
/-- TilesIssue: an empty queue, and one that an ALD heads. -/
def iAclr : Instr := .aclr { m := 0x13 }
def iMxclr : Instr := .mxclr { m := 5 }
def qAld : MCmd := { id := 0, team := 0, gid := 0, kind := .ald, tile := 2, m := 16, n := 16, recA := leBytes 8 0x2000 ++ bytesA, recB := leBytes 8 0x2000 ++ bytesA, members := [(0, 1)] }
def queued (s : State) (l : List MCmd) : State := s.setCore 0 (fun c => { c with mq := l })
theorem stands_of {s : State} {core : Nat} (h : ((s.core core).mq.all (fun q => decide (q.kind = .mma ∨ q.kind = .ald ∨ q.kind = .ast))) = true) : QueueStands s core := by
  intro q r e
  rw [e, List.all_cons, Bool.and_eq_true] at h
  exact of_decide_eq_true h.1
theorem team_here {s : State} (h : s.teams = [team0]) : HasTeam s 0 := ⟨team0, by rw [h]; exact List.mem_singleton.2 rfl, rfl⟩
theorem hyps_aclr : HasIssue iAclr (fun s x => 3 < x.tm.nt ∧ HasTeam s x.g.team ∧ (s.core x.g.core).mq = []) :=
  has (s := st 1 iAclr) (by decide +kernel) ⟨by decide +kernel, team_here rfl, by decide +kernel⟩
theorem hyps_aclr_behind : HasIssue iAclr (fun s x => 3 < x.tm.nt ∧ HasTeam s x.g.team ∧ (s.core x.g.core).mq ≠ [] ∧ QueueStands s x.g.core) :=
  has (s := queued (st 1 iAclr) [qAld]) (by decide +kernel) ⟨by decide +kernel, team_here rfl, by decide +kernel, stands_of (by decide +kernel)⟩
theorem hyps_mxclr_none : HasIssue (.mxclr { cond := 1, m := 5 }) (fun s x => HasTeam s x.g.team ∧ x.act = 0) :=
  has (s := st 1 (.mxclr { cond := 1, m := 5 })) (by decide +kernel) ⟨team_here rfl, by decide +kernel⟩
theorem hyps_mxclr : HasIssue iMxclr (fun s x => HasTeam s x.g.team ∧ x.act ≠ 0 ∧ (s.core x.g.core).mq = []) :=
  has (s := st 1 iMxclr) (by decide +kernel) ⟨team_here rfl, by decide +kernel, by decide +kernel⟩
theorem hyps_mxclr_behind : HasIssue iMxclr (fun s x => HasTeam s x.g.team ∧ x.act ≠ 0 ∧ (s.core x.g.core).mq ≠ [] ∧ QueueStands s x.g.core) :=
  has (s := queued (st 1 iMxclr) [qAld]) (by decide +kernel) ⟨team_here rfl, by decide +kernel, by decide +kernel, stands_of (by decide +kernel)⟩
def iAld : Instr := .ald { x := 0x114, z := 2, dc := 1 }
theorem hyps_ald : HasIssue iAld (fun s x => Readable [x.opX] ∧ TileOk s x.g 2 ∧ RecOk s x.g (x.opX.at64 0).toNat bytesA true false ∧ (trecOf 0 (leNat bytesA)).perm = false ∧
    (trecOf 0 (leNat bytesA)).fmt ≠ 5 ∧ QueueStands s x.g.core) :=
  has (s := withRecords (st 1 iAld sRegs)) (by decide +kernel)
    ⟨readableOf (by decide +kernel), ⟨by decide +kernel, by decide +kernel⟩, recOk_of (by decide +kernel) (by decide +kernel), by decide +kernel, by decide +kernel, stands_of (by decide +kernel)⟩
def iAst : Instr := .ast { x := 0x114, y := 0x1F1, z := 2, dc := 1 }
theorem hyps_ast : HasIssue iAst (fun s x => Readable [x.opX, x.opY] ∧ TileOk s x.g 2 ∧ RecOk s x.g (x.opX.at64 0).toNat bytesA true true ∧
    let r := trecOf (x.opX.at64 0).toNat (leNat bytesA)
    r.perm = false ∧ r.fmt ≠ 5 ∧ r.rowBytes ≤ r.rstride ∧ (isBfp r.fmt = true → r.cols % r.block = 0) ∧ isInt r.fmt = tileType s x.g.core x.g.team 2 ∧
    (isInt r.fmt = true → x.opY.at32 0 = 0x3F800000#32) ∧ QueueStands s x.g.core) :=
  has (s := withRecords (st 1 iAst sRegs)) (by decide +kernel)
    ⟨readableOf (by decide +kernel), ⟨by decide +kernel, by decide +kernel⟩, recOk_of (by decide +kernel) (by decide +kernel), by decide +kernel, by decide +kernel, by decide +kernel, by decide +kernel, by decide +kernel,
      by decide +kernel, stands_of (by decide +kernel)⟩
def iTfetch : Instr := .tfetch { x := 0x114, dc := 1 }
theorem hyps_tfetch : HasIssue iTfetch (fun s x => Readable [x.opX] ∧ RecOk s x.g (x.opX.at64 0).toNat bytesA true false ∧ (trecOf 0 (leNat bytesA)).space = 0) :=
  has (s := withRecords (st 1 iTfetch sRegs)) (by decide +kernel) ⟨readableOf (by decide +kernel), recOk_of (by decide +kernel) (by decide +kernel), by decide +kernel⟩
/-- Row 63, the last of a tile. -/
def iAmov : Instr := .amov { d := 8, x := 10, m := 2 }
theorem hyps_amov : HasIssue iAmov (fun _ x => (amovRow x).ok = true ∧ Readable (amovRow x).srcs ∧ Free x (x.dests 1) ∧ NoTrap x (amovRow x).fl ∧ uni32 x.opX = 63) :=
  has (s := st 1 iAmov (fun g => { g with v := [(10, .uni 63)] })) (by decide +kernel) ⟨by decide +kernel, readableOf (by decide +kernel), freeOf (by decide +kernel), noTrapOf (by decide +kernel), by decide +kernel⟩
theorem hyps_mxrd : ∀ m : BitVec 9, m = 0 ∨ m = 5 → HasIssue (.mxrd { d := 8, m := m }) (fun _ x => (mxrdRow x).ok = true ∧ Readable (mxrdRow x).srcs ∧ Free x (x.dests 2) ∧ NoTrap x (mxrdRow x).fl) := by
  rintro m (rfl | rfl)
  · exact has (s := st 1 (.mxrd { d := 8, m := 0 })) (by decide +kernel) ⟨by decide +kernel, readableOf (by decide +kernel), freeOf (by decide +kernel), noTrapOf (by decide +kernel)⟩
  · exact has (s := st 1 (.mxrd { d := 8, m := 5 })) (by decide +kernel) ⟨by decide +kernel, readableOf (by decide +kernel), freeOf (by decide +kernel), noTrapOf (by decide +kernel)⟩

/-- MatrixSteps: an MMA of 16 × 16 × 32 that has been granted, one whose time has come, and one whose B lies on no page. -/
def qMma : MCmd := { qAld with kind := .mma, n := 16, k := 32, recB := leBytes 8 0x2020 ++ bytesB, granted := true, members := [(0, 1)] }
def sEng (q : MCmd) (l : Nat) : State := (queued (withRecords (at_ (grp 1 iMma))) [q]).setCluster 0 (fun c => { c with lclk := l })
theorem hyps_occupancy : ∀ l, l = 0 ∨ l = 1 → ∃ (s : State) (q : MCmd) (u v : List MCmd) (g : Group), QueueStands s 0 ∧ (s.core 0).mq = u ++ q :: v ∧
    (∀ p ∈ u, p.kind ≠ .marker ∧ (p.kind = .mma → p.started = true) ∧ p.id ≠ q.id) ∧ q.kind = .mma ∧ q.started = false ∧ q.granted = true ∧ s.group q.gid = some g ∧ (firstOf s 0 q ≤ (s.cluster (clusterOf 0)).lclk ↔ l = 1) := by
  rintro l (rfl | rfl)
  · exact ⟨sEng qMma 0, qMma, [], [], grp 1 iMma, stands_of (by decide +kernel), by decide +kernel, by simp, by decide +kernel, by decide +kernel, by decide +kernel, by decide +kernel, by decide +kernel⟩
  · exact ⟨sEng qMma 1, qMma, [], [], grp 1 iMma, stands_of (by decide +kernel), by decide +kernel, by simp, by decide +kernel, by decide +kernel, by decide +kernel, by decide +kernel, by decide +kernel⟩
theorem atHead_of {s : State} {k : MKind} {q : MCmd} {g : Group} (h : (s.core 0).mq = [q] ∧ (q.kind = k ∧ (k = .mma ∨ k = .ald ∨ k = .ast)) ∧ s.group q.gid = some g ∧ q.fault = none) (t : HasTeam s q.team) :
    AtHead s 0 k q g := ⟨⟨[], h.1, by simp⟩, h.2.1, h.2.2.1, t, h.2.2.2⟩
theorem hyps_mma_end : ∃ (s : State) (q : MCmd) (g : Group) (as bs : List (List Fv)), AtHead s 0 .mma q g ∧ q.started = true ∧ q.occEnd + 20 ≤ (s.cluster (clusterOf 0)).lclk ∧
    operand s { agentOf g with id := q.id, was := q.was } (recOf q.recA) q.pA false q.m q.k = .ok as ∧ operand s { agentOf g with id := q.id, was := q.was } (recOf q.recB) q.pB true q.n q.k = .ok bs ∧ q.m ≤ 64 ∧ q.n ≤ 64 := by
  obtain ⟨as, ha⟩ := okOf (e := operand (sEng { qMma with started := true } 20) { agentOf (grp 1 iMma) with id := 0 } (recOf qMma.recA) {} false 16 32) (by decide +kernel)
  obtain ⟨bs, hb⟩ := okOf (e := operand (sEng { qMma with started := true } 20) { agentOf (grp 1 iMma) with id := 0 } (recOf qMma.recB) {} true 16 32) (by decide +kernel)
  exact ⟨sEng { qMma with started := true } 20, { qMma with started := true }, grp 1 iMma, as, bs, atHead_of (by decide +kernel) (team_here rfl), by decide +kernel, by decide +kernel, ha, hb, by decide +kernel, by decide +kernel⟩
theorem stop_of {α : Type} {e : Except EErr α} {c v i : Nat} (h : (match e with | .error (.stop a b d) => decide (a = c ∧ b = v ∧ d = i) | _ => false) = true) : e = .error (.stop c v i) := by
  split at h
  · have := of_decide_eq_true h
    simp_all
  · cases h
def qFar : MCmd := { qMma with started := true, recB := leBytes 8 0x2020 ++ leBytes 32 (recordOf (2 ^ 57) 64) }
theorem hyps_tile_fault : ∃ (s : State) (q : MCmd) (g : Group) (code va info : Nat), AtHead s 0 .mma q g ∧ q.started = true ∧ mmaResult s { agentOf g with id := q.id, was := q.was } q = .error (.stop code va info) :=
  ⟨sEng qFar 20, qFar, grp 1 iMma, cXLATE, 2 ^ 57, 0, atHead_of (by decide +kernel) (team_here rfl), by decide +kernel, stop_of (by decide +kernel)⟩
/-- What a record stores at a row and column, where it can be read. -/
def held (s : State) (a : Agent) (r : TRec) (i j : Nat) : Nat × Nat := match r.stored s a true i j with | .ok v => v | .error _ => (0, 0)
theorem hyps_ald_end : ∃ (s : State) (q : MCmd) (g : Group) (f : Nat → Nat → Nat × Nat), AtHead s 0 .ald q g ∧ q.m ≤ 64 ∧ q.n ≤ 64 ∧ (recOf q.recA).trans = false ∧
    ∀ i j, i < q.m → j < q.n → (recOf q.recA).stored s { agentOf g with id := q.id } true i j = .ok (f i j) := by
  refine ⟨sEng qAld 0, qAld, grp 1 iMma, held (sEng qAld 0) { agentOf (grp 1 iMma) with id := qAld.id } (recOf qAld.recA), atHead_of (by decide +kernel) (team_here rfl), by decide +kernel, by decide +kernel, by decide +kernel,
    fun i j hi hj => ?_⟩
  have h : ((List.range 16).all (fun i => (List.range 16).all (fun j =>
      good ((recOf qAld.recA).stored (sEng qAld 0) { agentOf (grp 1 iMma) with id := qAld.id } true i j)))) = true := by decide +kernel
  obtain ⟨v, e⟩ := okOf (e := (recOf qAld.recA).stored (sEng qAld 0) { agentOf (grp 1 iMma) with id := qAld.id } true i j) (List.all_eq_true.1 (List.all_eq_true.1 h i (List.mem_range.2 hi)) j (List.mem_range.2 hj))
  rw [held, e]
theorem hyps_ast_end : ∃ (s : State) (q : MCmd) (g : Group), AtHead s 0 .ast q g ∧ (astRun s { agentOf g with id := q.id } q).err = none :=
  ⟨sEng { qAld with kind := .ast } 0, { qAld with kind := .ast }, grp 1 iMma, atHead_of (by decide +kernel) (team_here rfl), by decide +kernel⟩
def qTf (k : Nat) : CopyCmd := { id := 0, gid := 0, kind := k, recAddr := 0x2000, dc := 1, record := leBytes 8 0x2000 ++ bytesA }
theorem hyps_tfetch_end : ∀ k, k = 10 ∨ k = 11 → ∃ (s : State) (q : CopyCmd) (r : List CopyCmd) (g : Group), (s.core 0).tfetch = q :: r ∧ q.marker = false ∧ s.group q.gid = some g ∧ q.kind = k := by
  rintro k (rfl | rfl)
  · exact ⟨(withRecords (at_ (grp 1 iMma))).setCore 0 (fun c => { c with tfetch := [qTf 10] }), qTf 10, [], grp 1 iMma, by decide +kernel, by decide +kernel, by decide +kernel, rfl⟩
  · exact ⟨(withRecords (at_ (grp 1 iMma))).setCore 0 (fun c => { c with tfetch := [qTf 11] }), qTf 11, [], grp 1 iMma, by decide +kernel, by decide +kernel, by decide +kernel, rfl⟩

/-- LimiterSteps: a quiet cluster with no request and with one; a rise with no engine live. -/
def sLim (q : List MCmd) (f : Cluster → Cluster) : State := (queued State.reset q).setCluster 0 (fun c => f { c with lclk := 4 })
abbrev AtStep (s : State) : Prop := 0 < s.clusters.length ∧ (s.cluster 0).pend = false ∧ (s.cluster 0).stepAt + 4 ≤ (s.cluster 0).lclk
def asking (at_ : Nat) : MCmd := { qMma with granted := false, reqAt := at_ }
theorem hyps_limiter_quiet : ∃ s : State, AtStep s ∧ (s.cluster 0).quiet = true ∧ startRequests s 0 = [] := ⟨sLim [] id, by decide +kernel⟩
/-- A request made after the boundary. -/
theorem hyps_limiter_early : ∃ s : State, AtStep s ∧ (s.cluster 0).quiet = true ∧ startRequests s 0 ≠ [] ∧ Asks s 0 4 = [] := ⟨sLim [asking 5] id, by decide +kernel⟩
theorem hyps_limiter_falls : ∃ s : State, AtStep s ∧ (s.cluster 0).quiet = false ∧ (liveCores s 0).any (fun c => engLive (s.cluster 0).dnTab (s.core c) 4) = false ∧ Asks s 0 4 = [] :=
  ⟨sLim [] (fun c => { c with quiet := false, rise := 3 }), by decide +kernel⟩
/-- A request made at the boundary is granted at it. -/
theorem hyps_limiter_grants : ∃ s : State, AtStep s ∧ Asks s 0 4 ≠ [] ∧
    (4, 0, some 0) ∈ (Asks s 0 4).take ((if (s.cluster 0).quiet then (rampTab (s.cluster 0)).1 else (s.cluster 0).upTab).getD (if (s.cluster 0).quiet then 0 else min ((s.cluster 0).rise + 1) 15) 1) :=
  ⟨sLim [asking 4] id, by decide +kernel⟩
/-- An engine that an operation keeps live carries the rise on. -/
theorem hyps_limiter_live : ∃ s : State, AtStep s ∧ (s.cluster 0).quiet = false ∧ (liveCores s 0).any (fun c => engLive (s.cluster 0).dnTab (s.core c) 4) = true :=
  ⟨(sLim [] (fun c => { c with quiet := false })).setCore 0 (fun c => { c with eng := .live, engEnd := 9 }), by decide +kernel⟩
def sPow (e : EngSt) : State := (State.reset.setCore 0 (fun c => { c with eng := e, engEnd := 3 })).setCluster 0 (fun c => { c with lclk := 4 })
theorem hyps_falling_end : ∃ s : State, (s.core 0).eng = .falling ∧ (s.core 0).engEnd < (s.cluster (clusterOf 0)).lclk ∧ clusterOf 0 < s.clusters.length :=
  ⟨sPow .falling, by decide +kernel, by decide +kernel, by decide +kernel⟩
theorem hyps_preramp_end : ∃ s : State, (s.core 0).eng = .preramp ∧ (s.core 0).engEnd < (s.cluster (clusterOf 0)).lclk := ⟨sPow .preramp, by decide +kernel, by decide +kernel⟩
theorem hyps_pwrhint : ∀ i : BitVec 27, i = 0x81 ∨ i = 0 → HasIssue (.pwrhint { imm := i }) (fun _ x => (hintAct { imm := i } x).ok ∧ Readable (hintAct { imm := i } x).srcs) := by
  rintro i (rfl | rfl)
  · exact has (s := st 1 (.pwrhint { imm := 0x81 })) (by decide +kernel) ⟨trivial, readableOf (by decide +kernel)⟩
  · exact has (s := st 1 (.pwrhint { imm := 0 })) (by decide +kernel) ⟨trivial, readableOf (by decide +kernel)⟩
/-- PRERAMP where an engine's falling steps run, and where an operation keeps it live. -/
theorem hyps_pwrhint_falls : HasIssue (.pwrhint { imm := 0x81 }) (fun s x => engFalls (s.cluster (clusterOf x.g.core)).dnTab (s.core x.g.core) (s.cluster (clusterOf x.g.core)).lclk = true) :=
  has (s := (st 1 (.pwrhint { imm := 0x81 })).setCore 0 (fun c => { c with eng := .falling, engEnd := 9 })) (by decide +kernel) (by decide +kernel)
theorem hyps_pwrhint_live : HasIssue (.pwrhint { imm := 0x81 }) (fun s x => engFalls (s.cluster (clusterOf x.g.core)).dnTab (s.core x.g.core) (s.cluster (clusterOf x.g.core)).lclk = false ∧
    engLive (s.cluster (clusterOf x.g.core)).dnTab (s.core x.g.core) (s.cluster (clusterOf x.g.core)).lclk = true) :=
  has (s := (st 1 (.pwrhint { imm := 0x81 })).setCore 0 (fun c => { c with eng := .live, engEnd := 9, mq := [{ qMma with started := true, occEnd := 9 }] })) (by decide +kernel) (by decide +kernel)

end Sys2Proof.Tests
end

