-- ==== Sys2Proof/Tests/WitnessMemory.lean ====
section
/-! SUPPORT. Witnesses, continued: memory, objects and pages, copies, banks, clusters. -/

namespace Sys2Proof.Tests
open Sys2Proof.Machine Sys2Proof.Rules
set_option Elab.async false

/-! ## Memory -/

/-- Each lane's access reaches `pa`. -/
def reaches (x : Issue) (k : AccK) (n : Nat) (ea pa : Nat → Nat) (leaf : Leaf) : Bool :=
  (List.range 64).all (fun l => ea l % n == 0 && match accessTr x.s x.g.core x.g.ctx k (ea l) with | .ok p lf => p == pa l && lf == leaf | _ => false)
theorem reachesOf {x : Issue} {k : AccK} {n : Nat} {ea pa : Nat → Nat} {leaf : Leaf} (h : reaches x k n ea pa leaf = true) :
    Reaches x k (fun _ => n) ea pa (fun _ => leaf) := by
  intro l hl
  have h := List.all_eq_true.1 h l (List.mem_range.2 hl.1)
  rw [Bool.and_eq_true, beq_iff_eq] at h
  refine ⟨h.1, ?_⟩
  have h := h.2
  split at h
  · next p lf e =>
    rw [Bool.and_eq_true, beq_iff_eq, beq_iff_eq] at h
    rw [e, h.1, h.2]
  · cases h
theorem noAcq {x : Issue} (h : ∀ r ∈ x.s.reqs, r.gid = x.g.gid → r.acq = false) : NoAcquire x := h
/-- A property of every lane of a group. -/
theorem lanesOf {x : Issue} {p : Nat → Bool} (h : (List.range 64).all p = true) : ∀ l, Active x l → p l = true := fun l hl => List.all_eq_true.1 h l (List.mem_range.2 hl.1)

def aLd : MArgs := { d := 8, x := 0x102, wid := 2, dc := 6 }
def mLeaf : Leaf := dataPage.leaf
/-- LoadsIssue: no lane, a line that is not in the L1, and one that is; LDE from a page of FP32. -/
theorem hyps_ld_none : HasIssue (.ld { aLd with cond := 1 }) (fun _ x => Readable [x.opX] ∧ NoAcquire x ∧ Free x (x.dests (regsOf { aLd with cond := 1 })) ∧ x.act = 0) :=
  has (s := st 0 (.ld { aLd with cond := 1 })) (by decide +kernel) ⟨readableOf (by decide +kernel), noAcq (by decide +kernel), freeOf (by decide +kernel), by decide +kernel⟩
theorem hyps_ld_miss : HasIssue (.ld aLd) (fun s x => Readable [x.opX] ∧ NoAcquire x ∧ Free x (x.dests (regsOf aLd)) ∧ x.act ≠ 0 ∧
    Reaches x .read (fun _ => 4) (eaAt aLd x.opX 4) (fun _ => 0) (fun _ => mLeaf) ∧
    (∀ l, Active x l → s.poisoned 0 4 = false) ∧ ∀ l, Active x l → s.l1Find x.g.core (0) = none) :=
  has (s := st 0 (.ld aLd)) (by decide +kernel)
    ⟨readableOf (by decide +kernel), noAcq (by decide +kernel), freeOf (by decide +kernel), by decide +kernel, reachesOf (by decide +kernel), fun _ _ => rfl, fun _ _ => rfl⟩
/-- Line 0 in the L1 of core 0. -/
def copy0 : L1Line := { core := 0, line := 0, data := List.replicate 128 7, cls := 0, lease := 100 }
theorem hyps_ld_hit : HasIssue (.ld aLd) (fun s x => Readable [x.opX] ∧ NoAcquire x ∧ Free x (x.dests (regsOf aLd)) ∧ x.act ≠ 0 ∧
    Reaches x .read (fun _ => 4) (eaAt aLd x.opX 4) (fun _ => 0) (fun _ => mLeaf) ∧
    (∀ l, Active x l → s.poisoned 0 4 = false) ∧ aLd.scope = 0 ∧ (∀ r ∈ s.reqs, r.gid ≠ x.g.gid) ∧
    ∀ l, Active x l → s.l1Find x.g.core (0) = some copy0 ∧ copy0.bad = false ∧ l1Serves s x.g copy0 = true ∧
      lineClass 0 mLeaf ≠ 2) :=
  has (s := { st 0 (.ld aLd) with l1 := [copy0] }) (by decide +kernel)
    ⟨readableOf (by decide +kernel), noAcq (by decide +kernel), freeOf (by decide +kernel), by decide +kernel, reachesOf (by decide +kernel), fun _ _ => rfl, rfl, by decide +kernel,
      fun _ _ => by decide +kernel⟩
/-- The page of every lane's X reads as FP32. -/
theorem elementsOf {x : Issue} {k : AccK} {leaf : Leaf} (h : reaches x k 1 (fun l => (x.opX.at64 l).toNat) (fun _ => 0) leaf = true) (hf : elemFmt leaf.fmt = some 4) :
    Elements x k (fun _ => leaf) (fun _ => 4) := fun l hl => ⟨0, leaf, (reachesOf h l hl).2, hf, rfl⟩
def aLde : MArgs := { d := 8, x := 0x102, wid := 2, dc := 6 }
theorem hyps_lde : HasIssue (.lde aLde) (fun s x => Elements x .read (fun _ => mLeaf) (fun _ => 4) ∧ Readable [x.opX] ∧ NoAcquire x ∧ Free x (x.dests (regsOf aLde)) ∧ x.act ≠ 0 ∧
    Reaches x .read (fun _ => 4) (eaAt aLde x.opX 4) (fun _ => 0) (fun _ => mLeaf) ∧ s.poisoned 0 4 = false ∧ s.l1Find x.g.core 0 = none) :=
  has (s := st 0 (.lde aLde)) (by decide +kernel)
    ⟨elementsOf (by decide +kernel) (by decide +kernel), readableOf (by decide +kernel), noAcq (by decide +kernel), freeOf (by decide +kernel), by decide +kernel,
      reachesOf (by decide +kernel), by decide +kernel, by decide +kernel⟩
/-- ATOM with a result: add to word 0; and with NR. -/
def aAtom (nr : Bool) : MArgs := { d := 8, x := 0x102, wid := 2, dc := if nr then 1 else 6, cp := if nr then 8 else 0 }
theorem hyps_atom : HasIssue (.atom (aAtom false)) (fun _ x => Free x (x.dests (regsOf (aAtom false))) ∧ x.act ≠ 0 ∧ Readable [x.opX, x.opD, casOpr x (aAtom false)] ∧ NoAcquire x ∧
    Reaches x .atomic (fun _ => 4) (eaAt (aAtom false) x.opX 4) (fun _ => 0) (fun _ => mLeaf) ∧ (aAtom false).scope = 0) :=
  has (s := st 0 (.atom (aAtom false))) (by decide +kernel)
    ⟨freeOf (by decide +kernel), by decide +kernel, readableOf (by decide +kernel), noAcq (by decide +kernel), reachesOf (by decide +kernel), rfl⟩
/-- The hypotheses of a store that goes, of one of no lane, and of one that waits for its release. -/
abbrev StoreHyps (i : Instr) (a : MArgs) (k : AccK) (os : Issue → List Opr) : Prop :=
  HasIssue i (fun _ x => x.act ≠ 0 ∧ Readable (os x) ∧ NoAcquire x ∧ Reaches x k (fun _ => 4) (eaAt a x.opX 4) (fun _ => 0) (fun _ => mLeaf) ∧ a.scope = 0 ∧ NoTrap x (fun _ => 0))
theorem hyps_atom_nr : StoreHyps (.atom (aAtom true)) (aAtom true) .atomic (fun x => [x.opX, x.opD, casOpr x (aAtom true)]) :=
  has (s := st 0 (.atom (aAtom true))) (by decide +kernel)
    ⟨by decide +kernel, readableOf (by decide +kernel), noAcq (by decide +kernel), reachesOf (by decide +kernel), rfl, noTrapOf (by decide +kernel)⟩
def aSt : MArgs := { d := 8, x := 0x102, wid := 2, dc := 1 }
theorem hyps_st : StoreHyps (.st aSt) aSt .write (fun x => [x.opX, x.opD]) :=
  has (s := st 0 (.st aSt)) (by decide +kernel)
    ⟨by decide +kernel, readableOf (by decide +kernel), noAcq (by decide +kernel), reachesOf (by decide +kernel), rfl, noTrapOf (by decide +kernel)⟩
theorem hyps_st_none : HasIssue (.st { aSt with cond := 1 }) (fun _ x => x.act = 0) := has (s := st 0 (.st { aSt with cond := 1 })) (by decide +kernel) (by decide +kernel)
theorem hyps_st_release : HasIssue (.st { aSt with scope := 2 }) (fun _ x => x.act ≠ 0 ∧ Readable [x.opX, x.opD] ∧ NoAcquire x ∧
    Reaches x .write (fun _ => 4) (eaAt { aSt with scope := 2 } x.opX 4) (fun _ => 0) (fun _ => mLeaf) ∧ ({ aSt with scope := 2 } : MArgs).scope ≠ 0 ∧ x.w.pass = 0) :=
  has (s := st 0 (.st { aSt with scope := 2 })) (by decide +kernel)
    ⟨by decide +kernel, readableOf (by decide +kernel), noAcq (by decide +kernel), reachesOf (by decide +kernel), by decide +kernel, by decide +kernel⟩
def aSte : MArgs := { d := 8, x := 0x102, wid := 2, dc := 1 }
theorem hyps_ste : HasIssue (.ste aSte) (fun _ x => Elements x .write (fun _ => mLeaf) (fun _ => 4) ∧ x.act ≠ 0 ∧ Readable [x.opX, x.opD] ∧ NoAcquire x ∧
    Reaches x .write (fun _ => 4) (eaAt aSte x.opX 4) (fun _ => 0) (fun _ => mLeaf) ∧ aSte.scope = 0 ∧ ∀ fl, NoTrap x fl) :=
  has (s := st 0 (.ste aSte)) (by decide +kernel)
    ⟨elementsOf (by decide +kernel) (by decide +kernel), by decide +kernel, readableOf (by decide +kernel), noAcq (by decide +kernel), reachesOf (by decide +kernel), rfl,
      fun _ => noTrapOf (by decide +kernel)⟩
def aRedm : MArgs := { d := 8, x := 0x102, wid := 2, dc := 1 }
theorem hyps_redm : StoreHyps (.redm aRedm) aRedm .atomic (fun x => [x.opX, x.opD]) :=
  has (s := st 0 (.redm aRedm)) (by decide +kernel)
    ⟨by decide +kernel, readableOf (by decide +kernel), noAcq (by decide +kernel), reachesOf (by decide +kernel), rfl, noTrapOf (by decide +kernel)⟩
def aPref : MArgs := { x := 0x102, dc := 6 }
theorem hyps_pref : HasIssue (.pref aPref) (fun s x => Readable [x.opX] ∧ Active x 0 ∧ accessTr s x.g.core x.g.ctx .read (eaAt aPref x.opX 1 0) = .ok 0 mLeaf ∧ s.l1Find x.g.core 0 = none) :=
  has (s := st 0 (.pref aPref)) (by decide +kernel) ⟨readableOf (by decide +kernel), ⟨by decide, by decide +kernel⟩, by decide +kernel, by decide +kernel⟩

/-! ## Scratchpad -/

/-- Each lane's local access leads to byte 256 of team 0. -/
def landing (x : Issue) (a : MArgs) (write plain : Bool) : Bool :=
  (List.range 64).all (fun l => eaLocal a x.localX (2 ^ a.wid.toNat) l % 2 ^ a.wid.toNat == 0 &&
    match localAddr x.s x.tm (eaLocal a x.localX (2 ^ a.wid.toNat) l) (2 ^ a.wid.toNat) write plain with | .at_ t o f => t == 0 && o == 256 && !f | _ => false)
theorem landsOf {x : Issue} {a : MArgs} {w p : Bool} (h : landing x a w p = true) (hb : (x.s.team 0).bankPend = none) :
    Lands x a w p (fun _ => 0) (fun _ => 256) (fun _ => false) := by
  intro l hl
  have h := List.all_eq_true.1 h l (List.mem_range.2 hl.1)
  rw [Bool.and_eq_true, beq_iff_eq] at h
  refine ⟨h.1, ?_, fun b hb' => by simp [hb] at hb'⟩
  have h := h.2
  unfold Rules.bytesOf
  split at h
  · next e =>
    simp only [Bool.and_eq_true, beq_iff_eq, Bool.not_eq_true'] at h
    rw [e, h.1.1, h.1.2, h.2]
  · cases h
/-- S2 holds 256, and the team's bank is in SCRATCH mode, or in FIFO mode with granule 16 full. -/
def pad (i : Instr) (fifo : Bool) (full : List Nat) : State :=
  { at_ { grp 0 i with s := [(2, 256)] } with teams := [{ team0 with banks := [fifo], full := full, fullWas := full }] }
def aLdl : MArgs := { d := 8, x := 0x102, wid := 2, dc := 6 }
abbrev PadHyps (i : Instr) (a : MArgs) (w p : Bool) (fifo : Bool) (full : List Nat) (q : State → Issue → Prop) : Prop :=
  (pos (pad i fifo full) i).act ≠ 0 ∧ NoAcquire (pos (pad i fifo full) i) ∧ Readable [(pos (pad i fifo full) i).opX] ∧ Lands (pos (pad i fifo full) i) a w p (fun _ => 0) (fun _ => 256) (fun _ => false) ∧
    issues (pad i fifo full) i = true ∧ q (pad i fifo full) (pos (pad i fifo full) i)
theorem hyps_ldl : PadHyps (.ldl aLdl) aLdl false true false [] (fun s x => Free x (x.dests (regsOf aLdl)) ∧ (s.team 0).spoisoned 256 4 = false) :=
  ⟨by decide +kernel, noAcq (by decide +kernel), readableOf (by decide +kernel), landsOf (by decide +kernel) (by decide +kernel), by decide +kernel, freeOf (by decide +kernel), by decide +kernel⟩
def aStl : MArgs := { d := 8, x := 0x102, wid := 2, dc := 1 }
theorem hyps_stl : PadHyps (.stl aStl) aStl true true false [] (fun _ x => Readable [x.opX, x.opD]) :=
  ⟨by decide +kernel, noAcq (by decide +kernel), readableOf (by decide +kernel), landsOf (by decide +kernel) (by decide +kernel), by decide +kernel, readableOf (by decide +kernel)⟩
theorem hyps_ldf_full : PadHyps (.ldf aLdl) aLdl false false true [16] (fun s x => Free x (x.dests (regsOf aLdl)) ∧ NoCluster x ∧ (s.team 0).spoisoned 256 4 = false ∧
    Granules s aLdl (fun _ => 0) (fun _ => 256) (FoundFull false) 0) :=
  ⟨by decide +kernel, noAcq (by decide +kernel), readableOf (by decide +kernel), landsOf (by decide +kernel) (by decide +kernel), by decide +kernel, freeOf (by decide +kernel), (by decide +kernel : ∀ r ∈ _, _), by decide +kernel,
    fun g h1 h2 => by have : 256 < 16 * g + 16 := h1; have : 16 * g < 260 := h2; have : g = 16 := by omega
                      subst this; unfold FoundFull; decide +kernel⟩
theorem hyps_ldf_waits : PadHyps (.ldf aLdl) aLdl false false true [] (fun s x => Free x (x.dests (regsOf aLdl)) ∧ NoCluster x ∧ Active x 0 ∧ ¬ Granules s aLdl (fun _ => 0) (fun _ => 256) (FoundFull false) 0) :=
  ⟨by decide +kernel, noAcq (by decide +kernel), readableOf (by decide +kernel), landsOf (by decide +kernel) (by decide +kernel), by decide +kernel, freeOf (by decide +kernel), (by decide +kernel : ∀ r ∈ _, _),
    ⟨by decide, by decide +kernel⟩, fun h => absurd (h 16 (by decide) (by decide)) (by unfold FoundFull; decide +kernel)⟩
theorem hyps_stf : PadHyps (.stf aStl) aStl true false true [] (fun s x => Readable [x.opX, x.opD] ∧ NoCluster x ∧ HasTeam s 0 ∧ Granules s aStl (fun _ => 0) (fun _ => 256) FoundEmpty 0) :=
  ⟨by decide +kernel, noAcq (by decide +kernel), readableOf (by decide +kernel), landsOf (by decide +kernel) (by decide +kernel), by decide +kernel, readableOf (by decide +kernel), (by decide +kernel : ∀ r ∈ _, _),
    ⟨_, List.mem_singleton.2 rfl, rfl⟩, fun g _ _ => by simp [FoundEmpty, pad, State.team, findD, team0, noTeam]⟩
theorem hyps_stf_waits : PadHyps (.stf aStl) aStl true false true [16] (fun s x => Readable [x.opX, x.opD] ∧ NoCluster x ∧ Active x 0 ∧ (s.team 0).fifo 256 = true ∧
    ¬ Granules s aStl (fun _ => 0) (fun _ => 256) FoundEmpty 0) :=
  ⟨by decide +kernel, noAcq (by decide +kernel), readableOf (by decide +kernel), landsOf (by decide +kernel) (by decide +kernel), by decide +kernel, readableOf (by decide +kernel), (by decide +kernel : ∀ r ∈ _, _),
    ⟨by decide, by decide +kernel⟩, by decide +kernel, fun h => absurd (h 16 (by decide) (by decide)) (by unfold FoundEmpty; decide +kernel)⟩
theorem hyps_wait_release : ∃ (s : State) (g : Group) (w : Warp), s.group 0 = some g ∧ g.gid = 0 ∧ g.warp 0 = some w ∧ w.wid = 0 ∧ w.wait = .ldf :=
  ⟨st 0 .xfence (warped (fun w => { w with wait := .ldf })), warped (fun w => { w with wait := .ldf }) (grp 0 .xfence), _, rfl, by decide +kernel, rfl, by decide +kernel, by decide +kernel⟩
/-- ATOML: the scalar form, of one access, and REDM's like with NR from lane 0 alone. -/
def aAtoml : MArgs := { d := 0x108, x := 0x102, wid := 2, dc := 6 }
theorem hyps_atoml : PadHyps (.atoml aAtoml) aAtoml true true false [] (fun s x => HasTeam s x.g.team ∧ Free x (x.dests (regsOf aAtoml)) ∧ Readable [x.opX, x.opD, casOpr x aAtoml] ∧
    (s.team 0).spoisoned 256 4 = false ∧ isS x.fd = true) :=
  ⟨by decide +kernel, noAcq (by decide +kernel), readableOf (by decide +kernel), landsOf (by decide +kernel) (by decide +kernel), by decide +kernel, ⟨_, List.mem_singleton.2 rfl, rfl⟩, freeOf (by decide +kernel), readableOf (by decide +kernel),
    by decide +kernel, by decide +kernel⟩
def iAtomlNr : Instr := .atoml { d := 8, x := 0x102, wid := 2, dc := 6, cp := 8, cond := 1 }
/-- Z is set in lane 0 alone, the condition of the access. -/
def sAtoml : State := { at_ { grp 0 iAtomlNr with s := [(2, 256)], z := 1 } with teams := [{ team0 with banks := [false] }] }
theorem hyps_atoml_nr : let a : MArgs := { d := 8, x := 0x102, wid := 2, dc := 6, cp := 8, cond := 1 }
    let x := pos sAtoml iAtomlNr
    issues sAtoml iAtomlNr = true ∧ NoAcquire x ∧ x.act ≠ 0 ∧ Readable [x.opX, x.opD, casOpr x a] ∧ Lands x a true true (fun _ => 0) (fun _ => 256) (fun _ => false) ∧ (sAtoml.team 0).spoisoned 256 4 = false ∧
    ∀ l, Active x l → Alone x a (fun _ => 0) (fun _ => 256) l :=
  ⟨by decide +kernel, noAcq (by decide +kernel), by decide +kernel, readableOf (by decide +kernel), landsOf (by decide +kernel) (by decide +kernel), by decide +kernel, fun l hl j hj hne _ => by
    have e : (pos sAtoml iAtomlNr).act = 1 := by decide +kernel
    have one : ∀ k, k < 64 → Mask.has (1 : Mask) k = true → k = 0 := by decide +kernel
    have h1 := one l hl.1 (e ▸ hl.2); have h2 := one j hj.1 (e ▸ hj.2); omega⟩
/-- LDW: window 0 of 4,096 bytes at address 0, read at V10 = 0; and its last word. -/
def aLdw : MArgs := { d := 8, x := 0x102, wid := 2, dc := 6 }
def sLdw (o : DWord) : State := { at_ { grp 0 (.ldw aLdw) with s := [(2, o)] } with teams := [{ team0 with windows := [{ valid := true, base := 0, size := 4096 }] }] }
theorem hyps_ldw : ∀ o : Nat, o = 0 ∨ o = 4092 ∨ o = 8192 → let s := sLdw (BitVec.ofNat 64 o); let x := pos s (.ldw aLdw)
    issues s (.ldw aLdw) = true ∧ NoAcquire x ∧ Readable [x.opX] ∧ Free x (x.dests (regsOf aLdw)) ∧ x.act ≠ 0 ∧ (x.tm.windows.getD 0 {}).valid = true ∧
    ∀ j, j < 4 → o + j < 4096 → accessTr s x.g.core x.g.ctx .read (0 + (o + j)) = .ok (o + j) mLeaf ∧ s.poisoned (o + j) 1 = false := by
  rintro o (rfl | rfl | rfl)
  · exact ⟨by decide +kernel, noAcq (by decide +kernel), readableOf (by decide +kernel), freeOf (by decide +kernel), by decide +kernel, by decide +kernel, by decide +kernel⟩
  · exact ⟨by decide +kernel, noAcq (by decide +kernel), readableOf (by decide +kernel), freeOf (by decide +kernel), by decide +kernel, by decide +kernel, by decide +kernel⟩
  · exact ⟨by decide +kernel, noAcq (by decide +kernel), readableOf (by decide +kernel), freeOf (by decide +kernel), by decide +kernel, by decide +kernel, by decide +kernel⟩

/-! ## Homes -/

/-- A request of group 0 with one word of line 0. -/
def acc0 : Acc := { lane := 0, va := 0, pa := 0, n := 4, data := 5 }
def part0 : Part := { line := 0, accs := [acc0], cls := 0 }
def req0 (k : RKind) : Req := { rid := 9, gid := 0, wid := 0, core := 0, ctx := 0, kind := k, dc := 1, parts := [part0], lanes := 1 }
def sReq (r : Req) : State := { at_ (grp 0 .xfence) with reqs := [r] }
theorem hyps_home : ∀ k : RKind, k = .load ∨ k = .store ∨ k = .atom 0 true → AtHome (sReq (req0 k)) (req0 k) 0 part0 ∧ ((sReq (req0 k)).lineSt part0.line).clusters = 0 ∧
    ((sReq (req0 k)).lineSt part0.line).dieBits = 0 ∧ ∀ v ∈ (sReq (req0 k)).invals, v.line ≠ part0.line ∧ v.rid ≠ some (9, part0.line) := by
  rintro k (rfl | rfl | rfl)
  all_goals exact ⟨by constructor <;> decide +kernel, by decide +kernel, by decide +kernel, by decide +kernel⟩
/-- A part of a line behind an outbound window, or on another node. -/
def partAt (pa : Nat) : Part := { line := pa / 128, accs := [{ acc0 with pa := pa }], cls := 2 }
def reqAt (pa : Nat) : Req := { req0 .store with parts := [partAt pa] }
theorem hyps_far_window : isOutbound ((partAt outBase).line * 128) = true ∧ (sReq (reqAt outBase)).req 9 = some (reqAt outBase) ∧ (reqAt outBase).parts[0]? = some (partAt outBase) ∧
    (reqAt outBase).inCluster = false ∧ (partAt outBase).performed = false ∧ conflicts (sReq (reqAt outBase)) 0 9 (partAt outBase).accs = false := by decide +kernel
theorem hyps_far_node : ∃ pa, isRemote ((partAt pa).line * 128) = true ∧ (sReq (reqAt pa)).req 9 = some (reqAt pa) ∧ (reqAt pa).parts[0]? = some (partAt pa) ∧
    (reqAt pa).sent = false ∧ (partAt pa).performed = false ∧ conflicts (sReq (reqAt pa)) 0 9 (partAt pa).accs = false :=
  ⟨remotePa 1 0, by decide +kernel⟩
def inv0 : Inval := { iid := 3, line := 0, home := 0, clusters := 1, dieBits := 0, icOnly := false, spare := none, rid := some (9, 0) }
theorem hyps_invalidate : ∃ (s : State) (v : Inval) (r : Req), s.invals.find? (fun v => v.iid == 3) = some v ∧ v.rid = some (9, 0) ∧ s.req 9 = some r ∧ r.kind.answers = false :=
  ⟨{ sReq (req0 .store) with invals := [inv0], l1 := [copy0] }, inv0, req0 .store, by decide +kernel, rfl, by decide +kernel, by decide +kernel⟩
def reqDone (bad : Mask) : Req := { req0 .store with parts := [{ part0 with done := true, performed := true, gwct := 30 }], bad := bad }
theorem hyps_store_end : ∀ bad : Mask, bad = 0 ∨ bad = 1 → ∃ g, (sReq (reqDone bad)).req 9 = some (reqDone bad) ∧ (reqDone bad).kind.answers = false ∧
    (∀ p ∈ (reqDone bad).parts, p.done = true) ∧ (sReq (reqDone bad)).group (reqDone bad).gid = some g ∧ (reqDone bad).far = false ∧ ∀ q ∈ g.held, q.1 ≠ (reqDone bad).dc := by
  rintro bad (rfl | rfl)
  all_goals exact ⟨grp 0 .xfence, by decide +kernel⟩
def pend0 : Pending := { rid := 9, left := 0, lanes := 1, dst := [.v 8], ready := true, writes := [.vl 8 1 [5]] }
def gPend : Group := warped (fun w => { w with pend := [pend0] }) (grp 0 .xfence)
theorem hyps_result : ∃ (s : State) (g : Group) (w : Warp), s.group 0 = some g ∧ g.warp 0 = some w ∧ w.pend.find? (fun p => p.rid == 9) = some pend0 ∧ pend0.ready = true ∧ pend0.left = 0 ∧
    pend0.rep = false ∧ g.mayRun 0 = true ∧ (pend0.red = true → ∀ q ∈ g.warps, ∀ z ∈ q.pend, z.red = true → pend0.rid ≤ z.rid) ∧ ∀ v ∈ pend0.writes, ∀ r k, v ≠ .pr r k :=
  ⟨at_ gPend, gPend, _, rfl, rfl, by decide +kernel, rfl, rfl, rfl, by decide +kernel, fun h => absurd h (by decide), fun v hv r k => by
    rw [List.mem_singleton.1 hv]; simp⟩
/-- A request to the scratchpad of team 1, in the same cluster. -/
def partC : Part := { line := 0, accs := [{ acc0 with n := 4 }], cls := 0, node := 1 }
def reqC (k : RKind) : Req := { req0 k with inCluster := true, parts := [partC] }
def sC (k : RKind) : State := { sReq (reqC k) with teams := [team0, { team0 with tid := 1, core := 1, st := .resident }] }
theorem hyps_cluster_access : ∀ k : RKind, k = .load ∨ k = .store ∨ k = .atom 0 true → (sC k).req 9 = some (reqC k) ∧ (reqC k).parts = [] ++ partC :: [] ∧ partC.performed = false ∧
    (∀ q ∈ (sC k).reqs, q.gid = (reqC k).gid → q.inCluster = true → 9 ≤ q.rid) ∧ HasTeam (sC k) partC.node ∧ ((sC k).team partC.node).st = .resident ∧
    clusterOf ((sC k).team partC.node).core = clusterOf (reqC k).core ∧ partC.accs ≠ [] ∧ (∀ a ∈ partC.accs, ∀ b ∈ partC.accs, a.n = b.n) ∧
    ∀ a ∈ partC.accs, ((sC k).team partC.node).spoisoned a.pa a.n = false := by
  rintro k (rfl | rfl | rfl)
  all_goals exact ⟨by decide +kernel, rfl, rfl, by decide +kernel, ⟨_, List.mem_cons_of_mem _ (List.mem_singleton.2 rfl), rfl⟩, by decide +kernel, by decide +kernel, by decide +kernel, by decide +kernel, by decide +kernel⟩

/-! ## Objects and pages -/

/-- A record of one dimension, of 32 words at 0x6000; S20 holds its address. -/
def boxRec : Nat := 0x6000 + 1 * 2 ^ 70 + (32 + 32 * 2 ^ 32) * 2 ^ 112
def withBox (s : State) : State := { s with mem := Memory.store s.mem 0x2000 (leBytes 64 boxRec) }
def s20 (g : Group) : Group := { g with s := [(20, 0x2000)] }
theorem okOfB {e : Except EErr (List Byte)} {v : List Byte} (h : (match e with | .ok b => b == v | .error _ => false) = true) : e = .ok v := by
  split at h
  · rw [beq_iff_eq.1 h]
  · cases h
def iDecl : Instr := .objdecl { x := 0x114, y := 0x115, mode := 3, dc := 6 }
def sDecl (live : Bool) : State := { withBox (st 0 iDecl s20) with fold := if live then [{ die := 0, index := 3, live := true, lines := [0xC0] }] else [] }
theorem hyps_objdecl : ∀ live : Bool, ∃ (bs : List Byte) (sh : Shape), issues (sDecl live) iDecl = true ∧ Readable [(pos (sDecl live) iDecl).opX] ∧ Free (pos (sDecl live) iDecl) [.s 21] ∧
    ((pos (sDecl live) iDecl).opX.at64 0).toNat % 64 = 0 ∧ eBytes (sDecl live) (agentOf (pos (sDecl live) iDecl).g) ((pos (sDecl live) iDecl).opX.at64 0).toNat 64 = .ok bs ∧
    shapeOf (leNat bs) = some sh ∧ sh.space = 0 ∧ 0xC0 ∈ boxLines (sDecl live) (agentOf (pos (sDecl live) iDecl).g) sh ∧ ((sDecl live).foldAt 0 0).live = false := by
  have sh : ∃ sh, shapeOf (leNat (leBytes 64 boxRec)) = some sh := Option.isSome_iff_exists.1 (by decide +kernel)
  have sp : (match shapeOf (leNat (leBytes 64 boxRec)) with | some r => r.space == 0 && (boxLines (sDecl false) (agentOf (grp 0 iDecl)) r).contains 0xC0 &&
      (boxLines (sDecl true) (agentOf (grp 0 iDecl)) r).contains 0xC0 | none => false) = true := by decide +kernel
  obtain ⟨sh, e⟩ := sh
  simp only [e, Bool.and_eq_true, beq_iff_eq, List.contains_eq_mem, decide_eq_true_eq] at sp
  have ag : ∀ b : Bool, agentOf (pos (sDecl b) iDecl).g = agentOf (grp 0 iDecl) := by decide +kernel
  intro live
  refine ⟨leBytes 64 boxRec, sh, by revert live; decide +kernel, readableOf (by revert live; decide +kernel), freeOf (by revert live; decide +kernel), by revert live; decide +kernel,
    okOfB (by revert live; decide +kernel), e, sp.1.1, ?_, by revert live; decide +kernel⟩
  rw [ag]
  cases live
  · exact sp.1.2
  · exact sp.2
/-- Object 5 of die 0, of two participants; a handle to it in S20. -/
def obj5 : FoldEntry := { die := 0, index := 5, live := true, gen := 1, pm1 := 1, lines := [0xC0] }
def sObj (i : Instr) (f : Group → Group) (bw : Nat) : State := { st 0 i (fun g => f { g with s := [(20, 0x1005)] }) with fold := [obj5], bw := bw }
theorem noPhase {s : State} {o : Nat} (h : ∀ g ∈ s.groups, ∀ w ∈ g.warps, w.wait = .none) : ∀ g ∈ s.groups, ∀ w ∈ g.warps, ∀ d ph, w.wait ≠ .phase d o ph :=
  fun g hg w hw d ph => by rw [h g hg w hw]; simp
def iRel : Instr := .objrel { x := 0x114 }
def iPhase : Instr := .phase { d := 0x115, x := 0x114 }
theorem hyps_objrel : ∀ bw : Nat, bw = 0 ∨ bw = 2 → let s := sObj iRel id bw; let x := pos s iRel
    issues s iRel = true ∧ Readable [x.opX] ∧ UniOk x x.opX ∧ Names s x.g (uni64 x.opX) obj5 ∧
    (∀ g ∈ s.groups, ∀ w ∈ g.warps, ∀ d ph, w.wait ≠ .phase d 5 ph) ∧ ((∀ r ∈ s.reqs, r.gid ≠ x.g.gid) ∧ (x.g.gw + 2 ≤ s.bw ↔ bw = 2)) := by
  rintro bw (rfl | rfl)
  · exact ⟨by decide +kernel, readableOf (by decide +kernel), by unfold UniOk; decide +kernel, ⟨by decide +kernel, by decide +kernel, by decide +kernel, by decide +kernel, .inr (by decide +kernel)⟩,
      noPhase (by decide +kernel), by decide +kernel, by decide +kernel⟩
  · exact ⟨by decide +kernel, readableOf (by decide +kernel), by unfold UniOk; decide +kernel, ⟨by decide +kernel, by decide +kernel, by decide +kernel, by decide +kernel, .inr (by decide +kernel)⟩,
      noPhase (by decide +kernel), by decide +kernel, by decide +kernel⟩
theorem hyps_phase : let s := sObj iPhase id 2; let x := pos s iPhase
    issues s iPhase = true ∧ x.w.released = false ∧ Readable [x.opX] ∧ UniOk x x.opX ∧ Names s x.g (uni64 x.opX) obj5 ∧ ObjQuiet s x.g obj5 :=
  ⟨by decide +kernel, by decide +kernel, readableOf (by decide +kernel), by unfold UniOk; decide +kernel,
    ⟨by decide +kernel, by decide +kernel, by decide +kernel, by decide +kernel, .inr (by decide +kernel)⟩, by decide +kernel, by decide +kernel⟩
theorem hyps_phase_released : let s := sObj iPhase relw 0; let x := pos s iPhase
    issues s iPhase = true ∧ x.w.released = true ∧ Free x [.s (fnum x.fd)] := ⟨by decide +kernel, by decide +kernel, freeOf (by decide +kernel)⟩
def wPhase : Warp := { wid := 0, entries := [eBar], wait := .phase 0 5 7 }
theorem hyps_view : ∃ (s : State) (g : Group) (w : Warp), (s.foldAt 0 5).live = true ∧ 0 = dieOf 0 ∧ s.group 0 = some g ∧ g.core = 0 ∧ g.warp 0 = some w ∧ w.wait = .phase 0 5 7 ∧ 7 ≠ (s.foldAt 0 5).phase :=
  ⟨{ at_ { grp 0 iPhase with warps := [wPhase] } with fold := [obj5] }, { grp 0 iPhase with warps := [wPhase] }, wPhase, by decide +kernel, by decide +kernel, rfl, by decide +kernel, rfl, rfl, by decide +kernel⟩

/-- Page 0, of 512 frames, at frame `f`, through the tables at 0x100000 to 0x106000. -/
def paged (f : Nat) (s : State) : State :=
  { s.setCtx 0 (fun c => { c with ptroot := 0x100000 }) with
    mem := [(0x100000, 0x102001), (0x102000, 0x104001), (0x104000, 0x106001), (0x106000, f * 4096 + 3)].foldl (fun m p => Memory.store m p.1 (leBytes 16 p.2)) s.mem }
def leafAt (f : Nat) : Leaf := { pfn := f, w := false, x := false, xf := false, coh := 0, lc := 0, fmt := 0, bg := 0, ten := 0, node := 0 }
def iPlace : Instr := .place { x := 0x114, mode := 0, dc := 1 }
theorem hyps_place : HasIssue iPlace (fun s x => Readable [x.opX] ∧ placed s x.g (x.opX.at64 0).toNat = [0] ∧ pageLeaf s x.g.ctx 0 = some (leafAt (2 ^ 28), 9, 0) ∧
    (s.page x.g.ctx 0).pin = none ∧ inT1 (2 ^ 28) = false) :=
  has (s := paged (2 ^ 28) (withBox (st 0 iPlace s20))) (by decide +kernel) ⟨readableOf (by decide +kernel), by decide +kernel, by decide +kernel, by decide +kernel, by decide +kernel⟩
def place0 (e : Option (Nat × Nat)) : PlaceOp := { rid := 4, gid := 0, dc := 1, engine := e, ctx := 0, tier := 0, pin := false, pages := [0] }
theorem hyps_place_end : ∀ e : Option (Nat × Nat), e = none ∨ e = some (0, 3) → ∃ (s : State), s.places.find? (fun p => p.rid == 4) = some (place0 e) ∧
    (∀ v ∈ (place0 e).pages, migrating s (place0 e).ctx v = false) ∧ 8 * 0 + 3 < s.ces.length := by
  rintro e (rfl | rfl)
  · exact ⟨{ at_ (grp 0 .xfence) with places := [place0 none] }, by decide +kernel, by decide +kernel, by decide +kernel⟩
  · exact ⟨{ at_ (grp 0 .xfence) with places := [place0 (some (0, 3))] }, by decide +kernel, by decide +kernel, by decide +kernel⟩
def iPlw : Instr := .placew { x := 0x114, dc := 6 }
theorem hyps_placew : ∃ bs, issues (st 0 iPlw s20) iPlw = true ∧ Readable [(pos (st 0 iPlw s20) iPlw).opX] ∧ (pos (st 0 iPlw s20) iPlw).w.pass = 0 ∧
    ((pos (st 0 iPlw s20) iPlw).opX.at64 0).toNat % 64 = 0 ∧ eBytes (st 0 iPlw s20) (agentOf (pos (st 0 iPlw s20) iPlw).g) ((pos (st 0 iPlw s20) iPlw).opX.at64 0).toNat 64 = .ok bs ∧
    ((st 0 iPlw s20).event 0 (layerWinOf (leNat bs)).evres).stream = none ∧ windowPages (st 0 iPlw s20) 0 (layerWinOf (leNat bs)) = [] :=
  ⟨List.replicate 64 0, by decide +kernel, readableOf (by decide +kernel), by decide +kernel, by decide +kernel, okOfB (by decide +kernel), by decide +kernel, by decide +kernel⟩
def waiting0 : Group → Group := fun g => warped (fun w => { w with pass := 1, snap := [6, 0] }) (s20 g)
theorem hyps_placew_waits : HasIssue iPlw (fun s x => Readable [x.opX] ∧ x.w.pass = 1 ∧ x.w.snap = 6 :: [0] ∧ (s.event x.g.ctx 6).stream = none ∧ Away s x.g.ctx [0]) :=
  has (s := paged (2 ^ 28) (st 0 iPlw waiting0)) (by decide +kernel)
    ⟨readableOf (by decide +kernel), by decide +kernel, by decide +kernel, by decide +kernel, 0, by decide, leafAt (2 ^ 28), 9, 0, by decide +kernel, by decide +kernel, by decide +kernel⟩
/-- The page stands in T1 and is asked to move to T2; it is being copied to frame 2^28. -/
def mig0 : Migration := { mid := 7, ctx := 0, vpage := 0, src := 0, dst := 1 }
def sMig (m : Migration) : State := { paged 512 State.reset with migs := [m] }
theorem hyps_migration_start : let s := sMig mig0
    (policyMove s 7).migs.find? (fun m => m.mid == 7) = some mig0 ∧ mig0.phase = 0 ∧
    (∀ q ∈ (policyMove s 7).migs, q.ctx = mig0.ctx → q.vpage = mig0.vpage → q.mid ≠ 7 → q.phase ≠ 1) ∧
    pageLeaf s mig0.ctx (mig0.vpage * 4096) = some (leafAt 512, 9, 0) ∧ (inT1 (leafAt 512).pfn = true ↔ mig0.dst ≠ 0) ∧
    (s.page mig0.ctx mig0.vpage).pin = none ∧
    framesClear { policyMove s 7 with choice := s.choice + 1 } (pickFrame s.choice (mig0.dst == 0) 9) (2 ^ 9) = true := by
  refine ⟨by decide +kernel, by decide +kernel, by decide +kernel, by decide +kernel, by decide +kernel, by decide +kernel, ?_⟩
  have hf : 2 ^ 28 ≤ pickFrame 0 (mig0.dst == 0) 9 := by
    show 2 ^ 28 ≤ (Config.t2Base / 4096 / 2 ^ 9 + (Config.freeWord 0).toNat % ((Config.t2End - Config.t2Base) / 4096 / 2 ^ 9)) * 2 ^ 9
    have : Config.t2Base / 4096 / 2 ^ 9 = 2 ^ 19 := by decide
    rw [this]
    omega
  have hm : ∀ c ∈ (policyMove (sMig mig0) 7).mem, c.1 < 2 ^ 40 := by decide +kernel
  have hl : (policyMove (sMig mig0) 7).lines = [] := by decide +kernel
  have hq : ∀ m ∈ (policyMove (sMig mig0) 7).migs, (m.phase == 1) = false := by decide +kernel
  have hc : (sMig mig0).choice = 0 := by decide +kernel
  rw [hc]
  simp only [framesClear, hl, Bool.and_eq_true, Bool.not_eq_true', List.any_eq_false]
  refine ⟨⟨fun c h => ?_, fun _ h => absurd h List.not_mem_nil⟩, fun m h => by simp [hq m h]⟩
  have := hm c h
  simp only [decide_eq_true_eq, not_and]
  omega
theorem hyps_migration_switch : let m : Migration := { mig0 with phase := 1, src := 512, dst := 2 ^ 28 }; let s := sMig m
    s.migs.find? (fun m => m.mid == 7) = some m ∧ pageLeaf s m.ctx (m.vpage * 4096) = some (leafAt 512, 9, m.vpage) ∧ (leafAt 512).pfn = m.src ∧ s.hostReqs = [] ∧ s.cores = [] ∧
      snooped s (m.src * 4096) (2 ^ 9 * 4096) = false ∧ (s.page m.ctx m.vpage).pin = none := by decide +kernel
theorem hyps_compress : let s := (paged (2 ^ 28) State.reset).setCtx 0 (fun c => { c with ptroot := 0x100000, tierpol := 1 })
    s.hostReqs = [] ∧ s.remotes = [] ∧ pageLeaf s 0 (0 / 256 * 4096) = some (leafAt (2 ^ 28), 9, 0) ∧ inT1 (leafAt (2 ^ 28)).pfn = false ∧ (s.ctx 0).tierpol.testBit 0 = true := by decide +kernel

/-! ## Copies, banks, sleep, lane mode, gating -/

abbrev CopyHyps (i : Instr) (os : Issue → List Opr) : Prop := HasIssue i (fun _ x => Readable (os x) ∧ UniOk x x.opY)
theorem hyps_copies : CopyHyps (.copy { x := 0x114, dc := 1 }) (fun x => [x.opX]) ∧ CopyHyps (.copyg { x := 0x114, y := 10, dc := 1 }) (fun x => [x.opX, x.opY]) ∧
    CopyHyps (.copys { x := 0x114, y := 10, dc := 1 }) (fun x => [x.opX, x.opY]) ∧ CopyHyps (.fill { x := 0x114, y := 0x102, dc := 1 }) (fun x => [x.opX, x.opY]) :=
  ⟨has (s := st 2 (.copy { x := 0x114, dc := 1 })) (by decide +kernel) ⟨readableOf (by decide +kernel), by unfold UniOk; decide +kernel⟩,
    has (s := st 2 (.copyg { x := 0x114, y := 10, dc := 1 })) (by decide +kernel) ⟨readableOf (by decide +kernel), by unfold UniOk; decide +kernel⟩,
    has (s := st 2 (.copys { x := 0x114, y := 10, dc := 1 })) (by decide +kernel) ⟨readableOf (by decide +kernel), by unfold UniOk; decide +kernel⟩,
    has (s := st 2 (.fill { x := 0x114, y := 0x102, dc := 1 })) (by decide +kernel) ⟨readableOf (by decide +kernel), by unfold UniOk; decide +kernel⟩⟩
/-- A FILL of one half word of 0x7000 by 9: the copy record at 0x2000, the shape at 0x2040. -/
def oneBox : Nat := 0x7000 + 1 * 2 ^ 70 + (1 + 2 ^ 32) * 2 ^ 112
def fillRec : List Byte := leBytes 64 (0x2040 * 2 ^ 64)
def withFill (s : State) : State := { s with mem := Memory.store (Memory.store s.mem 0x2000 fillRec) 0x2040 (leBytes 64 oneBox) }
def qFill : CopyCmd := { id := 6, gid := 0, kind := 3, recAddr := 0x2000, fill := 9, dc := 1, mask := Mask.width 64 }
def qFilling : CopyCmd := { qFill with started := true, record := fillRec, dst := leBytes 64 oneBox }
def sCopy (q : CopyCmd) : State := (withFill (at_ (grp 2 .xfence))).setCore 0 (fun c => { c with copyq := [q] })
theorem headCopy (q : CopyCmd) (h : q.queue = 0 ∧ q.marker = false ∧ q.gid = 0) : CopyHead (sCopy q) 0 0 q [] (grp 2 .xfence) := by
  refine ⟨?_, h.2.1, ?_⟩
  · show [q].filter (fun p => p.queue == 0) = [q]
    simp [h.1]
  · rw [h.2.2]; rfl
theorem hyps_copy_start : ∃ (r db : List Byte), CopyHead (sCopy qFill) 0 0 qFill [] (grp 2 .xfence) ∧ qFill.started = false ∧
    eBytes (copyHead (sCopy qFill) 0 0).1 (copyAgent (grp 2 .xfence)) qFill.recAddr.toNat 64 = .ok r ∧ ShapesRead (copyHead (sCopy qFill) 0 0).1 (grp 2 .xfence) qFill r [] db ∧
    qFill.recAddr.toNat % 64 = 0 ∧ copyRecBad qFill.kind (leNat r) = false :=
  ⟨fillRec, leBytes 64 oneBox, headCopy _ ⟨rfl, rfl, rfl⟩, rfl, okOfB (by decide +kernel), ⟨by decide +kernel, by decide +kernel, okOfB (by decide +kernel)⟩, by decide +kernel, by decide +kernel⟩
theorem okOfJ {e : Except Nat CopyJob} {v : CopyJob} (h : (match e with | .ok b => b == v | .error _ => false) = true) : e = .ok v := by
  split at h
  · rw [beq_iff_eq.1 h]
  · cases h
theorem okOfT {e : Except EErr (Nat × Leaf)} {v : Nat × Leaf} (h : (match e with | .ok b => b == v | .error _ => false) = true) : e = .ok v := by
  split at h
  · rw [beq_iff_eq.1 h]
  · cases h
theorem hyps_copy_end : ∃ (j : CopyJob) (src : Option (List Int)) (c : List Int), CopyHead (sCopy qFilling) 0 0 qFilling [] (grp 2 .xfence) ∧ qFilling.started = true ∧ PadsDone (sCopy qFilling) qFilling ∧
    qFilling.job (grp 2 .xfence) = .ok j ∧ OneElement (copyHead (sCopy qFilling) 0 0).1 j qFilling src c 0x7000 2 9 0 := by
  have hj : ∃ j, qFilling.job (grp 2 .xfence) = .ok j := okOf (by decide +kernel)
  obtain ⟨j, e⟩ := hj
  have k : (match qFilling.job (grp 2 .xfence) with
    | .ok j => decide (j.units = [[(none, [0, 0, 0, 0, 0])]]) && decide (j.dst.space = 0) && decide (isBfp j.dst.fmt = false) && decide (elemBits j.dst.fmt = 16) && decide (j.kind = 3) && decide (j.fill = 9) &&
        (match eTr (copyHead (sCopy qFilling) 0 0).1 j.a .write (j.dst.row [0, 0, 0, 0, 0] + 0) with | .ok p => p == (0x7000, mLeaf) | .error _ => false)
    | .error _ => false) = true := by decide +kernel
  rw [e] at k
  simp only [Bool.and_eq_true, decide_eq_true_eq] at k
  obtain ⟨⟨⟨⟨⟨⟨k1, k2⟩, k3⟩, k4⟩, k5⟩, k6⟩, k7⟩ := k
  refine ⟨j, none, [0, 0, 0, 0, 0], headCopy _ ⟨rfl, rfl, rfl⟩, rfl, (by decide +kernel : ∀ r ∈ (sCopy qFilling).reqs, _), e, ⟨k1, rfl⟩, ⟨k2, k3, k4, by decide⟩, ⟨mLeaf, okOfT k7, by decide +kernel, by decide +kernel, .inl (by decide +kernel)⟩, ?_⟩
  rw [if_pos k5, k6]
  decide
/-- A FILL of `n` half words from `base`. -/
def filling (base n : Nat) : CopyCmd := { qFill with started := true, record := fillRec, dst := leBytes 64 (base + 1 * 2 ^ 70 + (n + n * 2 ^ 32) * 2 ^ 112) }
abbrev Outcome (q : CopyCmd) (p : Moved → Prop) : Prop :=
  CopyHead (sCopy q) 0 0 q [] (grp 2 .xfence) ∧ q.started = true ∧ PadsDone (sCopy q) q ∧ p (copyOutcome (copyHead (sCopy q) 0 0).1 (grp 2 .xfence) q)
theorem outcome (q : CopyCmd) {p : Moved → Prop} (h : q.queue = 0 ∧ q.marker = false ∧ q.gid = 0 ∧ q.started = true) (k : p (copyOutcome (copyHead (sCopy q) 0 0).1 (grp 2 .xfence) q)) : Outcome q p :=
  ⟨headCopy q ⟨h.1, h.2.1, h.2.2.1⟩, h.2.2.2, fun r hr => (by cases hr), k⟩
/-- The last write of a command, one that another follows, and one on no page. -/
theorem hyps_copy_last : Outcome (filling 0x7000 1) (fun r => r.stop = none ∧ r.done = true) := outcome _ (by decide +kernel) (by decide +kernel)
theorem hyps_copy_more : Outcome (filling 0x7000 2) (fun r => r.stop = none ∧ r.done = false) := outcome _ (by decide +kernel) (by decide +kernel)
theorem hyps_copy_stops : Outcome (filling (2 ^ 57) 1) (fun r => r.stop = some (.fault cXLATE (2 ^ 57) 0)) := outcome _ (by decide +kernel) (by decide +kernel)
theorem hyps_copy_fault : ∃ (q : CopyCmd), CopyHead (sCopy q) 0 0 q [] (grp 2 .xfence) ∧ q.started = false ∧ q.recAddr.toNat % 64 ≠ 0 :=
  ⟨{ qFill with recAddr := 0x2008 }, headCopy _ ⟨rfl, rfl, rfl⟩, rfl, by decide +kernel⟩
theorem hyps_copy_fault_read : ∃ (q : CopyCmd), CopyHead (sCopy q) 0 0 q [] (grp 2 .xfence) ∧ q.started = false ∧ q.recAddr.toNat % 64 = 0 ∧
    eBytes (copyHead (sCopy q) 0 0).1 (copyAgent (grp 2 .xfence)) q.recAddr.toNat 64 = .error (.stop cXLATE (2 ^ 57) 0) :=
  ⟨{ qFill with recAddr := BitVec.ofNat 64 (2 ^ 57) }, headCopy _ ⟨rfl, rfl, rfl⟩, rfl, by decide +kernel, stop_of (by decide +kernel)⟩
def iQf : Instr := .qfence { x := 0x1D1 }
theorem hyps_qfence : HasIssue iQf (fun _ x => Readable [x.opX] ∧ UniOk x x.opX ∧ 0 < uni64 x.opX ∧ uni64 x.opX < 2 ^ 19) :=
  has (s := st 0 iQf) (by decide +kernel) ⟨readableOf (by decide +kernel), by unfold UniOk; decide +kernel, by decide +kernel, by decide +kernel⟩

theorem hyps_bankcfg : HasIssue (.bankcfg { m := 0x10 }) (fun s x => x.w.released = false ∧ HasTeam s x.g.team ∧ 0 < x.tm.banks.length ∧ x.tm.banks.getD 0 false ≠ (1 == 2) ∧ x.tm.bankPend = none) :=
  has (s := st 0 (.bankcfg { m := 0x10 })) (by decide +kernel) ⟨by decide +kernel, ⟨_, List.mem_singleton.2 rfl, rfl⟩, by decide +kernel, by decide +kernel, by decide +kernel⟩
theorem hyps_bankcfg_same : HasIssue (.bankcfg { m := 0x20 }) (fun s x => x.w.released = false ∧ HasTeam s x.g.team ∧ 0 < x.tm.banks.length ∧ x.tm.banks.getD 0 false = (2 == 2) ∧ x.tm.bankPend = none) :=
  has (s := st 0 (.bankcfg { m := 0x20 })) (by decide +kernel) ⟨by decide +kernel, ⟨_, List.mem_singleton.2 rfl, rfl⟩, by decide +kernel, by decide +kernel, by decide +kernel⟩
/-- Another bank changes. -/
theorem hyps_bankcfg_held : HasIssue (.bankcfg { m := 0x10 }) (fun _ x => x.w.released = false ∧ x.tm.bankPend ≠ none) :=
  has (s := { st 0 (.bankcfg { m := 0x10 }) with teams := [{ team0 with bankPend := some (1, 1, 9) }] }) (by decide +kernel) (by decide +kernel)
theorem hyps_bankcfg_released : HasIssue (.bankcfg { m := 0 }) (fun _ x => x.w.released = true) := has (s := st 0 (.bankcfg { m := 0 }) relw) (by decide +kernel) (by decide +kernel)
theorem hyps_bank_change : let s : State := { at_ (grp 0 .xfence) with teams := [{ team0 with bankPend := some (0, 1, 9) }] }
    HasTeam s 0 ∧ (s.team 0).bankPend = some (0, 1, 9) ∧ bankBusy s (s.team 0) 0 9 = false := ⟨⟨_, List.mem_singleton.2 rfl, rfl⟩, by decide +kernel, by decide +kernel⟩
theorem hyps_sleep : ∀ n : BitVec 27, n = 0 ∨ n = 5 → HasIssue (.sleep { imm := n }) (fun _ x => x.w.released = false) := by
  rintro n (rfl | rfl)
  · exact has (s := st 0 (.sleep { imm := 0 })) (by decide +kernel) (by decide +kernel)
  · exact has (s := st 0 (.sleep { imm := 5 })) (by decide +kernel) (by decide +kernel)
def gSleep : Group := warped (fun w => { w with wait := .sleep 5 }) (grp 0 .xfence)
theorem hyps_sleeper : ∀ bw : Nat, bw = 4 ∨ bw = 5 → ∃ w, ({ at_ gSleep with bw := bw } : State).group 0 = some gSleep ∧ gSleep.warp 0 = some w ∧ w.wait = .sleep 5 := by
  rintro bw (rfl | rfl)
  all_goals exact ⟨_, rfl, rfl, rfl⟩
def sClu (f : Cluster → Cluster) : State := State.reset.setCluster 0 f
abbrev At (s : State) (p : State → Prop) : Prop := p s
theorem hyps_relock : At (sClu (fun c => { c with pend := true, draining := true, newMode := 2 })) (fun s =>
      0 < s.clusters.length ∧ (s.cluster 0).pend = true ∧ (s.cluster 0).draining = true ∧ enginesBusy s 0 = false) ∧
    At (sClu (fun c => { c with pend := true, newMode := 2, relockAt := 256, fclk := 256 })) (fun s =>
      (s.cluster 0).pend = true ∧ (s.cluster 0).draining = false ∧ (s.cluster 0).relockAt ≤ (s.cluster 0).fclk ∧ (s.cluster 0).heldMode = none) ∧
    At (sClu (fun c => { c with pend := true, newMode := 2, relockAt := 256, fclk := 256, heldMode := some 0 })) (fun s =>
      (s.cluster 0).heldMode = some 0 ∧ 0 ≠ (s.cluster 0).newMode) := by decide +kernel
theorem hyps_gate : At (sClu id) (fun s => (s.cluster 0).gate = 0 ∧ clusterIdle s 0 = true ∧ (s.cluster 0).gateEn = true ∧ 1 ≤ (s.cluster 0).idleus) ∧
    At { sClu (fun c => { c with gate := 1 }) with bw := 10000 } (fun s => (s.cluster 0).gate = 1 ∧ clusterIdle s 0 = true ∧ (s.cluster 0).idleAt + 1000 * (s.cluster 0).idleus ≤ s.bw) ∧
    At ((at_ (grp 0 .xfence)).setCluster 0 (fun c => { c with gate := 1 })) (fun s => (s.cluster 0).gate = 1 ∧ clusterIdle s 0 = false) ∧
    At ((at_ (grp 0 .xfence)).setCluster 0 (fun c => { c with gate := 2 })) (fun s => (s.cluster 0).gate = 2 ∧ clusterIdle s 0 = false) ∧
    At (sClu (fun c => { c with gate := 2 })) (fun s => (s.cluster 0).gate = 2 ∧ clusterIdle s 0 = true) ∧
    At (sClu (fun c => { c with gate := 4 })) (fun s => 0 < s.clusters.length ∧ (s.cluster 0).gate = 4) := by decide +kernel

end Sys2Proof.Tests
end

