-- ==== Sys2Proof/Tests/WitnessSystem.lean ====
section
/-! SUPPORT. Witnesses: signals, launches, system instructions, saves, copy engines and the core's own steps. -/

namespace Sys2Proof.Tests
open Sys2Proof.Machine Sys2Proof.Rules
set_option Elab.async false

/-! ## Signals -/

/-- A signal to event 7 of context 0 of this node, of value 3. -/
def sigBits : Nat := 7 * 2 ^ 80 + 3 * 2 ^ 96
def iSig : Instr := .signal { x := 0x114, dc := 1 }
def sSig : State := let s := st 3 iSig s20; { s with mem := Memory.store s.mem 0x2000 (leBytes 16 sigBits) }
theorem hyps_signal : ∃ bs, issues sSig iSig = true ∧ (pos sSig iSig).act ≠ 0 ∧ Readable [(pos sSig iSig).opX] ∧ ((pos sSig iSig).opX.at64 0).toNat % 16 = 0 ∧
    eBytes sSig (agentOf (pos sSig iSig).g) ((pos sSig iSig).opX.at64 0).toNat 16 = .ok bs ∧ SignalOk sSig (pos sSig iSig).g (leNat bs) :=
  ⟨leBytes 16 sigBits, by decide +kernel, by decide +kernel, readableOf (by decide +kernel), by decide +kernel, okOfB (by decide +kernel),
    ⟨by decide +kernel, .inl (by decide +kernel), .inl (by decide +kernel)⟩⟩
def sig0 (kind node ctx : Nat) : Signal := { sid := 4, gid := 0, dc := 1, kind := kind, node := node, ctx := ctx, ev := 7, value := 3 }
def sSigs (q : Signal) : State := { at_ (grp 0 .xfence) with signals := [q], bw := 40 }
theorem due0 (q : Signal) (h : q.gid = 0 ∧ q.stamp = 0) : SignalDue (sSigs q) q := by
  have hg : (sSigs q).group 0 = some (grp 0 .xfence) := rfl
  have hw : (grp 0 .xfence).gw = 0 := by decide +kernel
  unfold SignalDue
  rw [h.1, if_neg (by decide), hg]
  refine ⟨fun r hr => absurd (show r ∈ ([] : List Req) from hr) List.not_mem_nil, ?_⟩
  show (grp 0 .xfence).gw + _ ≤ 40
  rw [hw]
  split <;> omega
theorem hyps_signal_deliver : ∀ q : Signal, q = sig0 0 0 0 ∨ q = sig0 0 0 3 ∨ q = sig0 1 0 1 ∨ q = sig0 0 5 0 →
    (sSigs q).signals.find? (fun g => g.sid == 4 && !g.posted) = some q ∧ SignalDue (sSigs q) q := by
  rintro q (rfl | rfl | rfl | rfl)
  all_goals exact ⟨by decide +kernel, due0 _ ⟨rfl, rfl⟩⟩
theorem hyps_signal_cases : (sig0 0 0 0).node = (sSigs (sig0 0 0 0)).nodeId ∧ ((sSigs (sig0 0 0 0)).ctx 0).enable = true ∧ MayPost (sSigs (sig0 0 0 0)) 0 7 false ∧
    ((sSigs (sig0 0 0 3)).ctx 3).enable = false ∧ (sig0 0 5 0).node ≠ (sSigs (sig0 0 5 0)).nodeId ∧ reachable (sSigs (sig0 0 5 0)) 5 = false :=
  ⟨by decide +kernel, by decide +kernel, ⟨.inr (by decide +kernel), by decide +kernel⟩, by decide +kernel, by decide +kernel, by decide +kernel⟩
/-- A signal for the ring of port 0, posted; the port has a page of its tenant at 0. -/
def sigR : Signal := { sig0 1 0 1 with posted := true }
def tenPage : TlbEntry := { second := false, who := 0, asid := 0, vpn := 0, order := 9, leaf := { mLeaf with w := true, ten := 1 } }
def sRing (prod : Nat) (tlb : List TlbEntry) : State :=
  { at_ (grp 0 .xfence) with signals := [sigR], ports := [{ sigprod := prod, ttlb := tlb }] }
theorem hyps_ring_write : ∃ pa l o v, At (sRing 0 [tenPage]) (fun s => s.signals.find? (fun g => g.sid == 4 && g.posted && !g.applied && g.kind == 1) = some sigR ∧ sigR.port < s.ports.length ∧
    (∀ p ∈ s.signals, p.posted = true → p.applied = false → p.kind = 1 → p.port = sigR.port → sigR.seq ≤ p.seq) ∧ ringUsed (s.ports.getD 0 {}) ≠ 512 ∧
    tenantTr s 0 ((s.ports.getD 0 {}).sigbase + (s.ports.getD 0 {}).sigprod % 512 * 8) = .ok pa l o v ∧ (deviceGate s (pa / 128) true false).2 = true ∧ s.packedAt pa = false ∧ s.pkg.reset = .idle ∧ sigR.wrote = none) :=
  ⟨0, tenPage.leaf, 9, 0, by decide +kernel⟩
/-- Its entry stands since tick 4. -/
theorem hyps_ring_fence : At { sRing 0 [tenPage] with signals := [{ sigR with wrote := some 4 }], bw := 6 } (fun s =>
    s.signals.find? (fun g => g.sid == 4 && g.posted && !g.applied && g.kind == 1) = some { sigR with wrote := some 4 } ∧ 4 + 2 ≤ s.bw ∧ ({ s with bw := 5 } : State).bw < 4 + 2) := by decide +kernel
theorem hyps_ring_full : ringUsed ((sRing 512 [tenPage]).ports.getD 0 {}) = 512 := by decide +kernel
theorem hyps_ring_unmapped : ringUsed ((sRing 0 []).ports.getD 0 {}) ≠ 512 ∧ tenantTr (sRing 0 []) 0 0 = .none_ 3 := by decide +kernel
theorem hyps_signal_ack : (sSigs { sig0 0 0 0 with posted := true, applied := true }).signals.find? (fun g => g.sid == 4 && g.applied) = some { sig0 0 0 0 with posted := true, applied := true } := by decide +kernel
/-- Port 0 in signal mode: function 1 is context 0's. -/
def sWin : State := { State.reset with ports := [{ mode := 0, ctx := 0, nvf := 1, up := true }] }
theorem hyps_window : fnContext sWin 0 ((0x10008) / 2 ^ 16) = some 0 ∧ 0x10008 % 2 ^ 16 < 0x1000 ∧ sWin.pkg.halt = false ∧ 0x10008 % 8 = 0 ∧ (sWin.ctx 0).enable = true ∧ sWin.pkg.reset = .idle ∧ MayPost sWin 0 7 false :=
  ⟨by decide +kernel, by decide +kernel, by decide +kernel, by decide +kernel, by decide +kernel, by decide +kernel, .inr (by decide +kernel), by decide +kernel⟩
theorem hyps_window_bad : fnContext sWin 0 (0x1000C / 2 ^ 16) = some 0 ∧ 0x1000C % 2 ^ 16 < 0x1000 ∧ 0x1000C % 8 ≠ 0 := by decide +kernel

/-! ## Launches -/

/-- One team of one VECTOR group of 64 lanes, at 0x40001000, with 64 rows. -/
def launchBits : Nat := 0x40001000 + 2 ^ 160 + 9 * 2 ^ 192 + 15 * 2 ^ 452 + 2 ^ 466 + 64 * 2 ^ 489
def rec0 : LaunchRec := launchFields launchBits
def iLaunch : Instr := .launch { x := 0x114, mode := 1, dc := 1 }
def sLaunch (f : Group → Group) : State := let s := st 3 iLaunch (fun g => f (s20 g)); { s with mem := Memory.store s.mem 0x2000 (leBytes 128 launchBits) }
theorem okOfL {e : Except EErr (Nat × Nat)} {v : Nat × Nat} (h : (match e with | .ok b => b == v | .error _ => false) = true) : e = .ok v := by
  split at h
  · rw [beq_iff_eq.1 h]
  · cases h
theorem rec0_is : launchRec launchBits 0 = some rec0 := by decide +kernel
theorem hyps_launch : let s := sLaunch id; let x := pos s iLaunch
    issues s iLaunch = true ∧ launchRec launchBits 0 = some rec0 ∧ Readable [x.opX] ∧ x.w.pass = 0 ∧ (x.opX.at64 0).toNat % 64 = 0 ∧
    readLaunch s (agentOf x.g) (x.opX.at64 0).toNat = .ok (launchBits, 0) :=
  ⟨by decide +kernel, rec0_is, readableOf (by decide +kernel), by decide +kernel, by decide +kernel, okOfL (by decide +kernel)⟩
def grid0 : Grid := { id := 0, ctx := 0, record := rec0, dies := [0], next := [0] }
/-- The fence has completed, at BWCLK 7; a queue has room, or not. -/
def fenced7 (g : Group) : Group := warped (fun w => { w with pass := 1, snap := [launchBits, 0, 7] }) g
def full0 (f : Bool) : State := { sLaunch fenced7 with grids := if f then List.replicate 64 grid0 else [] }
theorem hyps_launch_enters : ∀ f : Bool, let s := full0 f; let x := pos s iLaunch
    issues s iLaunch = true ∧ Readable [x.opX] ∧ x.w.pass = 1 ∧ x.w.snap = [launchBits, 0, 7] ∧
    ((∀ d ∈ namedDies 1 (dieOf x.g.core), (s.grids.filter (fun q => q.unplacedOn d != 0)).length < 64) ↔ f = false) := by
  intro f
  refine ⟨by revert f; decide +kernel, readableOf (by revert f; decide +kernel), by revert f; decide +kernel, by revert f; decide +kernel, by revert f; decide +kernel⟩
def gridN (n : Nat) : Grid := { grid0 with next := [n] }
def iSpawn : Instr := .spawn { x := 0x114, y := 10, mode := 2, dc := 6 }
def sSpawn : State := { st 0 iSpawn with grids := [gridN 1] }
theorem hyps_spawn : ∃ q, issues sSpawn iSpawn = true ∧ Readable [(pos sSpawn iSpawn).opX] ∧ sSpawn.grid (pos sSpawn iSpawn).g.grid = some q ∧ 2 ≤ q.record.budV ∧
    (∀ k, k < 2 → (pos sSpawn iSpawn).act &&& (pos sSpawn iSpawn).g.vpois (10 + k) = 0) ∧ (∀ b ∈ sSpawn.bins, (sSpawn.grid b.grid).isSome = true) ∧
    (sSpawn.bins.filter (fun b => b.die == 0)).length + (Mask.lanes (pos sSpawn iSpawn).e.mask).length ≤ 256 ∧ Active (pos sSpawn iSpawn) 0 :=
  ⟨gridN 1, by decide +kernel, readableOf (by decide +kernel), by decide +kernel, by decide +kernel, by decide +kernel, by decide +kernel, by decide +kernel, by decide, by decide +kernel⟩
def bin0 : Bin := { die := 0, ctx := 0, entry := 0x40001000, grid := 0, n := 1, threads := [[5]] }
def sBin : State := { at_ (grp 0 .xfence) with grids := [gridN 1], bins := [bin0], bw := 10000 }
theorem hyps_bin : (sBin.bins.filter (fun b => b.die == 0))[0]? = some bin0 ∧ sBin.grid bin0.grid = some (gridN 1) ∧ bin0.gw ≤ sBin.bw ∧
    bin0.start + fclkTicks sBin (0 * 1024) (sBin.ctx bin0.ctx).spawnt ≤ sBin.bw := by decide +kernel
/-- A grid whose team has not been placed, and no other; a team that was saved and waits. -/
def sPlace : State := { State.reset with grids := [grid0] }
def sOld (sv : Bool) : State := { State.reset with grids := [gridN 1], teams := [{ noTeam with tid := 3, grid := 0, die := 0, st := if sv then .saved else .queued, requeued := sv }] }
def placeOf (s : State) : Option (Cand × Grid × Nat) := nextPlacement s 0 0
theorem hyps_team_place : ∃ core share teamid, turnOf sPlace 0 = some 0 ∧ nextPlacement sPlace 0 0 = some (.fresh 0 teamid share, grid0, core) ∧ clusterOf core < sPlace.clusters.length ∧
    (sPlace.cluster (clusterOf core)).gate < 3 ∧ ¬ HasTeam sPlace sPlace.nextId :=
  ⟨0, 0, 0, by decide +kernel, by decide +kernel, by decide +kernel, by decide +kernel, fun ⟨_, h, _⟩ => by cases h⟩
theorem hyps_team_place_old : ∀ sv : Bool, turnOf (sOld sv) 0 = some 0 ∧ nextPlacement (sOld sv) 0 0 = some (.old 3, gridN 1, 0) ∧ HasTeam (sOld sv) 3 :=
  fun sv => ⟨by revert sv; decide +kernel, by revert sv; decide +kernel, ⟨_, List.mem_singleton.2 rfl, rfl⟩⟩
theorem hyps_team_place_gated : ∃ share teamid, At (sPlace.setCluster 0 (fun c => { c with gate := 3 })) (fun s => turnOf s 0 = some 0 ∧ nextPlacement s 0 0 = some (.fresh 0 teamid share, grid0, 0) ∧
    (s.cluster (clusterOf 0)).gate = 3) := ⟨0, 0, by decide +kernel, by decide +kernel, by decide +kernel⟩
/-- A placed group of a seated team, whose entry header stands at 0x40001010; and one of a spawned team. -/
def recE : LaunchRec := { rec0 with code := 0x40001010 }
def gPlaced : Group := { grp 0 .xfence with st := .placed, warps := [] }
def sStart (spawned : Bool) : State :=
  { at_ gPlaced with grids := [{ gridN 1 with record := recE }], teams := [if spawned then { team0 with spawned := true, threads := [[5], [6]], entry := 0x40002000 } else team0] }
theorem wordIs {f : FetchR} {w : DWord} (h : (match f with | .word v => v == w | _ => false) = true) : f = .word w := by
  split at h
  · rw [beq_iff_eq.1 h]
  · cases h
theorem hyps_group_start : (sStart false).group 0 = some gPlaced ∧ (sStart false).grid gPlaced.grid = some { gridN 1 with record := recE } ∧ gPlaced.st = .placed ∧
    ((sStart false).team gPlaced.team).stands = true ∧ ((sStart false).team gPlaced.team).spawned = false ∧ ((sStart false).team gPlaced.team).threads = [] ∧
    fetchVia false (sStart false) gPlaced.core gPlaced.ctx false 0 (recE.code + BitVec.ofNat 64 recE.entV) = .word 0xF047800000000000 ∧ hdrMark 0xF047800000000000 = true :=
  ⟨rfl, by decide +kernel, rfl, by decide +kernel, by decide +kernel, by decide +kernel, wordIs (by decide +kernel), by decide +kernel⟩
theorem hyps_group_start_spawned : (sStart true).group 0 = some gPlaced ∧ ((sStart true).team gPlaced.team).stands = true ∧ ((sStart true).team gPlaced.team).spawned = true ∧
    fetchVia false (sStart true) gPlaced.core gPlaced.ctx false 0 ((sStart true).team gPlaced.team).entry = .word 0xF045000000000000 ∧ hdrMark 0xF045000000000000 = true :=
  ⟨rfl, by decide +kernel, by decide +kernel, wordIs (by decide +kernel), by decide +kernel⟩
/-- A group without threads, its team's last or not; its grid posts EVDONE or not. -/
def gGone : Group := { grp 0 .xfence with warps := [], dc := [0, 0, 0, 0, 0, 0] }
def sEnd (more even : Bool) : State :=
  { at_ gGone with groups := gGone :: (if more then [{ grp 0 .xfence with gid := 1 }] else []), grids := [{ gridN 1 with record := { rec0 with even := even } }], bw := 2 }
theorem hyps_group_end : ∀ more even : Bool, At (sEnd more even) (fun s => s.group 0 = some gGone ∧ gGone.warps = [] ∧ (∀ n ∈ gGone.dc, n = 0) ∧ gGone.held = [] ∧ gGone.st ≠ .placed ∧ gGone.st ≠ .saved ∧
    gGone.st ≠ .ended ∧ HasTeam s gGone.team ∧ (s.team gGone.team).grid = gGone.grid ∧
    (((∀ q ∈ s.groups, q.team = gGone.team → q.gid ≠ 0 → q.st = .ended) ∧ ∀ m ∈ (s.core (s.team gGone.team).core).mq, m.team = gGone.team → m.kind = .marker) ↔ more = false) ∧
    (s.grid gGone.grid).isSome = true ∧ (gridN 1).unplaced = 0 ∧ (∀ tm ∈ s.teams, tm.grid = 0 → tm.tid = gGone.team) ∧ (∀ b ∈ s.bins, b.grid ≠ 0)) := by
  intro more even
  refine ⟨rfl, rfl, by decide, rfl, by decide +kernel, by decide +kernel, by decide +kernel, ⟨_, List.mem_singleton.2 rfl, rfl⟩, ?_, ?_, ?_, ?_, ?_, ?_⟩
  all_goals revert more even; decide +kernel
/-- A grid that has ended, with its EVDONE to post, before BWCLK reaches GW + 2 and at it. -/
def gridE : Grid := { gridN 1 with record := { rec0 with even := true } }
def sDone (bw : Nat) : State := { State.reset with grids := [gridE], bw := bw }
theorem hyps_grid_done : ∀ bw : Nat, bw = 1 ∨ bw = 2 → (sDone bw).grids.filter (fun p => gridDone (sDone bw) p) = [gridE] ∧ (∀ g ∈ (sDone bw).groups, g.grid ≠ gridE.id) ∧
    (gridE.gw + 2 ≤ (sDone bw).bw ↔ bw = 2) ∧ MayPost (sDone bw) gridE.ctx gridE.record.evdone false := by
  rintro bw (rfl | rfl)
  all_goals exact ⟨by decide +kernel, by decide +kernel, by decide +kernel, .inr (by decide +kernel), by decide +kernel⟩

/-! ## System instructions -/

def iTlb : Instr := .tlbinv { x := 0x104, y := 0x105, m := 8 }
def stage (n : Nat) (sn : List Nat) : Group → Group := warped (fun w => { w with pass := n, snap := sn })
theorem hyps_tlbinv : ∀ n : Nat, n = 0 ∨ n = 1 ∨ n = 2 → HasIssue iTlb (fun s x => Readable [x.opX, x.opY] ∧ UniOk x x.opX ∧ UniOk x x.opY ∧ uni64 x.opY < 2 ^ 12 ∧ x.w.pass = n ∧ (n = 2 → x.w.snap = [1, 0, 1]) ∧ s.reqs = [] ∧
    (∀ c ∈ s.cores, (∀ q ∈ c.2.copyq, q.started = false) ∧ ∀ q ∈ c.2.mq, q.started = true → q.done = true) ∧ ∀ k, k < 64 → (s.ce k).xfer = none) := by
  rintro n (rfl | rfl | rfl)
  · exact has (s := st 3 iTlb) (by decide +kernel) ⟨readableOf (by decide +kernel), by unfold UniOk; decide +kernel, by unfold UniOk; decide +kernel, by decide +kernel⟩
  · exact has (s := st 3 iTlb (stage 1 [])) (by decide +kernel) ⟨readableOf (by decide +kernel), by unfold UniOk; decide +kernel, by unfold UniOk; decide +kernel, by decide +kernel⟩
  · exact has (s := st 3 iTlb (stage 2 [1, 0, 1])) (by decide +kernel) ⟨readableOf (by decide +kernel), by unfold UniOk; decide +kernel, by unfold UniOk; decide +kernel, by decide +kernel⟩
/-- An access that came before the drop, to the page, is still to be performed. -/
theorem hyps_tlbinv_busy : HasIssue iTlb (fun s x => Readable [x.opX, x.opY] ∧ UniOk x x.opX ∧ UniOk x x.opY ∧ uni64 x.opY < 2 ^ 12 ∧ x.w.pass = 2 ∧ x.w.snap = [10, 0, 1] ∧
    ∃ q ∈ s.reqs, q.rid < 10 ∧ q.inCluster = false ∧ inReachOf 2 x.g.core q.core ∧ (s.ctx q.ctx).asid = uni64 x.opY ∧
      ∃ p ∈ q.parts, p.performed = false ∧ ∃ c ∈ p.accs, c.va / 4096 < 1) :=
  has (s := { st 3 iTlb (stage 2 [10, 0, 1]) with reqs := [req0 .store] }) (by decide +kernel)
    ⟨readableOf (by decide +kernel), by unfold UniOk; decide +kernel, by unfold UniOk; decide +kernel, by decide +kernel, by decide +kernel, by decide +kernel,
      req0 .store, List.mem_singleton.2 rfl, by decide, rfl, trivial, by decide +kernel, part0, List.mem_singleton.2 rfl, rfl, acc0, List.mem_singleton.2 rfl, by decide⟩
/-- Write-back of 128 bytes at 0, whose line stands dirty in its home. -/
def aFlush : MArgs := { d := 0x109, x := 0x108, scope := 2, dc := 6 }
def sFlush : State := { at_ { grp 3 (.cflush aFlush) with s := [(9, 128)] } with lines := [{ line := 0, inL2 := true, dirty := true, old := List.replicate 128 0 }] }
theorem hyps_cflush : At sFlush (fun s => issues s (.cflush aFlush) = true ∧ (pos s (.cflush aFlush)).act ≠ 0 ∧ Readable [(pos s (.cflush aFlush)).opX, (pos s (.cflush aFlush)).opD] ∧
    (pos s (.cflush aFlush)).opX.uni = true ∧ (pos s (.cflush aFlush)).opD.uni = true ∧ uni64 (pos s (.cflush aFlush)).opX = 0 ∧ uni64 (pos s (.cflush aFlush)).opD = 128 ∧
    accessTr s (pos s (.cflush aFlush)).g.core (pos s (.cflush aFlush)).g.ctx .read 0 = .ok 0 mLeaf ∧ s.pins = [] ∧
    let s0 := (pos s (.cflush aFlush)).read [(pos s (.cflush aFlush)).opX, (pos s (.cflush aFlush)).opD] s
    (s0.lines.map (·.line)).Nodup ∧ (∀ l ∈ s0.lines, l.dirty = true → l.old.length = 128) ∧ (s0.lineSt 0).inL2 = true) :=
  ⟨by decide +kernel, by decide +kernel, readableOf (by decide +kernel), by decide +kernel⟩
/-- TVEC of context 5, and WDOG. -/
def iMtsp : Instr := .mtsp { x := 0x114, y := 0x115 }
def sSp (i : Instr) (idx v : Nat) : State := st 3 i (fun g => { g with s := [(20, BitVec.ofNat 64 idx), (21, BitVec.ofNat 64 v)] })
def spVal (s : State) : Nat := mtspVal (pos s iMtsp).g.ctx (uni64 (pos s iMtsp).opX) (uni64 (pos s iMtsp).opY)
theorem hyps_mtsp : ∃ u k, At (sSp iMtsp (regNo 0 5 4) 77) (fun s => issues s iMtsp = true ∧ Readable [(pos s iMtsp).opX, (pos s iMtsp).opY] ∧ UniOk (pos s iMtsp) (pos s iMtsp).opX ∧ UniOk (pos s iMtsp) (pos s iMtsp).opY ∧
    uni64 (pos s iMtsp).opX < 2 ^ 32 ∧ (writeReg s (uni64 (pos s iMtsp).opX) (spVal s)).isSome = true ∧ writeWaits s (uni64 (pos s iMtsp).opX) (spVal s) = false ∧
    writeReg (flagged (pos s iMtsp) [(pos s iMtsp).opX, (pos s iMtsp).opY]) (uni64 (pos s iMtsp).opX) (spVal s) = some u ∧ u.group (pos s iMtsp).g.gid = some k ∧
    k.warp (pos s iMtsp).w.wid = some (pos s iMtsp).w) := by
  obtain ⟨u, e⟩ := Option.isSome_iff_exists.1 (show (writeReg (flagged (pos (sSp iMtsp (regNo 0 5 4) 77) iMtsp) [(pos (sSp iMtsp (regNo 0 5 4) 77) iMtsp).opX, (pos (sSp iMtsp (regNo 0 5 4) 77) iMtsp).opY])
    (uni64 (pos (sSp iMtsp (regNo 0 5 4) 77) iMtsp).opX) (spVal (sSp iMtsp (regNo 0 5 4) 77))).isSome = true by decide +kernel)
  have h : (match writeReg (flagged (pos (sSp iMtsp (regNo 0 5 4) 77) iMtsp) [(pos (sSp iMtsp (regNo 0 5 4) 77) iMtsp).opX, (pos (sSp iMtsp (regNo 0 5 4) 77) iMtsp).opY])
      (uni64 (pos (sSp iMtsp (regNo 0 5 4) 77) iMtsp).opX) (spVal (sSp iMtsp (regNo 0 5 4) 77)) with
    | some u => decide ((u.group 0).map (fun k => k.warp 0) = some (some (pos (sSp iMtsp (regNo 0 5 4) 77) iMtsp).w)) | none => false) = true := by decide +kernel
  rw [e] at h
  have h := of_decide_eq_true h
  obtain ⟨k, hk, hw⟩ := Option.map_eq_some_iff.1 h
  exact ⟨u, k, by decide +kernel, readableOf (by decide +kernel), by unfold UniOk; decide +kernel, by unfold UniOk; decide +kernel, by decide +kernel, by decide +kernel, by decide +kernel, e, hk, hw⟩
def iMfsp : Instr := .mfsp { d := 0x116, x := 0x114 }
theorem hyps_mfsp : ∃ v u, At (sSp iMfsp (regNo 0 5 4) 0) (fun s => issues s iMfsp = true ∧ Readable [(pos s iMfsp).opX] ∧ UniOk (pos s iMfsp) (pos s iMfsp).opX ∧ Free (pos s iMfsp) [.s 22] ∧
    uni64 (pos s iMfsp).opX < 2 ^ 32 ∧ readReg s (uni64 (pos s iMfsp).opX) = some (v, u)) :=
by
  obtain ⟨⟨v, u⟩, e⟩ := Option.isSome_iff_exists.1 (show (readReg (sSp iMfsp (regNo 0 5 4) 0) (uni64 (pos (sSp iMfsp (regNo 0 5 4) 0) iMfsp).opX)).isSome = true by decide +kernel)
  exact ⟨v, u, by decide +kernel, readableOf (by decide +kernel), by unfold UniOk; decide +kernel, freeOf (by decide +kernel), by decide +kernel, e⟩
theorem hyps_register_write : writeWaits State.reset (regNo 0 5 4) 77 = false ∧ (writeReg State.reset (regNo 0 5 4) 77).isSome = true ∧ writeReg State.reset 0xF0000000 0 = none := by decide +kernel
theorem hyps_halt : HasIssue (.halt { m := 0 }) (fun _ _ => True) ∧ ∀ m : BitVec 9, m = 1 ∨ m = 2 → HasIssue (.halt { x := 0x104, m := m }) (fun s x => Readable [x.opX] ∧ UniOk x x.opX ∧ uni64 x.opX < 97 ∧
    uni64 x.opX < s.contexts.length ∧ (s.teams.map (·.tid)).Nodup ∧ (s.groups.map (·.gid)).Nodup) := by
  refine ⟨has (s := st 3 (.halt { m := 0 })) (by decide +kernel) trivial, ?_⟩
  rintro m (rfl | rfl)
  · exact has (s := st 3 (.halt { x := 0x104, m := 1 })) (by decide +kernel) ⟨readableOf (by decide +kernel), by unfold UniOk; decide +kernel, by decide +kernel, by decide +kernel, by decide +kernel, by decide +kernel⟩
  · exact has (s := st 3 (.halt { x := 0x104, m := 2 })) (by decide +kernel) ⟨readableOf (by decide +kernel), by unfold UniOk; decide +kernel, by decide +kernel, by decide +kernel, by decide +kernel, by decide +kernel⟩

/-! ## Saves -/

abbrev SaveHyps (i : Instr) : Prop := HasIssue i (fun s x => Readable [x.opX, x.opY] ∧ UniOk x x.opY ∧ (x.opX.at64 0).toNat % 64 = 0 ∧ uni64 x.opY < 97 ∧ s.dies.length = 8 ∧ dieOf x.g.core < 8)
theorem hyps_ctxsave : SaveHyps (.ctxsave { x := 0x114, y := 0x104, dc := 1 }) ∧ SaveHyps (.ctxload { x := 0x114, y := 0x104, dc := 1 }) :=
  ⟨has (s := st 3 (.ctxsave { x := 0x114, y := 0x104, dc := 1 }) s20) (by decide +kernel) ⟨readableOf (by decide +kernel), by unfold UniOk; decide +kernel, by decide +kernel, by decide +kernel, by decide +kernel, by decide +kernel⟩,
    has (s := st 3 (.ctxload { x := 0x114, y := 0x104, dc := 1 }) s20) (by decide +kernel) ⟨readableOf (by decide +kernel), by unfold UniOk; decide +kernel, by decide +kernel, by decide +kernel, by decide +kernel, by decide +kernel⟩⟩
def op0 (load : Bool) : SaveOp := { id := 5, die := 0, ctx := 0, gid := 0, dc := 1, addr := 0x6000, mode := 0, load := load }
def sSum (load : Bool) : State := { at_ (grp 0 .xfence) with teams := [{ team0 with st := .saved }], saves := [op0 load] }
theorem hyps_summary : ∀ load : Bool, At (sSum load) (fun s => s.saves.find? (fun o => o.die == 0 && o.ctx == 0) = some (op0 load) ∧ (∀ tm ∈ s.teams, tm.ctx = 0 → tm.stands = true → dieOf tm.core ≠ 0) ∧
    ∃ g, s.group (op0 load).gid = some g ∧ (match eTr s { core := noCore 0, ctx := g.ctx, team := 0, who := 0 } .write ((op0 load).addr.toNat + 64 * 0) with | .ok _ => True | .error _ => True)) := by
  intro load
  refine ⟨by revert load; decide +kernel, by revert load; decide +kernel, grp 0 .xfence, rfl, ?_⟩
  split <;> trivial
/-- A team of one idle group that is being saved into slot 0, or flushed, or drains. -/
def tBare : Team := { noTeam with nt := 0, banks := [] }
def gBar : Group := { grp 0 .xfence with warps := [{ wid := 0, entries := [eBar], wait := .bar 0 2 false, waitAt := some 0 }] }
def sTeam (st : TState) (slots : Nat) (idem : Bool) : State :=
  { (at_ gBar).setCtx 0 (fun c => { c with slots := slots, savepool := 0x10000000 }) with teams := [{ tBare with st := st, slot := if st = .saving then some 0 else none }], grids := [{ gridN 1 with record := { rec0 with idem := idem } }] }
theorem hyps_team_save : At (sTeam .saving 1 false) (fun s => HasTeam s 0 ∧ TeamQuiet s (s.team 0) ∧ (s.team 0).st = .saving ∧ (s.team 0).slot = some 0 ∧ (s.team 0).mode ≠ 3 ∧
    ∀ g ∈ s.groups, g.team = 0 → g.st = .ended ∨ ((∀ n ∈ g.dc, n = 0) ∧ g.deferred = [] ∧ g.handlers = [])) :=
  ⟨⟨_, List.mem_singleton.2 rfl, rfl⟩, ⟨by decide +kernel, by decide +kernel⟩, by decide +kernel, by decide +kernel, by decide +kernel, by decide +kernel⟩
theorem hyps_team_flush : At (sTeam .flushing 1 true) (fun s => HasTeam s 0 ∧ TeamQuiet s (s.team 0) ∧ (s.team 0).st = .flushing ∧ (s.team 0).spawned = false ∧
    s.grid (s.team 0).grid = some { gridN 1 with record := { rec0 with idem := true } }) :=
  ⟨⟨_, List.mem_singleton.2 rfl, rfl⟩, ⟨by decide +kernel, by decide +kernel⟩, by decide +kernel, by decide +kernel, by decide +kernel⟩
def sBinTeam : State := { sTeam .flushing 1 true with teams := [{ tBare with st := .flushing, spawned := true, entry := 0x40001000, threads := [[5]], binGw := 9 }] }
theorem hyps_team_flush_spawned : At sBinTeam (fun s => HasTeam s 0 ∧ TeamQuiet s (s.team 0) ∧ (s.team 0).st = .flushing ∧ (s.team 0).spawned = true ∧
    s.grid (s.team 0).grid = some { gridN 1 with record := { rec0 with idem := true } }) :=
  ⟨⟨_, List.mem_singleton.2 rfl, rfl⟩, ⟨by decide +kernel, by decide +kernel⟩, by decide +kernel⟩
theorem hyps_drain : ∀ slots idem, (slots = 1 ∧ idem = false) ∨ (slots = 0 ∧ idem = true) ∨ (slots = 0 ∧ idem = false) → At (sTeam .draining slots idem) (fun s => HasTeam s 0 ∧ (s.team 0).st = .draining ∧
    (s.team 0).drainAt ≤ (s.cluster (clusterOf (s.team 0).core)).fclk ∧ (∀ g ∈ s.groups, g.team = 0 → g.stopped = false) ∧ (freeSlot s (s.team 0) = if slots = 1 then some 0 else none) ∧
    (Machine.recordOf s (s.team 0)).idem = idem) := by
  rintro slots idem (⟨rfl, rfl⟩ | ⟨rfl, rfl⟩ | ⟨rfl, rfl⟩)
  all_goals exact ⟨⟨_, List.mem_singleton.2 rfl, rfl⟩, by decide +kernel, by decide +kernel, by decide +kernel, by decide +kernel, by decide +kernel⟩
/-- Core 0 alone is present; the stalled team's grid admits one team on a core, and has a second to place. -/
def sAdmit : State :=
  let s := sTeam .resident 1 false
  { s with bw := 1000000, pkg := { s.pkg with caps := [(0, 1), (0x100, 1), (0x101, 0)] }, grids := [{ gridN 1 with record := { rec0 with percore := 1, teams := 2 } }],
           teams := [{ tBare with tid := 1 }], groups := [{ gBar with team := 1 }] }
theorem hyps_admit : At sAdmit (fun s => stallStart s 0 0 = some 0 ∧ (s.dies.getD 0 {}).admitAt = [] ∧ 0 + fclkTicks s (0 * 1024) 4096 ≤ s.bw ∧ mayPlace s 0 0 = true ∧ nextPlacement s 0 0 = none ∧
    candidates s 0 0 = [(0, .fresh 0 1 0, s.grids.getD 0 grid0)] ∧ stalledTeams s 0 0 = [s.team 1] ∧ (chooseCore s 0 1 ((Cand.fresh 0 1 0).need s (s.grids.getD 0 grid0))).isSome = true ∧
    freeSlot s (s.team 1) = some 0) := by decide +kernel
theorem hyps_watchdog : At { sTeam .resident 0 false with bw := 20000000 } (fun s => stallStart s 0 0 = some 0 ∧ 0 + 1000 * (s.ctx 0).wdog ≤ s.bw ∧ 0 < s.contexts.length ∧
    (∀ q ∈ s.teams, q.ctx = 0 → q.stands = true → dieOf q.core = 0 → q.st ≠ .saving) ∧ (s.groups.map (·.gid)).Nodup ∧ ∀ g ∈ s.groups, ∀ w ∈ g.warps, w.entries ≠ []) := by decide +kernel

/-! ## Copy engines -/

/-- Engine 0 of die 0 runs, its turn come; page 0 is mapped to itself, and holds a copy record at 0x2000 of the shapes at 0x2040 and 0x2080. -/
def ce0 : CopyEngine := { state := 1, pc := 0x40001000 }
def copyBits : Nat := 0x2040 + 0x2080 * 2 ^ 64
def engMem : List Host.Cell :=
  [(0x100000, 16, 0x102001), (0x102000, 16, 0x104001), (0x104000, 16, 0x106001), (0x106000, 16, 7), (0x2000, 64, copyBits), (0x2040, 64, oneBox), (0x2080, 64, oneBox + 0x100)].foldl
    (fun m p => Memory.store m p.1 (leBytes p.2.1 p.2.2)) []
def sCe (c : CopyEngine) : State :=
  { State.reset.setCtx 0 (fun k => { k with ptroot := 0x100000 }) with mem := engMem, tlb := [{ dataPage with who := noCore 0 }], engine := some 0, ces := c :: List.replicate 63 {}, bw := 2 }
theorem engAt (c : CopyEngine) (h : c.state = 1 ∧ c.waiting = false ∧ c.xfer = none ∧ c.window = none) : EngineAt (sCe c) 0 c :=
  ⟨rfl, ⟨rfl, by show 0 < (c :: List.replicate 63 ({} : CopyEngine)).length; simp⟩, h⟩
theorem shapes : ∃ sh, shapeOf (leNat (leBytes 64 oneBox)) = some sh ∧ sh.space = 0 := by
  have h : (match shapeOf (leNat (leBytes 64 oneBox)) with | some r => r.space == 0 | none => false) = true := by decide +kernel
  split at h
  · next r e => exact ⟨r, e, beq_iff_eq.1 h⟩
  · cases h
theorem shapes' : ∃ sh, shapeOf (leNat (leBytes 64 (oneBox + 0x100))) = some sh ∧ sh.space = 0 := by
  have h : (match shapeOf (leNat (leBytes 64 (oneBox + 0x100))) with | some r => r.space == 0 | none => false) = true := by decide +kernel
  split at h
  · next r e => exact ⟨r, e, beq_iff_eq.1 h⟩
  · cases h
theorem okOfR {e : Except Stop (List Byte × List Byte × List Byte)} {v : List Byte × List Byte × List Byte} (h : (match e with | .ok b => b == v | .error _ => false) = true) : e = .ok v := by
  split at h
  · rw [beq_iff_eq.1 h]
  · cases h
theorem hyps_transfer : ∃ src dst : Shape, EngineAt (sCe ce0) 0 ce0 ∧
    readRecords (sCe ce0) (ceAgent (sCe ce0) 0 0 1) 0 (recordAt ce0 false 0 0x80) = .ok (leBytes 64 copyBits, leBytes 64 oneBox, leBytes 64 (oneBox + 0x100)) ∧
    shapeOf (leNat (leBytes 64 oneBox)) = some src ∧ shapeOf (leNat (leBytes 64 (oneBox + 0x100))) = some dst ∧ src.space ≠ 1 ∧ dst.space ≠ 1 := by
  obtain ⟨a, ha, ha'⟩ := shapes
  obtain ⟨b, hb, hb'⟩ := shapes'
  exact ⟨a, b, engAt _ ⟨rfl, rfl, rfl, rfl⟩, okOfR (by decide +kernel), ha, hb, by omega, by omega⟩
/-- XGATH: the same, with one index word at 0x20C0. -/
theorem hyps_gather : readRecords (sCe ce0) (ceAgent (sCe ce0) 0 0 1) 1 (recordAt ce0 false 0 0x80) = .ok (leBytes 64 copyBits, leBytes 64 oneBox, leBytes 64 (oneBox + 0x100)) ∧
    eBytes (sCe ce0) (ceAgent (sCe ce0) 0 0 1) 0x20C0 4 = .ok [0, 0, 0, 0] := ⟨okOfR (by decide +kernel), okOfB (by decide +kernel)⟩
theorem hyps_engine_wait : EngineAt (sCe ce0) 0 ce0 ∧ ((sCe ce0).event ce0.ctx 7).stream = none ∧ (0 : BitVec 32).toNat ≤ ((sCe ce0).event ce0.ctx 7).count ∧
    ((sCe ce0).event ce0.ctx 7).count < (3 : BitVec 32).toNat ∧ eventRoom (sCe ce0) ce0.ctx 7 true = true :=
  ⟨engAt _ ⟨rfl, rfl, rfl, rfl⟩, by decide +kernel, by decide +kernel, by decide +kernel, by decide +kernel⟩
theorem hyps_engine_signal : EngineAt (sCe ce0) 0 ce0 ∧ ce0.gw + 2 ≤ (sCe ce0).bw ∧ MayPost (sCe ce0) ce0.ctx 7 false ∧ NotThere (sCe ce0) ce0.ctx 7 0 ∧
    EngineAt (sCe { ce0 with gw := 9 }) 0 { ce0 with gw := 9 } ∧ (sCe { ce0 with gw := 9 }).bw < ({ ce0 with gw := 9 } : CopyEngine).gw + 2 :=
  ⟨engAt _ ⟨rfl, rfl, rfl, rfl⟩, by decide +kernel, ⟨.inr (by decide +kernel), by decide +kernel⟩, by unfold NotThere; decide +kernel, engAt _ ⟨rfl, rfl, rfl, rfl⟩, by decide +kernel⟩
theorem hyps_engine_loop : EngineAt (sCe ce0) 0 ce0 ∧ ce0.l.length = 4 ∧ ce0.i.length = 4 ∧ 0 < (3 : BitVec 16).toNat - 1 ∧ (1 : BitVec 16).toNat - 1 = 0 ∧
    (ce0.pc + BitVec.ofInt 64 (8 * (-2 : BitVec 36).toInt)).toNat < 2 ^ 57 := ⟨engAt _ ⟨rfl, rfl, rfl, rfl⟩, by decide +kernel, by decide +kernel, by decide +kernel, by decide +kernel, by decide +kernel⟩
theorem hyps_engine_place : ∃ r, EngineAt (sCe ce0) 0 ce0 ∧ eBytes (sCe ce0) (ceAgent (sCe ce0) 0 0 0) (64 * (0x81 : BitVec 51).toNat) 64 = .ok (leBytes 64 oneBox) ∧
    shapeOf (leNat (leBytes 64 oneBox)) = some r ∧ r.space = 0 := by
  obtain ⟨a, ha, ha'⟩ := shapes
  exact ⟨a, engAt _ ⟨rfl, rfl, rfl, rfl⟩, okOfB (by decide +kernel), ha, ha'⟩
/-- A window of two layers of a page at 0x20C0. -/
def winBits : Nat := 0x1000 * 2 ^ 64 + 0x1000 * 2 ^ 96 + 2 * 2 ^ 128 + 2 ^ 144 + 2 ^ 148 + 5 * 2 ^ 160 + 6 * 2 ^ 176
def sWinCe (c : CopyEngine) : State := { sCe c with mem := Memory.store engMem 0x20C0 (leBytes 64 winBits) }
theorem opensOf {s : State} {k va : Nat} (h : good (eTr s (ceAgent s k 0 0) .write (va + 24)) = true) (hr : s.regions = []) : WindowOpen s k va := by
  obtain ⟨⟨pa, l⟩, h⟩ := okOf h
  exact ⟨pa, l, h, by simp [gateOpen, hr]⟩
theorem hyps_engine_stream : EngineAt (sWinCe ce0) 0 ce0 ∧ eBytes (sWinCe ce0) (ceAgent (sWinCe ce0) 0 0 0) (64 * (0x83 : BitVec 51).toNat) 64 = .ok (leBytes 64 winBits) ∧
    layerBad (leNat (leBytes 64 winBits)) = false ∧ WindowOpen (sWinCe ce0) 0 (64 * (0x83 : BitVec 51).toNat) :=
  ⟨⟨rfl, ⟨rfl, by decide +kernel⟩, ⟨rfl, rfl, rfl, rfl⟩⟩, okOfB (by decide +kernel), by decide +kernel, opensOf (by decide +kernel) rfl⟩
theorem hyps_engine_start : 8 * 0 + 0 < (sCe {}).ces.length ∧ (sCe {}).ce 0 = {} ∧ cePresent (sCe {}) 0 = true ∧ ({} : CopyEngine).state = 0 :=
  ⟨by decide +kernel, rfl, by decide +kernel, rfl⟩
def xfer0 : CopyCmd := { id := 1, gid := 0, kind := 0, recAddr := 0x2000, record := leBytes 64 copyBits, src := leBytes 64 oneBox, dst := leBytes 64 (oneBox + 0x100), started := true }
theorem hyps_engine_stop : ∀ c : CopyEngine, c = ce0 ∨ c = { ce0 with xfer := some xfer0 } → 8 * 0 + 0 < (sCe c).ces.length ∧ (sCe c).ce 0 = c ∧ c.state = 1 := by
  rintro c (rfl | rfl)
  all_goals exact ⟨by decide +kernel, rfl, rfl⟩
/-- A transfer of one element, and of two, of which one write comes first. -/
def xfers (n : Nat) : CopyCmd := { xfer0 with src := leBytes 64 (0x7000 + 1 * 2 ^ 70 + (n + n * 2 ^ 32) * 2 ^ 112), dst := leBytes 64 (0x7100 + 1 * 2 ^ 70 + (n + n * 2 ^ 32) * 2 ^ 112) }
theorem hyps_transfer_end : ∀ n : Nat, n = 1 ∨ n = 2 → ∃ j, (sCe { ce0 with xfer := some (xfers n) }).ce 0 = { ce0 with xfer := some (xfers n) } ∧ ceJob (sCe { ce0 with xfer := some (xfers n) }) 0 (xfers n) = .ok j ∧
    (runJob (sCe { ce0 with xfer := some (xfers n) }) j 0 0 0).stop = none ∧ ((runJob (sCe { ce0 with xfer := some (xfers n) }) j 0 0 0).done = true ↔ n = 1) := by
  rintro n (rfl | rfl)
  all_goals
    generalize hs : sCe _ = s
    generalize hc : xfers _ = q
    have h : (match ceJob s 0 q with | .ok j => (runJob s j 0 0 0).stop.isNone && ((runJob s j 0 0 0).done == decide (q = xfers 1)) | .error _ => false) = true := by subst hs hc; decide +kernel
    split at h
    · next j e =>
      rw [Bool.and_eq_true, Option.isNone_iff_eq_none, beq_iff_eq] at h
      refine ⟨j, by subst hs hc; rfl, e, h.1, ?_⟩
      rw [h.2]
      subst hc; decide +kernel
    · cases h
/-- A window that runs: with EVDONE taken, stopped, at its end, with a page to promote, with a layer promoted, and with EVDONE to come. -/
def ceW : CopyEngine := { ce0 with window := some 0x20C0, record := winBits }
theorem hyps_window_steps : ∀ c : CopyEngine, c = { ceW with taken := true } ∨ c = { ceW with stopReq := true } ∨ c = { ceW with layer := 2 } → (sWinCe c).ce 0 = c ∧ c.xfer = none ∧ c.window = some 0x20C0 ∧
    WindowOpen (sWinCe c) 0 0x20C0 := by
  rintro c (rfl | rfl | rfl)
  all_goals exact ⟨rfl, rfl, rfl, opensOf (by decide +kernel) rfl⟩
theorem hyps_window_page : ceW.promoted < min (ceW.layer + (layerWinOf ceW.record).depth) (layerWinOf ceW.record).nlayer ∧ (layerPages (sWinCe ceW) 0 (layerWinOf ceW.record) 0)[0]? = some 0 ∧
    (∃ l o, pageLeaf (sWinCe ceW) 0 (0 * 4096) = some (l, o, 0) ∧ o < 18 ∧ overBudget (sWinCe ceW) 0 (2 ^ o) = false) ∧ ((sWinCe ceW).page 0 0).pin = none ∧ ((sWinCe ceW).page 0 0).held = false ∧ migrating (sWinCe ceW) 0 0 = false :=
  ⟨by decide +kernel, by decide +kernel, ⟨{ leafAt 0 with w := true }, 9, by decide +kernel, by decide +kernel, by decide +kernel⟩, by decide +kernel, by decide +kernel, by decide +kernel⟩
theorem hyps_window_layer : (layerPages (sWinCe { ceW with page := 1 }) 0 (layerWinOf winBits) 0)[1]? = none ∧ ceW.gw + 2 ≤ (sWinCe ceW).bw ∧ MayPost (sWinCe ceW) 0 (layerWinOf winBits).evres false ∧
    NotThere (sWinCe ceW) 0 (layerWinOf winBits).evres 0 := ⟨by decide +kernel, by decide +kernel, ⟨.inr (by decide +kernel), by decide +kernel⟩, by unfold NotThere; decide +kernel⟩
theorem hyps_window_done : ∀ n : Nat, n = 0 ∨ n = 1 → At { sWinCe { ceW with promoted := 1 } with events := if n = 0 then [] else [{ ctx := 0, ev := 5, count := 1 }] } (fun s =>
    min (0 + (layerWinOf winBits).depth) (layerWinOf winBits).nlayer ≤ 1 ∧ (s.event 0 (layerWinOf winBits).evdone).stream = none ∧ (s.event 0 (layerWinOf winBits).evdone).count = n ∧
    eventRoom s 0 (layerWinOf winBits).evdone true = true) := by
  rintro n (rfl | rfl)
  all_goals decide +kernel

/-! ## The core's own steps -/

def eHead : Entry := { prio := 40, pc := 0x40001008, mask := Mask.width 64, h := 0x40001000 }
def wHead : Warp := { wid := 0, entries := [eHead] }
def gHead : Group := { grp 0 .xfence with warps := [wHead] }
/-- The group stands at a head whose header is `h` and whose word is IADD. -/
def sHead (h : DWord) (g : Group) : State := let s := at_ g; { s with mem := Memory.store (Memory.store s.mem 0x40001000 (leBytes 8 h.toNat)) 0x40001008 (leBytes 8 0x0000008050300000) }
theorem stands (s : State) (g : Group) (w : Warp) (e : Entry) (h : s.group 0 = some g ∧ g.warp 0 = some w ∧ w.entries = [e])
    (k : (e.cl.isNone && g.st == .active && !g.stopped && !g.halted && !w.parked && !w.held && g.mayRun 0 && !g.ctxStop && !teamHolds s g) = true) : HeadStands s 0 0 g w e := by
  simp only [Bool.and_eq_true, Bool.not_eq_true', Option.isNone_iff_eq_none, beq_iff_eq] at k
  obtain ⟨⟨⟨⟨⟨⟨⟨⟨a, b⟩, c⟩, d⟩, f⟩, i⟩, j⟩, l⟩, m⟩ := k
  exact ⟨h.1, h.2.1, ⟨[], h.2.2⟩, a, ⟨b, c, d, f, i, j⟩, .inl l, m⟩
theorem okOfW {e : ClauseR} {v : DWord} {l : List DWord} (h : (match e with | .words a b => a == v && b == l | _ => false) = true) : e = .words v l := by
  split at h
  · simp only [Bool.and_eq_true, beq_iff_eq] at h
    rw [h.1, h.2]
  · cases h
def hdr0 : DWord := 0xF047800000000000
theorem hyps_clause_start : HeadStands (sHead 0xF007800000000000 gHead) 0 0 gHead wHead eHead ∧ fetchClause (sHead 0xF007800000000000 gHead) gHead eHead = .words 0xF007800000000000 [0x0000008050300000] ∧
    ClauseOk (sHead 0xF007800000000000 gHead) gHead 0xF007800000000000 [0x0000008050300000] ∧ hdrRf 0xF007800000000000 = false ∧ hdrDcw 0xF007800000000000 = 0 :=
  ⟨stands _ _ _ _ ⟨rfl, rfl, rfl⟩ (by decide +kernel), okOfW (by decide +kernel),
    ⟨by decide +kernel, fun i h => by simp at h, by decide +kernel, fun h => absurd h (by decide +kernel), fun h => absurd h (by decide +kernel), fun h => absurd h (by decide +kernel)⟩, by decide +kernel, by decide +kernel⟩
/-- It waits for counter 0 (R58); its marker is wrong; its first word is a branch (R55). -/
def gCount : Group := { gHead with dc := [1, 0, 0, 0, 0, 0] }
theorem hyps_clause_waits : HeadStands (sHead 0xF007810000000000 gCount) 0 0 gCount wHead eHead ∧ fetchClause (sHead 0xF007810000000000 gCount) gCount eHead = .words 0xF007810000000000 [0x0000008050300000] ∧
    ClauseOk (sHead 0xF007810000000000 gCount) gCount 0xF007810000000000 [0x0000008050300000] ∧ gCount.held = [] ∧ (hdrDcw 0xF007810000000000).getLsbD 0 = true ∧ gCount.old.dcv 0 ≠ 0 :=
  ⟨stands _ _ _ _ ⟨rfl, rfl, rfl⟩ (by decide +kernel), okOfW (by decide +kernel),
    ⟨by decide +kernel, fun i h => by simp at h, by decide +kernel, fun h => absurd h (by decide +kernel), fun h => absurd h (by decide +kernel), fun h => absurd h (by decide +kernel)⟩, rfl, by decide +kernel, by decide +kernel⟩
def brWord : DWord := (encode iBr).getD 0 0
def sBadHead (h : DWord) : State := vectored (let s := sHead h gHead; { s with mem := Memory.store (Memory.store s.mem 0x40001008 (leBytes 8 brWord.toNat)) 0x40001010 (leBytes 8 0x0000008050300000) })
theorem hyps_clause_marker : HeadStands (sBadHead 0x7007800000000000) 0 0 gHead wHead eHead ∧ fetchClause (sBadHead 0x7007800000000000) gHead eHead = .words 0x7007800000000000 [] ∧
    hdrMark 0x7007800000000000 = false ∧ CanEnter (headIssue (sBadHead 0x7007800000000000) gHead wHead eHead) false ((sBadHead 0x7007800000000000).ctx 0).tvec :=
  ⟨stands _ _ _ _ ⟨rfl, rfl, rfl⟩ (by decide +kernel), okOfW (by decide +kernel), by decide +kernel, .inl (by decide +kernel), by decide +kernel, 0xF03FC00000000000, wordIs (by decide +kernel), by decide +kernel⟩
theorem hyps_clause_control : HeadStands (sBadHead hdr0) 0 0 gHead wHead eHead ∧ fetchClause (sBadHead hdr0) gHead eHead = .words hdr0 [brWord, 0x0000008050300000] ∧
    hdrMark hdr0 = true ∧ hdr0.extractLsb' 0 38 = 0 ∧ wordCtl (hdrEng hdr0) (([brWord, 0x0000008050300000] : List DWord).getD 0 0) = true ∧ CanEnter (headIssue (sBadHead hdr0) gHead wHead eHead) false ((sBadHead hdr0).ctx 0).tvec :=
  ⟨stands _ _ _ _ ⟨rfl, rfl, rfl⟩ (by decide +kernel), okOfW (by decide +kernel), by decide +kernel, by decide +kernel, by decide +kernel, .inl (by decide +kernel), by decide +kernel, 0xF03FC00000000000, wordIs (by decide +kernel), by decide +kernel⟩
/-- Two warps stand at one RF head. -/
def gPeers : Group := { gHead with warps := [{ wHead with entries := [{ eHead with mask := 0xFF }] }, { wid := 1, entries := [{ eHead with mask := 0xFF00 }] }] }
theorem hyps_merge : At (sHead 0xF007808000000000 gPeers) (fun s => HeadStands s 0 0 gPeers { wHead with entries := [{ eHead with mask := 0xFF }] } { eHead with mask := 0xFF } ∧
    fetchWord s gPeers.core gPeers.ctx gPeers.inPriv 0xFF eHead.h = .word 0xF007808000000000 ∧ hdrMark 0xF007808000000000 = true ∧ hdrRf 0xF007808000000000 = true ∧ gPeers.inHandler = false ∧
    2 ≤ (rfPeers gPeers { eHead with mask := 0xFF }).length ∧
    ∀ q ∈ gPeers.warps, (∀ p ∈ rfPeers gPeers { eHead with mask := 0xFF }, p.wid ≠ q.wid) → q.entries ≠ [] → q.parked = false ∧ ∀ a ∈ q.entries, a.prio.toNat ≤ eHead.prio.toNat) :=
  ⟨stands _ _ _ _ ⟨rfl, rfl, rfl⟩ (by decide +kernel), wordIs (by decide +kernel), by decide +kernel, by decide +kernel, by decide +kernel, by decide +kernel, by decide +kernel⟩
theorem hyps_activate : At (at_ { gHead with st := .ready }) (fun s => s.group 0 = some { gHead with st := .ready } ∧ (s.groups.filter (fun q => q.core == 0 && q.st == .active)).length < 8 ∧
    ∀ q ∈ s.groups, q.core = 0 → q.st = .ready → gHead.since ≤ q.since) := by decide +kernel
def gIdle : Group := { gHead with warps := [{ wHead with wait := .sleep 5 }] }
theorem hyps_idle : (at_ gIdle).group 0 = some gIdle ∧ gIdle.st = .active ∧ gIdle.stopped = false ∧ ∀ w ∈ gIdle.warps, w.parked = true ∨ w.held = true ∨ gIdle.mayRun w.wid = false ∨ WaitsOutside gIdle w :=
  ⟨rfl, by decide +kernel, by decide +kernel, fun w hw => .inr (.inr (.inr (by rw [List.mem_singleton.1 hw]; trivial)))⟩
/-- A group whose warp stands between clauses, and in one, beside a READY group. -/
theorem hyps_yields : ∀ g : Group, g = gHead ∨ g = grp 0 .xfence → At { at_ g with groups := [g, { gHead with gid := 1, st := .ready }], bw := 1000 } (fun s => s.group 0 = some g ∧ g.st = .active ∧ g.stopped = false ∧
    (∃ w ∈ g.warps, warpWaits s g w = false) ∧ (∃ q ∈ s.groups, q.core = g.core ∧ q.st = .ready) ∧ g.lastIssue + fclkTicks s g.core 32 ≤ s.bw ∧
    ((∀ w ∈ g.warps, w.inClause = false) ∨ ∃ w ∈ g.warps, w.inClause = true ∧ w.parked = false ∧ g.mayRun w.wid = true)) := by
  rintro g (rfl | rfl)
  all_goals decide +kernel
def gColl : Group := { gHead with coll := 1 }
theorem hyps_collector : ∀ p : Bool, At ((at_ gColl).setCluster 0 (fun c => { c with pend := p })) (fun s => s.groups.find? (fun q => q.core == 0 && q.coll != 0) = some gColl ∧ s.group gColl.gid = some gColl ∧
    (s.cluster (clusterOf 0)).pend = p) := by decide +kernel
theorem hyps_errors : (at_ gHead).group 0 = some gHead ∧ ((({ gHead with v := [(10, gen [1])] } : Group)).vreg 10).isGen = true ∧ HasTeam (at_ gHead) 0 ∧ 5 < 1024 * ((at_ gHead).team 0).banks.length ∧ 3 < ((at_ gHead).team 0).nt :=
  ⟨rfl, by decide +kernel, ⟨team0, List.mem_singleton.2 rfl, rfl⟩, by decide +kernel, by decide +kernel⟩
/-- Below the count of which Finat is told, and at it. -/
def sErrs (n : Nat) : State := (at_ gHead).setCluster 0 (fun c => { c with serpt := BitVec.ofNat 64 (n * 2 ^ 32) })
theorem hyps_errors_count : ∀ n : Nat, n = 0 ∨ n = 0x7FFF → 5 / 128 < (sErrs n).clusters.length ∧ ((sErrs n).cluster 0).serpt.toNat / 2 ^ 32 % 2 ^ 16 = n := by
  rintro n (rfl | rfl)
  all_goals decide +kernel
def fault0 : FaultRec := { id := 7, die := 0, va := 0x5000, asid := 0, ctx := 0, level := 0, kind := 1, warps := [(0, 0)] }
def sFault : State := { at_ { gHead with warps := [{ wHead with parked := true }], st := .waiting } with faults := [fault0] }
theorem hyps_answer : sFault.faults.find? (fun q => q.die == 0 && q.id == 7 && q.queued && q.state == 0) = some fault0 ∧ sFault.remotes = [] ∧
    ∃ g w, sFault.group 0 = some g ∧ g.warp 0 = some w ∧ (0, 0) ∈ fault0.warps := ⟨by decide +kernel, rfl, _, _, rfl, rfl, by decide +kernel⟩

end Sys2Proof.Tests
end

