-- ==== Sys2Proof/Tests/WitnessMachine.lean ====
section
/-! SUPPORT. Witnesses: resets, hosts, root ports, the Droveway, collectives, power, and the machine as a whole. -/

namespace Sys2Proof.Tests
open Sys2Proof.Machine Sys2Proof.Rules
set_option Elab.async false

/-! ## Resets -/

theorem hyps_reset_compute : State.reset.pkg.reset = .idle ∧ State.reset.pkg.halt = false ∧ ({ State.reset.pkg with reset := .started 3 } : Package).reset ≠ .idle := ⟨rfl, rfl, nofun⟩
/-- A dirty line of a tenant's page, and one of no tenant. -/
def dirtyLine (k : Nat) : Line := { line := k, inL2 := true, dirty := true, old := List.replicate 128 9 }
/-- The table of port 0's tenant maps frames 512 on. -/
def tenMem : List Host.Cell := [(0x100000, 0x102001), (0x102000, 0x104001), (0x104000, 512 * 4096 + 7 + 2 ^ 55)].foldl (fun m p => Memory.store m p.1 (leBytes 16 p.2)) []
def sStarted : State := { State.reset with bw := 6000, mem := tenMem, lines := [dirtyLine 16384, dirtyLine 0], pkg := { State.reset.pkg with reset := .started 0 } }
theorem hyps_write_back : At { sStarted with ports := [{ mode := 0, ctx := 0, nvf := 1, up := true, ttroot := 0x100000 }] } (fun s =>
    s.pkg.reset = .started 0 ∧ 0 + 1000 ≤ s.bw ∧ (s.lineSt 16384).dirty = true ∧ tenantLine s 16384 = true ∧ s.hostReqs = []) :=
  ⟨rfl, by decide +kernel, by decide +kernel, by decide +kernel, rfl⟩
theorem hyps_switch : sStarted.pkg.reset = .started 0 ∧ sStarted.hostReqs = [] ∧ (∀ l ∈ sStarted.lines, l.old.length ≤ 128) ∧ 0 + 5000 ≤ sStarted.bw ∧ tenantLine sStarted 0 = false ∧
    (dirtyLine 0).inL2 = true ∧ (dirtyLine 0).dirty = true ∧ dirtyLine 0 ∈ sStarted.lines ∧ (∀ q ∈ sStarted.lines, q.line = (dirtyLine 0).line → q = dirtyLine 0) ∧ ({ sStarted with bw := 4999 } : State).bw < 0 + 5000 :=
  ⟨rfl, rfl, by decide +kernel, by decide +kernel, by decide +kernel, rfl, rfl, by decide +kernel, by decide +kernel, by decide +kernel⟩
/-- BOOTLR names the record at 0x2000, with EN set or clear; context 0 is enabled or not. -/
def sBoot (v : DWord) (en : Bool) : State :=
  let s := State.reset.setCtx 0 (fun k => { k with ptroot := 0x100000, enable := en })
  { s with mem := Memory.store engMem 0x2000 (leBytes 128 launchBits), pkg := { s.pkg with bootlr := v, reset := .switched 0 }, tlb := [{ dataPage with who := noCore 0 }] }
theorem hyps_reset_end : ∀ v : DWord, v = 0x2000 ∨ v = 0x2008 → ∀ en : Bool, At (sBoot v en) (fun s => s.pkg.reset = .switched 0 ∧ s.pkg.halt = false ∧ s.hostReqs = [] ∧ (s.ctx 0).enable = en ∧ s.pkg.bootlr = v) := by
  rintro v (rfl | rfl) en
  all_goals exact ⟨rfl, rfl, rfl, by revert en; decide +kernel, rfl⟩
theorem hyps_boot : (sBoot 0x2000 true).pkg.bootlr.getLsbD 3 = false ∧ (sBoot 0x2008 true).pkg.bootlr.getLsbD 3 = true ∧ ((sBoot 0x2000 false).ctx 0).enable = false ∧ ((sBoot 0x2000 true).ctx 0).enable = true ∧
    readLaunch (sBoot 0x2000 true) { core := noCore (0x2000 % 8), ctx := 0, team := 0, who := 0 } (0x2000 / 64 % 2 ^ 51 * 64) = .ok (launchBits, 0) ∧ launchRec launchBits 0 = some rec0 ∧ State.reset.pkg.reset = .idle :=
  ⟨by decide +kernel, by decide +kernel, by decide +kernel, by decide +kernel, okOfL (by decide +kernel), rec0_is, rfl⟩
theorem hyps_keep : (¬ ((3 : Nat) = 3 ∧ State.reset.pkg.halt = true)) ∧ (∀ r ∈ State.reset.hostReqs, r.held = 3) ∧ ({ State.reset.pkg with halt := true } : Package).halt = true ∧
    (1 : Nat) ≠ 0 ∧ ∃ r ∈ ({ State.reset with hostReqs := [{ hid := 8, port := 0, kind := 0, addr := 0x80, value := 0, pa := 0x80, held := 1 }] } : State).hostReqs, r.held ≠ 3 :=
  ⟨by decide, by decide, rfl, by decide, _, List.mem_singleton.2 rfl, by decide⟩

/-! ## Requests of a host -/

/-- Port 0 serves its host, with a page of its tenant at 0 of the device. -/
def pTen : Port := { mode := 0, ctx := 0, nvf := 1, up := true, tenctl := 0x8000000000400000, ttlb := [tenPage] }
def sHost (p : Port) : State := { State.reset with ports := [p] }
theorem hyps_host_halt : portServes (sHost pTen) 0 = true ∧ ({ State.reset.pkg with halt := true } : Package).halt = true := ⟨by decide +kernel, rfl⟩
theorem hyps_host_unmapped : At (sHost { pTen with ttlb := [] }) (fun s => portServes s 0 = true ∧ s.pkg.halt = false ∧ ∀ pa l o v, tenantTr s 0 (0x80 / 64 * 64) ≠ .ok pa l o v) := by
  refine ⟨by decide +kernel, rfl, fun pa l o v => ?_⟩
  rw [show tenantTr (sHost { pTen with ttlb := [] }) 0 (0x80 / 64 * 64) = .none_ 3 by decide +kernel]
  nofun
theorem hyps_host_serve : At (sHost pTen) (fun s => portServes s 0 = true ∧ s.pkg.halt = false ∧ tenantTr s 0 (0x80 / 64 * 64) = .ok 0x80 tenPage.leaf 9 0 ∧ s.preSwitch = false ∧ snooped s 0x80 64 = false ∧
    s.packedAt 0x80 = false ∧ (∀ r ∈ s.hostReqs, r.held = 1 → r.pa / 4096 ≠ 0x80 / 4096) ∧ (iodRegions s 0 false).length < 131072 ∧ s.regionAt 0x80 = none ∧ s.poisoned 0x80 64 = false ∧ s.pkg.reset = .idle) :=
  by decide +kernel
theorem hyps_host_poison : { sHost pTen with poison := [0x80 / 64] }.poisoned 0x80 64 = true := by decide +kernel
def snoop0 (back : Bool) : Snoop := { hid := 3, port := 0, base := 0x80, size := if back then 4096 else 128, inv := true, back := back }
def region0 : Region := { port := 0, base := 0, size := 4096, st := .contested, lines := List.replicate 64 2 }
theorem hyps_host_snooped : snooped { sHost pTen with snoops := [snoop0 false] } 0x80 64 = true := by decide +kernel
theorem hyps_snoop : ∀ back : Bool, At { sHost pTen with snoops := [snoop0 back], regions := [region0] } (fun s => s.snoops.find? (fun x => x.hid == 3) = some (snoop0 back) ∧ s.hostReqs = [] ∧ s.regionAt 0x80 = some region0) := by
  intro back
  exact ⟨by revert back; decide +kernel, rfl, by revert back; decide +kernel⟩
/-- Requests that wait: for a snoop, for a translation, and past their bound with Finat. -/
def wait0 (held : Nat) : HostReq := { hid := 8, port := 0, kind := 0, addr := 0x80, value := 0, pa := 0x80, held := held }
theorem hyps_deadline : ∀ held, held = 1 ∨ held = 2 → At { sHost pTen with hostReqs := [wait0 held], bw := 2400 } (fun s => s.hostReqs.find? (fun r => r.hid == 8 && decide (r.held < 3)) = some (wait0 held) ∧
    (wait0 held).at_ + hostBound s (wait0 held) ≤ s.bw + 100 ∧ ({ s with bw := 3 } : State).bw + 100 < (wait0 held).at_ + hostBound { s with bw := 3 } (wait0 held)) := by
  rintro held (rfl | rfl)
  all_goals decide +kernel
theorem hyps_finat : ∀ held, held = 2 ∨ held = 3 → At { sHost { pTen with ttlb := [] } with hostReqs := [wait0 held] } (fun s => s.hostReqs.find? (fun r => r.hid == 8 && (r.held == 2 || r.held == 3)) = some (wait0 held) ∧
    ((s.ports.getD 0 {}).tenctl.getLsbD 2 && decide (0x80 < (s.ports.getD 0 {}).tenantSize)) = false ∧ (∀ pa l o v, tenantTr s 0 0x80 ≠ .ok pa l o v) ∧ s.hostReqs = [wait0 held]) := by
  rintro held h
  have e : tenantTr { sHost { pTen with ttlb := [] } with hostReqs := [wait0 held] } 0 0x80 = .none_ 3 := by rcases h with rfl | rfl <;> decide +kernel
  refine ⟨by rcases h with rfl | rfl <;> decide +kernel, by rcases h with rfl | rfl <;> decide +kernel, fun pa l o v => ?_, rfl⟩
  rw [e]
  nofun
/-- A write that waits for BWCLK to pass its GWCT by 2, and one that has. -/
theorem hyps_hosts_acked : ∀ bw, bw = 3 ∨ bw = 9 → At { sHost pTen with hostReqs := [{ wait0 4 with ackAt := 5 }], bw := bw } (fun s => { wait0 4 with ackAt := 5 } ∈ s.hostReqs ∧
    (bw = 9 → 5 ≤ s.bw) ∧ (bw = 3 → s.bw < 5)) := by
  rintro bw (rfl | rfl)
  all_goals exact ⟨List.mem_singleton.2 rfl, by decide, by decide⟩
theorem hyps_finat_fills : At { sHost { pTen with ttlb := [], tenctl := 0x8000000000400004 } with hostReqs := [wait0 3] } (fun s =>
    ((s.ports.getD 0 {}).tenctl.getLsbD 2 && decide (0x80 < (s.ports.getD 0 {}).tenantSize)) = true ∧ (wait0 3).held = 3 ∧ s.hostReqs = [wait0 3]) := ⟨by decide +kernel, rfl, rfl⟩
theorem hyps_bar0 : (fnContext sWin 0 (0x1008 / 2 ^ 16)).isSome = true ∧ (fnContext sWin 0 (0x11008 / 2 ^ 16)).isSome = true ∧ sWin.pkg.halt = false :=
  ⟨by decide +kernel, by decide +kernel, rfl⟩
/-- An enabled port of a mode that is down, and up; a root port whose partner has gone, with a write held. -/
def inb0 : Inbound := { pid := 5, port := 0, fn := 0, addr := 0x80, value := 7, size := 4 }
theorem hyps_links : ({ pTen with up := false } : Port).mode ≠ 3 ∧ pTen.tenctl.getLsbD 63 = true ∧ pTen.up = true ∧ ({ pTen with tenctl := 0 } : Port).tenctl.getLsbD 63 = false ∧
    At { sHost { pTen with mode := 2, tenctl := 0 } with inbound := [inb0] } (fun s => ∃ q ∈ s.inbound, q.port = 0) := ⟨by decide, by decide, rfl, by decide, inb0, List.mem_singleton.2 rfl, rfl⟩

/-! ## Root ports, and accesses that find no answer -/

/-- Port 0 is a root port that is up; its context has a page at 0. -/
def pRoot : Port := { mode := 2, ctx := 0, up := true }
def sRoot (w : Bool) : State := { State.reset with ports := [pRoot], tlb := [{ dataPage with who := noCore 0, leaf := { mLeaf with w := w } }], nextId := 9 }
theorem hyps_root_write : ∃ l, At (sRoot true) (fun s => RootAsks s 0 0x80 8 ∧ (s.inbound.filter (fun q => q.port / 4 == 0 && !q.read)).length < 256 ∧ s.pkg.halt = false ∧ inboundTr s 0 .write 0x80 = some (0x80, l) ∧
    ∀ r ∈ s.inbound, r.fnOf ≠ (0, 0)) :=
  ⟨mLeaf, ⟨by decide +kernel, by decide, by decide, by decide +kernel⟩, by decide +kernel, rfl, by decide +kernel, by decide +kernel⟩
theorem hyps_root_behind : At { sRoot true with inbound := [{ inb0 with released := true }] } (fun s => RootAsks s 0 0x80 8 ∧ inboundTr s 0 .write 0x80 = some (0x80, mLeaf) ∧
    ∃ h, s.inbound.find? (fun r => r.fnOf == (0, 0)) = some h ∧ h.read = false ∧ h.released = true) :=
  ⟨⟨by decide +kernel, by decide, by decide, by decide +kernel⟩, by decide +kernel, { inb0 with released := true }, by decide +kernel, rfl, rfl⟩
theorem hyps_root_refused : RootAsks (sRoot false) 0 0x80 8 ∧ inboundTr (sRoot false) 0 .write 0x80 = none :=
  ⟨⟨by decide +kernel, by decide, by decide, by decide +kernel⟩, by decide +kernel⟩
theorem hyps_root_full : At { sRoot true with inbound := List.replicate 256 inb0 } (fun s => RootAsks s 0 0x80 8 ∧ 256 ≤ (s.inbound.filter (fun q => q.port / 4 == 0 && !q.read)).length) :=
  ⟨⟨by decide +kernel, by decide, by decide, by decide +kernel⟩, by decide +kernel⟩
theorem hyps_root_read : At (sRoot false) (fun s => RootAsks s 0 0x80 8 ∧ inboundTr s 0 .read 0x80 = some (0x80, { mLeaf with w := false }) ∧ isWindow 0x80 = false ∧ s.preSwitch = false ∧
    (∀ p ∈ partsOf 0x80 8 0x80 { mLeaf with w := false }, isWindow p.pa = false ∧ s.packedAt p.pa = false ∧ (deviceGate s (p.pa / 128) false false).2 = true) ∧ s.poisoned 0x80 8 = false) :=
  ⟨⟨by decide +kernel, by decide, by decide, by decide +kernel⟩, by decide +kernel, by decide +kernel, by decide +kernel, by decide +kernel, by decide +kernel⟩
theorem hyps_root_read_none : At ({ sRoot false with tlb := [] } : State) (fun s => RootAsks s 0 0x80 8 ∧ s.pkg.halt = false ∧ inboundTr s 0 .read 0x80 = none) :=
  ⟨⟨by decide +kernel, by decide, by decide, by decide +kernel⟩, rfl, by decide +kernel⟩
def inPart0 : InPart := { pa := 0x80, off := 0, n := 4, cls := 0, xf := false }
theorem hyps_route : ∀ rel : Bool, At { sRoot true with inbound := [{ inb0 with released := rel, parts := [inPart0] }] } (fun s => s.inbound.find? (fun r => r.pid == 5) = some { inb0 with released := rel, parts := [inPart0] } ∧
    inb0.port = 0 ∧ inb0.read = false ∧ inPart0.done = false ∧ inPart0.route = homeDie 0x80 ∧ isRemote inPart0.pa = false ∧ isWindow inPart0.pa = false ∧ s.packedAt inPart0.pa = false ∧ s.pkg.reset = .idle ∧
    (deviceGate s (inPart0.pa / 128) true false).2 = true) := by
  intro rel
  exact ⟨by revert rel; decide +kernel, rfl, rfl, rfl, by decide +kernel, by decide +kernel, by decide +kernel, by revert rel; decide +kernel, rfl, by revert rel; decide +kernel⟩
def reqLate (k : RKind) (pa : Nat) : Req := { req0 k with parts := [partAt pa], sent := true, sentAt := 3 }
theorem hyps_time_out : At { sReq (reqLate .load outBase) with bw := 50003 } (fun s => s.req 9 = some (reqLate .load outBase) ∧ (partAt outBase).performed = false ∧ isOutbound ((partAt outBase).line * 128) = true ∧
    (reqLate .load outBase).kind.answers = true ∧ (reqLate .load outBase).sentAt + 50000 ≤ s.bw) ∧
    At { sReq (reqLate .store (remotePa 1 0)) with bw := 50003 } (fun s => s.req 9 = some (reqLate .store (remotePa 1 0)) ∧ isRemote ((partAt (remotePa 1 0)).line * 128) = true ∧
      reachable s ((partAt (remotePa 1 0)).line * 128 / 2 ^ 48 - 1) = false ∧ (reqLate .store 0).sentAt + 50000 ≤ s.bw ∧ (reqLate .store 0).kind.answers = false) := by decide +kernel

/-! ## The Droveway -/

theorem hyps_link : 0 < State.reset.links.length ∧ linkCap State.reset 0 ≠ 0 ∧ (State.reset.links.getD 0 {}).width = 0 ∧ ({ width := 2 } : Link).width = 2 := by decide +kernel
/-- Node 1 is reachable over link 0; exports through context 0 are open, with the tables of frame `f` at page 0. -/
def sExp (fill : Bool) : State :=
  let s := (if fill then paged 0 State.reset else State.reset).setCtx 0 (fun c => { c with fsvc := true })
  { s with links := [{ width := 2 }], pkg := { s.pkg with sync := true, routes := [(1, 1)], nodecfg := 2 ^ 28 } }
theorem hyps_remote : ∀ fill : Bool, reachable (sExp fill) 1 = true ∧ 1 ≠ (sExp fill).nodeId ∧ (∀ r ∈ (sExp fill).remotes, r.id < (sExp fill).nextId) ∧ (sExp fill).pkg.nodecfg.getLsbD 28 = true ∧ (sExp fill).expctx < 97 := by
  intro fill
  exact ⟨by revert fill; decide +kernel, by revert fill; decide +kernel, by revert fill; decide +kernel, by revert fill; decide +kernel, by revert fill; decide +kernel⟩
theorem hyps_remote_absent : (∃ lv, walk (sExp false) (0x80 / 4096) 3 ((sExp false).ctx (sExp false).expctx).ptroot = .absent lv) ∧ ((sExp false).ctx (sExp false).expctx).fsvc = true ∧
    (sExp false).denied ((sExp false).ctx (sExp false).expctx).asid 0x80 = false := ⟨⟨3, by decide +kernel⟩, by decide +kernel, by decide +kernel⟩
/-- A page of 2 MiB at 0, writable, in the tables from level 3. -/
def sExpW : State := { (sExp false).setCtx 0 (fun c => { c with ptroot := 0x100000, fsvc := true }) with mem := [(0x100000, 0x102001), (0x102000, 0x104001), (0x104000, 7)].foldl (fun m p => Memory.store m p.1 (leBytes 16 p.2)) [] }
theorem hyps_exports : ∀ kind n : Nat, (kind = 0 ∧ n = 8) ∨ (kind = 1 ∧ n = 128) ∨ (kind = 2 ∧ n = 8) ∨ (kind = 4 ∧ n = 4) → Exports sExpW kind 0x80 n mLeaf 0x80 ∧ sExpW.pkg.reset = .idle := by
  intro kind n h
  refine ⟨⟨⟨by decide +kernel, by decide, by decide +kernel⟩, ⟨9, 0, by decide +kernel, by decide +kernel⟩, ⟨by decide +kernel, by decide, by decide, by decide, fun _ => by decide⟩, ?_⟩, rfl⟩
  rcases h with ⟨rfl, rfl⟩ | ⟨rfl, rfl⟩ | ⟨rfl, rfl⟩ | ⟨rfl, rfl⟩
  all_goals exact ⟨by decide, by decide +kernel, by decide +kernel⟩

/-! ## Collectives -/

theorem hyps_doorbell : (State.reset.collectives.filter (fun q => q.die == 0 && q.ctx == 0 && !q.marker)).length < 16 ∧ 0x2000 % 64 = 0 ∧ 0x2004 % 64 ≠ 0 := by decide +kernel
theorem hyps_doorbell_full : At { State.reset with collectives := List.replicate 16 { id := 1, die := 0, ctx := 0, addr := 0x2000 } } (fun s => 16 ≤ (s.collectives.filter (fun q => q.die == 0 && q.ctx == 0 && !q.marker)).length) := by decide +kernel
theorem hyps_doorbell_read : At (sReq { req0 .load with parts := [partAt doorBase] }) (fun s => s.req 9 = some { req0 .load with parts := [partAt doorBase] } ∧ (partAt doorBase).performed = false ∧
    (partAt doorBase).line * 128 = doorBase + 0 * 4096 ∧ (partAt doorBase).accs = [{ acc0 with pa := doorBase }] ∧ conflicts s 0 9 (partAt doorBase).accs = false) := by decide +kernel
/-- An ALLREDUCE of 4 bytes of FP32 over dies 0 and 1; TMO 5; its flag at 0x5000; EVDONE 7. -/
def collBits (op : Nat) : Nat := 0x5000 * 2 ^ 448 + 0x3000 * 2 ^ 384 + 0x6000 * 2 ^ 320 + 0x4000 * 2 ^ 256 + 4 * 2 ^ 224 + 7 * 2 ^ 208 + 2 ^ 207 + 2 ^ 176 + 9 * 2 ^ 128 + 5 * 2 ^ 96 + op
def q0 : Collective := { id := 2, die := 0, ctx := 0, addr := 0x2000 }
def sColl (op op1 : Nat) (q : Collective) (rest : List Collective) : State :=
  { State.reset with collectives := q :: rest, bw := 10, tlb := [{ dataPage with who := noCore 0 }, { dataPage with who := noCore 1 }]
                     mem := [(0x2000, 64, collBits op), (0x2040, 64, collBits op1), (0x3004, 4, 2 ^ 16)].foldl (fun m p => Memory.store m p.1 (leBytes p.2.1 p.2.2)) [] }
def q1 : Collective := { id := 3, die := 1, ctx := 0, addr := 0x2040 }
theorem heads (s : State) (q : Collective) (op : Nat) (h : s.collectives.find? (fun c => c.die == 0 && c.ctx == 0) = some q) (k : q.marker = false)
    (b : (match eBytes s (collAgent 0 0) q.addr.toNat 64 with | .ok b => b == leBytes 64 (collBits op) | .error _ => false) = true) (v : leNat (leBytes 64 (collBits op)) = collBits op) : Heads s 0 0 q (collBits op) :=
  ⟨h, k, _, okOfB b, v⟩
theorem flagOpen {s : State} (q : Collective) (r : CollRec) (h : s.regions = []) : FlagOpen s q r := fun _ pa l _ => by simp [gateOpen, h]
theorem hyps_coll_post : At (sColl 0 0 { q0 with done := true } []) (fun s => Heads s 0 0 { q0 with done := true } (collBits 0) ∧ q0.gw + 2 ≤ s.bw ∧ MayPost s 0 (collRec (collBits 0)).evdone false) :=
  ⟨heads _ _ _ (by decide +kernel) rfl (by decide +kernel) (by decide +kernel), by decide +kernel, .inr (by decide +kernel), by decide +kernel⟩
theorem hyps_coll_bad : Heads (sColl 4 0 q0 []) 0 0 q0 (collBits 4) ∧ collBad (collBits 4) = true ∧ FlagOpen (sColl 4 0 q0 []) q0 (collRec (collBits 4)) :=
  ⟨heads _ _ _ (by decide +kernel) rfl (by decide +kernel) (by decide +kernel), by decide +kernel, flagOpen _ _ rfl⟩
theorem hyps_coll_failed : Heads (sColl 0 0 { q0 with fail := 3 } []) 0 0 { q0 with fail := 3 } (collBits 0) ∧ collBad (collBits 0) = false ∧ ({ q0 with fail := 3 } : Collective).fail ≠ 0 ∧
    FlagOpen (sColl 0 0 { q0 with fail := 3 } []) { q0 with fail := 3 } (collRec (collBits 0)) :=
  ⟨heads _ _ _ (by decide +kernel) rfl (by decide +kernel) (by decide +kernel), by decide +kernel, by decide, flagOpen _ _ rfl⟩
def twice : List (List Byte) := [leBytes 4 0x3F800000, leBytes 4 0x3F800000]
theorem hyps_coll_writes : ∃ u g, Heads (sColl 0 0 { q0 with data := some twice } []) 0 0 { q0 with data := some twice } (collBits 0) ∧
    unitWrite (collAgent 0 0) (collResult (collRec (collBits 0)) twice) (collRec (collBits 0)).dst (sColl 0 0 { q0 with data := some twice } []) 0 = .ok (u, g) ∧
    FlagOpen u { q0 with data := some twice } (collRec (collBits 0)) := by
  have k : (match unitWrite (collAgent 0 0) (collResult (collRec (collBits 0)) twice) (collRec (collBits 0)).dst (sColl 0 0 { q0 with data := some twice } []) 0 with
    | .ok (u, _) => u.regions.isEmpty | .error _ => false) = true := by decide +kernel
  split at k
  · next u g h => exact ⟨u, g, heads _ _ _ (by decide +kernel) rfl (by decide +kernel) (by decide +kernel), h, flagOpen _ _ (List.isEmpty_iff.1 k)⟩
  · cases k
/-- The members join; one's record differs; one has not come. -/
def tab0 : List Byte := leBytes 8 (2 ^ 48)
def JoinHyps (s : State) (p : Join → Bool) : Prop := Heads s 0 0 q0 (collBits 0) ∧ eBytes s (collAgent 0 0) (collRec (collBits 0)).members (4 * ((collRec (collBits 0)).nmem + 1)) = .ok tab0 ∧
  memberTable tab0 ((collRec (collBits 0)).nmem + 1) = some [(0, 0), (0, 1)] ∧ s.nodeId = 0 ∧ p (joinData s 0 (collRec (collBits 0)) tab0 [(0, 0), (0, 1)]) = true
theorem hyps_coll_join : JoinHyps (sColl 0 0 q0 [q1]) (fun j => match j with | .data _ => true | _ => false) ∧ JoinHyps (sColl 0 1 q0 [q1]) (fun j => match j with | .code 1 => true | _ => false) ∧
    JoinHyps (sColl 0 0 q0 []) (fun j => match j with | .wait => true | _ => false) := by
  refine ⟨?_, ?_, ?_⟩
  all_goals exact ⟨heads _ _ _ (by decide +kernel) rfl (by decide +kernel) (by decide +kernel), okOfB (by decide +kernel), by decide +kernel, by decide +kernel, by decide +kernel⟩
theorem hyps_coll_time : (collRec (collBits 0)).tmo ≠ 0 ∧ q0.at_ + 1000 * (collRec (collBits 0)).tmo ≤ ({ sColl 0 0 q0 [] with bw := 5000 } : State).bw ∧ (sColl 0 0 q0 []).bw < q0.at_ + 1000 * (collRec (collBits 0)).tmo ∧
    FlagOpen { sColl 0 0 q0 [] with bw := 5000 } q0 (collRec (collBits 0)) := ⟨by decide +kernel, by decide +kernel, by decide +kernel, flagOpen _ _ rfl⟩

/-! ## Power, heat, alarms and attestation -/

theorem hyps_power : ({ State.reset with bw := 1000 } : State).pkg.pwAt < ({ State.reset with bw := 1000 } : State).bw / 1000 ∧ State.reset.bw / 1000 ≤ State.reset.pkg.pwAt ∧ 1000 * State.reset.pkg.capw < 8000001 := by decide +kernel
theorem hyps_throttle : State.reset.islands.length = 64 ∧ ¬ HotGroup State.reset 5 ∧ 400 ≤ 1000 ∧ 0 < 5 ∧ 5 < 2 ^ 16 ∧ 2 ^ 16 ≤ 2 ^ 16 * 3 + 5 ∧ (2 ^ 16 * 3 + 5) % 2 ^ 16 ≠ 0 := by decide +kernel
/-- A die that is hot, with island 0 in group 5. -/
def sHot (i : Island) : State := { State.reset with islands := i :: List.replicate 63 {}, hbm := [{ temp := 0, level := 3 }], bw := 4000 }
theorem hyps_hot : At (sHot { thrgrp := 5 }) (fun s => s.islands.length = 64 ∧ HotGroup s 5 ∧ 800 < 1000 ∧ Hot s 0 ∧ ¬ 1000 ≤ 800) := by decide +kernel
def isl0 : Island := { thrgrp := 5, pending := [(4000, 900, 8), (4000, 1000, 4), (5000, 1800, 16)] }
theorem hyps_announce : At { State.reset with islands := [isl0], bw := 4000 } (fun s => 0 < s.islands.length ∧ 0 < s.clusters.length ∧ (isl0.pending.filter (fun p => p.1 == 4000)) ≠ [] ∧ (∀ p ∈ isl0.pending, 4000 ≤ p.1) ∧ isl0.thrgrp ≠ 0 ∧
    s.islands.getD 0 {} = isl0 ∧ ¬ Hot s 0 ∧ 4000 ≤ s.bw ∧ ({ s with bw := 3999 } : State).bw < 4000) := by decide +kernel
def stack0 (level : Nat) : Stack := { temp := 0, level := level }
theorem hyps_sample : ∀ level, level = 0 ∨ level = 2 → At { State.reset with hbm := [stack0 level], bw := 32000 } (fun s => s.hbm[0]? = some (stack0 level) ∧ (stack0 level).level ≤ 3 ∧ (stack0 level).sampAt < s.bw / 32000 ∧
    max (levelStep (stack0 level).level (110 % 256)) s.pkg.refctl = level + 1 ∧ 0 / 2 * 8 + 0 < s.islands.length ∧ (s.islands.getD (0 / 2 * 8 + 0) {}).thrgrp = 0 ∧ ({ s with bw := 31999 } : State).bw / 32000 ≤ (stack0 level).sampAt) := by
  rintro level (rfl | rfl)
  · exact ⟨rfl, by decide, by decide, by decide +kernel, by decide +kernel, by decide +kernel, by decide +kernel⟩
  · exact ⟨rfl, by decide, by decide, by decide +kernel, by decide +kernel, by decide +kernel, by decide +kernel⟩
def sAtt (prov : Bool) (gw : Option Nat := none) : State := let s := sCe {}; { s with pkg := { s.pkg with attEv := some 7, attbuf := 0x8000, prov := prov, attGw := gw } }
theorem hyps_attest_posts : (sAtt false (some 1)).pkg.attGw = some 1 ∧ 1 + 2 ≤ ({ sAtt false (some 1) with bw := 3 } : State).bw ∧ MayPost { sAtt false (some 1) with bw := 3 } 0 7 false ∧
    ({ sAtt false (some 1) with bw := 2 } : State).bw < 1 + 2 := ⟨rfl, by decide, ⟨.inr (by decide +kernel), by decide +kernel⟩, by decide⟩
theorem hyps_attest : ∀ prov : Bool, ∃ nonce, At (sAtt prov) (fun s => s.pkg.attEv = some 7 ∧ s.pkg.attGw = none ∧ s.pkg.prov = prov ∧
    eBytes s { core := noCore 0, ctx := 0, team := 0, who := 0 } (s.pkg.attbuf.toNat / 8192 * 8192) 32 = .ok nonce) := by
  intro prov
  exact ⟨List.replicate 32 0, rfl, rfl, rfl, okOfB (by revert prov; decide +kernel)⟩
theorem hyps_attest_write : ∃ u g, unitWrite { core := noCore 0, ctx := 0, team := 0, who := 0 } (leBytes 64 9) 0x8000 (sAtt false) 0 = .ok (u, g) := by
  obtain ⟨⟨u, g⟩, h⟩ := okOf (show good (unitWrite { core := noCore 0, ctx := 0, team := 0, who := 0 } (leBytes 64 9) 0x8000 (sAtt false) 0) = true by decide +kernel)
  exact ⟨u, g, h⟩

/-! ## The machine as a whole -/

def gTurn : Group := { grp 0 (.iadd { d := 8, x := 10, y := 12 }) with gid := 0 }
def sTurn (w : Warp) (m : Move) : State := { at_ { gTurn with warps := [w] } with agenda := [m] }
def cTurn : Clause := { eng := 0, cnt := 1, yld := false, ws := [0x0000008050300000, 0x0000008050300000] }
def wTurn : Warp := { wid := 0, entries := [eIadd] }
def isNext (o : Host.Outcome State Fault Refusal) : Bool := match o with | .next _ => true | _ => false
theorem nextOf {o : Host.Outcome State Fault Refusal} (h : isNext o = true) : ∃ t, o = .next t := by
  cases o with
  | next t => exact ⟨t, rfl⟩
  | fault _ => cases h
  | refused _ => cases h
def okInstr (e : Except DecodeError Instr) : Bool := match e with | .ok _ => true | .error _ => false
theorem hyps_turn : ∃ v, TurnOf (sTurn wIadd (.issue { gid := 0, wid := 0 })) { gid := 0, wid := 0 } [] { gTurn with warps := [wIadd] } wIadd eIadd cIadd ∧
    ({ sTurn wIadd (.issue { gid := 0, wid := 0 }) with agenda := [] }).portAllows { gid := 0, wid := 0 } = true ∧
    clauseWord (sTurn wIadd (.issue { gid := 0, wid := 0 })) 0 0 false eIadd.mask cIadd eIadd.h eIadd.pc = .word v ∧ decode cIadd.eng v = .ok (.iadd { d := 8, x := 10, y := 12 }) :=
  ⟨0x0000008050300000, ⟨rfl, rfl, rfl, ⟨[], rfl⟩, rfl⟩, by decide +kernel, wordIs (by decide +kernel), by decide +kernel⟩
/-- Two warps of a group: warp 1 has waited longer since its last issue, and would issue. -/
def sPair : State := at_ { gTurn with warps := [{ wIadd with turn := 4 }, { wIadd with wid := 1 }] }
theorem hyps_ports : ∃ g w v, TurnOf { sPair with agenda := [.issue { gid := 0, wid := 0 }] } { gid := 0, wid := 0 } [] g w eIadd cIadd ∧ g.st = .active ∧ v ∈ g.warps ∧ v.first = some eIadd ∧
    eIadd.cl.isSome = true ∧ v.wid ∉ g.issued ∧ v.wid ≠ w.wid ∧ v.turn < w.turn ∧ wouldIssue sPair { gid := 0, wid := 1 } = true :=
  ⟨_, _, { wIadd with wid := 1 }, ⟨rfl, rfl, rfl, ⟨[], rfl⟩, rfl⟩, rfl, by decide +kernel, rfl, rfl, by decide, by decide, by decide, by decide +kernel⟩
/-- Cluster 0 owes an FCLK cycle; something is due in it, or nothing. -/
def sOwed (due : Bool) : State :=
  let s := sTurn wIadd .tick
  { s with clusters := s.clusters.set 0 { s.cluster 0 with owed := 1 }, groups := if due then s.groups else [] }
theorem hyps_time : ({ sOwed true with agenda := [] }).mustAct = true ∧ ({ sOwed false with agenda := [] }).mustAct = false ∧ (sOwed false).pkg.reset = .idle ∧ 0 < (sOwed false).clusters.length ∧
    ((sOwed false).cluster 0).owed ≠ 0 ∧ State.reset.mustAct = false ∧ ∀ k, k < State.reset.clusters.length → (State.reset.cluster k).owed = 0 := by decide +kernel
theorem hyps_turn_head : (sTurn wHead (.issue { gid := 0, wid := 0 })).group 0 = some { gTurn with warps := [wHead] } ∧ wHead.entries = eHead :: [] ∧ eHead.cl = none := ⟨rfl, rfl, rfl⟩
/-- An engine runs at a word of zeros; a word further on was fetched ahead. -/
def sStream (ahead : List (Nat × DWord)) : State :=
  { sCe { ce0 with ahead := ahead } with mem := Memory.store engMem 0x40001000 (leBytes 8 0), tlb := [{ codePage with who := noCore 0 }], agenda := [.engine 0 0] }
theorem hyps_turn_engine : ∃ i, At { sStream [] with agenda := [], engine := some 0 } (fun s => (sStream []).agenda = .engine 0 0 :: [] ∧ ceIdleRun ((sStream []).ce 0) = true ∧ ((sStream []).ce 0).ahead = [] ∧
    eBytes s (ceAgent s 0 0 0) ((sStream []).ce 0).pc.toNat 8 = .ok (leBytes 8 0) ∧ (BitVec.ofNat 64 (leNat (leBytes 8 0))).extractLsb' 59 5 ≠ 1#5 ∧ decodeCe 0 0 = .ok i) := by
  have h : (match decodeCe 0 0 with | .ok _ => true | _ => false) = true := by decide +kernel
  split at h
  · next i e => exact ⟨i, by decide +kernel, by decide +kernel, by decide +kernel, by decide +kernel, by decide +kernel, e⟩
  · cases h
theorem hyps_turn_ahead : ∃ i, ceFetch ({ sStream [(0x40001000, 0)] with agenda := [], engine := some 0 } : State) 0 = .word i := by
  have h : (match ceFetch ({ sStream [(0x40001000, 0)] with agenda := [], engine := some 0 } : State) 0 with | .word _ => true | _ => false) = true := by decide +kernel
  split at h
  · next i e => exact ⟨i, e⟩
  · cases h
theorem hyps_turn_retried : ∀ w, w = 0 ∨ w = 2 → At { State.reset with agenda := [.retried 0], links := [{ width := w }] } (fun s => s.agenda = .retried 0 :: [] ∧ 0 < s.links.length ∧ (s.links.getD 0 {}).width = w) := by
  rintro w (rfl | rfl) <;> decide +kernel
theorem hyps_turn_replace : At { State.reset with agenda := [.replace .l2 0], lines := [{ dirtyLine 9 with hw := 50 }] } (fun s => s.agenda = .replace .l2 0 :: [] ∧ s.lines[0 % s.lines.length]? = some { dirtyLine 9 with hw := 50 } ∧
    (dirtyLine 9).inL2 = true ∧ (∀ p ∈ s.pins, p.line ≠ 9) ∧ s.bw < (s.lineSt 9).hw) := by decide +kernel
theorem hyps_turn_pinned : At (State.reset.setCore 0 (fun c => { c with pins := [{ line := 9, recAt := 0, team := 0 }] })) (fun s => ∃ p ∈ s.pins, p.line = 9) := by decide +kernel
theorem hyps_turn_event : isEvent (.clauseStart 0 0) = true := rfl
theorem hyps_encoding : WellFormed (.iadd { d := 8, x := 10, y := 12 }) ∧ isEvent (.iadd { d := 8, x := 10, y := 12 }) = false ∧ ceWord (.iadd { d := 8, x := 10, y := 12 }) = false ∧
    WellFormed (.xfence) ∧ ceWord .xfence = true ∧ decode 0 0x0000008050300000 = .ok (.iadd { d := 8, x := 10, y := 12 }) := by decide +kernel
theorem hyps_canonical : ∃ t, State.Canonical { State.reset with agenda := [.tick] } ∧ step { State.reset with agenda := [.tick] } = .next t := by
  obtain ⟨t, h⟩ := nextOf (show isNext (step { State.reset with agenda := [.tick] }) = true by decide +kernel)
  exact ⟨t, ⟨by decide +kernel, by decide +kernel⟩, h⟩
theorem hyps_register_only : ∃ t, registerOnly (.iadd { d := 8, x := 10, y := 12 }) ∧ exec (.iadd { d := 8, x := 10, y := 12 }) (st 0 (.iadd { d := 8, x := 10, y := 12 })) = .next t := by
  obtain ⟨t, h⟩ := nextOf (show isNext (exec (.iadd { d := 8, x := 10, y := 12 }) (st 0 (.iadd { d := 8, x := 10, y := 12 }))) = true by decide +kernel)
  exact ⟨t, trivial, h⟩
/-- Lane 3 of V10 is poisoned. -/
def iAdd0 : Instr := .iadd { d := 8, x := 10, y := 12 }
def sPois (f : Group → Group) : State := vectored (st 0 iAdd0 (fun g => f { g with vpoison := [(10, 8)], v := [(10, gen [1, 2, 3, 4])] }))
def poisCause : Cause := (((intLane iAdd0 (pos (sPois id) iAdd0)).map (fun k => k.srcs.flatMap (fun p => p.causes))).getD []).headD { stage := 0, code := 0, tfm := 0 }
theorem hyps_trap_precise : ∃ k, At (sPois id) (fun s => issues s iAdd0 = true ∧ intLane iAdd0 (pos s iAdd0) = some k ∧ MidClause (pos s iAdd0) ∧ Free (pos s iAdd0) ((pos s iAdd0).dests 1) ∧
    (∀ p ∈ k.srcs, p.wait = false) ∧ (∀ f ∈ s.faults, f.state ≠ 2) ∧ Chosen (k.srcs.flatMap (fun p => p.causes)) poisCause ∧ poisCause.code = cPOISON ∧ poisCause.code < 0x20 ∧
    CanEnter (pos s iAdd0) false (s.ctx (pos s iAdd0).g.ctx).tvec) :=
  ⟨addRow (pos (sPois id) iAdd0) (pos (sPois id) iAdd0).opY, by decide +kernel, rfl, ⟨by decide +kernel, by decide +kernel⟩, freeOf (by decide +kernel), by decide +kernel, by decide +kernel, ⟨by decide +kernel, by decide +kernel⟩, by decide +kernel, by decide +kernel,
    .inl (by decide +kernel), by decide +kernel, 0xF03FC00000000000, wordIs (by decide +kernel), by decide +kernel⟩
theorem hyps_trap_double : At (sPois (fun g => { g with handlers := [{ hand 1 with frozen := [], intr := none }] })) (fun s => issues s iAdd0 = true ∧ (pos s iAdd0).g.inHandler = true) := by decide +kernel
theorem hyps_fetch_order : ∃ l, At (sHead 0xF007800000000000 gHead) (fun s => accessTr s 0 0 .fetch 0x40001000 = .ok 0x40001000 l ∧ s.icHit 0 (0x40001000 / 128) = none ∧ (s.lineSt (0x40001000 / 128)).cp = false ∧
    s.poisoned 0x40001000 8 = false ∧ isWindow 0x40001000 = false ∧ isWindow (0x40001000 + 7) = false) :=
  ⟨codePage.leaf, by decide +kernel⟩
theorem hyps_debug : (at_ { gHead with halted := true }).group 0 = some { gHead with halted := true } ∧ (leBytes 8 5).length = 8 := by decide +kernel

end Sys2Proof.Tests
end

section
/-! Memory is little-endian (R3): where each byte of a stored number and of a fetched word stands, and what a fetch answers
where the host holds a copy of its line (R302, R361). -/

namespace Sys2Proof.Machine

/-! ## Bytes of a number -/

/-- Byte k of a number's bytes is its bits from 8k on. -/
theorem leBytes_getElem (n v k : Nat) (h : k < (leBytes n v).length) : (leBytes n v)[k] = BitVec.ofNat 8 (v / 256 ^ k) := by
  induction n generalizing v k with
  | zero => simp [leBytes] at h
  | succ n ih =>
    cases k with
    | zero => simp [leBytes]
    | succ k =>
      have hk : k < (leBytes n (v / 256)).length := by simpa [leBytes] using h
      calc (leBytes (n + 1) v)[k + 1] = (leBytes n (v / 256))[k] := rfl
        _ = BitVec.ofNat 8 (v / 256 / 256 ^ k) := ih _ _ hk
        _ = BitVec.ofNat 8 (v / 256 ^ (k + 1)) := by rw [Nat.div_div_eq_div_mul, pow_succ' 256 k]

/-- The number of a list of bytes, divided by 256ᵏ, has byte k of the list lowest. -/
theorem leNat_div_mod (bs : List Byte) (k : Nat) : leNat bs / 256 ^ k % 256 = (bs.getD k 0).toNat := by
  induction bs generalizing k with
  | nil => simp [leNat]
  | cons b r ih =>
    have hb : b.toNat < 256 := b.isLt
    cases k with
    | zero => simp only [leNat, pow_zero, Nat.div_one, List.getD_cons_zero]; omega
    | succ k =>
      have hdiv : (b.toNat + 256 * leNat r) / 256 = leNat r := by omega
      rw [leNat, pow_succ' 256 k, ← Nat.div_div_eq_div_mul, hdiv, ih, List.getD_cons_succ]

/-- Bits [8k + 7 : 8k] of a word made of bytes are byte k. -/
theorem extractLsb'_ofNat_leNat (bs : List Byte) {k : Nat} (h : k < 8) :
    (BitVec.ofNat 64 (leNat bs)).extractLsb' (8 * k) 8 = bs.getD k 0 := by
  apply BitVec.eq_of_toNat_eq
  have hcut : 2 ^ 64 = 2 ^ (8 * k) * 2 ^ (64 - 8 * k) := by rw [← pow_add]; congr 1; omega
  have hbyte : (2 : Nat) ^ 8 ∣ 2 ^ (64 - 8 * k) := pow_dvd_pow 2 (by omega)
  calc ((BitVec.ofNat 64 (leNat bs)).extractLsb' (8 * k) 8).toNat
      = leNat bs % 2 ^ 64 / 2 ^ (8 * k) % 2 ^ 8 := by
        rw [BitVec.extractLsb'_toNat, BitVec.toNat_ofNat, Nat.shiftRight_eq_div_pow]
    _ = leNat bs / 2 ^ (8 * k) % 2 ^ 8 := by rw [hcut, Nat.mod_mul_right_div_self, Nat.mod_mod_of_dvd _ hbyte]
    _ = (bs.getD k 0).toNat := by rw [pow_mul]; exact leNat_div_mod bs k

/-- The decoder's reading of bytes is the memory's. -/
theorem wordOfBytes_eq_leNat (bs : List Byte) : wordOfBytes bs = leNat bs := by
  induction bs with
  | nil => rfl
  | cons b r ih => rw [wordOfBytes, leNat, ih]

/-- R3 of the decoder: bits [8k + 7 : 8k] of a word are byte k of its slot. -/
theorem extractLsb'_ofNat_wordOfBytes (bs : List Byte) {k : Nat} (h : k < 8) :
    (BitVec.ofNat 64 (wordOfBytes bs)).extractLsb' (8 * k) 8 = bs.getD k 0 := by
  rw [wordOfBytes_eq_leNat, extractLsb'_ofNat_leNat bs h]

/-- R3 of a store: byte k of the number stands at a + k. -/
theorem Memory.read_store_leBytes (m : List Host.Cell) (a n v : Nat) {k : Nat} (h : k < n) :
    Memory.read (Memory.store m a (leBytes n v)) (a + k) = BitVec.ofNat 8 (v / 256 ^ k) := by
  have hk : k < (leBytes n v).length := by rwa [leBytes_length]
  rw [Memory.read_store_inside m a _ hk, leBytes_getElem]

/-! ## The word that a fetch reads -/

/-- Below a byte of the package's memory there is no window (R272). -/
theorem isWindow_eq_false_of_le {a b : Nat} (h : a ≤ b) (hb : isWindow b = false) : isWindow a = false := by
  simp only [isWindow, decide_eq_false_iff_not, not_le] at hb ⊢
  exact h.trans_lt hb

theorem State.rdByte_of_memory {s : State} {pa : Nat} (h : isWindow pa = false) : s.rdByte pa = Memory.read s.mem pa := by
  simp [State.rdByte, h]

theorem State.rdBytes_getD (s : State) (pa : Nat) {n k : Nat} (h : k < n) : (s.rdBytes pa n).getD k 0 = s.rdByte (pa + k) := by
  simp [State.rdBytes, List.getD_eq_getElem?_getD, h]

section Fetch
variable {s : State} {core ctx pa : Nat} {va : DWord} {l : Leaf} (priv : Bool) (m : Mask)

/-- A fetch that misses the instruction cache waits where the region table has the host's copy snooped first (R302). -/
theorem fetchWord_of_gateClosed (htr : accessTr s core ctx .fetch va.toNat = .ok pa l) (hic : s.icHit core (pa / 128) = none)
    (hgate : gateOpen s pa false = false) : fetchWord s core ctx priv m va = .absent snoopLevel va.toNat := by
  simp [fetchWord, fetchVia, htr, hic, hgate]

/-- A fetch that misses the instruction cache and that nothing holds reads the eight bytes at its address. -/
theorem fetchWord_of_gateOpen (htr : accessTr s core ctx .fetch va.toNat = .ok pa l) (hic : s.icHit core (pa / 128) = none)
    (hgate : gateOpen s pa false = true) (hcp : (s.lineSt (pa / 128)).cp = false) (hpoison : s.poisoned pa 8 = false) :
    fetchWord s core ctx priv m va = .word (BitVec.ofNat 64 (leNat (s.rdBytes pa 8))) := by
  simp [fetchWord, fetchVia, htr, hic, hgate, hcp, hpoison]

/-- R3 of a fetch, with the hypothesis that O59 leaves out, an open region table: bits [8k + 7 : 8k] of the word are the
byte of memory at its address and k. -/
theorem fetchWord_byte_of_gateOpen (htr : accessTr s core ctx .fetch va.toNat = .ok pa l) (hic : s.icHit core (pa / 128) = none)
    (hgate : gateOpen s pa false = true) (hcp : (s.lineSt (pa / 128)).cp = false) (hpoison : s.poisoned pa 8 = false)
    (hend : isWindow (pa + 7) = false) :
    ∃ w, fetchWord s core ctx priv m va = .word w ∧ ∀ k, k < 8 → w.extractLsb' (8 * k) 8 = Memory.read s.mem (pa + k) := by
  refine ⟨_, fetchWord_of_gateOpen priv m htr hic hgate hcp hpoison, fun k hk => ?_⟩
  have hmem : isWindow (pa + k) = false := isWindow_eq_false_of_le (by omega) hend
  rw [extractLsb'_ofNat_leNat _ hk, State.rdBytes_getD s pa hk, State.rdByte_of_memory hmem]

end Fetch

/-! ## A fetch of lent code -/

/-- The page of core 0's code at 0x40001000, executable, translated to itself. -/
def lentPage : TlbEntry :=
  { second := false, who := 0, asid := 0, vpn := 0x40001, order := 0,
    leaf := { pfn := 0x40001, w := false, x := true, xf := true, coh := 0, lc := 0, fmt := 0, bg := 0, ten := 0, node := 0 } }

/-- The state after reset with the code page in core 0's TLB and lent to the host, which holds all of it (R361). -/
def lentCode : State :=
  { State.reset with tlb := [lentPage], regions := [{ port := 0, base := 0x40001000, size := 4096, st := .host }] }

theorem lentCode_translates : accessTr lentCode 0 0 .fetch (0x40001000 : DWord).toNat = .ok 0x40001000 lentPage.leaf := by decide +kernel

theorem lentCode_gateClosed : gateOpen lentCode 0x40001000 false = false := by decide +kernel

/-- The core's fetch of lent code is held until the host's copy of the line has been snooped. -/
theorem lentCode_fetch : fetchWord lentCode 0 0 false 0 0x40001000 = .absent snoopLevel 0x40001000 :=
  fetchWord_of_gateClosed false 0 lentCode_translates rfl lentCode_gateClosed

/-- Refutes O59. Its clause on fetched words leaves out that the region table lets the fetch go on: at `lentCode` all its
hypotheses hold, and yet the fetch reads no word, since R302 has it wait for the snoop of the host's copy. With that
hypothesis the clause holds (`fetchWord_byte_of_gateOpen`); the other two clauses hold as they stand
(`Memory.read_store_leBytes`, `Memory.read_store_outside`, `State.rd_wr`, `extractLsb'_ofNat_wordOfBytes`). -/
theorem not_memoryIsLittleEndian : ¬ Obligations.MemoryIsLittleEndian := by
  unfold Obligations.MemoryIsLittleEndian
  rintro ⟨-, hfetch, -⟩
  have hcp : (lentCode.lineSt (0x40001000 / 128)).cp = false := by decide +kernel
  have hpoison : lentCode.poisoned 0x40001000 8 = false := by decide +kernel
  have hfirst : isWindow 0x40001000 = false := by decide
  have hlast : isWindow (0x40001000 + 7) = false := by decide
  obtain ⟨w, hw, -⟩ := hfetch lentCode 0 0 false 0 0x40001000 0x40001000 lentPage.leaf lentCode_translates rfl hcp hpoison hfirst hlast
  rw [lentCode_fetch] at hw
  cases hw

end Sys2Proof.Machine
end

section
/-! Where the warp of an issue stands once its instruction has gone on (R54, R77, R121), and what a plain and a long-latency
outcome make of the machine (R73). -/

namespace Sys2Proof.Machine
open Sys2Proof.Rules

/-! ## The frontier -/

/-- An entry of the frontier holds lane `l` at address `pc` with priority `prio`. -/
def Stands (es : List Entry) (l : Nat) (pc : DWord) (prio : BitVec 8) : Prop :=
  ∃ e ∈ es, Mask.has e.mask l = true ∧ e.pc = pc ∧ e.prio = prio

theorem Mask.has_or (m k : Mask) (l : Nat) : Mask.has (m ||| k) l = (Mask.has m l || Mask.has k l) := BitVec.getLsbD_or

theorem stands_cons {e : Entry} {es : List Entry} {l : Nat} {pc : DWord} {prio : BitVec 8} :
    Stands (e :: es) l pc prio ↔ (Mask.has e.mask l = true ∧ e.pc = pc ∧ e.prio = prio) ∨ Stands es l pc prio := by
  simp [Stands]

/-- Merging an entry into a frontier keeps its lanes where they stand. -/
theorem stands_mergeInto_self {e : Entry} {l : Nat} (h : Mask.has e.mask l = true) (es : List Entry) :
    Stands (mergeInto e es) l e.pc e.prio := by
  induction es with
  | nil => exact stands_cons.mpr (.inl ⟨h, rfl, rfl⟩)
  | cons d r ih =>
    rw [mergeInto]
    split
    · rename_i hk
      exact stands_cons.mpr (.inl ⟨by rw [Mask.has_or, h, Bool.or_true], hk.2, hk.1⟩)
    · split
      · exact stands_cons.mpr (.inl ⟨h, rfl, rfl⟩)
      · exact stands_cons.mpr (.inr ih)

/-- It keeps the lanes that stood in the frontier before. -/
theorem Stands.mergeInto {es : List Entry} {l : Nat} {pc : DWord} {prio : BitVec 8} (h : Stands es l pc prio) (e : Entry) :
    Stands (mergeInto e es) l pc prio := by
  induction es with
  | nil => obtain ⟨d, hd, _⟩ := h; cases hd
  | cons d r ih =>
    rw [Machine.mergeInto]
    split
    · refine stands_cons.mpr ((stands_cons.mp h).imp_left fun ⟨hm, hk⟩ => ⟨?_, hk⟩)
      rw [Mask.has_or, hm, Bool.true_or]
    · split
      · exact stands_cons.mpr (.inr h)
      · exact stands_cons.mpr ((stands_cons.mp h).imp_right ih)

theorem Stands.foldl_mergeInto {acc : List Entry} {l : Nat} {pc : DWord} {prio : BitVec 8} (h : Stands acc l pc prio) (es : List Entry) :
    Stands (es.foldl (fun acc e => Machine.mergeInto e acc) acc) l pc prio :=
  List.foldlRecOn (motive := fun a => Stands a l pc prio) es _ h fun _ ha e _ => ha.mergeInto e

/-- The lanes of the entry that a frontier is sorted from first stand in it (R121). -/
theorem stands_sortEntries {e : Entry} {l : Nat} (h : Mask.has e.mask l = true) (es : List Entry) :
    Stands (sortEntries (e :: es)) l e.pc e.prio := by
  have hne : e.mask ≠ 0 := by rintro h0; simp [h0, Mask.has] at h
  rw [sortEntries, List.filter_cons_of_pos (by simpa using hne), List.foldl_cons]
  exact (stands_mergeInto_self h []).foldl_mergeInto _

/-! ## The warps of a group -/

/-- Group `gid` stands in `s` with the warps `ws`. -/
def HasWarps (s : State) (gid : Nat) (ws : List Warp) : Prop := ∃ g, s.group gid = some g ∧ g.warps = ws

theorem HasWarps.setGroup {s : State} {gid : Nat} {ws : List Warp} (h : HasWarps s gid ws) (f : Group → Group)
    (hf : ∀ g, (f g).gid = g.gid) (hw : ∀ g, (f g).warps = g.warps) : HasWarps (s.setGroup gid f) gid ws := by
  obtain ⟨g, hg, rfl⟩ := h
  exact ⟨f g, by rw [State.group_setGroup_self s gid f hf, hg]; rfl, hw g⟩

theorem HasWarps.yieldSlot {s : State} {gid : Nat} {ws : List Warp} (h : HasWarps s gid ws) : HasWarps (s.yieldSlot gid) gid ws := by
  unfold State.yieldSlot
  split
  · exact h
  · split
    · exact h.setGroup _ (fun _ => rfl) (fun _ => rfl)
    · split <;> exact h.setGroup _ (fun _ => rfl) (fun _ => rfl)

theorem HasWarps.clauseEnd {s : State} {gid : Nat} {ws : List Warp} (h : HasWarps s gid ws) (y : Bool) :
    HasWarps (s.clauseEnd gid y) gid ws := by
  have h1 := h.setGroup (fun g => if g.haltDue then { g with halted := true, haltDue := false } else g)
    (fun g => by split <;> rfl) (fun g => by split <;> rfl)
  unfold State.clauseEnd
  extract_lets s1 due
  split
  · exact h1.yieldSlot
  · exact h1

theorem HasWarps.clauseEnd_if {s : State} {gid : Nat} {ws : List Warp} (h : HasWarps s gid ws) (c y : Bool) :
    HasWarps (if c then s.clauseEnd gid y else s) gid ws := by
  cases c
  · exact h
  · exact h.clauseEnd y

/-- A warp of the group, changed. -/
theorem HasWarps.setWarp {s : State} {gid wid : Nat} {g : Group} (hg : s.group gid = some g) (f : Warp → Warp) :
    HasWarps (s.setWarp gid wid f) gid (updWhere (fun w => w.wid == wid) f g.warps) :=
  ⟨g.setWarp wid f, by rw [State.setWarp_eq, State.group_setGroup_self s gid (fun g => g.setWarp wid f) (fun _ => rfl), hg]; rfl, rfl⟩

/-- The entry of an issue's lanes after its instruction: the next one, or the first of the next clause (R54, R431). -/
def Issue.next (x : Issue) (prio : BitVec 8) : Entry :=
  if x.last then { x.e with pc := x.hn + 8, h := x.hn, prio := prio, cl := none } else { x.started with pc := x.e.pc + 8 }

/-- The issuing warp after `advance`: the pending results it was given, and its place in the clause (R54, R77). -/
structure WentOn (x : Issue) (prio : BitVec 8) (ps : List Pending) (w v : Warp) : Prop where
  pend : v.pend = ps
  place : if x.more then v.entries = x.started :: w.entries.drop 1 ∧ v.rpc = x.w.rpc + 64
    else v.rpc = 0 ∧ v.entries = sortEntries (x.next prio :: w.entries.drop 1)

/-- What `advance` makes of the issuing warp. -/
theorem advance_warp {x : Issue} {t : State} {g : Group} {w : Warp} (hg : t.group x.g.gid = some g) (hw : g.warp x.w.wid = some w)
    (prio : BitVec 8) (ps : List Pending) :
    ∃ h v, (advance x t prio ps).group x.g.gid = some h ∧ h.warp x.w.wid = some v ∧ WentOn x prio ps w v := by
  have key : ∀ (f : Warp → Warp) (n : Nat), (∀ w, (f w).wid = w.wid) → WentOn x prio ps w (f w) →
      ∃ h v, (if x.last && !x.more then ((t.setWarp x.g.gid x.w.wid f).setGroup x.g.gid (x.mark n)).clauseEnd x.g.gid x.cl.yld
        else (t.setWarp x.g.gid x.w.wid f).setGroup x.g.gid (x.mark n)).group x.g.gid = some h ∧ h.warp x.w.wid = some v ∧
        WentOn x prio ps w v := by
    intro f n hf hon
    obtain ⟨h, hh, hws⟩ := ((HasWarps.setWarp (wid := x.w.wid) hg f).setGroup (x.mark n) (fun _ => rfl) (fun _ => rfl)).clauseEnd_if
      (x.last && !x.more) x.cl.yld
    have hfind : h.warp x.w.wid = (g.warp x.w.wid).map f := by
      rw [Group.warp, hws]; exact find_updWhere_self Warp.wid x.w.wid f hf g.warps
    exact ⟨h, f w, hh, by rw [hfind, hw]; rfl, hon⟩
  unfold advance
  refine key _ _ (fun w => ?_) ⟨?_, ?_⟩
  · dsimp only; split <;> rfl
  · dsimp only; split <;> rfl
  · by_cases hm : x.more = true
    · simp only [hm, if_true, true_and]
      exact BitVec.eq_of_toNat_eq (by simp)
    · simp only [hm, Bool.false_eq_true, if_false, true_and]; rfl

/-- The warp that has gone on stands as R54 and R77 say. -/
theorem advanced_of_wentOn {x : Issue} {prio : BitVec 8} {t : State} {h : Group} {w v : Warp} {ps : List Pending}
    (hh : t.group x.g.gid = some h) (hv : h.warp x.w.wid = some v) (hw : w.entries = x.w.entries) (hon : WentOn x prio ps w v) :
    Advanced x prio t := by
  refine ⟨h, v, hh, hv, ?_⟩
  have hp := hon.place
  rw [hw] at hp
  by_cases hm : x.more = true
  · rw [if_pos hm] at hp ⊢; exact hp
  · rw [if_neg hm] at hp ⊢
    refine ⟨hp.1, fun l hl => ?_⟩
    have hmask : Mask.has (x.next prio).mask l = true := by unfold Issue.next; split <;> exact hl
    have hpc : (x.next prio).pc = if x.last then x.hn + 8 else x.e.pc + 8 := by unfold Issue.next; split <;> rfl
    have hpr : (x.next prio).prio = if x.last then prio else x.e.prio := by unfold Issue.next; split <;> rfl
    rw [hp.2, ← hpc, ← hpr]
    exact stands_sortEntries hmask _

/-! ## What register writes and commits leave of the group -/

@[simp] theorem Group.applyW_warps (g : Group) (w : RegWrite) : (g.applyW w).warps = g.warps := by
  cases w with
  | vl r m vs => rw [Group.applyW]; split <;> rfl
  | _ => rfl
@[simp] theorem Group.updAmax_warps (g : Group) (n : Nat) : (g.updAmax n).warps = g.warps := by
  unfold Group.updAmax; (repeat' split) <;> rfl
theorem foldl_warps {α : Type} (f : Group → α → Group) (hf : ∀ g a, (f g a).warps = g.warps) (l : List α) (g : Group) :
    (l.foldl f g).warps = g.warps :=
  List.foldlRecOn (motive := fun k => k.warps = g.warps) l f rfl fun k hk a _ => (hf k a).trans hk
@[simp] theorem Group.commit_warps (g : Group) (m : Mask) (fl : Word) (mags : List Nat) : (g.commit m fl mags).warps = g.warps := by
  have : (mags.foldl Group.updAmax (g.orFsr fl)).warps = g.warps := foldl_warps _ (by simp) _ _
  unfold Group.commit
  split <;> exact this

theorem Group.orFsr_zero (g : Group) : g.orFsr 0 = g := by
  have : g.fsr ||| 0 = g.fsr := BitVec.or_zero
  rw [Group.orFsr, this]

/-- A commit that raises no flag and shows no magnitude leaves the group. -/
theorem Group.commit_nothing (g : Group) (m : Mask) : g.commit m 0 [] = g := Group.orFsr_zero g

/-! ## What is committed -/

/-- After a plain outcome the warp goes on; `h` is what the outcome's effect does to the group. -/
theorem commitOut_plain_goes {s : State} {i : Instr} {x : Issue} {o : Out} (hp : s.position i = some x) (prio : BitVec 8)
    (hd : o.dly = false) (hs : o.stay = false) (hc : o.ctl = none) (hgone : o.gone = false) (hpost : o.post = fun s => s)
    (hw : ∀ w ∈ o.writes, w.noP) (h : Group → Group) (hh : ∀ g, (h g).gid = g.gid) (hhw : ∀ g, (h g).warps = g.warps)
    (he : ∀ s, o.eff s = s.setGroup x.g.gid h) : Advanced x prio (commitOut x prio o) := by
  have hgrp : (readVas x.g.core x.g.ctx o.vas s).group x.g.gid = some x.g := by rw [readVas_group]; exact State.position_group hp
  have hws : HasWarps (o.eff (((readVas x.g.core x.g.ctx o.vas s).applyWs x.g.gid x.g.team o.writes).setGroup x.g.gid
      (fun g => g.commit x.act (o.fsr x) o.amax))) x.g.gid x.g.warps := by
    rw [he, State.applyWs_eq _ _ _ _ hw]
    exact ((HasWarps.setGroup ⟨_, hgrp, rfl⟩ _ (foldl_gid _ (by simp) _) (foldl_warps _ (by simp) _)).setGroup _
      (by simp) (by simp)).setGroup h hh hhw
  obtain ⟨k, hk, hkw⟩ := hws
  have hwarp : k.warp x.w.wid = some x.w := by rw [Group.warp, hkw]; exact State.position_warp hp
  unfold commitOut
  simp only [hd, hs, hc, hgone, hpost, State.position_s hp, Bool.false_eq_true, if_false, false_and]
  obtain ⟨m, v, hm, hv, hon⟩ := advance_warp hk hwarp prio _
  exact advanced_of_wentOn hm hv rfl hon

/-- The promise that a long-latency outcome leaves in its warp (R73): what it is to write, and the flags of each lane. -/
def Out.promise (x : Issue) (rid : Nat) (o : Out) : Pending :=
  { rid := rid, left := x.a.la, lanes := x.e.mask, dst := o.dst ++ o.writes.flatMap RegWrite.dst, ready := o.ready, writes := o.writes,
    flags := o.laneFsr x, red := o.red, fsr := o.fsr x != 0 || (o.red && x.m.toNat % 16 == 8) || x.n.rnd, rep := x.more }

theorem OnlyGroup.refl {s : State} {gid : Nat} {g : Group} (hg : s.group gid = some g) : OnlyGroup gid s s g :=
  ⟨rfl, fun _ _ => rfl, g, hg, rfl⟩

/-- A long-latency outcome without an effect of its own leaves its promise and nothing else (R73, R77). -/
theorem commitOut_late {s : State} {i : Instr} {x : Issue} {o : Out} (hp : s.position i = some x) (prio : BitVec 8) {size : Nat}
    (hd : o.dly = true) (hs : o.stay = false) (hc : o.ctl = none) (hgone : o.gone = false) (hpost : o.post = fun s => s)
    (he : o.eff = fun s => s) (hq : o.req = none) (hready : o.ready = true) (hdst : ∀ r ∈ x.dests size, r ∈ o.dst) :
    Promises x prio size (readVas x.g.core x.g.ctx o.vas s) (commitOut x prio o) (o.promise x s.nextId) := by
  have hrid : (readVas x.g.core x.g.ctx o.vas s).nextId = s.nextId := readVas_nextId ..
  have hgrp : (readVas x.g.core x.g.ctx o.vas s).group x.g.gid = some x.g := by rw [readVas_group]; exact State.position_group hp
  unfold commitOut
  simp only [hd, hs, hc, hgone, hpost, he, hq, State.position_s hp, hrid, hgrp, State.position_warp hp, Bool.false_eq_true, if_false,
    if_true, and_self]
  generalize readVas x.g.core x.g.ctx o.vas s = b at hgrp hrid ⊢
  generalize hps : (ite (x.more = true) _ _ : List Pending) = ps
  have hmem : o.promise x s.nextId ∈ ps := by
    rw [← hps]
    by_cases hm : x.more = true <;> simp [Out.promise, hm]
  have honly : OnlyGroup x.g.gid { b with nextId := s.nextId + 1 } (advance x { b with nextId := s.nextId + 1 } prio ps) x.g :=
    (OnlyGroup.refl (s := { b with nextId := s.nextId + 1 }) hgrp).advance prio ps
  obtain ⟨h, v, hh, hv, hon⟩ := advance_warp (t := { b with nextId := s.nextId + 1 }) hgrp (State.position_warp hp) prio ps
  obtain ⟨hstate, hothers, k, hk, hsched⟩ := honly
  obtain rfl : h = k := by rw [hh] at hk; exact Option.some.inj hk
  exact {
    goes := advanced_of_wentOn hh hv rfl hon
    state := by rw [hrid]; exact hstate
    others := hothers
    group := ⟨h, v, hh, hsched, hv, by rw [hon.pend]; exact hmem⟩
    rid := hrid.symm
    left := rfl
    lanes := rfl
    ready := hready
    dst := fun r hr => List.mem_append_left _ (hdst r hr) }

/-- No lane traps where no exception is enabled (R34). -/
theorem fpxCauses_of_disabled {x : Issue} (h : x.g.old.fcr.extractLsb' 4 5 = 0#5) (o : Out) : fpxCauses x o = [] := by
  have hnone : (fun l => o.fl l &&& x.g.old.fcr.extractLsb' 4 5 != 0#5) = fun _ => false := by
    funext l; rw [h]; simp
  have hempty : x.act &&& Mask.where_ (fun _ => false) = 0 := BitVec.and_zero
  unfold fpxCauses
  simp only [hnone, hempty, if_true]

/-- A long-latency instruction with nothing against it issues, and its promise stands in its warp (R73). -/
theorem runIssue_lateOut {s : State} {i : Instr} {x : Issue} {prio : BitVec 8} {f : Issue → Out} (h : Issues s i x prio) (size : Nat)
    (srcs : List Opr) (ws : List RegWrite) (fl : Nat → FFlags) (red : Bool)
    (hf : f x = lateOut x size srcs { writes := ws, fl := fl, red := red }) (hr : Readable srcs) (hfree : Free x (x.dests size))
    (hw : ∀ r ∈ ws.flatMap RegWrite.dst, r ∈ x.dests size) (hfpx : fpxCauses x (f x) = []) :
    ∃ t p, runIssue s i f = .next t ∧ Promises x prio size (x.read srcs s) t p ∧ p.writes = ws ∧
      p.flags = laneFlags x srcs fl := by
  have hx := Out.ofSrcs_readable hr (x := x) { writes := ws, fl := fl, red := red, dly := true, dst := lateDst x size } rfl rfl rfl
  have hfx : f x = _ := hf.trans (show lateOut x size srcs { writes := ws, fl := fl, red := red } = _ from hx)
  have hdst : ∀ r ∈ (f x).dst ++ (f x).writes.flatMap RegWrite.dst, r ∈ x.dests size := by
    rw [hfx]; intro r hr
    rcases List.mem_append.mp hr with hr | hr
    · exact hr
    · exact hw r hr
  have hcl : Clean x (f x) :=
    ⟨by rw [hfx], by rw [hfx], by rw [hfx], lawar_nil hfree hdst, regBudget_nil hfree (fun r hr => hdst r (List.mem_append_right _ hr)), hfpx⟩
  have hvas : readVas x.g.core x.g.ctx (f x).vas s = x.read srcs s := by rw [hfx]; rfl
  refine ⟨_, (f x).promise x s.nextId, runIssue_commit h hcl, hvas ▸
    commitOut_late h.pos prio (size := size) ?_ ?_ ?_ ?_ ?_ ?_ ?_ ?_ ?_, ?_, ?_⟩
  all_goals rw [hfx]
  · exact fun r hr => hr
  · rfl
  · rfl

/-! ## Words and results without condition codes -/

theorem State.position_args {s : State} {i : Instr} {x : Issue} (h : s.position i = some x) : x.a = args i := by
  obtain ⟨_, _, _, _, _, _, _, _, ha, _⟩ := State.position_inv h
  exact ha

/-- A word whose entry has no WCC does not ask for condition codes (R89). -/
theorem wcc_eq_false {i : Instr} {a : RArgs} (hwf : WellFormed i) (ha : args i = .r a) (hn : (info i).wcc = false) :
    (args i).wcc = false := by
  have hctl : ctlOk (info i) a.la a.cond a.wcc = true := by
    have hwf : i.wf = true := hwf
    simp only [Instr.wf, ha, wfR, Bool.and_eq_true] at hwf
    obtain ⟨-, ⟨⟨⟨⟨⟨⟨⟨hctl, -⟩, -⟩, -⟩, -⟩, -⟩, -⟩, -⟩⟩ := hwf
    exact hctl
  simp only [ctlOk, hn, Bool.or_false, Bool.and_eq_true] at hctl
  obtain ⟨⟨-, hwcc⟩, -⟩ := hctl
  rw [ha]
  exact beq_eq_false_iff_ne.mpr (by rw [beq_iff_eq.mp hwcc]; decide)

/-- What an entry checks of its own holds of a well-formed word (R84). -/
theorem info_ok {i : Instr} (hwf : WellFormed i) : (info i).ok = true := by
  have hwf : i.wf = true := hwf
  rw [Instr.wf, Bool.and_eq_true] at hwf
  exact hwf.1

/-- A 32-bit result without condition codes (R41, R88). -/
theorem put32_result_of_noCC {x : Issue} (hwcc : x.a.wcc = false) (ext : Ext) (sh : Option VReg) (f : Nat → Word)
    (hsh : ∀ r, sh = some r → ∀ l, r.lane l = f l) (hfull : x.full = true → ∀ l, l < x.g.width → l < 64 → Mask.has x.act l = true) :
    Result32 x ((x.put32 ext sh f).foldl Group.applyW x.g) ext f noCode noCode noCode noCode 0 := by
  have h := put32_result x ext sh f noCode noCode noCode noCode 0 hsh hfull
  have hcc : x.putCC noCode noCode noCode noCode = [] := by simp [Issue.putCC, hwcc]
  rwa [hcc, List.append_nil, Group.orFsr_zero] at h

/-- A 32-bit result leaves what the group has noted of the cycle's commits. -/
theorem Result32.commits_eq {x : Issue} {g : Group} {ext : Ext} {f : Nat → Word} {c z n v : Nat → Bool} {fl : Word}
    (h : Result32 x g ext f c z n v fl) : g.commits = x.g.commits := by rw [h.rest]

theorem Result32.xrseq_eq {x : Issue} {g : Group} {ext : Ext} {f : Nat → Word} {c z n v : Nat → Bool} {fl : Word}
    (h : Result32 x g ext f c z n v fl) : g.xrseq = x.g.xrseq := by rw [h.rest]

/-- Only lane 0 and the active lanes of a result matter. -/
theorem Result32.congr {x : Issue} {g : Group} {ext : Ext} {f f' : Nat → Word} {c z n v : Nat → Bool} {fl : Word}
    (h : Result32 x g ext f c z n v fl) (h0 : f 0 = f' 0) (hact : ∀ l, Mask.has x.act l = true → f l = f' l) :
    Result32 x g ext f' c z n v fl := by
  refine ⟨h.rest, fun r => by rw [h.sreg r, h0], fun r l hw hl => ?_, h.cc⟩
  rw [h.vreg r l hw hl]
  split
  · rename_i hk
    obtain ⟨-, -, hlane⟩ := hk
    exact hact l hlane
  · rfl

end Sys2Proof.Machine
end

section
/-! AMAXRD (R36, R37, R110): AMAX in the destination, and its clearing before what other warps commit in the same cycle. -/

namespace Sys2Proof.Machine
open Sys2Proof.Rules

/-- AMAXCLR and AMAXRD with CLR clear AMAX as the rule says it (R36), for a group that has noted the same commits. -/
theorem clearAmax_eq_clearedAmax (x : Issue) {g : Group} (h : g.commits = x.g.commits) : g.clearAmax x.w.lanes = clearedAmax x g := by
  have hothers : g.commitsOf x.w.lanes false = others x := by
    rw [Group.commitsOf, others, h]
    congr 1
    funext k
    cases hk : k.lanes &&& x.w.lanes == 0#64 <;> simp [bne, hk]
  rw [Group.clearAmax, clearedAmax, hothers]

theorem Group.clearAmax_gid (g : Group) (m : Mask) : (g.clearAmax m).gid = g.gid := by
  rw [Group.clearAmax, foldl_gid _ (fun _ _ => foldl_gid _ (by simp) _ _)]

theorem Group.clearAmax_warps (g : Group) (m : Mask) : (g.clearAmax m).warps = g.warps := by
  rw [Group.clearAmax, foldl_warps _ (fun _ _ => foldl_warps _ (by simp) _ _)]

/-- What AMAXRD makes of AMAX (R110). -/
def amaxrdEffect (x : Issue) (g : Group) : Group := if x.mb 0 then g.clearAmax x.w.lanes else g

theorem oAmaxrd_writes (x : Issue) : (oAmaxrd x).writes = x.put32 .z (some (.uni x.g.amax)) (fun _ => x.g.amax) := rfl

theorem oAmaxrd_eff (x : Issue) (s : State) : (oAmaxrd x).eff s = s.setGroup x.g.gid (amaxrdEffect x) := by
  show (if x.mb 0 then s.setGroup x.g.gid (fun g => g.clearAmax x.w.lanes) else s) = _
  unfold amaxrdEffect
  split
  · rfl
  · exact (State.setGroup_id s _).symm

theorem amaxrdEffect_gid (x : Issue) (g : Group) : (amaxrdEffect x g).gid = g.gid := by
  unfold amaxrdEffect
  split
  · exact Group.clearAmax_gid ..
  · rfl

theorem amaxrdEffect_warps (x : Issue) (g : Group) : (amaxrdEffect x g).warps = g.warps := by
  unfold amaxrdEffect
  split
  · exact Group.clearAmax_warps ..
  · rfl

/-- Nothing is against AMAXRD once no earlier instruction of the warp may change AMAX (R37). -/
theorem oAmaxrd_clean {x : Issue} (hwait : specWaits x 18 = false) (hfree : Free x (x.dests 1)) : Clean x (oAmaxrd x) := by
  have hdst : ∀ r ∈ (oAmaxrd x).writes.flatMap RegWrite.dst, r ∈ x.dests 1 := by
    rw [oAmaxrd_writes]; exact put32_dst x _ _ _
  exact ⟨hwait, rfl, rfl, lawar_nil hfree hdst, regBudget_nil hfree hdst, fpx_none x _ rfl⟩

/-- Settles O9: AMAXRD is a plain outcome of one 32-bit write, whose effect is that of AMAXCLR under CLR. -/
theorem amaxReadCompletes : Obligations.AmaxReadCompletes := by
  unfold Obligations.AmaxReadCompletes
  intro a s x prio hwf h hwait hfree
  have hwcc : x.a.wcc = false := by rw [State.position_args h.pos]; exact wcc_eq_false hwf rfl rfl
  have hres := put32_result_of_noCC hwcc .z (some (.uni x.g.amax)) (fun _ => x.g.amax) (by rintro r ⟨⟩ l; rfl) (position_full h.pos)
  have hnoP : ∀ w ∈ (oAmaxrd x).writes, w.noP := by rw [oAmaxrd_writes]; exact put32_noP x _ _ _
  have honly := commitOut_plain h.pos prio (o := oAmaxrd x) rfl rfl rfl rfl rfl hnoP _ (amaxrdEffect_gid x) (oAmaxrd_eff x)
  have hgoes := commitOut_plain_goes h.pos prio (o := oAmaxrd x) rfl rfl rfl rfl rfl hnoP _ (amaxrdEffect_gid x) (amaxrdEffect_warps x)
    (oAmaxrd_eff x)
  have hfsr : (oAmaxrd x).fsr x = 0 := Out.fsr_none x _ rfl
  rw [hfsr, show (oAmaxrd x).amax = [] from rfl, Group.commit_nothing, oAmaxrd_writes, amaxrdEffect,
    clearAmax_eq_clearedAmax x hres.commits_eq] at honly
  exact ⟨_, _, runIssue_commit h (oAmaxrd_clean hwait hfree), ⟨honly, hgoes⟩, hres⟩

end Sys2Proof.Machine
end

section
/-! RED and SCAN of FP32 values (R30, R31, R149 to R152): the tree of a RED is the spec's as it stands; a SCAN keeps a list of the
running values of a fold in ascending lane order, and each lane's value is the fold over the lanes up to it. -/

namespace Sys2Proof.Machine
open Sys2Proof.Rules

/-! ## A fold with its running values -/

/-- One step of a fold that may start from nothing. -/
def chainStep (f : Nat → Nat → Nat × FFlags) (v : Nat → Nat) (s : Option Nat) (l : Nat) : Nat :=
  match s with
  | none => v l
  | some a => (f a (v l)).1

/-- The fold over a list of lanes; nothing where it starts from nothing and meets no lane. -/
def chainFold (f : Nat → Nat → Nat × FFlags) (v : Nat → Nat) (s : Option Nat) (ls : List Nat) : Option Nat :=
  ls.foldl (fun s l => some (chainStep f v s l)) s

theorem redChain_cons (f : Nat → Nat → Nat × FFlags) (v : Nat → Nat) (s : Option Nat) (m : Nat) (r : List Nat) :
    (redChain f v s (m :: r)).1 = (m, chainStep f v s m) :: (redChain f v (some (chainStep f v s m)) r).1 := by
  cases s <;> rfl

/-- The running value that the model keeps for a lane is the fold over the lanes up to it. -/
theorem redChain_find (f : Nat → Nat → Nat × FFlags) (v : Nat → Nat) {ls : List Nat} (hls : ls.Pairwise (· < ·)) (s : Option Nat)
    {l : Nat} (hl : l ∈ ls) : (redChain f v s ls).1.find? (fun q => q.1 == l) =
      (chainFold f v s (ls.filter (fun j => decide (j ≤ l)))).map (fun a => (l, a)) := by
  induction ls generalizing s with
  | nil => cases hl
  | cons m r ih =>
    obtain ⟨hm, hr⟩ := List.pairwise_cons.mp hls
    rw [redChain_cons]
    by_cases hml : m = l
    · have hnone : r.filter (fun j => decide (j ≤ l)) = [] := by
        rw [List.filter_eq_nil_iff]
        intro j hj
        have hlt := hm j hj
        rw [decide_eq_true_eq]
        omega
      rw [List.find?_cons_of_pos (by simpa using hml), List.filter_cons_of_pos (by simp [hml]), hnone, hml]
      rfl
    · have hlr : l ∈ r := (List.mem_cons.mp hl).resolve_left (Ne.symm hml)
      have hle : decide (m ≤ l) = true := decide_eq_true (hm l hlr).le
      rw [List.find?_cons_of_neg (by simpa using hml), ih hr _ hlr, List.filter_cons_of_pos (p := fun j => decide (j ≤ l)) hle]
      rfl

/-- The model keeps running values for its lanes only. -/
theorem redChain_find_none (f : Nat → Nat → Nat × FFlags) (v : Nat → Nat) (s : Option Nat) {ls : List Nat} {l : Nat} (hl : l ∉ ls) :
    (redChain f v s ls).1.find? (fun q => q.1 == l) = none := by
  induction ls generalizing s with
  | nil => rfl
  | cons m r ih =>
    obtain ⟨hm, hr⟩ := not_or.mp (mt List.mem_cons.mpr hl)
    rw [redChain_cons, List.find?_cons_of_neg (by simpa using Ne.symm hm)]
    exact ih _ hr

theorem chainFold_some (f : Nat → Nat → Nat × FFlags) (v : Nat → Nat) (a : Nat) (ls : List Nat) :
    chainFold f v (some a) ls = some (ls.foldl (fun t l => (f t (v l)).1) a) := by
  induction ls generalizing a with
  | nil => rfl
  | cons m r ih => exact ih _

/-! ## Lanes in ascending order -/

theorem Mask.mem_lanes {m : Mask} {l : Nat} : l ∈ Mask.lanes m ↔ Mask.has m l = true := by
  have hlt : Mask.has m l = true → l < 64 := BitVec.lt_of_getLsbD
  simp only [Mask.lanes, List.mem_filter, List.mem_range]
  exact ⟨And.right, fun h => ⟨hlt h, h⟩⟩

theorem Mask.lanes_pairwise (m : Mask) : (Mask.lanes m).Pairwise (· < ·) := List.pairwise_lt_range.filter _

/-- In an ascending list nothing lies past the last. -/
theorem le_getLast? {ls : List Nat} (hls : ls.Pairwise (· < ·)) {i j : Nat} (hj : ls.getLast? = some j) (hi : i ∈ ls) : i ≤ j := by
  obtain ⟨ys, rfl⟩ := List.getLast?_eq_some_iff.mp hj
  rcases List.mem_append.mp hi with h | h
  · obtain ⟨-, -, hlt⟩ := List.pairwise_append.mp hls
    exact (hlt i h j (List.mem_singleton_self j)).le
  · exact (List.mem_singleton.mp h).le

/-- Up to the last lane below l stand the lanes below l. -/
theorem filter_le_last_below {ls : List Nat} (hls : ls.Pairwise (· < ·)) {l j : Nat}
    (hj : (ls.filter (fun i => decide (i < l))).getLast? = some j) :
    ls.filter (fun i => decide (i ≤ j)) = ls.filter (fun i => decide (i < l)) := by
  obtain ⟨-, hjl⟩ := List.mem_filter.mp (List.mem_of_getLast? hj)
  have hlt : j < l := of_decide_eq_true hjl
  refine List.filter_congr fun i hi => decide_eq_decide.mpr ⟨fun h => by omega, fun h => ?_⟩
  exact le_getLast? (hls.filter _) hj (List.mem_filter.mpr ⟨hi, decide_eq_true h⟩)

/-- The last lane is no lane below one of the list. -/
theorem dropLast_filter_le {ls : List Nat} (hls : ls.Pairwise (· < ·)) {l j : Nat} (hl : l ∈ ls) (hj : j < l) :
    ls.dropLast.filter (fun i => decide (i ≤ j)) = ls.filter (fun i => decide (i ≤ j)) := by
  have hne : ls ≠ [] := List.ne_nil_of_mem hl
  have hlast : l ≤ ls.getLast hne := le_getLast? hls (List.getLast?_eq_some_getLast hne) hl
  have hno : [ls.getLast hne].filter (fun i => decide (i ≤ j)) = [] := by
    rw [List.filter_eq_nil_iff]
    intro i hi
    rw [List.mem_singleton.mp hi, decide_eq_true_eq]
    omega
  conv_rhs => rw [← List.dropLast_append_getLast hne, List.filter_append, hno, List.append_nil]

/-! ## The values of RED and SCAN -/

/-- The value of a RED as the model computes it. -/
def redTotal (x : Issue) : Nat :=
  match (redTree (redStep x (redOp x) (redN x)) 6
    ((List.range 64).map (fun l => if Mask.has x.act l then some (redVal x x.opX l) else none))).1 with
  | none => redIdent (redOp x) (redN x)
  | some a => redFin x a

/-- A lane's value in a list of running values; the identity where the list has none. -/
def scanGet (x : Issue) (t : List (Nat × Nat)) (l : Nat) : Nat :=
  match t.find? (fun q => q.1 == l) with
  | some q => redFin x q.2
  | none => redIdent (redOp x) (redN x)

/-- The running values of a SCAN over lanes, from nothing or from a start value. -/
def scanChain (x : Issue) (s : Option Nat) (ls : List Nat) : List (Nat × Nat) :=
  (redChain (redStep x (redOp x) (redN x)) (redVal x x.opX) s ls).1

/-- A lane's value in a SCAN as the model computes it. -/
def scanVal (x : Issue) (l : Nat) : Nat :=
  if x.mb 5 then
    match ((Mask.lanes x.act).filter (fun j => decide (j < l))).getLast? with
    | none => redIdent (redOp x) (redN x)
    | some j => scanGet x (if redOp x = 8 then scanChain x (some 0) (Mask.lanes x.act).dropLast else scanChain x none (Mask.lanes x.act)) j
  else scanGet x (scanChain x none (Mask.lanes x.act)) l

/-- XR's value after a SCAN as the model computes it. -/
def scanTotal (x : Issue) : Nat :=
  match (Mask.lanes x.act).getLast? with
  | none => redIdent (redOp x) (redN x)
  | some l => scanGet x (scanChain x none (Mask.lanes x.act)) l

/-- RED is a long-latency outcome of one uniform register write and XR (R150, R152). -/
theorem oRed_eq (x : Issue) : ∃ fl, oRed x = lateOut x (if redN x = 64 then 2 else 1) [x.opX]
    { writes := (if redN x = 64 then x.put64 true (fun _ => BitVec.ofNat 64 (redTotal x))
        else x.put32 (if redOp x ≤ 2 then .s else .z) (some (.uni (BitVec.ofNat 32 (redTotal x)))) (fun _ => BitVec.ofNat 32 (redTotal x)))
        ++ [.xr (redExt x (redTotal x)) (x.act == 0)],
      fl := fl, red := true } := ⟨_, rfl⟩

/-- SCAN is a long-latency outcome of one register write and XR (R151, R152). -/
theorem oScan_eq (x : Issue) : ∃ fl, oScan x = lateOut x (if redN x = 64 then 2 else 1) [x.opX]
    { writes := (if redN x = 64 then x.put64 false (fun l => BitVec.ofNat 64 (scanVal x l))
        else x.put32 .z none (fun l => BitVec.ofNat 32 (scanVal x l))) ++ [.xr (redExt x (scanTotal x)) (x.act == 0)],
      fl := fl, red := true } := by
  unfold oScan scanVal scanTotal scanGet scanChain
  exact ⟨_, rfl⟩

/-! ## The promise of a reduction -/

/-- The low half of XRSEQ counts, and bit 32 tells that no lane was active (R152). -/
theorem xrseq_after (q : DWord) (m : Mask) :
    BitVec.ofNat 64 ((q.toNat % 2 ^ 32 + 1) % 2 ^ 32 + if (m == 0) = true then 2 ^ 32 else 0) =
      (if m = 0 then 1#32 else 0#32) ++ (q.extractLsb' 0 32 + 1) := by
  have hlow : (q.extractLsb' 0 32 + 1).toNat = (q.toNat % 2 ^ 32 + 1) % 2 ^ 32 := by simp [BitVec.toNat_add]
  have hlt : (q.toNat % 2 ^ 32 + 1) % 2 ^ 32 < 2 ^ 32 := Nat.mod_lt _ (by decide)
  apply BitVec.eq_of_toNat_eq
  rw [BitVec.toNat_append, hlow, ← Nat.shiftLeft_add_eq_or_of_lt hlt, BitVec.toNat_ofNat]
  by_cases hm : m = 0
  · rw [if_pos (beq_iff_eq.mpr hm), if_pos hm, BitVec.toNat_ofNat]; omega
  · rw [if_neg (mt beq_iff_eq.mp hm), if_neg hm, BitVec.toNat_ofNat]; omega

theorem Group.applyW_redExt {x : Issue} {g : Group} (hg : g.xrseq = x.g.xrseq) (v : Nat) :
    g.applyW (.xr (redExt x v) (x.act == 0)) = withXr x g v := by
  have hseq := xrseq_after x.g.xrseq x.act
  rw [← hg] at hseq
  rw [Group.applyW, withXr, redExt, ← hg, ← hseq]

/-- A RED or SCAN of 32-bit values with nothing against it issues; its promise writes each lane's value and XR (R73, R152). -/
theorem runIssue_reduction32 {s : State} {i : Instr} {x : Issue} {prio : BitVec 8} {f : Issue → Out} (h : Issues s i x prio)
    (hwcc : x.a.wcc = false) (ext : Ext) (sh : Option VReg) (val : Nat → Nat) (total : Nat) (fl : Nat → FFlags)
    (hf : f x = lateOut x 1 [x.opX]
      { writes := x.put32 ext sh (fun l => BitVec.ofNat 32 (val l)) ++ [.xr (redExt x total) (x.act == 0)], fl := fl, red := true })
    (hr : Readable [x.opX]) (hfree : Free x (x.dests 1)) (hfpx : fpxCauses x (f x) = [])
    (hsh : ∀ r, sh = some r → ∀ l, r.lane l = BitVec.ofNat 32 (val l)) :
    ∃ t p g, runIssue s i f = .next t ∧ Promises x prio 1 (x.read [x.opX] s) t p ∧
      Result32 x g ext (fun l => BitVec.ofNat 32 (val l)) noCode noCode noCode noCode 0 ∧ p.on x.g = withXr x g total := by
  obtain ⟨t, p, hrun, hprom, hws, -⟩ := runIssue_lateOut h 1 [x.opX] _ fl true hf hr hfree
    (by rw [List.flatMap_append]; exact fun r hr => put32_dst x _ _ _ r (by simpa [RegWrite.dst] using hr)) hfpx
  have hres := put32_result_of_noCC hwcc ext sh _ hsh (position_full h.pos)
  refine ⟨t, p, _, hrun, hprom, hres, ?_⟩
  rw [Pending.on, hws, List.foldl_append]
  exact Group.applyW_redExt hres.xrseq_eq total

/-! ## FP32 -/

/-- The final form of a value is the spec's: the canonical NaN for a NaN (R14). -/
theorem redFin_eq_fpFin {x : Issue} (hn : redN x = 32) (hop : 8 ≤ redOp x) (v : Nat) : redFin x v = fpFin v := by
  simp [redFin, fpFin, hn, hop, Fmt.nan]

/-- RED follows the tree of R31. -/
theorem redTotal_eq_redTreeVal {x : Issue} (hn : redN x = 32) (hop : 8 ≤ redOp x) : redTotal x = redTreeVal x := by
  unfold redTotal redTreeVal
  rw [hn]
  generalize (redTree _ _ _).1 = r
  cases r with
  | none => rfl
  | some a => exact redFin_eq_fpFin hn hop a

theorem seqOver_nil (x : Issue) (zero : Bool) : seqOver x zero [] = redIdent (redOp x) 32 := rfl

/-- Over one lane or more, the spec's fold is the chain from nothing, or from +0.0. -/
theorem chainFold_eq_seqOver (x : Issue) (zero : Bool) {ls : List Nat} (hne : ls ≠ []) :
    ∃ a, chainFold (redStep x (redOp x) 32) (redVal x x.opX) (if zero then some 0 else none) ls = some a ∧ seqOver x zero ls = fpFin a := by
  cases ls with
  | nil => exact absurd rfl hne
  | cons m r =>
    cases zero with
    | false => exact ⟨_, chainFold_some _ _ (redVal x x.opX m) r, rfl⟩
    | true => exact ⟨_, chainFold_some _ _ 0 (m :: r), rfl⟩

/-- A lane's running value is the spec's fold over the lanes up to it. -/
theorem scanGet_scanChain {x : Issue} (hn : redN x = 32) (hop : 8 ≤ redOp x) (zero : Bool) {ls : List Nat} (hls : ls.Pairwise (· < ·))
    {l : Nat} (hl : l ∈ ls) :
    scanGet x (scanChain x (if zero then some 0 else none) ls) l = seqOver x zero (ls.filter (fun j => decide (j ≤ l))) := by
  have hne : ls.filter (fun j => decide (j ≤ l)) ≠ [] := List.ne_nil_of_mem (List.mem_filter.mpr ⟨hl, by simp⟩)
  obtain ⟨a, hfold, hseq⟩ := chainFold_eq_seqOver x zero hne
  rw [scanGet, scanChain, hn, redChain_find _ _ hls _ hl, hfold, hseq]
  exact redFin_eq_fpFin hn hop a

/-- The value of a lane of a SCAN (R151). -/
def scanSpec (x : Issue) (l : Nat) : Nat :=
  if x.mb 5 then seqOver x (redOp x == 8) ((Mask.lanes x.act).filter (fun j => decide (j < l)))
  else seqOver x false ((Mask.lanes x.act).filter (fun j => decide (j ≤ l)))

/-- Under EXCL a lane takes the value of the last active lane below it, which is the fold over the lanes below; a sum's starts from
+0.0 (R151). -/
theorem scanGet_last_below {x : Issue} (hn : redN x = 32) (hop : 8 ≤ redOp x) {l j : Nat} (hl : Mask.has x.act l = true)
    (hj : ((Mask.lanes x.act).filter (fun i => decide (i < l))).getLast? = some j) :
    scanGet x (if redOp x = 8 then scanChain x (some 0) (Mask.lanes x.act).dropLast else scanChain x none (Mask.lanes x.act)) j =
      seqOver x (redOp x == 8) ((Mask.lanes x.act).filter (fun i => decide (i < l))) := by
  have hls := Mask.lanes_pairwise x.act
  obtain ⟨hjmem, hjl⟩ := List.mem_filter.mp (List.mem_of_getLast? hj)
  rw [← filter_le_last_below hls hj]
  by_cases h8 : redOp x = 8
  · have hdrop := dropLast_filter_le hls (Mask.mem_lanes.mpr hl) (of_decide_eq_true hjl)
    have hjdrop : j ∈ (Mask.lanes x.act).dropLast.filter (fun i => decide (i ≤ j)) := by
      rw [hdrop]; exact List.mem_filter.mpr ⟨hjmem, by simp⟩
    rw [if_pos h8, beq_iff_eq.mpr h8, ← hdrop]
    exact scanGet_scanChain hn hop true (hls.sublist (List.dropLast_sublist _)) (List.mem_of_mem_filter hjdrop)
  · rw [if_neg h8, beq_eq_false_iff_ne.mpr h8]
    exact scanGet_scanChain hn hop false hls hjmem

theorem scanVal_eq_of_active {x : Issue} (hn : redN x = 32) (hop : 8 ≤ redOp x) {l : Nat} (hl : Mask.has x.act l = true) :
    scanVal x l = scanSpec x l := by
  unfold scanVal scanSpec
  by_cases hex : x.mb 5 = true
  · rw [if_pos hex, if_pos hex]
    cases hj : ((Mask.lanes x.act).filter (fun j => decide (j < l))).getLast? with
    | none => rw [List.getLast?_eq_none_iff.mp hj, seqOver_nil, hn]
    | some j => exact scanGet_last_below hn hop hl hj
  · rw [if_neg hex, if_neg hex]
    exact scanGet_scanChain hn hop false (Mask.lanes_pairwise x.act) (Mask.mem_lanes.mpr hl)

/-- Below lane 0 there is no lane, so its value is right whether it is active or not. -/
theorem scanVal_zero {x : Issue} (hn : redN x = 32) (hop : 8 ≤ redOp x) : scanVal x 0 = scanSpec x 0 := by
  by_cases h0 : Mask.has x.act 0 = true
  · exact scanVal_eq_of_active hn hop h0
  · have hbelow : (Mask.lanes x.act).filter (fun j => decide (j < 0)) = [] := by simp
    have hupto : (Mask.lanes x.act).filter (fun j => decide (j ≤ 0)) = [] := by
      rw [List.filter_eq_nil_iff]
      intro j hj hj0
      have : j = 0 := by simpa using hj0
      exact h0 (Mask.mem_lanes.mp (this ▸ hj))
    have hget : scanGet x (scanChain x none (Mask.lanes x.act)) 0 = redIdent (redOp x) 32 := by
      rw [scanGet, scanChain, redChain_find_none _ _ _ (mt Mask.mem_lanes.mp h0), hn]
    unfold scanVal scanSpec
    rw [hbelow, hupto, seqOver_nil, seqOver_nil, hget, List.getLast?_nil, hn]

/-- XR takes the fold over every active lane (R151, R152). -/
theorem scanTotal_eq_seqOver {x : Issue} (hn : redN x = 32) (hop : 8 ≤ redOp x) : scanTotal x = seqOver x false (Mask.lanes x.act) := by
  have hls := Mask.lanes_pairwise x.act
  unfold scanTotal
  cases hl : (Mask.lanes x.act).getLast? with
  | none => rw [List.getLast?_eq_none_iff.mp hl, seqOver_nil, hn]
  | some l =>
    have hall : (Mask.lanes x.act).filter (fun j => decide (j ≤ l)) = Mask.lanes x.act :=
      List.filter_eq_self.mpr fun i hi => decide_eq_true (le_getLast? hls hl hi)
    have h := scanGet_scanChain hn hop false hls (List.mem_of_getLast? hl)
    rwa [hall] at h

/-- The floating-point operations are of 32 bits (R149). -/
theorem redN_of_redOk {x : Issue} {a : RArgs} (hx : x.a = .r a) (hok : redOk a = true) (hop : 8 ≤ redOp x) : redN x = 32 := by
  have hm : x.m = a.m5 := by rw [Issue.m, hx]
  have hfp : (8 : BitVec 4) ≤ a.m5.extractLsb' 0 4 := by
    rw [BitVec.le_def, BitVec.extractLsb'_toNat, ← hm]
    exact hop
  have hnarrow : a.m5.getLsbD 4 = false := by
    rw [redOk, decide_eq_true hfp, Bool.and_true, Bool.and_eq_true, Bool.not_eq_true'] at hok
    exact hok.2
  rw [redN, Issue.mb, hm, hnarrow]
  rfl

/-- An operation of FP32 values gives results of 32 bits, zero-extended in an S register (R150). -/
theorem redResult_of_32 {x : Issue} {g : Group} {f : Nat → Nat} (hn : redN x = 32) (hop : 8 ≤ redOp x)
    (h : Result32 x g .z (fun l => BitVec.ofNat 32 (f l)) noCode noCode noCode noCode 0) :
    RedResult x g (if redN x = 32 ∧ redOp x ≤ 2 then .s else .z) f := by
  rw [RedResult, if_neg (by omega), if_neg (by omega)]
  exact h

/-- A RED or SCAN of FP32 values that issues is of 32 bits, and writes no condition codes. -/
theorem fp_reduction_fields {s : State} {i : Instr} {a : RArgs} {x : Issue} {prio : BitVec 8} (h : Issues s i x prio) (hwf : WellFormed i)
    (hargs : args i = .r a) (hinfo : (info i).wcc = false) (hok : (info i).ok = redOk a) (hop : 8 ≤ redOp x) :
    redN x = 32 ∧ x.a.wcc = false := by
  have ha : x.a = args i := State.position_args h.pos
  exact ⟨redN_of_redOk (ha.trans hargs) (hok ▸ info_ok hwf) hop, by rw [ha]; exact wcc_eq_false hwf hargs hinfo⟩

/-- R31, R150: RED of FP32 values. -/
theorem red_reduces_fp (a : RArgs) : Reduces (.red a) (fun x => 8 ≤ redOp x ∧ x.g.old.fcr.extractLsb' 4 5 = 0#5)
    (fun x _ => redTreeVal x) redTreeVal := by
  intro s x prio hwf h ⟨hop, hfcr⟩ hr hfree
  obtain ⟨hn, hwcc⟩ := fp_reduction_fields h hwf rfl rfl rfl hop
  obtain ⟨fl, hred⟩ := oRed_eq x
  rw [if_neg (by omega), if_neg (by omega), if_neg (by omega), redTotal_eq_redTreeVal hn hop] at hred
  rw [if_neg (by omega)] at hfree ⊢
  obtain ⟨t, p, g, hrun, hprom, hres, hon⟩ := runIssue_reduction32 (i := .red a) (f := oRed) h hwcc .z _ _ _ fl hred hr hfree
    (fpxCauses_of_disabled hfcr _) (by rintro r ⟨⟩ l; rfl)
  exact ⟨t, p, g, hrun, hprom, redResult_of_32 hn hop hres, hon⟩

/-- R151: SCAN of FP32 values. -/
theorem scan_reduces_fp (a : RArgs) : Reduces (.scan a) (fun x => 8 ≤ redOp x ∧ x.g.old.fcr.extractLsb' 4 5 = 0#5)
    scanSpec (fun x => seqOver x false (Mask.lanes x.act)) := by
  intro s x prio hwf h ⟨hop, hfcr⟩ hr hfree
  obtain ⟨hn, hwcc⟩ := fp_reduction_fields h hwf rfl rfl rfl hop
  obtain ⟨fl, hscan⟩ := oScan_eq x
  rw [if_neg (by omega), if_neg (by omega), scanTotal_eq_seqOver hn hop] at hscan
  rw [if_neg (by omega)] at hfree ⊢
  obtain ⟨t, p, g, hrun, hprom, hres, hon⟩ := runIssue_reduction32 (i := .scan a) (f := oScan) h hwcc .z none (scanVal x) _ fl hscan hr hfree
    (fpxCauses_of_disabled hfcr _) (by rintro r ⟨⟩)
  have hspec := hres.congr (f' := fun l => BitVec.ofNat 32 (scanSpec x l)) (congrArg _ (scanVal_zero hn hop))
    (fun l hl => congrArg _ (scanVal_eq_of_active hn hop hl))
  exact ⟨t, p, g, hrun, hprom, redResult_of_32 hn hop hspec, hon⟩

/-- Settles O7: RED and SCAN promise one register write and XR; the tree of RED is the spec's, and the running values of SCAN are the
spec's folds over ascending lanes. -/
theorem floatReductionsComplete : Obligations.FloatReductionsComplete := ⟨red_reduces_fp, scan_reduces_fp⟩

end Sys2Proof.Machine
end

section
/-! What a register-only instruction leaves (R46, R51): memory, scratchpads, requests and named events, whatever comes of its
issue. -/

namespace Sys2Proof.Machine
open Sys2Proof.Rules

/-! ## What leaves memory -/

/-- The step from `s` to `t` leaves every byte of memory and of scratchpad, every request in flight and every named event. -/
structure KeepsMemory (s t : State) : Prop where
  mem : t.mem = s.mem
  teams : t.teams = s.teams
  reqs : t.reqs = s.reqs
  events : t.events = s.events

namespace KeepsMemory
variable {s t u : State}

theorem refl (s : State) : KeepsMemory s s := ⟨rfl, rfl, rfl, rfl⟩

theorem trans (h : KeepsMemory s t) (k : KeepsMemory t u) : KeepsMemory s u :=
  ⟨k.mem.trans h.mem, k.teams.trans h.teams, k.reqs.trans h.reqs, k.events.trans h.events⟩

/-- Reading operands and walking tables leaves memory. -/
theorem of_readsOnly (h : ReadsOnly s t) : KeepsMemory s t :=
  ⟨by rw [h], by rw [h], by rw [h], by rw [h]⟩

theorem setGroup (h : KeepsMemory s t) (gid : Nat) (f : Group → Group) : KeepsMemory s (t.setGroup gid f) := h.trans ⟨rfl, rfl, rfl, rfl⟩
theorem setWarp (h : KeepsMemory s t) (gid wid : Nat) (f : Warp → Warp) : KeepsMemory s (t.setWarp gid wid f) := h.setGroup gid _
theorem dropDenied (h : KeepsMemory s t) (w : Option (Nat × Nat)) (asid va : Nat) : KeepsMemory s (t.dropDenied w asid va) :=
  h.trans ⟨rfl, rfl, rfl, rfl⟩

/-! ## Traps and parking -/

theorem trapEntry (h : KeepsMemory s t) (g : Group) (w : Option Warp) (e : Option Entry) (c : Cause) (tpc : DWord) (priv : Bool) (vec : DWord)
    (word : Except Nat DWord) : KeepsMemory s (t.trapEntry g w e c tpc priv vec word) := by
  have hdouble (a b : Nat) : KeepsMemory s (t.doubleTrap g a b) := h.trans ⟨rfl, rfl, rfl, rfl⟩
  unfold State.trapEntry
  split
  · exact hdouble _ _
  · split
    · split
      · exact hdouble _ _
      · exact h.setGroup _ _
    · exact hdouble _ _

theorem raise (h : KeepsMemory s t) (g : Group) (w : Option Warp) (e : Option Entry) (c : Cause) (tpc : DWord) :
    KeepsMemory s (t.raise g w e c tpc) := by
  unfold State.raise
  extract_lets ctx priv vec lanes word s1 s2
  have h1 : KeepsMemory s s1 := h.trapEntry ..
  have h2 : KeepsMemory s s2 := by
    show KeepsMemory s (match w with | some w => if c.code = cXLATE then s1.dropDenied (some (g.gid, w.wid)) 0 0 else s1 | none => s1)
    split
    · split
      · exact h1.dropDenied ..
      · exact h1
    · exact h1
  split
  · exact h2
  · exact h2.setGroup _ _

theorem addFault (h : KeepsMemory s t) (core ctx kind va level agent : Nat) (w : Option (Nat × Nat)) :
    KeepsMemory s (t.addFault core ctx kind va level agent w) := by
  have hwalk : KeepsMemory s (t.walked core ctx va) := h.trans (of_readsOnly (State.walked_reads ..))
  unfold State.addFault
  extract_lets asid die same ws s1 n r
  split
  · exact hwalk.trans ⟨rfl, rfl, rfl, rfl⟩
  · exact hwalk.trans ⟨rfl, rfl, rfl, rfl⟩

/-- A recall of the region table only sends a snoop (R363). -/
theorem recallRegion (h : KeepsMemory s t) (port : Nat) (contested : Bool) (keep : Nat) : KeepsMemory s (t.recall port contested keep) := by
  unfold State.recall
  extract_lets rs
  split
  · exact h
  · split
    · exact h
    · exact h.trans ⟨rfl, rfl, rfl, rfl⟩

/-- The region table changes only itself and its snoops (R361). -/
theorem deviceGate (h : KeepsMemory s t) (line : Nat) (store drop : Bool) : KeepsMemory s (deviceGate t line store drop).1 := by
  have hregions (r : Region) (rs : List Region) : KeepsMemory s (t.setRegion r rs) := h.trans ⟨rfl, rfl, rfl, rfl⟩
  have hsnoop (r : Region) (rs : List Region) (q : List Snoop) (n : Nat) :
      KeepsMemory s { t.setRegion r rs with snoops := q, nextId := n } := h.trans ⟨rfl, rfl, rfl, rfl⟩
  unfold Machine.deviceGate
  dsimp only
  split
  · exact h
  · split
    · exact h
    · split
      · split
        · exact hsnoop ..
        · exact hregions ..
      · split
        · exact hregions ..
        · split
          · exact h.recallRegion ..
          · split
            · exact h.recallRegion ..
            · exact hsnoop ..

theorem snoopFor (h : KeepsMemory s t) (core ctx va : Nat) : KeepsMemory s (t.snoopFor core ctx va) := by
  unfold State.snoopFor
  split
  · exact h.deviceGate ..
  · exact h

/-! ## The warp goes on -/

theorem yieldSlot (h : KeepsMemory s t) (gid : Nat) : KeepsMemory s (t.yieldSlot gid) := by
  unfold State.yieldSlot
  split
  · exact h
  · split
    · exact h.setGroup ..
    · split <;> exact h.setGroup ..

theorem clauseEnd (h : KeepsMemory s t) (gid : Nat) (yld : Bool) : KeepsMemory s (t.clauseEnd gid yld) := by
  unfold State.clauseEnd
  extract_lets s1 due
  split
  · exact (h.setGroup ..).yieldSlot gid
  · exact h.setGroup ..

theorem advance (h : KeepsMemory s t) (x : Issue) (prio : BitVec 8) (pend : List Pending) : KeepsMemory s (advance x t prio pend) := by
  unfold Machine.advance
  dsimp only
  split
  · exact ((h.setWarp ..).setGroup ..).clauseEnd ..
  · exact (h.setWarp ..).setGroup ..

end KeepsMemory

theorem takeTrap_keepsMemory (x : Issue) (c : Cause) : KeepsMemory x.s (takeTrap x c) := ((KeepsMemory.refl x.s).setWarp ..).raise ..

theorem parkLanes_keepsMemory (x : Issue) (lanes : Mask) (kind va level : Nat) : KeepsMemory x.s (parkLanes x lanes kind va level) := by
  unfold parkLanes
  extract_lets took s1 l left wid s2 p
  split
  · exact (KeepsMemory.refl x.s).snoopFor ..
  · split
    · exact (((KeepsMemory.refl x.s).addFault ..).setGroup ..).setWarp ..
    · exact (((KeepsMemory.refl x.s).addFault ..).setGroup ..).setGroup ..

/-! ## Outcomes that only write registers -/

/-- An outcome has no effect but its register writes, and none of them is a P register's. -/
structure Plain (o : Out) : Prop where
  eff : o.eff = fun s => s
  post : o.post = fun s => s
  ctl : o.ctl = none
  noP : ∀ w ∈ o.writes, w.noP

theorem commitOut_keepsMemory {x : Issue} {o : Out} (ho : Plain o) (prio : BitVec 8) : KeepsMemory x.s (commitOut x prio o) := by
  obtain ⟨heff, hpost, hctl, hnoP⟩ := ho
  have hread : KeepsMemory x.s (readVas x.g.core x.g.ctx o.vas x.s) := .of_readsOnly (readVas_reads ..)
  have hwrite : KeepsMemory x.s (((readVas x.g.core x.g.ctx o.vas x.s).applyWs x.g.gid x.g.team o.writes).setGroup x.g.gid
      (fun g => g.commit x.act (o.fsr x) o.amax)) := by
    rw [State.applyWs_eq _ _ _ _ hnoP]
    exact (hread.setGroup ..).setGroup ..
  have hbody : KeepsMemory x.s (if o.dly then readVas x.g.core x.g.ctx o.vas x.s
      else ((readVas x.g.core x.g.ctx o.vas x.s).applyWs x.g.gid x.g.team o.writes).setGroup x.g.gid
        (fun g => g.commit x.act (o.fsr x) o.amax)) := by
    split
    · exact hread
    · exact hwrite
  have hcount (c : Prop) [Decidable c] {b : State} (h : KeepsMemory x.s b) :
      KeepsMemory x.s (if c then { b with nextId := b.nextId + 1 } else b) := by
    split
    · exact h.trans ⟨rfl, rfl, rfl, rfl⟩
    · exact h
  unfold commitOut
  dsimp only
  rw [hpost, hctl, heff]
  split
  · exact hbody
  · dsimp only
    split
    · exact hcount _ hbody
    · exact (hcount _ hbody).advance ..

theorem finishIssue_keepsMemory {x : Issue} {f : Issue → Out} (hf : Plain (f x)) : KeepsMemory x.s (finishIssue x f) := by
  unfold finishIssue
  extract_lets o hr hc cs
  split
  · exact (KeepsMemory.refl x.s).setWarp ..
  · split
    · exact takeTrap_keepsMemory ..
    · split
      · exact parkLanes_keepsMemory ..
      · exact .refl _
      · exact parkLanes_keepsMemory ..
      · split
        · exact takeTrap_keepsMemory ..
        · exact commitOut_keepsMemory hf _

/-- Whatever comes of its issue, an instruction whose outcome only writes registers leaves memory. -/
theorem runIssue_keepsMemory {s t : State} {i : Instr} {f : Issue → Out} (hf : ∀ x, Plain (f x)) (h : runIssue s i f = .next t) :
    KeepsMemory s t := by
  have hs := KeepsMemory.refl s
  unfold runIssue at h
  split at h
  · cases h; exact hs
  · rename_i x hx
    split at h
    · cases h; exact hs.raise ..
    · split at h
      · cases h; exact hs
      · split at h
        · cases h
          split
          · exact hs.setWarp ..
          · exact hs
        · split at h
          · cases h; exact hs
          · split at h
            · cases h; exact hs
            · cases h
              exact State.position_s hx ▸ finishIssue_keepsMemory (hf x)

/-! ## The register-only instructions -/

theorem Plain.ofSrcs {o : Out} (h : Plain o) (x : Issue) (os : List Opr) : Plain (Out.ofSrcs x os o) := ⟨h.eff, h.post, h.ctl, h.noP⟩

theorem laneOut32_plain (x : Issue) (ext : Ext) (srcs : List Opr) (sh : Option VReg) (f : Nat → CC) : Plain (laneOut32 x ext srcs sh f) :=
  Plain.ofSrcs ⟨rfl, rfl, rfl, List.forall_mem_append.mpr ⟨put32_noP _ _ _ _, putCC_noP _ _ _ _ _⟩⟩ x srcs

theorem laneOut64_plain (x : Issue) (srcs : List Opr) (uni : Bool) (f : Nat → CC) : Plain (laneOut64 x srcs uni f) :=
  Plain.ofSrcs ⟨rfl, rfl, rfl, List.forall_mem_append.mpr ⟨put64_noP _ _ _, putCC_noP _ _ _ _ _⟩⟩ x srcs

theorem fOut_plain (x : Issue) (srcs : List Opr) (late : Bool) (f : Nat → Nat × FFlags) : Plain (fOut x srcs late f) :=
  Plain.ofSrcs ⟨rfl, rfl, rfl, List.forall_mem_append.mpr ⟨put32_noP _ _ _ _, putCC_noP _ _ _ _ _⟩⟩ x srcs

theorem oSel_plain (x : Issue) : Plain (oSel x) := by
  have hnoP (f : Nat → Word) : ∀ w ∈ x.put32 .z none f, w.noP := put32_noP x .z none f
  exact Plain.ofSrcs ⟨rfl, rfl, rfl, hnoP _⟩ x _

theorem oMov_plain (x : Issue) : Plain (oMov x) := by
  unfold oMov
  extract_lets p g
  split
  · refine Plain.ofSrcs ⟨rfl, rfl, rfl, List.forall_mem_append.mpr ⟨?_, putCC_noP _ _ _ _ _⟩⟩ x _
    split
    · simp [RegWrite.noP]
    · exact put64_noP _ _ _
  · exact laneOut32_plain ..

theorem oMovhi_plain (x : Issue) : Plain (oMovhi x) := by
  unfold oMovhi
  extract_lets i h half d put
  split
  · exact Plain.ofSrcs ⟨rfl, rfl, rfl, by simp [RegWrite.noP]⟩ x _
  · exact laneOut32_plain ..

/-- A register-only instruction goes through the pipeline with an outcome that only writes registers. -/
theorem exec_of_registerOnly {i : Instr} (h : registerOnly i) : ∃ f, (∀ s, exec i s = runIssue s i f) ∧ ∀ x, Plain (f x) := by
  cases i with
  | iadd a | iaddImm a | isub a | isubImm a | iadc a | iadcImm a | isbc a | isbcImm a | ineg a | inegImm a | iabs a | iabsImm a
  | imin a | iminImm a | imax a | imaxImm a | imul a | imulImm a | imulh a | imulhImm a | imad a | imadImm a | icmp a | icmpImm a
  | isat a | isatImm a | icmp64 a | icmp64Imm a | lea a | leaImm a
  | andL a | andLImm a | orL a | orLImm a | xorL a | xorLImm a | notL a | notLImm a | lut3 a | lut3Imm a | shl a | shlImm a
  | shr a | shrImm a | sar a | sarImm a | rot a | rotImm a | fshl a | fshlImm a | fshr a | fshrImm a | popc a | clz a | ctz a | brev a
  | bfx a | bfi a | prmb a | movi a | sxt a | zxt a | fcmp a =>
    exact ⟨_, fun _ => rfl, fun _ => laneOut32_plain ..⟩
  | imadw a | imadwImm a | iadd64 a | iadd64Imm a | isub64 a | isub64Imm a | lea64 a => exact ⟨_, fun _ => rfl, fun _ => laneOut64_plain ..⟩
  | fadd a | fsub a | fmul a | ffma a | fmin a | fmax a => exact ⟨_, fun _ => rfl, fun _ => fOut_plain ..⟩
  | sel a => exact ⟨_, fun _ => rfl, oSel_plain⟩
  | mov a => exact ⟨_, fun _ => rfl, oMov_plain⟩
  | movhi a => exact ⟨_, fun _ => rfl, oMovhi_plain⟩
  | _ => exact h.elim

/-- Settles O57: every outcome of the pipeline, traps, waits and parked lanes included, leaves memory where the instruction's own
effect is register writes. -/
theorem registerOnlyLeavesMemory : Obligations.RegisterOnlyLeavesMemory := by
  intro i s t hi ht
  obtain ⟨f, hexec, hplain⟩ := exec_of_registerOnly hi
  rw [hexec] at ht
  obtain ⟨hmem, hteams, hreqs, hevents⟩ := runIssue_keepsMemory hplain ht
  exact ⟨hmem, hteams, hreqs, hevents⟩

end Sys2Proof.Machine
end

section
/-! O58 fails: a trap starts the clause of the warp that takes it, and so a double trap does not leave the warp as it was (R58, R139). -/

namespace Sys2Proof.Machine
open Sys2Proof.Rules

/-- IADD of V10 and V12 into V8. -/
def poisonedAdd : Instr := .iadd { d := 8, x := 10, y := 12 }
/-- A clause whose first instruction has not issued, so that the counter of its DCW is noted still (R58). -/
def poisonedClause : Clause := { eng := 0, cnt := 1, yld := false, dcw := 1 }
def poisonedEntry : Entry := { prio := 0, pc := 8, mask := 1, h := 0, cl := some poisonedClause }
def poisonedWarp : Warp := { wid := 0, entries := [poisonedEntry] }
/-- A group of that warp, with V10 poisoned in lane 0 (R134). -/
def poisonedGroup : Group := { noGroup with vpoison := [(10, 1)], warps := [poisonedWarp] }
/-- The group in a machine out of reset, where every trap vector is zero. -/
def poisonedState : State := { State.reset with groups := [poisonedGroup], issuer := some { gid := 0, wid := 0 } }
/-- The position of `poisonedAdd` there. -/
def poisonedIssue : Issue where
  s := poisonedState
  g := poisonedGroup
  w := poisonedWarp
  e := poisonedEntry
  cl := poisonedClause
  n := info poisonedAdd
  a := args poisonedAdd
  act := 1
  full := false
  k := 0
  rmask := 0
  last := false
  more := false

theorem poisonedState_issues : Issues poisonedState poisonedAdd poisonedIssue 0 where
  pos := rfl
  held := by decide +kernel
  dcw := by decide +kernel
  due := by decide +kernel
  counter := by decide +kernel
  collector := fun _ => by decide +kernel
  role := by decide +kernel
  header := rfl

/-- The POISON of lane 0. -/
def poisonedCause : Cause := { stage := 5, code := cPOISON, tfm := 1 }

theorem poisonedIssue_causes : (addRow poisonedIssue poisonedIssue.opY).srcs.flatMap (fun p => p.causes) = [poisonedCause] := by
  decide +kernel

theorem poisonedIssue_chosen : Chosen ((addRow poisonedIssue poisonedIssue.opY).srcs.flatMap (fun p => p.causes)) poisonedCause := by
  rw [poisonedIssue_causes]
  exact ⟨by simp, fun d hd => .inr (List.mem_singleton.mp hd ▸ ⟨rfl, le_rfl⟩)⟩

/-- The double trap leaves other warps than the group had: the clause notes no counter any more. -/
theorem poisonedAdd_warps : ∃ t, exec poisonedAdd poisonedState = .next t ∧ (t.group 0).map (fun h => h.warps) ≠ some poisonedGroup.warps :=
  ⟨takeTrap poisonedIssue poisonedCause, rfl, by decide +kernel⟩

/-- Refutes O58: its second clause (a double trap) has the group be as it was but for its stop and its causes. The trap, though, starts the clause of the warp that
takes it, whose DCW notes no counter from then on (R58). At `poisonedState` the warp stands at the first instruction of a clause with a DCW, its source is poisoned, and
the vector is zero. -/
theorem not_trapsArePrecise : ¬ Obligations.TrapsArePrecise := by
  unfold Obligations.TrapsArePrecise
  intro h
  have hfree : Free poisonedIssue (poisonedIssue.dests 1) := ⟨by decide +kernel, .inr (by decide +kernel)⟩
  have hvec : (poisonedState.ctx poisonedIssue.g.ctx).tvec = 0 := by decide +kernel
  obtain ⟨-, hdouble⟩ := h poisonedAdd poisonedState poisonedIssue 0 (addRow poisonedIssue poisonedIssue.opY) poisonedCause (by decide +kernel)
    poisonedState_issues rfl ⟨rfl, rfl⟩ hfree (by decide +kernel) (by decide +kernel) poisonedIssue_chosen (by decide)
  obtain ⟨t, g, hexec, -, -, hg, -, hsame, -⟩ := hdouble (.inr hvec)
  obtain ⟨u, hu, hne⟩ := poisonedAdd_warps
  obtain rfl : u = t := by injection hu.symm.trans hexec
  have hwarps : g.warps = poisonedGroup.warps := by rw [hsame]; rfl
  exact hne ((congrArg (Option.map fun h => h.warps) hg).trans (congrArg some hwarps))

end Sys2Proof.Machine
end

section
/-! O26 fails where a repeat steps the destination of a load out of the V registers. -/

namespace Sys2Proof.Machine
open Sys2Proof.Rules

/-- LD of a word into V255. -/
def steppedLd : MArgs := { d := 255, x := 10, wid := 2, dc := 6 }
/-- The entry of a vector clause's first instruction in lanes 0 and 1. -/
def steppedEntry : Entry := { prio := 0, pc := 8, mask := 3, h := 0, cl := some { eng := 0, cnt := 1, yld := false } }
/-- A warp in repeat 1, whose RPC steps D (R77): to S0, the field after V255. -/
def steppedWarp : Warp := { wid := 0, entries := [steppedEntry], rpc := 0x80001041 }
/-- A group of two lanes whose addresses V10 differ. -/
def steppedGroup : Group := { noGroup with v := [(10, .aff 0 4)], warps := [steppedWarp] }
/-- A page of device memory at address 0, coherent, that may be written. -/
def steppedLeaf : Leaf := { pfn := 0, w := true, x := false, xf := false, coh := 0, lc := 0, fmt := 0, bg := 0, ten := 0, node := 0 }
/-- The copy of line 0 in the L1: its words 0 and 1 differ. -/
def steppedLine : L1Line := { core := 0, line := 0, data := 1 :: List.replicate 127 0 }
def steppedState : State :=
  { State.reset with
    groups := [steppedGroup]
    issuer := some { gid := 0, wid := 0 }
    tlb := [{ second := false, who := 0, asid := 0, vpn := 0, order := 18, leaf := steppedLeaf }]
    l1 := [steppedLine] }
def steppedIssue : Issue where
  s := steppedState
  g := steppedGroup
  w := steppedWarp
  e := steppedEntry
  cl := { eng := 0, cnt := 1, yld := false }
  n := info (.ld steppedLd)
  a := args (.ld steppedLd)
  act := 3
  full := false
  k := 1
  rmask := 1
  last := false
  more := false

theorem steppedState_issues : Issues steppedState (.ld steppedLd) steppedIssue 0 where
  pos := rfl
  held := by decide +kernel
  dcw := by decide +kernel
  due := by decide +kernel
  counter := by decide +kernel
  collector := fun _ => by decide +kernel
  role := by decide +kernel
  header := rfl

/-- The address of lane `l` in memory. -/
def steppedPa (l : Nat) : Nat := 4 * l

theorem steppedIssue_active {l : Nat} (h : Active steppedIssue l) : l = 0 ∨ l = 1 := by
  have hall : ∀ l < 64, Mask.has steppedIssue.act l = true → l = 0 ∨ l = 1 := by decide +kernel
  exact hall l h.1 h.2

theorem steppedIssue_reaches : Reaches steppedIssue .read (fun _ => Rules.bytesOf steppedLd)
    (eaAt steppedLd steppedIssue.opX (Rules.bytesOf steppedLd)) steppedPa (fun _ => steppedLeaf) := by
  intro l hl
  rcases steppedIssue_active hl with rfl | rfl <;> exact ⟨by decide +kernel, rfl⟩

/-- Every lane finds its bytes in a copy that may serve it. -/
theorem steppedIssue_hits (l : Nat) (hl : Active steppedIssue l) : steppedState.l1Find steppedIssue.g.core (steppedPa l / 128) = some steppedLine ∧
    steppedLine.bad = false ∧ l1Serves steppedState steppedIssue.g steppedLine = true ∧ lineClass (steppedPa l) steppedLeaf ≠ 2 := by
  rcases steppedIssue_active hl with rfl | rfl <;> decide +kernel

/-- The word of lane `l`. -/
def steppedValue (l : Nat) : Nat :=
  ldeConv 0 (steppedIssue.g.fcr.getLsbD 3) (leNat ((steppedLine.data.drop (steppedPa l % 128)).take (Rules.bytesOf steppedLd)))

/-- S0 does not hold the words of both lanes. -/
theorem not_loaded_of_stepped (k : Nat) (g : Group) : ¬ Loaded steppedIssue k steppedValue g := by
  intro h
  have hboth := (h.sreg 0).1 ⟨by decide +kernel, by decide +kernel⟩
  have h0 : g.sreg 0 = 1 := hboth 0 ⟨by decide, by decide +kernel⟩
  have h1 : g.sreg 0 = 0 := hboth 1 ⟨by decide, by decide +kernel⟩
  exact absurd (h0.symm.trans h1) (by decide)

/-- Refutes O26: `steppedLd` hits the L1 in lanes 0 and 1, whose words differ, while the repeat has stepped its D from V255 to S0, and a load into an S register is
to leave there the word of every active lane (R216). REP refuses such a repeat (R78), but `Issues` admits any RPC. -/
theorem not_loadsIssue : ¬ Obligations.LoadsIssue := by
  unfold Obligations.LoadsIssue
  rintro ⟨hld, -, -⟩
  have hread : Readable [steppedIssue.opX] := by
    intro p hp
    rw [List.mem_singleton.mp hp]
    decide +kernel
  have hfree : Free steppedIssue (steppedIssue.dests (regsOf steppedLd)) := ⟨by decide +kernel, .inl (by decide +kernel)⟩
  obtain ⟨t, p, -, -, -, hloaded⟩ := ((hld steppedLd steppedState steppedIssue 0 steppedPa (fun _ => steppedLeaf) (by decide +kernel) steppedState_issues
    hread (fun _ hr => absurd hr List.not_mem_nil) hfree).2 (by decide +kernel) steppedIssue_reaches (fun _ _ => rfl)).2 rfl (by decide +kernel)
      (fun _ => steppedLine) steppedIssue_hits
  exact not_loaded_of_stepped _ _ hloaded

end Sys2Proof.Machine
end

section
/-! Decoding and encoding (R60 to R66, R80 to R84, R348): what the opcode maps hold, the fields of a word, and the round trips of
clause words and of the copy engines' words. -/

namespace Sys2Proof.Machine

/-! ## The opcode maps -/

/-- The fields that a word holds in the format of instruction `i` (R60). -/
def fieldsAs (i : Instr) (w : DWord) : Args :=
  match args i with
  | .r _ => .r (rOf w)
  | .i _ => .i (iOf w)
  | .b _ => .b (bOf w)
  | .m _ => .m (mOf w)
  | .e _ => .e (eOf w)
  | .none => .none

theorem opc_lt (i : Instr) : (info i).opc < 1024 := by
  cases i <;> exact of_decide_eq_true rfl

/-- An instruction of a clause has fields in a format; steps of the machine and words of the copy engines have none (R60, R83). -/
theorem args_ne_none {i : Instr} (hevent : isEvent i = false) (hce : Rules.ceWord i = false) : args i ≠ .none := by
  cases i
  any_goals exact Bool.noConfusion (hevent : true = false)
  any_goals exact Bool.noConfusion (hce : true = false)
  all_goals exact nofun

theorem space_ne_word {i : Instr} (hce : Rules.ceWord i = false) : (info i).space ≠ .word := by
  cases i
  any_goals exact Bool.noConfusion (hce : true = false)
  all_goals exact Space.noConfusion

/-- A map of opcodes holds instruction `i`: under its opcode stands a reader of the fields of its format. -/
def Holds (m : Nat → Option (DWord → Instr)) (i : Instr) : Prop :=
  ∃ f, m (info i).opc = some f ∧ ∀ w, fieldsAs i w = args i → f w = i

/-- The opcodes of the common instructions (R80). -/
def commonOpcode (o : Nat) : Bool :=
  decide (o < 0x100) || decide (0x200 ≤ o ∧ o < 0x240) || decide (0x380 ≤ o ∧ o < 0x386) || decide (0x38A ≤ o ∧ o < 0x38C)

theorem commonOpcode_of_opCommon {o : Nat} {f : DWord → Instr} (h : opCommon o = some f) : commonOpcode o = true := by
  unfold opCommon at h
  split at h <;> cases h <;> rfl

theorem opCommon_eq_none {o : Nat} (h : commonOpcode o = false) : opCommon o = none :=
  Option.eq_none_iff_forall_ne_some.mpr fun _ hf => absurd (commonOpcode_of_opCommon hf) (by rw [h]; exact Bool.noConfusion)

theorem opCommon_holds {i : Instr} (h : ((info i).space == .any0 || (info i).space == .any) = true) : Holds opCommon i := by
  cases i
  any_goals cases h
  all_goals exact ⟨_, rfl, fun w hw => by cases hw; rfl⟩

theorem opVec_holds {i : Instr} (h : (info i).space = .vec) : commonOpcode (info i).opc = false ∧ Holds opVec i := by
  cases i
  any_goals cases h
  all_goals exact ⟨rfl, _, rfl, fun w hw => by cases hw; rfl⟩

/-- The space's own map of an instruction that is not common. -/
def ownMap (i : Instr) : Nat → Option (DWord → Instr) :=
  match (info i).space with
  | .mat => opMat
  | .cpy => opCpy
  | .sys => opSys
  | _ => opVec

theorem ownMap_holds {i : Instr} (h : (info i).space = .mat ∨ (info i).space = .cpy ∨ (info i).space = .sys ∨ (info i).space = .vecsys) :
    commonOpcode (info i).opc = false ∧ Holds (ownMap i) i := by
  rcases h with h | h | h | h
  all_goals
    cases i
    any_goals cases h
    all_goals exact ⟨rfl, _, rfl, fun w hw => by cases hw; rfl⟩

/-- The map of an engine class holds what the common map holds, and what the space's own map holds under another opcode. -/
theorem Holds.of_common {i : Instr} (h : Holds opCommon i) (eng : BitVec 2) : Holds (opMap eng) i := by
  obtain ⟨f, hf, hread⟩ := h
  exact ⟨f, by simp only [opMap, hf], hread⟩

theorem Holds.of_own {i : Instr} (h : commonOpcode (info i).opc = false ∧ Holds (ownMap i) i) : Holds (opMap i.engClass) i := by
  obtain ⟨hcommon, f, hf, hread⟩ := h
  refine ⟨f, ?_, hread⟩
  rw [← hf]
  unfold opMap ownMap Instr.engClass
  rw [opCommon_eq_none hcommon]
  cases (info i).space <;> rfl

/-- A clause's instruction stands in the opcode map of the engine class that may hold it, under its own opcode, and the map reads
the operand fields of its format. -/
theorem opMap_holds {i : Instr} (hevent : isEvent i = false) (hce : (info i).space ≠ .word) : Holds (opMap i.engClass) i := by
  cases hs : (info i).space with
  | any0 => exact (opCommon_holds (by rw [hs]; rfl)).of_common _
  | any => exact (opCommon_holds (by rw [hs]; rfl)).of_common _
  | vec => exact .of_own (by simpa only [ownMap, hs] using opVec_holds hs)
  | mat => exact .of_own (ownMap_holds (.inl hs))
  | cpy => exact .of_own (ownMap_holds (.inr (.inl hs)))
  | sys => exact .of_own (ownMap_holds (.inr (.inr (.inl hs))))
  | vecsys => exact .of_own (ownMap_holds (.inr (.inr (.inr hs))))
  | word => exact absurd hs hce
  | event => exact absurd hevent (by unfold isEvent; rw [hs]; exact Bool.noConfusion)

/-- What a map of opcodes may hold: readers of words whose instruction has the opcode and takes its fields from the word. -/
def ReadsFields (o : Nat) (f : DWord → Instr) : Prop :=
  ∀ w, (info (f w)).opc = o ∧ args (f w) ≠ .none ∧ fieldsAs (f w) w = args (f w)

theorem opCommon_reads {o : Nat} {f : DWord → Instr} (h : opCommon o = some f) : ReadsFields o f := by
  unfold opCommon at h
  split at h <;> cases h <;> exact fun w => ⟨rfl, nofun, rfl⟩

theorem opVec_reads {o : Nat} {f : DWord → Instr} (h : opVec o = some f) : ReadsFields o f := by
  unfold opVec at h
  split at h <;> cases h <;> exact fun w => ⟨rfl, nofun, rfl⟩

theorem opMat_reads {o : Nat} {f : DWord → Instr} (h : opMat o = some f) : ReadsFields o f := by
  unfold opMat at h
  split at h <;> cases h <;> exact fun w => ⟨rfl, nofun, rfl⟩

theorem opCpy_reads {o : Nat} {f : DWord → Instr} (h : opCpy o = some f) : ReadsFields o f := by
  unfold opCpy at h
  split at h <;> cases h <;> exact fun w => ⟨rfl, nofun, rfl⟩

theorem opSys_reads {o : Nat} {f : DWord → Instr} (h : opSys o = some f) : ReadsFields o f := by
  unfold opSys at h
  split at h <;> cases h <;> exact fun w => ⟨rfl, nofun, rfl⟩

/-- Every entry of a space's map reads the fields of its own instruction: the common map first, then the space's own (R80 to R82). -/
theorem opMap_reads {eng : BitVec 2} {o : Nat} {f : DWord → Instr} (h : opMap eng o = some f) : ReadsFields o f := by
  unfold opMap at h
  split at h
  · next g hg =>
    cases h
    exact opCommon_reads hg
  · split_ifs at h
    · exact opVec_reads h
    · exact opMat_reads h
    · exact opCpy_reads h
    · exact opSys_reads h

/-! ## The fields of a word -/

section Fields
variable (o : BitVec 10) (w : DWord)

theorem rOf_rWord (a : RArgs) : rOf (rWord o a) = a ∧ opcOf (rWord o a) = o.toNat := by
  constructor <;> simp only [rOf, opcOf, rWord, BitVec.extractLsb'_append_eq_of_le, BitVec.extractLsb'_append_eq_of_add_le,
    BitVec.extractLsb'_eq_self, Nat.reduceLeDiff, Nat.reduceSub, Nat.zero_add, Nat.le_refl]

theorem iOf_iWord (a : IArgs) : iOf (iWord o a) = a ∧ opcOf (iWord o a) = o.toNat := by
  constructor <;> simp only [iOf, opcOf, iWord, BitVec.extractLsb'_append_eq_of_le, BitVec.extractLsb'_append_eq_of_add_le,
    BitVec.extractLsb'_eq_self, Nat.reduceLeDiff, Nat.reduceSub, Nat.zero_add, Nat.le_refl]

theorem mOf_mWord (a : MArgs) : mOf (mWord o a) = a ∧ opcOf (mWord o a) = o.toNat := by
  constructor <;> simp only [mOf, opcOf, mWord, BitVec.extractLsb'_append_eq_of_le, BitVec.extractLsb'_append_eq_of_add_le,
    BitVec.extractLsb'_eq_self, Nat.reduceLeDiff, Nat.reduceSub, Nat.zero_add, Nat.le_refl]

/-- A B-format word leaves LA and WCC zero. -/
theorem bOf_bWord (a : BArgs) : bOf (bWord o a) = a ∧ opcOf (bWord o a) = o.toNat ∧
    (bWord o a).extractLsb' 50 4 = 0#4 ∧ (bWord o a).extractLsb' 45 1 = 0#1 := by
  refine ⟨?_, ?_, ?_, ?_⟩ <;> simp only [bOf, opcOf, bWord, BitVec.extractLsb'_append_eq_of_le, BitVec.extractLsb'_append_eq_of_add_le,
    BitVec.extractLsb'_eq_self, Nat.reduceLeDiff, Nat.reduceSub, Nat.zero_add, Nat.le_refl]

/-- An E-format word leaves LA, COND and WCC zero. -/
theorem eOf_eWord (a : EArgs) : eOf (eWord o a) = a ∧ opcOf (eWord o a) = o.toNat ∧ (eWord o a).extractLsb' 45 9 = 0#9 := by
  refine ⟨?_, ?_, ?_⟩ <;> simp only [eOf, opcOf, eWord, BitVec.extractLsb'_append_eq_of_le, BitVec.extractLsb'_append_eq_of_add_le,
    BitVec.extractLsb'_eq_self, Nat.reduceLeDiff, Nat.reduceSub, Nat.zero_add, Nat.le_refl]

/-- The opcode's bits are those of its number. -/
theorem ofNat_opcOf : BitVec.ofNat 10 (opcOf w) = w.extractLsb' 54 10 := by simp only [opcOf, BitVec.ofNat_toNat, BitVec.setWidth_eq]

theorem rWord_rOf : rWord (BitVec.ofNat 10 (opcOf w)) (rOf w) = w := by
  simp only [ofNat_opcOf, rOf, rWord, BitVec.extractLsb'_append_extractLsb'_eq_extractLsb']
  exact BitVec.extractLsb'_eq_self

theorem iWord_iOf : iWord (BitVec.ofNat 10 (opcOf w)) (iOf w) = w := by
  simp only [ofNat_opcOf, iOf, iWord, BitVec.extractLsb'_append_extractLsb'_eq_extractLsb']
  exact BitVec.extractLsb'_eq_self

theorem mWord_mOf : mWord (BitVec.ofNat 10 (opcOf w)) (mOf w) = w := by
  simp only [ofNat_opcOf, mOf, mWord, BitVec.extractLsb'_append_extractLsb'_eq_extractLsb']
  exact BitVec.extractLsb'_eq_self

theorem bWord_bOf (hla : w.extractLsb' 50 4 = 0#4) (hwcc : w.extractLsb' 45 1 = 0#1) : bWord (BitVec.ofNat 10 (opcOf w)) (bOf w) = w := by
  simp only [ofNat_opcOf, bOf, bWord, ← hla, ← hwcc, BitVec.extractLsb'_append_extractLsb'_eq_extractLsb']
  exact BitVec.extractLsb'_eq_self

theorem eWord_eOf (hz : w.extractLsb' 45 9 = 0#9) : eWord (BitVec.ofNat 10 (opcOf w)) (eOf w) = w := by
  simp only [ofNat_opcOf, eOf, eWord, ← hz, BitVec.extractLsb'_append_extractLsb'_eq_extractLsb']
  exact BitVec.extractLsb'_eq_self

end Fields

/-! ## Clause words -/

/-- The word of an instruction has its opcode, its fields, and zeros where its format asks for them. -/
theorem encode_fields (i : Instr) (hargs : args i ≠ .none) :
    ∃ w, encode i = [w] ∧ opcOf w = (info i).opc ∧ fieldsAs i w = args i ∧ fmtOkW i w = true := by
  have ho : (BitVec.ofNat 10 (info i).opc).toNat = (info i).opc := Nat.mod_eq_of_lt (opc_lt i)
  unfold encode fieldsAs fmtOkW
  cases ha : args i with
  | none => exact absurd ha hargs
  | r a => exact ⟨_, rfl, (rOf_rWord _ a).2.trans ho, congrArg _ (rOf_rWord _ a).1, rfl⟩
  | i a => exact ⟨_, rfl, (iOf_iWord _ a).2.trans ho, congrArg _ (iOf_iWord _ a).1, rfl⟩
  | m a => exact ⟨_, rfl, (mOf_mWord _ a).2.trans ho, congrArg _ (mOf_mWord _ a).1, rfl⟩
  | b a =>
    obtain ⟨hf, hop, hla, hwcc⟩ := bOf_bWord (BitVec.ofNat 10 (info i).opc) a
    exact ⟨_, rfl, hop.trans ho, congrArg _ hf, by simp only [hla, hwcc]; rfl⟩
  | e a =>
    obtain ⟨hf, hop, hz⟩ := eOf_eWord (BitVec.ofNat 10 (info i).opc) a
    exact ⟨_, rfl, hop.trans ho, congrArg _ hf, by simp only [hz]; rfl⟩

/-- A word whose opcode and fields are those of an instruction, with the zeros of its format, is that instruction's encoding. -/
theorem encode_of_fields {i : Instr} {w : DWord} (hargs : args i ≠ .none) (hopc : (info i).opc = opcOf w) (hf : fieldsAs i w = args i)
    (hz : fmtOkW i w = true) : encode i = [w] := by
  unfold fieldsAs fmtOkW at *
  unfold encode
  rw [hopc]
  cases ha : args i with
  | none => exact absurd ha hargs
  | r a =>
    obtain rfl : rOf w = a := by simpa only [ha, Args.r.injEq] using hf
    exact congrArg ([·]) (rWord_rOf w)
  | i a =>
    obtain rfl : iOf w = a := by simpa only [ha, Args.i.injEq] using hf
    exact congrArg ([·]) (iWord_iOf w)
  | m a =>
    obtain rfl : mOf w = a := by simpa only [ha, Args.m.injEq] using hf
    exact congrArg ([·]) (mWord_mOf w)
  | b a =>
    obtain rfl : bOf w = a := by simpa only [ha, Args.b.injEq] using hf
    simp only [ha, Bool.and_eq_true, beq_iff_eq] at hz
    exact congrArg ([·]) (bWord_bOf w hz.1 hz.2)
  | e a =>
    obtain rfl : eOf w = a := by simpa only [ha, Args.e.injEq] using hf
    simp only [ha, beq_iff_eq] at hz
    exact congrArg ([·]) (eWord_eOf w hz)

/-- The decoder gives back a well-formed instruction of a clause. -/
theorem decode_encode (i : Instr) (hwf : WellFormed i) (hevent : isEvent i = false) (hce : Rules.ceWord i = false) :
    ∃ w, encode i = [w] ∧ decode i.engClass w = .ok i := by
  have hargs := args_ne_none hevent hce
  obtain ⟨f, hf, hread⟩ := opMap_holds hevent (space_ne_word hce)
  obtain ⟨w, hw, hopc, hfields, hfmt⟩ := encode_fields i hargs
  refine ⟨w, hw, ?_⟩
  have hfw : f w = i := hread w hfields
  simp only [decode, hopc, hf, hfw, show i.wf = true from hwf, hfmt, Bool.and_self, if_true]

/-- What a word decodes to is well formed, and the word is its encoding. -/
theorem encode_of_decode {eng : BitVec 2} {w : DWord} {i : Instr} (h : decode eng w = .ok i) : WellFormed i ∧ encode i = [w] := by
  unfold decode at h
  split at h
  · cases h
  · next f hf =>
    split_ifs at h with hok
    cases h
    obtain ⟨hwf, hfmt⟩ := Bool.and_eq_true_iff.mp hok
    obtain ⟨hopc, hargs, hfields⟩ := opMap_reads hf w
    exact ⟨hwf, encode_of_fields hargs hopc hfields hfmt⟩

/-! ## Words of the copy engines -/

theorem bit1_getLsbD_zero (b : Bool) : (bit1 b).getLsbD 0 = b := by cases b <;> rfl

/-- A copy engine's decoder gives back a well-formed instruction from its one or two words. -/
theorem decodeCe_encode (i : Instr) (hwf : i.wf = true) (hce : Rules.ceWord i = true) :
    decodeCe ((encode i).getD 0 0) ((encode i).getD 1 0) = .ok i := by
  cases i
  any_goals exact Bool.noConfusion (hce : false = true)
  all_goals
    delta encode args
    dsimp only
    simp only [List.getD_cons_zero, List.getD_cons_succ, decodeCe, BitVec.extractLsb'_append_eq_of_le,
      BitVec.extractLsb'_append_eq_of_add_le, BitVec.extractLsb'_eq_self, BitVec.getLsbD_append,
      Nat.reduceLeDiff, Nat.reduceSub, Nat.zero_add, Nat.le_refl, bit1_getLsbD_zero]
    simp [hwf]

/-- Settles O53: encoding and decoding are inverse, since each map reads the fields of the format in which its instructions are
written, and a format's fields fill the word but for the zeros it asks for. -/
theorem encodingsAgree : Obligations.EncodingsAgree := by
  unfold Obligations.EncodingsAgree
  exact ⟨decode_encode, decodeCe_encode, fun _ _ _ => encode_of_decode⟩

/-- Settles O52: the decoder runs on the eight words. -/
theorem specWordsDecode : Obligations.SpecWordsDecode := by
  unfold Obligations.SpecWordsDecode
  decide +kernel

end Sys2Proof.Machine
end

section
/-! REP (R76 to R79): the repeat state of RPC. -/

namespace Sys2Proof.Machine
open Sys2Proof.Rules

/-- The repeat state that REP sets from its immediate (R79). -/
def repState (imm : Nat) : Word := BitVec.ofNat 32 (2 ^ 31 + imm / 64 % 16 * 2 ^ 12 + imm % 64)

/-- What REP makes of its warp (R76). -/
def setRep (imm : Nat) (w : Warp) : Warp := { w with rpc := repState imm }

/-- REP raises nothing where the next word may be repeated (R78), and its one effect comes after the warp has gone on. -/
theorem oRep_eq {x : Issue} {a : IArgs} (ha : x.a = .i a) (hfits : repFits x (a.imm.toNat / 64 % 16) (a.imm.toNat % 64)) :
    oRep x = { post := fun s => s.setWarp x.g.gid x.w.wid (setRep a.imm.toNat) } := by
  unfold oRep
  simp only [ha]
  rw [if_pos]
  · rfl
  · split
    · next w hw =>
      split
      · next f hf => exact hfits w f hw hf
      · rfl
    · rfl

/-- Settles O12: REP is a plain outcome without writes, after which the warp's RPC is set. -/
theorem repeatCompletes : Obligations.RepeatCompletes := by
  unfold Obligations.RepeatCompletes
  intro a s x prio _ h hfits
  have ho := oRep_eq (State.position_args h.pos) hfits
  have hclean : Clean x (oRep x) := by
    rw [ho]
    have hfree : Free x [] := ⟨fun _ _ _ _ hr => absurd hr List.not_mem_nil, .inl rfl⟩
    exact ⟨rfl, rfl, rfl, lawar_nil hfree (fun _ hr => hr), regBudget_nil hfree (fun _ hr => hr), fpx_none x _ rfl⟩
  have hnoP : ∀ w ∈ ({} : Out).writes, w.noP := fun _ hw => absurd hw List.not_mem_nil
  have honly := commitOut_plain h.pos prio (o := {}) rfl rfl rfl rfl rfl hnoP (fun g => g) (fun _ => rfl) (fun s => (State.setGroup_id s _).symm)
  obtain ⟨g, w, hg, hw, -⟩ := commitOut_plain_goes h.pos prio (o := {}) rfl rfl rfl rfl rfl hnoP (fun g => g) (fun _ => rfl) (fun _ => rfl)
    (fun s => (State.setGroup_id s _).symm)
  have hfsr : ({} : Out).fsr x = 0 := Out.fsr_none x _ rfl
  rw [hfsr, show ({} : Out).amax = [] from rfl, Group.commit_nothing] at honly
  refine ⟨_, g.setWarp x.w.wid (setRep a.imm.toNat), setRep a.imm.toNat w, runIssue_commit h hclean, ?_, ?_, ?_, rfl⟩
  · rw [ho]
    exact honly.sched (fun k => k.setWarp x.w.wid (setRep a.imm.toNat)) (fun _ => rfl)
  · rw [ho]
    exact (State.group_setGroup_self _ _ (fun k => k.setWarp x.w.wid (setRep a.imm.toNat)) (fun _ => rfl)).trans (congrArg _ hg)
  · exact (find_updWhere_self Warp.wid _ (setRep a.imm.toNat) (fun _ => rfl) _).trans (congrArg _ hw)

end Sys2Proof.Machine
end

section
/-! A step runs what it decodes (R54, R58, R83, R126, R282, R347): fetches do not see whose turn it is, and each kind of move is
performed as the instruction that its bytes decode to. -/

namespace Sys2Proof.Machine
open Sys2Proof.Rules

/-! ## What a fetch does not see -/

/-- `s` with other moves to come, and another warp or engine whose turn it is. -/
def State.turned (s : State) (ms : List Move) (r : Option WarpRef) (n : Option Nat) : State := { s with agenda := ms, issuer := r, engine := n }

section
variable (s : State) (ms : List Move) (r : Option WarpRef) (n : Option Nat)

@[simp] theorem State.turned_ctx (k : Nat) : (s.turned ms r n).ctx k = s.ctx k := rfl
@[simp] theorem State.turned_nodeId : (s.turned ms r n).nodeId = s.nodeId := rfl
@[simp] theorem State.turned_icHit (core line : Nat) : (s.turned ms r n).icHit core line = s.icHit core line := rfl
@[simp] theorem State.turned_lineSt (line : Nat) : (s.turned ms r n).lineSt line = s.lineSt line := rfl
@[simp] theorem State.turned_poisoned (pa k : Nat) : (s.turned ms r n).poisoned pa k = s.poisoned pa k := rfl
@[simp] theorem State.turned_rdByte (pa : Nat) : (s.turned ms r n).rdByte pa = s.rdByte pa := rfl
@[simp] theorem State.turned_rdBytes (pa k : Nat) : (s.turned ms r n).rdBytes pa k = s.rdBytes pa k := rfl
@[simp] theorem State.turned_byte (a : Agent) (pa : Nat) : a.byte (s.turned ms r n) pa = a.byte s pa := rfl
@[simp] theorem tlbFind_turned (core asid vpn : Nat) : tlbFind (s.turned ms r n) core asid vpn = tlbFind s core asid vpn := rfl
@[simp] theorem walkStart_turned (die asid vpn root : Nat) : walkStart (s.turned ms r n) die asid vpn root = walkStart s die asid vpn root := rfl
@[simp] theorem pteAt_turned (tab vpn k : Nat) : pteAt (s.turned ms r n) tab vpn k = pteAt s tab vpn k := rfl
@[simp] theorem pteBad_turned (e k vpn : Nat) : pteBad (s.turned ms r n) e k vpn = pteBad s e k vpn := rfl
@[simp] theorem recoverable_turned (ctx : Nat) (priv : Bool) (va : Nat) : recoverable (s.turned ms r n) ctx priv va = recoverable s ctx priv va := rfl

@[simp] theorem walk_turned (vpn k tab : Nat) : walk (s.turned ms r n) vpn k tab = walk s vpn k tab := by
  induction k generalizing tab with
  | zero =>
    simp only [walk, pteAt_turned, pteBad_turned]
    rfl
  | succ k ih => simp only [walk, pteAt_turned, pteBad_turned, ih]

@[simp] theorem gateOpen_turned (pa : Nat) (store : Bool) : gateOpen (s.turned ms r n) pa store = gateOpen s pa store := by
  have hregions : (s.turned ms r n).regions = s.regions := rfl
  have hregion : ∀ pa, (s.turned ms r n).regionAt pa = s.regionAt pa := fun _ => rfl
  have hsnooped : ∀ pa k, snooped (s.turned ms r n) pa k = snooped s pa k := fun _ _ => rfl
  have hiod : ∀ p c, iodRegions (s.turned ms r n) p c = iodRegions s p c := fun _ _ => rfl
  simp only [gateOpen, hregions, deviceGate, hregion, hsnooped, hiod]
  congr 1
  split
  · rfl
  · cases s.regionAt (pa / 128 * 128) with
    | none => rfl
    | some q => cases q.st <;> (repeat' split) <;> rfl

@[simp] theorem tenantTr_turned (p ta : Nat) : tenantTr (s.turned ms r n) p ta = tenantTr s p ta := by
  simp only [tenantTr, walk_turned]
  rfl

@[simp] theorem translate_turned (core ctx va : Nat) : translate (s.turned ms r n) core ctx va = translate s core ctx va := by
  simp only [translate, walk_turned, State.turned_ctx, tlbFind_turned, walkStart_turned]

@[simp] theorem accessTr_turned (core ctx : Nat) (k : AccK) (va : Nat) : accessTr (s.turned ms r n) core ctx k va = accessTr s core ctx k va := by
  simp only [accessTr, translate_turned, State.turned_ctx, State.turned_nodeId, tenantTr_turned]

@[simp] theorem fetchWord_turned (core ctx : Nat) (priv : Bool) (m : Mask) (va : DWord) :
    fetchWord (s.turned ms r n) core ctx priv m va = fetchWord s core ctx priv m va := by
  simp only [fetchWord, fetchVia, accessTr_turned, State.turned_icHit, State.turned_lineSt, State.turned_poisoned, State.turned_rdBytes, gateOpen_turned, recoverable_turned]
  rfl

@[simp] theorem clauseWord_turned (core ctx : Nat) (priv : Bool) (m : Mask) (cl : Clause) (h pc : DWord) :
    clauseWord (s.turned ms r n) core ctx priv m cl h pc = clauseWord s core ctx priv m cl h pc := by
  simp only [clauseWord, fetchWord_turned]

@[simp] theorem eBytes_turned (a : Agent) (va k : Nat) : eBytes (s.turned ms r n) a va k = eBytes s a va k := by
  have hbyte : ∀ va, eByte (s.turned ms r n) a va = eByte s a va := by
    intro va
    simp [eByte, eTr]
    rfl
  induction k generalizing va with
  | zero => rfl
  | succ k ih => simp only [eBytes, hbyte, ih]
end

/-! ## The moves of warps -/

/-- The next move of an agenda is its first. -/
theorem step_of_agenda {s : State} {m : Move} {rest : List Move} (h : s.agenda = m :: rest) : step s = perform m { s with agenda := rest } := by
  simp only [step, nextMove, h]

theorem step_issue {s : State} {r : WarpRef} {rest : List Move} {i : Instr} (hs : s.agenda = .issue r :: rest)
    (hport : ({ s with agenda := rest } : State).portAllows r = true)
    (hturn : warpTurn { s with agenda := rest, issuer := some r } r = .run i) :
    step s = exec i { s with agenda := rest, issuer := some r } := by
  rw [step_of_agenda hs]
  simp only [perform, hport, Bool.not_true, Bool.false_eq_true, if_false]
  exact (congrArg (fun u => match u with | Turn.run i => exec i { s with agenda := rest, issuer := some r } | .did t => .next t) hturn)

/-- A warp inside a clause runs the instruction at its program counter. -/
theorem step_clause_word {s : State} {r : WarpRef} {rest : List Move} {g : Group} {w : Warp} {e : Entry} {cl : Clause} {v : DWord} {i : Instr}
    (h : TurnOf s r rest g w e cl) (hport : ({ s with agenda := rest } : State).portAllows r = true)
    (hword : clauseWord s g.core g.ctx g.inPriv e.mask cl e.h e.pc = .word v) (hi : decode cl.eng v = .ok i) :
    step s = exec i { s with agenda := rest, issuer := some r } := by
  obtain ⟨hnext, hg, hw, ⟨es, hes⟩, hcl⟩ := h
  refine step_issue hnext hport ?_
  have hg' : ({ s with agenda := rest, issuer := some r } : State).group r.gid = some g := hg
  have hword' : clauseWord ({ s with agenda := rest, issuer := some r } : State) g.core g.ctx g.inPriv e.mask cl e.h e.pc = .word v :=
    (clauseWord_turned s rest (some r) s.engine g.core g.ctx g.inPriv e.mask cl e.h e.pc).trans hword
  simp only [warpTurn, hg', hw, hes, hcl, hword', hi]

/-- A warp at a clause head starts the clause, and takes no port. -/
theorem step_clause_head {s : State} {r : WarpRef} {rest : List Move} {g : Group} {w : Warp} {e : Entry} {es : List Entry}
    (hnext : s.agenda = .issue r :: rest) (hg : s.group r.gid = some g) (hw : g.warp r.wid = some w) (hes : w.entries = e :: es)
    (hcl : e.cl = none) : step s = exec (.clauseStart r.gid r.wid) { s with agenda := rest, issuer := some r } := by
  have hg' : ∀ q, ({ s with agenda := rest, issuer := q } : State).group r.gid = some g := fun _ => hg
  refine step_issue hnext ?_ ?_
  · simp only [State.portAllows, show ({ s with agenda := rest } : State).group r.gid = some g from hg, hw, Warp.first, hes, List.head?_cons, hcl,
      Option.isNone_none, Bool.true_or]
  · simp only [warpTurn, hg', hw, hes, hcl]

/-! ## Records at a place of a list -/

theorem getD_modAt {α : Type} (f : α → α) (k j : Nat) (l : List α) (d : α) :
    (modAt f k l).getD j d = if j = k ∧ k < l.length then f (l.getD k d) else l.getD j d := by
  induction l generalizing k j with
  | nil => simp [modAt]
  | cons x r ih =>
    cases k with
    | zero => cases j <;> simp [modAt]
    | succ k =>
      cases j with
      | zero => simp [modAt]
      | succ j => simpa [modAt] using ih k j

theorem modAt_eq_self {α : Type} {f : α → α} {k : Nat} {l : List α} (d : α) (h : f (l.getD k d) = l.getD k d) : modAt f k l = l := by
  induction l generalizing k with
  | nil => exact modAt.eq_1 ..
  | cons x r ih =>
    cases k with
    | zero => exact congrArg (· :: r) h
    | succ k => exact congrArg (x :: ·) (ih h)

/-! ## The moves of engines -/

theorem State.setCe_ce (s : State) (k : Nat) (f : CopyEngine → CopyEngine) (j : Nat) :
    (s.setCe k f).ce j = if j = k ∧ k < s.ces.length then f (s.ce k) else s.ce j :=
  getD_modAt f k j s.ces {}

/-- What an engine has fetched ahead and may still use (R347). -/
def CopyEngine.near (c : CopyEngine) : CopyEngine :=
  { c with ahead := c.ahead.filter (fun w => decide (c.pc.toNat ≤ w.1) && decide (w.1 ≤ c.pc.toNat + 64)) }

theorem CopyEngine.near_ahead {c : CopyEngine} {w : Nat × DWord} (h : w ∈ c.near.ahead) : c.near.pc.toNat ≤ w.1 ∧ w.1 ≤ c.near.pc.toNat + 64 := by
  have hnear : (decide (c.pc.toNat ≤ w.1) && decide (w.1 ≤ c.pc.toNat + 64)) = true := (List.mem_filter.mp h).2
  rw [Bool.and_eq_true, decide_eq_true_eq, decide_eq_true_eq] at hnear
  exact hnear

theorem State.ceTrim_ce (s : State) (k : Nat) : (s.ceTrim k).ce k = (s.ce k).near := by
  refine (State.setCe_ce s k CopyEngine.near k).trans ?_
  split
  · rfl
  · next hk =>
    have hout : s.ce k = {} := List.getD_eq_default _ _ (by simpa using hk)
    rw [hout]
    rfl

theorem CopyEngine.near_of_empty {c : CopyEngine} (h : c.ahead = []) : c.near = c := by
  cases c
  cases h
  rfl

/-- An engine that has fetched nothing ahead has nothing to drop. -/
theorem State.ceTrim_of_empty {s : State} {k : Nat} (h : (s.ce k).ahead = []) : s.ceTrim k = s := by
  have hces : modAt CopyEngine.near k s.ces = s.ces := modAt_eq_self {} (CopyEngine.near_of_empty h)
  exact congrArg (fun l => { s with ces := l }) hces

/-- The word of an engine is read in memory where it was not fetched ahead. -/
theorem ceWordAt_of_empty {s : State} {k va : Nat} {b : List Byte} (h : (s.ce k).ahead = []) (hb : eBytes s (ceAgent s k 0 0) va 8 = .ok b) :
    ceWordAt s k va = .ok (BitVec.ofNat 64 (leNat b)) := by
  unfold ceWordAt
  simp only [h, List.find?_nil, hb]
  rfl

/-- An engine performs the word that it reads, with the word after it where that is an index record's. -/
theorem step_engine {s : State} {die k : Nat} {rest : List Move} {i : Instr} (hnext : s.agenda = .engine die k :: rest)
    (hi : ceFetch (({ s with agenda := rest, engine := some (8 * die + k) } : State).ceTrim (8 * die + k)) (8 * die + k) = .word i) :
    step s = exec i (({ s with agenda := rest, engine := some (8 * die + k) } : State).ceTrim (8 * die + k)) := by
  rw [step_of_agenda hnext]
  simp only [perform, hi]

/-- An engine that has fetched nothing ahead performs the word that memory holds at its PC, with the word after it where that is an
index record's (R83, R347). -/
theorem step_engine_word {s : State} {die k : Nat} {rest : List Move} {i : Instr} {b b2 : List Byte} (hnext : s.agenda = .engine die k :: rest)
    (hrun : ceIdleRun (s.ce (8 * die + k)) = true) (hahead : (s.ce (8 * die + k)).ahead = [])
    (hb : eBytes ({ s with agenda := rest, engine := some (8 * die + k) } : State) (ceAgent s (8 * die + k) 0 0) (s.ce (8 * die + k)).pc.toNat 8 = .ok b)
    (hb2 : if (BitVec.ofNat 64 (leNat b)).extractLsb' 59 5 = 1#5 then
        eBytes ({ s with agenda := rest, engine := some (8 * die + k) } : State) (ceAgent s (8 * die + k) 0 0) ((s.ce (8 * die + k)).pc.toNat + 8) 8 = .ok b2
      else b2 = [])
    (hi : decodeCe (BitVec.ofNat 64 (leNat b)) (BitVec.ofNat 64 (leNat b2)) = .ok i) :
    step s = exec i { s with agenda := rest, engine := some (8 * die + k) } := by
  generalize hu : ({ s with agenda := rest, engine := some (8 * die + k) } : State) = u at hb hb2 ⊢
  have hce : u.ce (8 * die + k) = s.ce (8 * die + k) := by rw [← hu]; rfl
  have hagent : ceAgent u (8 * die + k) 0 0 = ceAgent s (8 * die + k) 0 0 := by rw [← hu]; rfl
  have htrim : u.ceTrim (8 * die + k) = u := State.ceTrim_of_empty (by rw [hce, hahead])
  have hword : ∀ {va b}, eBytes u (ceAgent s (8 * die + k) 0 0) va 8 = .ok b → ceWordAt u (8 * die + k) va = .ok (BitVec.ofNat 64 (leNat b)) :=
    fun h => ceWordAt_of_empty (by rw [hce, hahead]) (by rw [hagent]; exact h)
  have hfetch : ceFetch (u.ceTrim (8 * die + k)) (8 * die + k) = .word i := by
    rw [htrim]
    unfold ceFetch
    simp only [hce, hrun, Bool.not_true, Bool.false_eq_true, if_false, hword hb]
    split_ifs at hb2 ⊢ with hidx
    · simp only [hword hb2, hi]
    · subst hb2
      simp only [show (0 : DWord) = BitVec.ofNat 64 (leNat []) from rfl, hi]
  rw [← htrim, ← hu]
  exact step_engine hnext (by rw [hu]; exact hfetch)

/-- `t` is `s` after engine `n` may have fetched a word ahead: what it newly holds lies within 64 bytes after the word it performs, and is
what memory holds there (R347). -/
def FetchedAhead (s : State) (n : Nat) (t : State) : Prop :=
  ∃ l, t = { s with ces := t.ces } ∧ t.ce n = { s.ce n with ahead := l } ∧
    (∀ w ∈ l, w ∈ (s.ce n).ahead ∨ (s.ce n).pc.toNat < w.1 ∧ w.1 ≤ (s.ce n).pc.toNat + 64 ∧
      ∃ b, eBytes s (ceAgent s n 0 0) w.1 8 = .ok b ∧ w.2 = BitVec.ofNat 64 (leNat b)) ∧
    ∀ i, i ≠ n → t.ce i = s.ce i

theorem FetchedAhead.refl (s : State) (n : Nat) : FetchedAhead s n s :=
  ⟨(s.ce n).ahead, rfl, rfl, fun _ hw => .inl hw, fun _ _ => rfl⟩

theorem State.ceAhead_fetchedAhead (s : State) (n j : Nat) : FetchedAhead s n (s.ceAhead n j) := by
  unfold State.ceAhead
  extract_lets c va
  split
  · exact .refl s n
  · next hrun =>
    split
    · next b hb =>
      have hin : n < s.ces.length := by
        by_contra hout
        have hidle : c = {} := List.getD_eq_default _ _ (by omega)
        rw [hidle] at hrun
        exact hrun rfl
      refine ⟨_, rfl, (State.setCe_ce ..).trans (if_pos ⟨rfl, hin⟩), fun w hw => ?_, fun i hi => (State.setCe_ce ..).trans (if_neg fun h => hi h.1)⟩
      rcases List.mem_cons.mp hw with rfl | hw
      · have hlow : c.pc.toNat < va := by omega
        have hhigh : va ≤ c.pc.toNat + 64 := by omega
        exact .inr ⟨hlow, hhigh, b, hb, rfl⟩
      · exact .inl (List.mem_filter.mp hw).1
    · exact .refl s n

/-- An engine's fetch ahead does not see which moves are still to come. -/
theorem step_ahead {s : State} {rest : List Move} {die k j : Nat} (hnext : s.agenda = .ahead die k j :: rest) :
    ∃ t l, step s = .next t ∧ t = { s with agenda := rest, ces := t.ces } ∧ t.ce (8 * die + k) = { s.ce (8 * die + k) with ahead := l } ∧
      (∀ w ∈ l, w ∈ (s.ce (8 * die + k)).ahead ∨ (s.ce (8 * die + k)).pc.toNat < w.1 ∧ w.1 ≤ (s.ce (8 * die + k)).pc.toNat + 64 ∧
        ∃ b, eBytes { s with agenda := rest } (ceAgent s (8 * die + k) 0 0) w.1 8 = .ok b ∧ w.2 = BitVec.ofNat 64 (leNat b)) ∧
      ∀ i, i ≠ 8 * die + k → t.ce i = s.ce i := by
  obtain ⟨l, hstate, hce, hahead, hothers⟩ := State.ceAhead_fetchedAhead { s with agenda := rest } (8 * die + k) j
  exact ⟨_, l, step_of_agenda hnext, hstate, hce, hahead, hothers⟩

/-! ## Flits sent again -/

theorem State.setLink_getD (s : State) (j k : Nat) (f : Link → Link) :
    (s.setLink j f).links.getD k {} = if k = j ∧ j < s.links.length then f (s.links.getD j {}) else s.links.getD k {} :=
  getD_modAt f j k s.links {}

/-- A link that is up counts the flit, and one that is down sends none (R403). -/
theorem step_retried {s : State} {rest : List Move} {j : Nat} (hnext : s.agenda = .retried j :: rest) (hj : j < s.links.length) :
    ((s.links.getD j {}).width ≠ 0 → ∃ t, step s = .next t ∧ t = { s with agenda := rest, links := t.links } ∧
      t.links.getD j {} = { s.links.getD j {} with retry := min 65535 ((s.links.getD j {}).retry + 1) } ∧
      ∀ k, k ≠ j → t.links.getD k {} = s.links.getD k {}) ∧
    ((s.links.getD j {}).width = 0 → step s = .next { s with agenda := rest }) := by
  have hstep : step s = .next (({ s with agenda := rest } : State).retried j) := step_of_agenda hnext
  unfold State.retried at hstep
  refine ⟨fun hup => ?_, fun hdown => ?_⟩
  · rw [if_neg hup] at hstep
    exact ⟨_, hstep, rfl, (State.setLink_getD ..).trans (if_pos ⟨rfl, hj⟩), fun k hk => (State.setLink_getD ..).trans (if_neg fun h => hk h.1)⟩
  · rw [if_pos hdown] at hstep
    exact hstep

/-! ## Replacements -/

theorem findD_eq_getD_find? {α : Type} (d : α) (p : α → Bool) (l : List α) : findD d p l = (l.find? p).getD d := by
  induction l with
  | nil => rfl
  | cons x r ih => cases hx : p x <;> simp [findD, hx, ih]

/-- Changing a line changes the home state of that line alone. -/
theorem State.setLine_lineSt (s : State) (line : Nat) (f : Line → Line) (hf : ∀ l, (f l).line = l.line) (k : Nat) :
    (s.setLine line f).lineSt k = if k = line then f (s.lineSt line) else s.lineSt k := by
  unfold State.setLine State.lineSt
  simp only [findD_eq_getD_find?]
  split
  · next hany =>
    split
    · next hk =>
      subst hk
      rw [find_updWhere_self Line.line k f hf]
      obtain ⟨l, hl⟩ := Option.isSome_iff_exists.mp (List.find?_isSome.mpr (List.any_eq_true.mp hany))
      simp [hl]
    · next hk => rw [find_updWhere_ne Line.line line k f hf hk]
  · next hany =>
    have hnone : s.lines.find? (fun l => l.line == line) = none := List.find?_eq_none.mpr (by simpa using hany)
    rw [List.find?_append]
    split
    · next hk =>
      subst hk
      simp [hnone, hf]
    · next hk => simp [hf, Ne.symm hk]

/-- Writing a line back charges a context, and no more. -/
theorem State.writeBack_contexts (s : State) (l : Line) : s.writeBack l = { s with contexts := (s.writeBack l).contexts } := by
  unfold State.writeBack
  split <;> rfl

/-- The home state of a line that its slice does not hold any more. -/
def Line.dropped (l : Line) : Line := { l with inL2 := false, dirty := false, old := [], hw := 0, clusters := 0, dieBits := 0, rcnt := 0 }

/-- A dropped line is held no longer (R274). -/
theorem State.dropLine_lineSt (s : State) (line k : Nat) :
    (s.dropLine line).lineSt k = if k = line then (s.lineSt line).dropped else s.lineSt k :=
  State.setLine_lineSt _ line Line.dropped (fun _ => rfl) k

theorem State.setLine_frame (s : State) (line : Nat) (f : Line → Line) : s.setLine line f = { s with lines := (s.setLine line f).lines } := by
  unfold State.setLine
  split <;> rfl

theorem State.dropLine_eh (s : State) (line : Nat) (h : s.bw < (s.lineSt line).hw) :
    Amap.get 0 (s.dropLine line).eh (sliceKey line) = max (Amap.get 0 s.eh (sliceKey line)) (s.lineSt line).hw := by
  unfold State.dropLine
  extract_lets l cov k
  rw [State.setLine_frame, if_pos h]
  exact Amap.get_set_self ..

/-- Copies only go with a dropped line, and nothing else changes but its slice. -/
theorem State.dropLine_frame (s : State) (line : Nat) : s.dropLine line =
      { s with l1 := (s.dropLine line).l1, icache := (s.dropLine line).icache, eh := (s.dropLine line).eh, lines := (s.dropLine line).lines } ∧
    (∀ q ∈ (s.dropLine line).l1, q ∈ s.l1) ∧ ∀ q ∈ (s.dropLine line).icache, q ∈ s.icache := by
  unfold State.dropLine
  extract_lets l cov k
  rw [State.setLine_frame]
  exact ⟨rfl, fun _ h => (List.mem_filter.mp h).1, fun _ h => (List.mem_filter.mp h).1⟩

/-- `t` is `s` after an entry of cache `c` may have been replaced: copies and translations only go, and lines stand but in L2 (R273, R274). -/
structure Replaced (s : State) (c : Cached) (t : State) : Prop where
  frame : t = { s with l1 := t.l1, icache := t.icache, tlb := t.tlb, walkc := t.walkc, lines := t.lines, eh := t.eh, contexts := t.contexts }
  l1 : ∀ e ∈ t.l1, e ∈ s.l1
  icache : ∀ e ∈ t.icache, e ∈ s.icache
  tlb : ∀ e ∈ t.tlb, e ∈ s.tlb
  walkc : ∀ e ∈ t.walkc, e ∈ s.walkc
  lines : c ≠ .l2 → t.lines = s.lines ∧ t.contexts = s.contexts

theorem Replaced.refl (s : State) (c : Cached) : Replaced s c s :=
  ⟨rfl, fun _ h => h, fun _ h => h, fun _ h => h, fun _ h => h, fun _ => ⟨rfl, rfl⟩⟩

theorem State.evicted_replaced (s : State) (l : Line) : Replaced s .l2 ((s.writeBack l).dropLine l.line) := by
  have hcharge := State.writeBack_contexts s l
  obtain ⟨hdrop, hl1, hic⟩ := State.dropLine_frame (s.writeBack l) l.line
  generalize (s.writeBack l).dropLine l.line = t at hdrop hl1 hic ⊢
  rw [hcharge] at hdrop hl1 hic
  rw [hdrop]
  exact ⟨rfl, hl1, hic, fun _ h => h, fun _ h => h, fun h => absurd rfl h⟩

theorem State.replace_replaced (s : State) (c : Cached) (i : Nat) : Replaced s c (s.replace c i) := by
  cases c with
  | l1 =>
    simp only [State.replace]
    split_ifs
    · exact ⟨rfl, fun _ h => List.mem_of_mem_eraseIdx h, fun _ h => h, fun _ h => h, fun _ h => h, fun _ => ⟨rfl, rfl⟩⟩
    · exact .refl s _
  | icache => exact ⟨rfl, fun _ h => h, fun _ h => List.mem_of_mem_eraseIdx h, fun _ h => h, fun _ h => h, fun _ => ⟨rfl, rfl⟩⟩
  | tlb => exact ⟨rfl, fun _ h => h, fun _ h => h, fun _ h => List.mem_of_mem_eraseIdx h, fun _ h => h, fun _ => ⟨rfl, rfl⟩⟩
  | walk => exact ⟨rfl, fun _ h => h, fun _ h => h, fun _ h => h, fun _ h => List.mem_of_mem_eraseIdx h, fun _ => ⟨rfl, rfl⟩⟩
  | l2 =>
    simp only [State.replace]
    split
    · exact .refl s _
    · split_ifs
      · exact .refl s _
      · exact State.evicted_replaced s _

/-- A slice evicts a line that it holds and no core pins (R193), and keeps its lease (R274). -/
theorem State.replace_l2 {s : State} {i : Nat} {l : Line} (hl : s.lines[i % s.lines.length]? = some l) (hin : l.inL2 = true) :
    ((∃ p ∈ s.pins, p.line = l.line) → (s.replace .l2 i).lines = s.lines) ∧
    ((∀ p ∈ s.pins, p.line ≠ l.line) → s.replace .l2 i = (s.writeBack l).dropLine l.line) := by
  refine ⟨fun ⟨p, hp, hline⟩ => ?_, fun hfree => ?_⟩
  · have hpin : s.pinned l.line = true := List.any_eq_true.mpr ⟨p, hp, beq_iff_eq.mpr hline⟩
    simp only [State.replace, hl, hin, hpin, Bool.not_true, Bool.or_true, if_true]
  · have hpin : s.pinned l.line = false := List.any_eq_false.mpr fun p hp => by simpa using hfree p hp
    simp only [State.replace, hl, hin, hpin, Bool.not_true, Bool.or_false, Bool.false_eq_true, if_false]

theorem step_replace {s : State} {c : Cached} {i : Nat} {rest : List Move} (hnext : s.agenda = .replace c i :: rest) : ∃ t, step s = .next t ∧
    t = { s with agenda := rest, l1 := t.l1, icache := t.icache, tlb := t.tlb, walkc := t.walkc, lines := t.lines, eh := t.eh, contexts := t.contexts } ∧
    (∀ e ∈ t.l1, e ∈ s.l1) ∧ (∀ e ∈ t.icache, e ∈ s.icache) ∧ (∀ e ∈ t.tlb, e ∈ s.tlb) ∧ (∀ e ∈ t.walkc, e ∈ s.walkc) ∧ (c ≠ .l2 → t.lines = s.lines ∧ t.contexts = s.contexts) ∧
    ∀ l, c = .l2 → s.lines[i % s.lines.length]? = some l → l.inL2 = true →
      ((∃ p ∈ s.pins, p.line = l.line) → t.lines = s.lines) ∧
      ((∀ p ∈ s.pins, p.line ≠ l.line) → (t.lineSt l.line).inL2 = false ∧ (t.lineSt l.line).hw = 0 ∧ (∀ k, k ≠ l.line → t.lineSt k = s.lineSt k) ∧
        (s.bw < (s.lineSt l.line).hw → Amap.get 0 t.eh (sliceKey l.line) = max (Amap.get 0 s.eh (sliceKey l.line)) (s.lineSt l.line).hw)) := by
  obtain ⟨hframe, hl1, hic, htlb, hwalk, hlines⟩ := State.replace_replaced { s with agenda := rest } c i
  refine ⟨_, step_of_agenda hnext, hframe, hl1, hic, htlb, hwalk, hlines, fun l hc hl hin => ?_⟩
  subst hc
  obtain ⟨hpinned, hfree⟩ := State.replace_l2 (s := { s with agenda := rest }) hl hin
  refine ⟨hpinned, fun hno => ?_⟩
  have hst := State.dropLine_lineSt (({ s with agenda := rest } : State).writeBack l) l.line
  have heh := State.dropLine_eh (({ s with agenda := rest } : State).writeBack l) l.line
  rw [hfree hno]
  rw [State.writeBack_contexts] at hst heh ⊢
  refine ⟨?_, ?_, fun k hk => (hst k).trans (if_neg hk), heh⟩
  · rw [hst, if_pos rfl]
    rfl
  · rw [hst, if_pos rfl]
    rfl

/-! ## A clause's words -/

/-- The words that a fetch gives stand 8 bytes apart in memory (R54). -/
theorem fetchWords_words {s : State} {g : Group} {m : Mask} {n : Nat} {va h : DWord} {ws : List DWord} (hf : fetchWords s g m va n = .words h ws) :
    ws.length = n ∧ ∀ k, k < ws.length → fetchWord s g.core g.ctx g.inPriv m (va + BitVec.ofNat 64 (8 * k)) = .word (ws.getD k 0) := by
  induction n generalizing va h ws with
  | zero =>
    simp only [fetchWords, ClauseR.words.injEq] at hf
    obtain ⟨-, rfl⟩ := hf
    exact ⟨rfl, fun k hk => absurd hk (Nat.not_lt_zero k)⟩
  | succ n ih =>
    rw [fetchWords] at hf
    cases hword : fetchWord s g.core g.ctx g.inPriv m va with
    | trap c => simp [hword] at hf
    | absent lv a => simp [hword] at hf
    | word w =>
      cases hrest : fetchWords s g m (va + 8) n with
      | trap c => simp only [hword, hrest, reduceCtorEq] at hf
      | absent lv a => simp only [hword, hrest, reduceCtorEq] at hf
      | words h' ws' =>
        simp only [hword, hrest, ClauseR.words.injEq] at hf
        obtain ⟨-, rfl⟩ := hf
        obtain ⟨hlen, hat⟩ := ih hrest
        refine ⟨congrArg Nat.succ hlen, fun k hk => ?_⟩
        cases k with
        | zero => simpa using hword
        | succ k =>
          have hva : va + BitVec.ofNat 64 (8 * (k + 1)) = va + 8 + BitVec.ofNat 64 (8 * k) := by
            rw [Nat.mul_succ, Nat.add_comm, BitVec.ofNat_add, BitVec.add_assoc]
            rfl
          rw [hva]
          exact hat k (Nat.lt_of_succ_lt_succ hk)

/-- A clause's words are its header's and those after it (R54, R282). -/
theorem fetchClause_words {s : State} {g : Group} {e : Entry} {h : DWord} {ws : List DWord} (hf : fetchClause s g e = .words h ws) (hmark : hdrMark h = true) :
    fetchWord s g.core g.ctx g.inPriv e.mask e.h = .word h ∧ ∃ h0, fetchWords s g e.mask (e.h + 8) (hdrCnt h + 1) = .words h0 ws := by
  rw [fetchClause] at hf
  cases hword : fetchWord s g.core g.ctx g.inPriv e.mask e.h with
  | trap c => simp [hword] at hf
  | absent lv a => simp [hword] at hf
  | word h' =>
    simp only [hword] at hf
    split at hf
    · next hno =>
      obtain ⟨rfl, -⟩ := ClauseR.words.inj hf
      simp [hmark] at hno
    · split at hf
      · next h0 ws' hws =>
        obtain ⟨rfl, rfl⟩ := ClauseR.words.inj hf
        exact ⟨rfl, h0, hws⟩
      · next hnone =>
        exact absurd hf (hnone h ws)

theorem clauseWords : ClauseWords := by
  intro s g e h ws hf hmark
  obtain ⟨hhead, h0, hws⟩ := fetchClause_words hf hmark
  obtain ⟨hlen, hat⟩ := fetchWords_words hws
  exact ⟨hhead, hlen, hat⟩

/-- Settles O51: the next move of the agenda is performed, and what it performs is what a fetch decodes. -/
theorem stepRunsDecoded : Obligations.StepRunsDecoded := by
  refine ⟨⟨?_, ?_, ?_, ?_, ?_, ?_, ?_, ?_, ?_⟩, clauseWords⟩
  · intro s r rest g w e cl v i hturn hport hword hi
    exact step_clause_word hturn hport hword hi
  · intro s r rest g w e es hnext hg hw hes hcl
    exact step_clause_head hnext hg hw hes hcl
  · intro s die k rest i b b2 hnext n s' c hrun hahead hb hb2 hi
    exact step_engine_word hnext hrun hahead hb hb2 hi
  · intro s die k rest i hnext s'
    refine ⟨fun w hw => ?_, fun hi => step_engine hnext hi⟩
    rw [State.ceTrim_ce] at hw ⊢
    exact CopyEngine.near_ahead hw
  · intro s rest die k j hnext c
    exact step_ahead hnext
  · intro s rest i hnext hi
    rw [step_of_agenda hnext]
    simp only [perform, hi, if_true]
  · intro s rest core u i hnext
    exact step_of_agenda hnext
  · intro s rest j hnext hj l
    exact step_retried hnext hj
  · intro s c i rest hnext
    exact step_replace hnext

end Sys2Proof.Machine
end

section
/-! What comes back (R73, R215, R255, R274, R432): acknowledgements of invalidations, GWCTs of stores, results whose window has closed, and
accesses to the scratchpads of other teams. -/

namespace Sys2Proof.Machine
open Sys2Proof.Rules

/-! ## Records found by their key -/

theorem updWhere_congr {α : Type} {p : α → Bool} {f f' : α → α} {l : List α} (h : ∀ x, p x = true → f x = f' x) :
    updWhere p f l = updWhere p f' l := by
  refine List.map_congr_left fun x _ => ?_
  split
  · next hx => exact h x hx
  · rfl

theorem State.req_rid {s : State} {rid : Nat} {r : Req} (h : s.req rid = some r) : r.rid = rid :=
  beq_iff_eq.mp (List.find?_some (p := fun r : Req => r.rid == rid) h)

theorem State.req_setReq (s : State) (rid : Nat) (f : Req → Req) (hf : ∀ q, (f q).rid = q.rid) : (s.setReq rid f).req rid = (s.req rid).map f :=
  find_updWhere_self Req.rid rid f hf s.reqs

theorem State.req_dropReq (s : State) (rid : Nat) : (s.dropReq rid).req rid = none :=
  List.find?_eq_none.mpr fun q hq => by simpa using (List.mem_filter.mp hq).2

theorem team_found {s : State} {tid : Nat} (h : HasTeam s tid) : ∃ t, s.teams.find? (fun t => t.tid == tid) = some t ∧ t.tid = tid := by
  obtain ⟨u, hu, hid⟩ := h
  obtain ⟨t, ht⟩ := Option.isSome_iff_exists.mp ((List.find?_isSome (p := fun t : Team => t.tid == tid)).mpr ⟨u, hu, beq_iff_eq.mpr hid⟩)
  exact ⟨t, ht, beq_iff_eq.mp (List.find?_some (p := fun t : Team => t.tid == tid) ht)⟩

theorem team_tid {s : State} {tid : Nat} (h : HasTeam s tid) : (s.team tid).tid = tid := by
  obtain ⟨t, ht, hid⟩ := team_found h
  rw [State.team, findD_eq_getD_find?, ht]
  exact hid

/-- A team is changed by what changes it and keeps its number. -/
theorem State.setTeam_team (s : State) (tid : Nat) (f : Team → Team) (hf : ∀ t, t.tid = tid → (f t).tid = tid) (h : HasTeam s tid) (k : Nat) :
    (s.setTeam tid f).team k = if k = tid then f (s.team tid) else s.team k := by
  let f' (t : Team) : Team := if t.tid = tid then f t else t
  have hf' : ∀ t, (f' t).tid = t.tid := by
    intro t
    by_cases ht : t.tid = tid
    · rw [show f' t = f t from if_pos ht, hf t ht, ht]
    · rw [show f' t = t from if_neg ht]
  have hsame : updWhere (fun t => t.tid == tid) f s.teams = updWhere (fun t => t.tid == tid) f' s.teams :=
    updWhere_congr fun t ht => (if_pos (beq_iff_eq.mp ht)).symm
  unfold State.setTeam State.team
  simp only [findD_eq_getD_find?, hsame]
  split
  · next hk =>
    subst hk
    obtain ⟨t, ht, hid⟩ := team_found h
    rw [find_updWhere_self Team.tid k f' hf', ht]
    exact if_pos hid
  · next hk => rw [find_updWhere_ne Team.tid tid k f' hf' hk]

/-! ## A request that has its parts -/

/-- A request waits while a part of it is not done, and one that answers no register waits for its end. -/
theorem State.settle_waits {s : State} {rid : Nat} {r : Req} (hr : s.req rid = some r) (hw : r.kind.answers = false ∨ ∃ p ∈ r.parts, p.done = false) :
    s.settle rid = s := by
  have hcond : (!r.kind.answers || !r.parts.all (fun p => p.done)) = true := by
    rcases hw with hw | ⟨p, hp, hdone⟩
    · rw [hw]; rfl
    · have hall : r.parts.all (fun p => p.done) = false := List.all_eq_false.mpr ⟨p, hp, by simp [hdone]⟩
      rw [hall]; simp
  unfold State.settle
  rw [hr]
  exact if_pos hcond

/-- What the group takes from request `r` as it ends, beside its result (R215, R218). -/
def Req.joins (r : Req) (g : Group) : Group :=
  let g := if r.kind = .load then g else g.joinGw (r.parts.foldl (fun m p => max m p.gwct) 0)
  if r.acq then { g with floor := max g.floor r.wt } else g

theorem Req.joins_frame (r : Req) (g : Group) : r.joins g = { g with gw := (r.joins g).gw, floor := (r.joins g).floor } := by
  unfold Req.joins
  extract_lets g'
  have hg' : g' = { g with gw := g'.gw } := by
    by_cases hk : r.kind = .load
    · rw [show g' = g from if_pos hk]
    · rw [show g' = g.joinGw _ from if_neg hk]; rfl
  split <;> rw [hg']

/-- A warp whose pending results of request `r` are ready, with what the request brought. -/
def Req.answer (r : Req) (width : Nat) (w : Warp) : Warp :=
  { w with pend := w.pend.map (fun p =>
      if p.rid = r.rid then { p with ready := true, writes := (r.writes width).map (RegWrite.restrict p.lanes) } else p) }

/-- A request whose parts are done is in flight no more, and its result is ready in its warp (R215, R217). -/
theorem State.settle_ready {s : State} {rid : Nat} {r : Req} (hr : s.req rid = some r) (ha : r.kind.answers = true) (hd : ∀ p ∈ r.parts, p.done = true) :
    (s.settle rid).req rid = none ∧
      ∀ g, s.group r.gid = some g → (s.settle rid).group r.gid = some (r.joins { g with warps := g.warps.map (r.answer g.width) }) := by
  have hcond : ¬ (!r.kind.answers || !r.parts.all (fun p => p.done)) = true := by
    rw [ha, List.all_eq_true.mpr hd]; simp
  have hsettle := State.settle.eq_1 s rid
  rw [hr] at hsettle
  replace hsettle := hsettle.trans (if_neg hcond)
  rw [hsettle]
  refine ⟨State.req_dropReq _ _, fun g hg => ?_⟩
  rw [hg]
  refine (State.group_setGroup_self _ r.gid r.joins fun g => by rw [Req.joins_frame]).trans ?_
  refine (congrArg (Option.map r.joins) (State.group_setGroup_self s r.gid (fun g' => { g' with warps := g'.warps.map (r.answer g.width) }) fun _ => rfl)).trans ?_
  rw [hg]
  rfl

/-- What a settled request leaves is the rest of the machine. -/
theorem State.settle_frame (s : State) (rid : Nat) : s.settle rid = { s with groups := (s.settle rid).groups, reqs := (s.settle rid).reqs } := by
  unfold State.settle
  split
  · rfl
  · extract_lets answers
    split
    · rfl
    · rfl

/-- A part has been performed in state `t`, and the request settles: it answers as `Answered` says. -/
theorem answered_settle {s t : State} {r q : Req} {i : Nat} {vals : List (Nat × Nat)} (hgroup : t.group r.gid = s.group r.gid)
    (hreq : t.req r.rid = some q) (hq : q = { r with vals := r.vals ++ vals, parts := q.parts })
    (hpart : ∃ z, q.parts[i]? = some z ∧ z.performed = true ∧ z.done = true) (hothers : ∀ j, j ≠ i → q.parts[j]? = r.parts[j]?) :
    Answered s (t.settle r.rid) r i vals := by
  obtain ⟨z, hz, hperf, hdone⟩ := hpart
  have hkind : q.kind = r.kind := by rw [hq]
  refine ⟨fun hwaits => ?_, fun ha hall => ?_⟩
  · have hw : q.kind.answers = false ∨ ∃ p ∈ q.parts, p.done = false := by
      rcases hwaits with ⟨j, p, hp, hj, hopen⟩ | hno
      · exact .inr ⟨p, List.mem_of_getElem? ((hothers j hj).trans hp), hopen⟩
      · exact .inl (hkind ▸ hno)
    rw [State.settle_waits hreq hw]
    exact ⟨q, z, hreq, by rw [hq], by rw [hq], hz, hperf⟩
  · have hd : ∀ p ∈ q.parts, p.done = true := by
      intro p hp
      obtain ⟨j, hj⟩ := List.mem_iff_getElem?.mp hp
      by_cases hi : j = i
      · rw [hi, hz] at hj
        exact Option.some.inj hj ▸ hdone
      · exact hall j p ((hothers j hi).symm.trans hj) hi
    obtain ⟨hnone, hready⟩ := State.settle_ready hreq (hkind ▸ ha) hd
    refine ⟨hnone, fun g w p hg hw hp hrid => ?_⟩
    have hgid : q.gid = r.gid := by rw [hq]
    have hqrid : q.rid = r.rid := by rw [hq]
    have hgq := hready g (by rw [hgid, hgroup]; exact hg)
    rw [hgid] at hgq
    refine ⟨_, q.answer g.width w, { p with ready := true, writes := (q.writes g.width).map (RegWrite.restrict p.lanes) }, hgq, ?_, ?_, hrid, rfl, rfl, ?_⟩
    · rw [Req.joins_frame]
      exact List.mem_map_of_mem hw
    · exact List.mem_map.mpr ⟨p, hp, if_pos (hqrid ▸ hrid)⟩
    · rw [hq]
      rfl

/-! ## Invalidations -/

/-- The acknowledgement of an invalidation joins the parts of a line (R275). -/
def Req.acked (line now : Nat) (r : Req) : Req :=
  { r with parts := r.parts.map (fun p => if p.line = line then { p with done := true, gwct := max p.gwct now } else p) }

/-- A state whose copies that invalidation `v` covers are gone, `v` with them. -/
def State.invalidated (s : State) (v : Inval) (iid : Nat) : State := { s.invalidate v with invals := s.invals.filter (fun q => q.iid != iid) }

theorem exec_l1Invalidate_none {s : State} {v : Inval} {iid : Nat} (hv : s.invals.find? (fun v => v.iid == iid) = some v) (hr : v.rid = none) :
    exec (.l1Invalidate iid) s = .next (s.invalidated v iid) := by
  change execL1Invalidate iid s = _
  unfold execL1Invalidate
  rw [hv]
  dsimp only
  rw [hr]
  rfl

theorem exec_l1Invalidate_some {s : State} {v : Inval} {iid rid line : Nat} (hv : s.invals.find? (fun v => v.iid == iid) = some v)
    (hr : v.rid = some (rid, line)) :
    exec (.l1Invalidate iid) s =
      .next ((((s.invalidated v iid).setReq rid (Req.acked line s.bw)).setLine line (fun l => { l with wt := max l.wt s.bw })).settle rid) := by
  change execL1Invalidate iid s = _
  unfold execL1Invalidate
  rw [hv]
  dsimp only
  rw [hr]
  rfl

theorem mem_l1_invalidated (s : State) (v : Inval) (iid : Nat) (l : L1Line) : l ∈ (s.invalidated v iid).l1 ↔
    l ∈ s.l1 ∧ (v.icOnly = true ∨ ¬ (l.line = v.line ∧ covered v.home v.clusters v.dieBits l.core = true ∧ v.spare ≠ some l.core)) := by
  cases hic : v.icOnly with
  | true => simp [State.invalidated, State.invalidate, hic]
  | false => simp [State.invalidated, State.invalidate, hic, imp_iff_not_or, or_assoc]

theorem mem_icache_invalidated (s : State) (v : Inval) (iid : Nat) (l : ICLine) : l ∈ (s.invalidated v iid).icache ↔
    l ∈ s.icache ∧ ¬ (l.line = v.line ∧ covered v.home v.clusters v.dieBits l.core = true) := by
  simp [State.invalidated, State.invalidate, imp_iff_not_or]

theorem mem_invals_invalidated (s : State) (v : Inval) (iid : Nat) (q : Inval) : q ∈ (s.invalidated v iid).invals ↔ q ∈ s.invals ∧ q.iid ≠ iid := by
  simp [State.invalidated, List.mem_filter]

/-- An invalidation drops the copies it covers; beyond them it changes requests, home states and, where a result becomes ready, groups. -/
theorem exec_l1Invalidate_frame {s : State} {v : Inval} {iid : Nat} (hv : s.invals.find? (fun v => v.iid == iid) = some v) :
    ∃ t, exec (.l1Invalidate iid) s = .next t ∧ t = { s.invalidated v iid with groups := t.groups, reqs := t.reqs, lines := t.lines } := by
  cases hr : v.rid with
  | none => exact ⟨_, exec_l1Invalidate_none hv hr, rfl⟩
  | some p =>
    refine ⟨_, exec_l1Invalidate_some (rid := p.1) (line := p.2) hv hr, ?_⟩
    rw [State.settle_frame, State.setLine_frame]
    rfl

/-- The first part of O30 (R274, R275). -/
theorem invalidates (iid : Nat) : Invalidates iid := by
  intro s v hv
  obtain ⟨t, ht, hframe⟩ := exec_l1Invalidate_frame hv
  have hmem : t.mem = s.mem := by rw [hframe]; rfl
  have hl1 : t.l1 = (s.invalidated v iid).l1 := by rw [hframe]
  have hic : t.icache = (s.invalidated v iid).icache := by rw [hframe]
  have hinv : t.invals = (s.invalidated v iid).invals := by rw [hframe]
  refine ⟨t, ht, hmem, fun q hq => ?_, fun q hq hid => ?_, fun l => hl1 ▸ mem_l1_invalidated s v iid l,
    fun l => hic ▸ mem_icache_invalidated s v iid l, fun rid line r hrid hreq hkind => ?_⟩
  · exact ((mem_invals_invalidated s v iid q).mp (hinv ▸ hq)).2
  · exact hinv ▸ (mem_invals_invalidated s v iid q).mpr ⟨hq, hid⟩
  · have hq : (((s.invalidated v iid).setReq rid (Req.acked line s.bw)).setLine line (fun l => { l with wt := max l.wt s.bw })).req rid =
        some (r.acked line s.bw) := by
      rw [State.setLine_frame]
      exact (State.req_setReq (s.invalidated v iid) rid (Req.acked line s.bw) fun _ => rfl).trans (congrArg (Option.map _) hreq)
    rw [exec_l1Invalidate_some hv hrid, State.settle_waits hq (.inl hkind)] at ht
    cases ht
    exact ⟨_, hq, rfl⟩

/-! ## The end of a store -/

/-- The store lay beyond the package and had no counter to hold its fault on (R410). -/
def Req.lost (r : Req) : Bool := r.bad != 0 && r.far && r.dc == 6

/-- What the end of store `r` does in its group (R215, R432). -/
def Req.ended (r : Req) (now : Nat) (g : Group) : Group :=
  let g := g.joinGw (r.parts.foldl (fun m p => max m p.gwct) 0)
  let g := if r.dc < 6 then g.subDc r.dc else g
  let g := if r.bad = 0 || r.lost then g
    else g.holdFault r.dc { cause := r.cause, addr := BitVec.ofNat 64 r.badAt, queue := 0, info := r.info }
  g.wake now

theorem exec_storeComplete {s : State} {r : Req} {rid : Nat} (hr : s.req rid = some r) (ha : r.kind.answers = false) (hd : ∀ p ∈ r.parts, p.done = true) :
    ∃ pkg, exec (.storeComplete rid) s = .next ((({ s with pkg := pkg } : State).setGroup r.gid (r.ended s.bw)).dropReq rid) := by
  have hcond : ¬ (r.kind.answers || !r.parts.all (fun p => p.done)) = true := by
    rw [ha, List.all_eq_true.mpr hd]; simp
  have hexec := execStoreComplete.eq_1 rid s
  rw [hr] at hexec
  replace hexec := hexec.trans (if_neg hcond)
  let pkg' : Package := if r.lost = true then { s.pkg with wfault := min (s.pkg.wfault + 1) 0xFFFF } else s.pkg
  have hpkg : (if r.lost = true then { s with pkg := { s.pkg with wfault := min (s.pkg.wfault + 1) 0xFFFF } } else s) = ({ s with pkg := pkg' } : State) := by
    by_cases hlost : r.lost = true
    · rw [if_pos hlost, show pkg' = _ from if_pos hlost]
    · rw [if_neg hlost, show pkg' = _ from if_neg hlost]
  have hend : exec (.storeComplete rid) s = (fun u : State => Host.Outcome.next ((u.setGroup r.gid (r.ended u.bw)).dropReq rid))
      (if r.lost = true then { s with pkg := { s.pkg with wfault := min (s.pkg.wfault + 1) 0xFFFF } } else s) := hexec
  rw [hpkg] at hend
  exact ⟨pkg', hend⟩

theorem Group.dcv_subDc (g : Group) (k n : Nat) : (g.subDc k).dcv n = g.dcv n - if n = k then 1 else 0 := by
  refine (getD_modAt (· - 1) k n g.dc 0).trans ?_
  by_cases hn : n = k
  · subst hn
    by_cases hlen : n < g.dc.length
    · rw [if_pos ⟨rfl, hlen⟩, if_pos rfl]
      rfl
    · have hzero : g.dcv n = 0 := List.getD_eq_default _ _ (by omega)
      rw [if_neg fun h => hlen h.2, hzero, Nat.zero_sub]
      exact hzero
  · rw [if_neg fun h => hn h.1, if_neg hn]
    rfl

/-- What a held fault leaves of a group. -/
theorem Group.holdFault_frame (g : Group) (k : Nat) (f : HeldFault) :
    g.holdFault k f = { g with held := (g.holdFault k f).held, deferred := (g.holdFault k f).deferred } := by
  unfold Group.holdFault
  extract_lets g'
  split <;> rfl

theorem Group.holdFault_free {g : Group} {k : Nat} (f : HeldFault) (h : ∀ q ∈ g.held, q.1 ≠ k) :
    (g.holdFault k f).held = g.held ++ [(k, f)] ∧ (g.holdFault k f).deferred = g.deferred.filter (fun a => a.dc != k) := by
  have hany : ¬ g.held.any (fun p => p.1 == k) = true := by
    rw [List.any_eq_true]
    rintro ⟨q, hq, hk⟩
    exact h q hq (beq_iff_eq.mp hk)
  unfold Group.holdFault
  extract_lets g'
  rw [if_neg hany]
  exact ⟨rfl, rfl⟩

/-- The group that a store's end leaves: its GW and its counter, and a fault that it holds. -/
theorem Req.ended_frame (r : Req) (now : Nat) (g : Group) : r.ended now g =
    { g with gw := max g.gw (r.parts.foldl (fun m p => max m p.gwct) 0), dc := (r.ended now g).dc, held := (r.ended now g).held,
             deferred := (r.ended now g).deferred, warps := (r.ended now g).warps, st := (r.ended now g).st, since := (r.ended now g).since } := by
  unfold Req.ended
  extract_lets g1 g2 g3
  have h2 : g2 = { g1 with dc := g2.dc } := by
    by_cases hdc : r.dc < 6
    · rw [show g2 = g1.subDc r.dc from if_pos hdc]; rfl
    · rw [show g2 = g1 from if_neg hdc]
  have h3 : g3 = { g2 with held := g3.held, deferred := g3.deferred } := by
    by_cases hheld : (decide (r.bad = 0) || r.lost) = true
    · rw [show g3 = g2 from if_pos hheld]
    · rw [show g3 = g2.holdFault r.dc _ from if_neg hheld, Group.holdFault_frame]
  rw [h3, h2]
  rfl

theorem Req.ended_dcv (r : Req) (now : Nat) (g : Group) (n : Nat) : (r.ended now g).dcv n = g.dcv n - if n = r.dc ∧ n < 6 then 1 else 0 := by
  unfold Req.ended
  extract_lets g1 g2 g3
  have h2 : g2.dcv n = g.dcv n - if n = r.dc ∧ n < 6 then 1 else 0 := by
    by_cases hdc : r.dc < 6
    · rw [show g2 = g1.subDc r.dc from if_pos hdc, Group.dcv_subDc]
      have hiff : (n = r.dc ∧ n < 6) ↔ n = r.dc := ⟨And.left, fun h => ⟨h, h ▸ hdc⟩⟩
      simp only [hiff]
      rfl
    · rw [show g2 = g1 from if_neg hdc, if_neg fun h : n = r.dc ∧ n < 6 => hdc (h.1 ▸ h.2)]
      rfl
  have h3 : g3.dc = g2.dc := by
    by_cases hheld : (decide (r.bad = 0) || r.lost) = true
    · rw [show g3 = g2 from if_pos hheld]
    · rw [show g3 = g2.holdFault r.dc _ from if_neg hheld, Group.holdFault_frame]
  rw [← h2]
  exact congrArg (fun l : List Nat => l.getD n 0) h3

/-- Where every lane was performed no fault is held. -/
theorem Req.ended_good {r : Req} (now : Nat) (g : Group) (h : r.bad = 0) :
    (r.ended now g).held = g.held ∧ (r.ended now g).deferred = g.deferred := by
  unfold Req.ended
  extract_lets g1 g2 g3
  rw [show g3 = g2 from if_pos (by rw [decide_eq_true h]; rfl)]
  by_cases hdc : r.dc < 6
  · rw [show g2 = g1.subDc r.dc from if_pos hdc]
    exact ⟨rfl, rfl⟩
  · rw [show g2 = g1 from if_neg hdc]
    exact ⟨rfl, rfl⟩

/-- A fault of lanes that were not performed is held on its free slot (R432). -/
theorem Req.ended_bad {r : Req} (now : Nat) {g : Group} (hbad : r.bad ≠ 0) (hfar : r.far = false ∨ r.dc ≠ 6) (hfree : ∀ q ∈ g.held, q.1 ≠ r.dc) :
    (r.ended now g).held = g.held ++ [(r.dc, { cause := r.cause, addr := BitVec.ofNat 64 r.badAt, queue := 0, info := r.info })] ∧
      (r.ended now g).deferred = g.deferred.filter (fun a => a.dc != r.dc) := by
  have hlost : r.lost = false := by
    rcases hfar with h | h
    · rw [Req.lost, h, Bool.and_false, Bool.false_and]
    · rw [Req.lost, beq_false_of_ne h, Bool.and_false]
  unfold Req.ended
  extract_lets g1 g2 g3
  have h2 : g2.held = g.held ∧ g2.deferred = g.deferred := by
    by_cases hdc : r.dc < 6
    · rw [show g2 = g1.subDc r.dc from if_pos hdc]
      exact ⟨rfl, rfl⟩
    · rw [show g2 = g1 from if_neg hdc]
      exact ⟨rfl, rfl⟩
  have h3 : g3 = g2.holdFault r.dc { cause := r.cause, addr := BitVec.ofNat 64 r.badAt, queue := 0, info := r.info } :=
    if_neg (by rw [decide_eq_false hbad, hlost]; simp)
  obtain ⟨hheld, hdef⟩ := Group.holdFault_free (g := g2) (k := r.dc)
    { cause := r.cause, addr := BitVec.ofNat 64 r.badAt, queue := 0, info := r.info } (by rw [h2.1]; exact hfree)
  rw [h3]
  rw [h2.1] at hheld
  rw [h2.2] at hdef
  exact ⟨hheld, hdef⟩

/-- The second part of O30 (R215, R432). -/
theorem storesEnd (rid : Nat) : StoresEnd rid := by
  intro s r g hr hrid hkind hdone hg
  obtain ⟨pkg, hexec⟩ := exec_storeComplete hr hkind hdone
  have hgid : ∀ g, (r.ended s.bw g).gid = g.gid := fun g => by rw [Req.ended_frame]
  have hgroup : ((({ s with pkg := pkg } : State).setGroup r.gid (r.ended s.bw)).dropReq rid).group r.gid = some (r.ended s.bw g) :=
    (State.group_setGroup_self { s with pkg := pkg } r.gid (r.ended s.bw) hgid).trans (congrArg (Option.map _) hg)
  refine ⟨_, _, hexec, State.req_dropReq _ _, rfl, fun k hk => State.group_setGroup_ne { s with pkg := pkg } r.gid k (r.ended s.bw) hgid hk, hgroup, ?_,
    Req.ended_dcv r s.bw g, ?_, ?_, Req.ended_good s.bw g, Req.ended_bad s.bw⟩
  · rw [Req.ended_frame]
  · rw [Req.ended_frame]
  · rw [Req.ended_frame]

/-! ## Results that land -/

/-- The first record that meets a condition is the first that meets a stricter one, where it does. -/
theorem find?_of_imp {α : Type} {p q : α → Bool} {l : List α} {a : α} (h : l.find? p = some a) (hq : q a = true) (hqp : ∀ x, q x = true → p x = true) :
    l.find? q = some a := by
  obtain ⟨-, as, bs, hl, has⟩ := List.find?_eq_some_iff_append.mp h
  refine List.find?_eq_some_iff_append.mpr ⟨hq, as, bs, hl, fun x hx => ?_⟩
  have hno := has x hx
  cases hqx : q x with
  | false => rfl
  | true => simp [hqp x hqx] at hno

/-- A warp that tests again what it waits on (R129). -/
def Warp.tested (w : Warp) : Warp :=
  match w.wait with
  | .xrd => { w with wait := .none }
  | .other => { w with wait := .none }
  | .placew => { w with wait := .none }
  | _ => w

theorem Warp.tested_frame (w : Warp) : w.tested = { w with wait := w.tested.wait } := by
  unfold Warp.tested
  split <;> rfl

theorem Group.wake_warps (g : Group) (now : Nat) : (g.wake now).warps = g.warps.map Warp.tested := rfl

theorem Group.applyW_with_warps (g : Group) (ws : List Warp) (w : RegWrite) : ({ g with warps := ws } : Group).applyW w = { g.applyW w with warps := ws } := by
  cases w with
  | vl r m vs =>
    simp only [Group.applyW]
    split <;> rfl
  | _ => rfl

/-- Register writes do not see the warps. -/
theorem foldl_applyW_with_warps (ws : List Warp) (l : List RegWrite) (g : Group) :
    l.foldl Group.applyW { g with warps := ws } = { l.foldl Group.applyW g with warps := ws } := by
  induction l generalizing g with
  | nil => rfl
  | cons w r ih => rw [List.foldl_cons, Group.applyW_with_warps, ih]; rfl

/-- A pending result after the group-wide writes of result `rid` have been made (R150). -/
def Pending.afterShared (rid : Nat) (z : Pending) : Pending :=
  if z.rid = rid then { z with writes := z.writes.filter (fun v => !v.shared), red := false } else z

/-- The group after result `p` of warp `wid` has landed (R73). -/
def Group.landed (g : Group) (wid now : Nat) (p : Pending) : Group :=
  let g := g.setWarp wid (fun w => { w with pend := w.pend.erase p })
  (((p.on g).seen p.writes).wroteShared p.rid |>.commit p.lanes (p.flags.foldl (· ||| ·) 0) []).wake now

theorem exec_lookaheadResult {s : State} {gid wid rid : Nat} {g : Group} {w : Warp} {p : Pending} (hg : s.group gid = some g) (hw : g.warp wid = some w)
    (hp : w.pend.find? (fun p => p.rid == rid) = some p) (hready : p.ready = true) (hleft : p.left = 0) (hrep : p.rep = false)
    (hrun : g.mayRun wid = true) (hfirst : p.red = true → ∀ q ∈ g.warps, ∀ z ∈ q.pend, z.red = true → p.rid ≤ z.rid) (hnoP : ∀ v ∈ p.writes, v.noP) :
    exec (.lookaheadResult gid wid rid) s = .next (s.setGroup gid (fun g => g.landed wid s.bw p)) := by
  have hrid : p.rid = rid := beq_iff_eq.mp (List.find?_some (p := fun p : Pending => p.rid == rid) hp)
  have hfind : w.pend.find? (fun p => p.rid == rid && p.ready && p.left == 0 && !p.rep) = some p :=
    find?_of_imp hp (by simp [hrid, hready, hleft, hrep]) fun x hx => by
      simp only [Bool.and_eq_true] at hx
      exact hx.1.1.1
  have hearlier : (p.red && g.warps.any (fun q => (g.mayRun q.wid || (g.inHandler && !g.mayRun wid)) && q.pend.any (fun z => z.red && decide (z.rid < p.rid)))) = false := by
    rw [Bool.eq_false_iff]
    intro hearly
    simp only [Bool.and_eq_true, List.any_eq_true, decide_eq_true_eq] at hearly
    obtain ⟨hred, q, hq, -, z, hz, hzred, hlt⟩ := hearly
    exact absurd (hfirst hred q hq z hz hzred) (by omega)
  subst hrid
  change execLookaheadResult gid wid p.rid s = _
  unfold execLookaheadResult
  rw [hg]
  dsimp only
  rw [hw]
  dsimp only
  rw [hfind]
  dsimp only
  rw [hearlier, hrun, if_neg (by simp)]
  rw [State.setWarp_eq, State.applyWs_eq _ _ _ _ hnoP, State.wakeGroup, State.setGroup_setGroup _ _ _ _ fun g => g.setWarp_gid wid _,
    State.setGroup_setGroup _ _ _ _ fun g => (foldl_gid _ Group.applyW_gid _ _).trans (g.setWarp_gid wid _)]
  exact congrArg Host.Outcome.next
    (State.setGroup_setGroup s gid _ _ fun g => (Group.commit_gid ..).trans ((foldl_gid _ Group.applyW_gid p.writes _).trans (g.setWarp_gid wid _)))

/-- Flags that commit are the group's, and what else it notes of them is no register. -/
theorem Group.commit_sched (g : Group) (m : Mask) (fl : Word) : SchedOnly (g.orFsr fl) (g.commit m fl []) := by
  unfold Group.commit
  split <;> rfl

theorem Group.landed_sched (g : Group) (wid now : Nat) (p : Pending) : SchedOnly ((p.on g).orFsr (p.flags.foldl (· ||| ·) 0)) (g.landed wid now p) := by
  unfold Group.landed
  extract_lets g1
  have hon : p.on g1 = { p.on g with warps := g1.warps } := foldl_applyW_with_warps g1.warps p.writes g
  refine SchedOnly.trans (h := (((p.on g1).seen p.writes).wroteShared p.rid).orFsr (p.flags.foldl (· ||| ·) 0)) ?_
    (SchedOnly.trans (Group.commit_sched _ p.lanes _) rfl)
  rw [hon]
  rfl

theorem find?_map_of_key {α : Type} (key : α → Nat) (k : Nat) (f : α → α) (hf : ∀ x, key (f x) = key x) (l : List α) :
    (l.map f).find? (fun x => key x == k) = (l.find? (fun x => key x == k)).map f := by
  rw [List.find?_map]
  congr 2
  funext x
  exact congrArg (· == k) (hf x)

theorem Group.landed_warps (g : Group) (wid now : Nat) (p : Pending) : (g.landed wid now p).warps =
    ((g.setWarp wid (fun w => { w with pend := w.pend.erase p })).warps.map (fun w => { w with pend := w.pend.map (Pending.afterShared p.rid) })).map Warp.tested := by
  unfold Group.landed
  extract_lets g1
  rw [Group.wake_warps, Group.commit_warps]
  have hon : (p.on g1).warps = g1.warps := foldl_warps _ (fun g w => Group.applyW_warps g w) p.writes g1
  rw [← hon]
  rfl

theorem Group.landed_warp {g : Group} {wid : Nat} {w : Warp} (now : Nat) (p : Pending) (hw : g.warp wid = some w) :
    (g.landed wid now p).warp wid = some (Warp.tested { w with pend := (w.pend.erase p).map (Pending.afterShared p.rid) }) := by
  rw [Group.warp, Group.landed_warps, find?_map_of_key Warp.wid wid Warp.tested fun w => by rw [Warp.tested_frame],
    find?_map_of_key Warp.wid wid (fun w => { w with pend := w.pend.map (Pending.afterShared p.rid) }) fun _ => rfl]
  rw [Group.setWarp, find_updWhere_self Warp.wid wid (fun w => { w with pend := w.pend.erase p }) fun _ => rfl]
  rw [show g.warps.find? (fun w => w.wid == wid) = some w from hw]
  rfl

/-- The third part of O30 (R73, R34, R35, R152). -/
theorem resultsLand (gid wid rid : Nat) : ResultsLand gid wid rid := by
  intro s g w p hg hw hp hready hleft hrep hrun hfirst hnoP
  have hwrites : ∀ v ∈ p.writes, v.noP := by
    intro v hv
    cases v with
    | pr r k => exact absurd rfl (hnoP _ hv r k)
    | _ => trivial
  have hrid : p.rid = rid := beq_iff_eq.mp (List.find?_some (p := fun p : Pending => p.rid == rid) hp)
  have hgid : ∀ g : Group, (g.landed wid s.bw p).gid = g.gid := by
    intro g
    have hsched := Group.landed_sched g wid s.bw p
    rw [hsched]
    exact foldl_gid _ Group.applyW_gid p.writes g
  have hgroup : (s.setGroup gid (fun g => g.landed wid s.bw p)).group gid = some (g.landed wid s.bw p) :=
    (State.group_setGroup_self s gid _ hgid).trans (congrArg (Option.map _) hg)
  refine ⟨_, _, _, exec_lookaheadResult hg hw hp hready hleft hrep hrun hfirst hwrites, rfl, fun k hk => State.group_setGroup_ne s gid k _ hgid hk, hgroup,
    Group.landed_sched g wid s.bw p, Group.landed_warp s.bw p hw, ?_, ?_⟩
  · rw [Warp.tested_frame]
  · rw [Warp.tested_frame, hrid]
    rfl

/-! ## Accesses within a cluster -/

/-- The team is another's no more (R255): it has ended, or left the cluster of the request's core. -/
def Req.teamGone (r : Req) (p : Part) (t : Team) : Bool := t.st == .ended || t.tid != p.node || clusterOf t.core != clusterOf r.core

/-- The part of a request to one team has been performed. -/
def Req.reached (node now : Nat) (q : Req) : Req :=
  { q with parts := q.parts.map (fun z => if z.node = node then { z with done := true, performed := true, gwct := now } else z) }

/-- The size of a part's accesses. -/
def Part.size (p : Part) : Nat := match p.accs with | a :: _ => a.n | [] => 1

theorem Part.size_eq {p : Part} {n : Nat} (hsome : p.accs ≠ []) (hsize : ∀ a ∈ p.accs, a.n = n) : p.size = n := by
  unfold Part.size
  cases haccs : p.accs with
  | nil => exact absurd haccs hsome
  | cons a as => exact hsize a (haccs ▸ List.mem_cons_self)

/-- A part of a request, among parts to other teams, is performed alone. -/
theorem Req.reached_parts {r : Req} {u v : List Part} {p : Part} (now : Nat) (h : r.parts = u ++ p :: v) (hothers : ∀ z ∈ u ++ v, z.node ≠ p.node) :
    (r.reached p.node now).parts = u ++ { p with done := true, performed := true, gwct := now } :: v := by
  have hsame : ∀ l : List Part, (∀ z ∈ l, z.node ≠ p.node) →
      l.map (fun z => if z.node = p.node then { z with done := true, performed := true, gwct := now } else z) = l := fun l hl =>
    (List.map_congr_left fun z hz => if_neg (hl z hz)).trans (List.map_id l)
  unfold Req.reached
  rw [h, List.map_append, List.map_cons, if_pos rfl, hsame u fun z hz => hothers z (List.mem_append_left v hz),
    hsame v fun z hz => hothers z (List.mem_append_right u hz)]

/-- A write leaves granules sound. -/
theorem Team.wrScratch_sound {t : Team} {o k : Nat} (bs : List Byte) (a : Nat) (h : t.spoisoned o k = false) : (t.wrScratch a bs).spoisoned o k = false := by
  unfold Team.spoisoned at h ⊢
  rw [List.any_eq_false] at h ⊢
  intro g hg hbad
  have hin : g ∈ (t.wrScratch a bs).spois := by simpa using hbad
  exact h g hg (List.contains_iff_mem.mpr (List.mem_filter.mp hin).1)

/-- Atomics on sound granules of a scratchpad are all performed (R223). -/
theorem localAtoms_sound {n op : Nat} {as : List Acc} {t : Team} (hsize : ∀ a ∈ as, a.n = n) (hsound : ∀ a ∈ as, t.spoisoned a.pa a.n = false) :
    ∃ t', localAtoms n op (as.map (fun a => (a.lane, a.pa, a.data, a.new))) t = ((atomsOn op as t.scratch).1, [], t') ∧
      t'.scratch = (atomsOn op as t.scratch).2 ∧ t'.tid = t.tid := by
  induction as generalizing t with
  | nil => exact ⟨t, rfl, rfl, rfl⟩
  | cons a r ih =>
    obtain ⟨han, hr⟩ := List.forall_mem_cons.mp hsize
    obtain ⟨hasound, hrsound⟩ := List.forall_mem_cons.mp hsound
    subst han
    obtain ⟨t', hat, hscratch, htid⟩ := ih (t := t.wrScratch a.pa (leBytes a.n (atomNew op a.n (t.rdScratch a.pa a.n) a.data a.new))) hr
      fun b hb => Team.wrScratch_sound _ _ (hrsound b hb)
    refine ⟨t', ?_, hscratch, htid⟩
    rw [List.map_cons, localAtoms, if_neg (by rw [hasound]; simp)]
    dsimp only
    rw [hat]
    rfl

section
variable {r : Req} {p : Part} {s : State} {n : Nat} (hgone : r.teamGone p (s.team p.node) = false) (hsome : p.accs ≠ []) (hsize : ∀ a ∈ p.accs, a.n = n)
include hgone hsome hsize

/-- A load within the cluster reads the other team's scratchpad. -/
theorem clusterPart_load (hkind : r.kind = .load) (hsound : ∀ a ∈ p.accs, (s.team p.node).spoisoned a.pa a.n = false) :
    clusterPart r p s = s.setReq r.rid (fun q =>
      ({ q with vals := q.vals ++ p.accs.map (fun a => (a.lane, leNat (Memory.bytes (s.team p.node).scratch a.pa a.n))) } : Req).reached p.node s.bw) := by
  unfold clusterPart
  extract_lets t m gone mark
  have hm : m = n := Part.size_eq hsome hsize
  have hhere : gone = false := hgone
  have hbad : p.accs.filter (fun a => t.spoisoned a.pa m) = [] :=
    List.filter_eq_nil_iff.mpr fun a ha => by rw [hm, ← hsize a ha]; exact Bool.eq_false_iff.mp (hsound a ha)
  have hread : p.accs.map (fun a => (a.lane, t.rdScratch a.pa m)) = p.accs.map (fun a => (a.lane, leNat (Memory.bytes (s.team p.node).scratch a.pa a.n))) :=
    List.map_congr_left fun a ha => by rw [hm, ← hsize a ha]; rfl
  rw [hhere, if_neg Bool.false_ne_true, hkind]
  dsimp only
  rw [hbad, hread]
  rfl

/-- A store within the cluster writes the other team's scratchpad. -/
theorem clusterPart_store (hkind : r.kind = .store) :
    clusterPart r p s = (s.setTeam p.node (fun t => p.accs.foldl (fun (t : Team) a => t.wrScratch a.pa (leBytes a.n a.data)) t)).setReq r.rid (Req.reached p.node s.bw) := by
  unfold clusterPart
  extract_lets t m gone mark
  have hm : m = n := Part.size_eq hsome hsize
  have hhere : gone = false := hgone
  have hwrites : ∀ t : Team, p.accs.foldl (fun (t : Team) a => t.wrScratch a.pa (leBytes m a.data)) t =
      p.accs.foldl (fun (t : Team) a => t.wrScratch a.pa (leBytes a.n a.data)) t := fun t =>
    List.foldl_ext _ _ t fun t a ha => by rw [hm, hsize a ha]
  rw [hhere, if_neg Bool.false_ne_true, hkind]
  simp only [hwrites]
  rfl

/-- Atomics within the cluster change the other team's scratchpad. -/
theorem clusterPart_atom {op : Nat} {ret : Bool} (hkind : r.kind = .atom op ret) (hsound : ∀ a ∈ p.accs, (s.team p.node).spoisoned a.pa a.n = false) :
    ∃ t, clusterPart r p s = (s.setTeam p.node (fun _ => t)).setReq r.rid (fun q =>
        ({ q with vals := q.vals ++ (atomsOn op p.accs (s.team p.node).scratch).1 } : Req).reached p.node s.bw) ∧
      t.scratch = (atomsOn op p.accs (s.team p.node).scratch).2 ∧ t.tid = (s.team p.node).tid := by
  have hm : p.size = n := Part.size_eq hsome hsize
  obtain ⟨t', hat, hscratch, htid⟩ := localAtoms_sound (op := op) hsize hsound
  refine ⟨t', ?_, hscratch, htid⟩
  have hnone : p.accs.filter (fun a => ([] : List Nat).contains a.lane) = [] := List.filter_eq_nil_iff.mpr fun a _ => by simp
  unfold clusterPart
  extract_lets t m gone mark
  have hat' : localAtoms m op (p.accs.map (fun a => (a.lane, a.pa, a.data, a.new))) t = _ := (congrArg (localAtoms · op _ t) hm).trans hat
  have hhere : gone = false := hgone
  rw [hhere, if_neg Bool.false_ne_true, hkind]
  dsimp only
  rw [hat', hnone]
  rfl

end

/-- Of parts in order the first that has not been performed, is not too early and whose team does not move is next. -/
theorem find?_next {parts u v : List Part} {p : Part} {early moving : Part → Bool} (hparts : parts = u ++ p :: v) (hu : ∀ z ∈ u, z.performed = true)
    (hp : p.performed = false) (hearly : early p = false) (hmoving : moving p = false) :
    parts.find? (fun p => !p.performed && !early p && !moving p) = some p := by
  refine List.find?_eq_some_iff_append.mpr ⟨by simp [hp, hearly, hmoving], u, v, hparts, fun z hz => by simp [hu z hz]⟩

/-- The one part of a cluster request that is next is performed. -/
theorem exec_clusterWindowAccess {s : State} {r : Req} {u v : List Part} {p : Part} {rid : Nat} (hr : s.req rid = some r) (hin : r.inCluster = true)
    (hparts : r.parts = u ++ p :: v) (hu : ∀ z ∈ u, z.performed = true) (hp : p.performed = false)
    (hfirst : ∀ q ∈ s.reqs, q.gid = r.gid → q.inCluster = true → r.rid ≤ q.rid) (hst : (s.team p.node).st = .resident ∨ (s.team p.node).st = .draining) :
    exec (.clusterWindowAccess rid) s = .next ((clusterPart r p s).settle rid) := by
  have hearly : s.reqs.any (fun q => q.gid == r.gid && q.inCluster && decide (q.rid < r.rid) && q.parts.any (fun z => z.node == p.node && !z.performed)) = false := by
    rw [List.any_eq_false]
    intro q hq hbefore
    simp only [Bool.and_eq_true, beq_iff_eq, decide_eq_true_eq] at hbefore
    obtain ⟨⟨⟨hgid, hinq⟩, hlt⟩, -⟩ := hbefore
    exact absurd (hfirst q hq hgid hinq) (by omega)
  have hmoving : ((s.team p.node).st == .saved || (s.team p.node).st == .saving) = false := by
    rcases hst with h | h <;> rw [h] <;> rfl
  change execClusterWindowAccess rid s = _
  unfold execClusterWindowAccess
  rw [hr]
  dsimp only
  rw [hin, if_neg (by simp), find?_next hparts hu hp hearly hmoving]

theorem getElem?_middle {α : Type} (u v : List α) (a : α) : (u ++ a :: v)[u.length]? = some a := by
  rw [List.getElem?_append_right le_rfl, Nat.sub_self]
  rfl

theorem getElem?_middle_of_ne {α : Type} (u v : List α) (a b : α) {j : Nat} (h : j ≠ u.length) : (u ++ a :: v)[j]? = (u ++ b :: v)[j]? := by
  by_cases hj : j < u.length
  · rw [List.getElem?_append_left hj, List.getElem?_append_left hj]
  · obtain ⟨k, hk⟩ : ∃ k, j - u.length = k + 1 := ⟨j - u.length - 1, by omega⟩
    rw [List.getElem?_append_right (by omega), List.getElem?_append_right (by omega), hk]
    rfl

theorem State.settle_teams (s : State) (rid : Nat) : (s.settle rid).teams = s.teams := by rw [State.settle_frame]

/-- A part among parts to other teams has been performed with `vals`, and the request settles. -/
theorem answered_reached {s t : State} {r : Req} {u v : List Part} {p : Part} {vals : List (Nat × Nat)} (hparts : r.parts = u ++ p :: v)
    (hothers : ∀ z ∈ u ++ v, z.node ≠ p.node) (hgroups : t.groups = s.groups)
    (hreq : t.req r.rid = some (({ r with vals := r.vals ++ vals } : Req).reached p.node s.bw)) : Answered s (t.settle r.rid) r u.length vals := by
  have hreached : (({ r with vals := r.vals ++ vals } : Req).reached p.node s.bw).parts = u ++ { p with done := true, performed := true, gwct := s.bw } :: v :=
    Req.reached_parts s.bw hparts hothers
  refine answered_settle (congrArg (fun l : List Group => l.find? (fun (g : Group) => g.gid == r.gid)) hgroups) hreq rfl ⟨{ p with done := true, performed := true, gwct := s.bw }, ?_, rfl, rfl⟩ fun j hj => ?_
  · rw [hreached, getElem?_middle]
  · rw [hreached, hparts, getElem?_middle_of_ne u v _ p hj]

/-- The fourth part of O30 (R255). -/
theorem clusterAccesses (rid : Nat) : ClusterAccesses rid := by
  intro s r u v p hr hrid hin hparts hu hp hothers hfirst hteam tm hst hcluster hsome hsizes hsound
  subst hrid
  obtain ⟨a0, ha0⟩ := List.exists_mem_of_ne_nil p.accs hsome
  have hsize : ∀ a ∈ p.accs, a.n = a0.n := fun a ha => hsizes a ha a0 ha0
  have hgone : r.teamGone p tm = false := by
    have hst' : (tm.st == .ended) = false := by
      rcases hst with h | h <;> rw [h] <;> rfl
    have htid : tm.tid = p.node := team_tid hteam
    rw [Req.teamGone, hst', htid, hcluster]
    simp
  have hexec := exec_clusterWindowAccess hr hin hparts hu hp hfirst hst
  have hreq : ∀ (t : State) (f : Req → Req), t.reqs = s.reqs → (∀ q, (f q).rid = q.rid) → (t.setReq r.rid f).req r.rid = some (f r) := fun t f ht hf =>
    (State.req_setReq t r.rid f hf).trans (congrArg (Option.map f) ((congrArg (fun l : List Req => l.find? (fun (q : Req) => q.rid == r.rid)) ht).trans hr))
  refine ⟨fun hkind => ?_, fun hkind => ?_, fun op ret hkind => ?_⟩
  · rw [clusterPart_load hgone hsome hsize hkind hsound] at hexec
    exact ⟨_, hexec, State.settle_teams .., answered_reached hparts hothers rfl (hreq s _ rfl fun _ => rfl)⟩
  · rw [clusterPart_store hgone hsome hsize hkind] at hexec
    have htid : ∀ t : Team, (p.accs.foldl (fun (t : Team) a => t.wrScratch a.pa (leBytes a.n a.data)) t).tid = t.tid := fun t =>
      List.foldlRecOn (motive := fun k : Team => k.tid = t.tid) p.accs _ rfl fun k hk a _ => hk
    have hteams := State.setTeam_team s p.node _ (fun t ht => (htid t).trans ht) hteam
    refine ⟨_, hexec, answered_reached hparts hothers rfl ?_, ?_, fun k hk => ?_⟩
    · rw [List.append_nil]
      exact hreq _ _ rfl fun _ => rfl
    · rw [State.team, State.settle_teams]
      refine (congrArg Team.scratch ((hteams p.node).trans (if_pos rfl))).trans ?_
      exact (List.foldl_hom Team.scratch fun _ _ => rfl).symm
    · rw [State.team, State.settle_teams]
      exact (hteams k).trans (if_neg hk)
  · obtain ⟨tm', hpart, hscratch, htid⟩ := clusterPart_atom hgone hsome hsize hkind hsound
    rw [hpart] at hexec
    have hteams := State.setTeam_team s p.node (fun _ => tm') (fun _ _ => htid.trans (team_tid hteam)) hteam
    refine ⟨_, hexec, answered_reached hparts hothers rfl (hreq _ _ rfl fun _ => rfl), ?_, fun k hk => ?_⟩
    · rw [State.team, State.settle_teams]
      exact (congrArg Team.scratch ((hteams p.node).trans (if_pos rfl))).trans hscratch
    · rw [State.team, State.settle_teams]
      exact (hteams k).trans (if_neg hk)

/-- Settles O30: each kind of return in turn. -/
theorem resultsReturn : Obligations.ResultsReturn := ⟨invalidates, storesEnd, resultsLand, clusterAccesses⟩

end Sys2Proof.Machine
end

section
/-! How a clause starts, how warps merge at its head, and how a trap enters its handler (R55, R58, R123, R138). -/

namespace Sys2Proof.Machine
open Sys2Proof.Rules

/-! ## Trap entry -/

/-- The handler that takes cause `c`, below the privileged ones, of the warp that stands at `x`. -/
def Issue.handler (x : Issue) (c : Cause) : Handler where
  priv := false
  tam := x.e.mask
  tfm := c.tfm
  tcause := BitVec.ofNat 32 c.code
  tpc := x.e.pc
  tprio := x.e.prio.zeroExtend 32
  taddr := c.taddr
  tinfo := BitVec.ofNat 32 c.tinfo
  rpc := x.w.rpc
  frozen := x.g.warps.map (fun w => w.wid)
  intr := some x.w.wid

/-- A warp that a trap has interrupted waits on nothing (R138). -/
def Warp.interrupted (w : Warp) : Warp :=
  { w with rpc := 0, wait := .none, waitAt := none, pass := 0, snap := [], fence := none, arrived := false, released := false }

/-- The group in the handler: its warps stand frozen, and a warp of every lane runs from the vector (R138). -/
def Issue.inHandlerAt (x : Issue) (c : Cause) (vec : DWord) (g : Group) : Group :=
  let g := { g.setWarp x.w.wid Warp.interrupted with issued := g.issued ++ [x.w.wid] }
  { g with handlers := x.handler c :: g.handlers,
           warps := g.warps ++ [{ wid := x.g.newWid, entries := [{ prio := 255, pc := vec + 8, mask := x.g.all, h := vec }] }] }

/-- A cause below the privileged ones enters the handler at TVEC. -/
theorem State.raise_eq {s : State} {x : Issue} {c : Cause} (hs : x.s = s) (hcode : c.code < 0x20) (hx : c.code ≠ cXLATE) (hslot : c.slot = none)
    (hcan : CanEnter x false (s.ctx x.g.ctx).tvec) :
    s.raise x.g (some x.w) (some x.e) c x.e.pc = s.setGroup x.g.gid (x.inHandlerAt c (s.ctx x.g.ctx).tvec) := by
  obtain ⟨hfree, hvec, v, hfetch, hok⟩ := hcan
  have hout : x.g.inHandler = false := hfree.resolve_right fun h => Bool.false_ne_true h.1
  have hpriv : decide (0x20 ≤ c.code) = false := decide_eq_false (by omega)
  rw [hs] at hfetch
  unfold State.raise
  simp only [hpriv, Bool.false_eq_true, if_false, hfetch, hx, hslot, State.trapEntry, hout, Bool.false_and, hvec, hok, decide_false, Bool.not_true, Bool.or_false]
  rfl

theorem Issue.inHandlerAt_gid (x : Issue) (c : Cause) (vec : DWord) (g : Group) : (x.inHandlerAt c vec g).gid = g.gid := rfl

/-- A new warp's number is above every other of the group. -/
theorem Group.wid_lt_newWid {g : Group} {w : Warp} (h : w ∈ g.warps) : w.wid < g.newWid := by
  have hmax : ∀ (l : List Warp) (m : Nat), (m ≤ l.foldl (fun m w => max m (w.wid + 1)) m) ∧ ∀ w ∈ l, w.wid < l.foldl (fun m w => max m (w.wid + 1)) m := by
    intro l
    induction l with
    | nil => exact fun m => ⟨le_rfl, fun _ hw => absurd hw List.not_mem_nil⟩
    | cons v r ih =>
      intro m
      obtain ⟨hle, hlt⟩ := ih (max m (v.wid + 1))
      refine ⟨le_trans (le_max_left ..) hle, fun w hw => ?_⟩
      rcases List.mem_cons.mp hw with rfl | hw
      · exact lt_of_lt_of_le (Nat.lt_of_succ_le (le_max_right m (w.wid + 1))) hle
      · exact hlt w hw
  exact (hmax g.warps 0).2 w h

/-- Trap entry, as R138 has it, of a cause below the privileged ones. -/
theorem State.raise_entered {s : State} {x : Issue} {c : Cause} (hs : x.s = s) (hg : s.group x.g.gid = some x.g) (hcode : c.code < 0x20)
    (hx : c.code ≠ cXLATE) (hslot : c.slot = none) (hcan : CanEnter x false (s.ctx x.g.ctx).tvec) :
    Entered s x c.code c.tfm c.taddr c.tinfo (s.ctx x.g.ctx).tvec (s.raise x.g (some x.w) (some x.e) c x.e.pc) := by
  rw [State.raise_eq hs hcode hx hslot hcan]
  have hgid := x.inHandlerAt_gid c (s.ctx x.g.ctx).tvec
  have hgroup : (s.setGroup x.g.gid (x.inHandlerAt c (s.ctx x.g.ctx).tvec)).group x.g.gid = some (x.inHandlerAt c (s.ctx x.g.ctx).tvec x.g) :=
    (State.group_setGroup_self s x.g.gid _ hgid).trans (congrArg (Option.map _) hg)
  have hpriv : decide (0x20 ≤ c.code) = false := decide_eq_false (by omega)
  have hfrozen : ∀ wid, (x.inHandlerAt c (s.ctx x.g.ctx).tvec x.g).mayRun wid = !(x.g.warps.map (fun w => w.wid)).contains wid := fun _ => rfl
  refine ⟨rfl, fun k hk => State.group_setGroup_ne s x.g.gid k _ hgid hk, _, x.handler c, hgroup, rfl, rfl, hpriv.symm, rfl, rfl, ?_, rfl, rfl, rfl, rfl, rfl,
    rfl, fun w hw => ?_, _, List.mem_append_right _ (List.mem_singleton.mpr rfl), ?_, rfl⟩
  · rw [if_neg (by omega)]
    rfl
  · rw [hfrozen, List.contains_iff_mem.mpr (List.mem_map_of_mem hw)]
    rfl
  · rw [hfrozen, Bool.not_eq_true', Bool.eq_false_iff]
    intro hin
    obtain ⟨w, hw, hwid⟩ := List.mem_map.mp (List.contains_iff_mem.mp hin)
    exact absurd hwid (Nat.ne_of_lt (Group.wid_lt_newWid hw))

/-! ## Clause heads -/

theorem headOf_of_stands {s : State} {gid wid : Nat} {g : Group} {w : Warp} {e : Entry} (h : HeadStands s gid wid g w e) : headOf s gid wid = some (g, w, e) := by
  obtain ⟨hgroup, hwarp, ⟨es, hes⟩, hhead, ⟨hst, hstop, hhalt, hpark, hheld, hrun⟩, hctx, hteam⟩ := h
  have hstop' : (g.ctxStop && !(s.ctx g.ctx).enable) = false := by
    rcases hctx with h | h <;> simp [h]
  unfold headOf
  simp only [hgroup, hwarp, hes, hhead, hst, hstop, hhalt, hpark, hheld, hrun, hstop', hteam]
  rfl

/-- A clause that is framed as R55 has it passes the checks at its head. -/
theorem clauseCheck_ok {s : State} {g : Group} (e : Entry) {h : DWord} {ws : List DWord} (hok : ClauseOk s g h ws) : clauseCheck s g e h ws = none := by
  obtain ⟨⟨hmark, hzero⟩, hinner, hlast, hengine, hrole1, hrole2⟩ := hok
  have hctl : (List.range (ws.length - 1)).any (fun i => wordCtl (hdrEng h) (ws.getD i 0)) = false := by
    rw [List.any_eq_false]
    intro i hi
    rw [hinner i (by have := List.mem_range.mp hi; omega)]
    exact Bool.false_ne_true
  have hpriv : ¬ (hdrEng h = 3#2 ∧ (!((s.ctx g.ctx).priv || g.inPriv)) = true) := by
    rintro ⟨heng, hno⟩
    rcases hengine heng with h | h <;> simp [h] at hno
  have hrole : ¬ ((hdrEng h = 1#2 ∧ g.role ≠ 1) ∨ (hdrEng h = 2#2 ∧ g.role ≠ 0)) := by
    rintro (⟨heng, hno⟩ | ⟨heng, hno⟩)
    · exact hno (hrole1 heng)
    · exact hno (hrole2 heng)
  unfold clauseCheck
  extract_lets eng n c ctl
  rw [if_neg (by simp [hmark, hzero]), if_neg (Bool.eq_false_iff.mp hctl), if_neg (Bool.eq_false_iff.mp hlast), if_neg hpriv, if_neg hrole]

/-- A header without its marker, or with a bit where zeros stand, is ILLCL 0. -/
theorem clauseCheck_header {s : State} {g : Group} (e : Entry) {h : DWord} (ws : List DWord) (hbad : hdrMark h = false ∨ h.extractLsb' 0 38 ≠ 0) :
    clauseCheck s g e h ws = some { stage := 2, code := cILLCL, tfm := e.mask, taddr := e.h, tinfo := 0 } := by
  unfold clauseCheck
  extract_lets eng n c ctl
  refine if_pos ?_
  rcases hbad with hmark | hzero
  · rw [hmark]; rfl
  · exact Bool.or_eq_true_iff.mpr (.inr (bne_iff_ne.mpr hzero))

/-- Control flow before a clause's end is ILLCL 1. -/
theorem clauseCheck_inner {s : State} {g : Group} (e : Entry) {h : DWord} {ws : List DWord} (hmark : hdrMark h = true) (hzero : h.extractLsb' 0 38 = 0)
    (hctl : ∃ i, i + 1 < ws.length ∧ wordCtl (hdrEng h) (ws.getD i 0) = true) :
    clauseCheck s g e h ws = some { stage := 2, code := cILLCL, tfm := e.mask, taddr := e.h, tinfo := 1 } := by
  obtain ⟨i, hi, hword⟩ := hctl
  unfold clauseCheck
  extract_lets eng n c ctl
  rw [if_neg (by simp [hmark, hzero])]
  exact if_pos (List.any_eq_true.mpr ⟨i, List.mem_range.mpr (by omega), hword⟩)

/-! ## Clause starts -/

/-- A fetch that fills the instruction cache changes what reads change. -/
theorem State.fillIc_reads (s : State) (core ctx : Nat) (va : DWord) : ReadsOnly s (s.fillIc core ctx va) := by
  unfold State.fillIc
  split
  · next pa leaf htr =>
    extract_lets s1
    have h1 : ReadsOnly s s1 := State.fillTlb_reads s core ctx va.toNat
    split
    · exact h1
    · rename_i full keep n c s2 d _ _
      have hkeep : ReadsOnly s1 { s1 with icache := keep } := rfl
      have h2 : ReadsOnly s s2 := h1.trans (hkeep.trans ((State.readLine_reads ..).trans (State.countReads_reads ..)))
      split
      · exact h2.trans rfl
      · split
        · exact h2
        · exact h2.trans (ReadsOnly.trans (t := { s2 with icache := s2.icache ++ [c] }) rfl (State.setLine_reads ..))
  · exact .refl s

theorem State.fillClause_reads (s : State) (g : Group) (h : DWord) (n : Nat) : ReadsOnly s (s.fillClause g h n) := by
  induction n with
  | zero => exact State.fillIc_reads ..
  | succ n ih => exact ih.trans (State.fillIc_reads ..)

theorem ReadsOnly.group {s t : State} (h : ReadsOnly s t) (k : Nat) : t.group k = s.group k := by
  unfold ReadsOnly at h
  rw [h]
  rfl

/-- The clause that a warp starts (R55). -/
def startedClause (h : DWord) (ws : List DWord) : Clause := { eng := hdrEng h, cnt := hdrCnt h, yld := hdrYld h, ws := ws, dcw := hdrDcw h }

/-- No fault is held on a counter of a DCW (R58, R241). -/
theorem heldIn_of_free {g : Group} (m : Mask) {p : Nat → Bool} (h : ∀ k, p k = true → ∀ q ∈ g.held, q.1 ≠ k) : heldIn g m p = [] := by
  have hnone : (List.range 7).filterMap (fun k => if p k then (g.held.find? (fun q => q.1 == k)).map (fun q => heldCause m k q.2) else none) = [] := by
    refine List.filterMap_eq_nil_iff.mpr fun k _ => ?_
    split
    · next hk =>
      have hfind : g.held.find? (fun q => q.1 == k) = none := List.find?_eq_none.mpr fun q hq => by simpa using h k hk q hq
      rw [hfind]
      rfl
    · rfl
  unfold heldIn
  rw [hnone]

section
variable {s : State} {gid wid : Nat} {g : Group} {w : Warp} {e : Entry} {h : DWord} {ws : List DWord}
  (hstands : HeadStands s gid wid g w e) (hfetch : fetchClause s g e = .words h ws)
include hstands hfetch

/-- A clause whose framing is wrong traps at its head (R55). -/
theorem exec_clauseStart_trap {c : Cause} (hcheck : clauseCheck s g e h ws = some c) :
    exec (.clauseStart gid wid) s = .next (s.raise g (some w) (some e) c e.pc) := by
  change execClauseStart gid wid s = _
  unfold execClauseStart
  simp only [headOf_of_stands hstands, hfetch, hcheck]

variable (hok : ClauseOk s g h ws) (hmerge : (hdrRf h && !g.inHandler && (rfBlocked g wid e || decide (1 < (rfPeers g e).length))) = false)
  (hheld : heldIn g e.mask (fun k => decide (k < 6) && (hdrDcw h).getLsbD k) = [])
include hok hmerge hheld

/-- A clause waits for the counters of its DCW (R58). -/
theorem exec_clauseStart_waits (hopen : dcwOpen g (hdrDcw h) = true) : exec (.clauseStart gid wid) s = .next s := by
  change execClauseStart gid wid s = _
  unfold execClauseStart
  simp only [headOf_of_stands hstands, hfetch, clauseCheck_ok e hok, hmerge, hheld, hopen, Bool.false_eq_true, if_false, if_true]

/-- A clause starts (R55, R58). -/
theorem exec_clauseStart_starts (hopen : dcwOpen g (hdrDcw h) = false) :
    exec (.clauseStart gid wid) s = .next ((s.fillClause g e.h (hdrCnt h + 1)).setWarp gid wid
      (fun w => { w with entries := { e with cl := some (startedClause h ws) } :: w.entries.drop 1 })) := by
  change execClauseStart gid wid s = _
  unfold execClauseStart
  simp only [headOf_of_stands hstands, hfetch, clauseCheck_ok e hok, hmerge, hheld, hopen, Bool.false_eq_true, if_false]
  rfl
end

theorem dcwOpen_eq_true {g : Group} {dcw : BitVec 6} : dcwOpen g dcw = true ↔ ∃ i, i < 6 ∧ dcw.getLsbD i = true ∧ g.old.dcv i ≠ 0 := by
  simp [dcwOpen, List.any_eq_true]

/-- A head where no merge is due (R123). -/
theorem merge_not_due {g : Group} {wid : Nat} {e : Entry} {h : DWord}
    (hrf : hdrRf h = true → g.inHandler = false → rfBlocked g wid e = false ∧ (rfPeers g e).length ≤ 1) :
    (hdrRf h && !g.inHandler && (rfBlocked g wid e || decide (1 < (rfPeers g e).length))) = false := by
  rw [Bool.eq_false_iff]
  intro hdue
  simp only [Bool.and_eq_true, Bool.not_eq_true', Bool.or_eq_true, decide_eq_true_eq] at hdue
  obtain ⟨⟨hrf1, hout⟩, hmany⟩ := hdue
  obtain ⟨hfree, hone⟩ := hrf hrf1 hout
  rcases hmany with hblocked | hmany
  · exact Bool.false_ne_true (hfree.symm.trans hblocked)
  · omega

/-- A change of one warp after reads: the rest of the group, and of the machine, is as the reads leave it. -/
theorem ReadsOnly.setWarp {s u : State} {gid wid : Nat} {g : Group} {w : Warp} (h : ReadsOnly s u) (hg : s.group gid = some g) (hw : g.warp wid = some w)
    (f : Warp → Warp) (hf : ∀ w, (f w).wid = w.wid) : u.setWarp gid wid f = { Reached s (u.setWarp gid wid f) with groups := (u.setWarp gid wid f).groups } ∧
      OtherGroupsSame gid s (u.setWarp gid wid f) ∧ (u.setWarp gid wid f).group gid = some (g.setWarp wid f) ∧
      (g.setWarp wid f).warp wid = some (f w) ∧ ∀ q, q ≠ wid → (g.setWarp wid f).warp q = g.warp q := by
  have hid : ∀ g : Group, (g.setWarp wid f).gid = g.gid := fun g => Group.setWarp_gid g wid f
  refine ⟨?_, fun k hk => (State.group_setGroup_ne u gid k _ hid hk).trans (h.group k), ?_, ?_, fun q hq => find_updWhere_ne Warp.wid wid q f hf hq g.warps⟩
  · unfold ReadsOnly at h
    rw [h]
    rfl
  · exact (State.group_setGroup_self u gid _ hid).trans (congrArg (Option.map _) ((h.group gid).trans hg))
  · exact (find_updWhere_self Warp.wid wid f hf g.warps).trans (congrArg (Option.map f) hw)

/-- The first part of O42 (R55, R58). -/
theorem clausesStart (gid wid : Nat) : ClausesStart gid wid := by
  intro s g w e h ws hstands hfetch run traps
  have hgid : g.gid = gid := State.find_gid hstands.group
  have htraps : ∀ info, clauseCheck s g e h ws = some { stage := 2, code := cILLCL, tfm := e.mask, taddr := e.h, tinfo := info } → traps 0x02 info := by
    intro info hcheck hcan
    refine ⟨_, exec_clauseStart_trap hstands hfetch hcheck, ?_⟩
    have hgroup : s.group g.gid = some g := hgid ▸ hstands.group
    exact State.raise_entered (x := headIssue s g w e) (c := { stage := 2, code := cILLCL, tfm := e.mask, taddr := e.h, tinfo := info }) rfl hgroup
      (show cILLCL < 0x20 by decide) (show cILLCL ≠ cXLATE by decide) rfl hcan
  refine ⟨fun hok hrf hdcw => ?_, fun hok hrf hheld hopen => ?_, fun hbad => htraps 0 (clauseCheck_header e ws hbad),
    fun hmark hzero hctl => htraps 1 (clauseCheck_inner e hmark hzero hctl)⟩
  · have hheld : heldIn g e.mask (fun k => decide (k < 6) && (hdrDcw h).getLsbD k) = [] := by
      refine heldIn_of_free e.mask fun k hk => ?_
      rw [Bool.and_eq_true, decide_eq_true_eq] at hk
      exact (hdcw k hk.1 hk.2).2
    have hopen : dcwOpen g (hdrDcw h) = false := by
      rw [Bool.eq_false_iff]
      intro hopen
      obtain ⟨i, hi, hbit, hnot⟩ := dcwOpen_eq_true.mp hopen
      exact hnot (hdcw i hi hbit).1
    obtain ⟨hstate, hothers, hgroup, hwarp, hwarps⟩ := (State.fillClause_reads s g e.h (hdrCnt h + 1)).setWarp hstands.group hstands.warp
      (fun w => { w with entries := { e with cl := some (startedClause h ws) } :: w.entries.drop 1 }) fun _ => rfl
    exact ⟨_, _, exec_clauseStart_starts hstands hfetch hok (merge_not_due hrf) hheld hopen, hstate, hothers, hgroup, rfl, hwarp, hwarps⟩
  · have hmerge : (hdrRf h && !g.inHandler && (rfBlocked g wid e || decide (1 < (rfPeers g e).length))) = false :=
      merge_not_due fun hrf1 hout => by
        rcases hrf with hno | hin
        · exact absurd (hno.symm.trans hrf1) Bool.false_ne_true
        · exact absurd (hout.symm.trans hin) Bool.false_ne_true
    exact exec_clauseStart_waits hstands hfetch hok hmerge (heldIn_of_free e.mask fun k _ q hq => by simp [hheld] at hq) (dcwOpen_eq_true.mpr hopen)

/-! ## Merging at a clause head -/

/-- Sorting a frontier keeps its lanes where they stand (R121). -/
theorem Stands.sortEntries {es : List Entry} {l : Nat} {pc : DWord} {prio : BitVec 8} (h : Stands es l pc prio) : Stands (Machine.sortEntries es) l pc prio := by
  have hfold : ∀ (es acc : List Entry), Stands es l pc prio → Stands (es.foldl (fun acc e => Machine.mergeInto e acc) acc) l pc prio := by
    intro es
    induction es with
    | nil => exact fun _ ⟨_, hmem, _⟩ => absurd hmem List.not_mem_nil
    | cons d r ih =>
      intro acc hstands
      rw [List.foldl_cons]
      rcases stands_cons.mp hstands with ⟨hm, rfl, rfl⟩ | hrest
      · exact (stands_mergeInto_self hm acc).foldl_mergeInto r
      · exact ih _ hrest
  obtain ⟨d, hd, hm, hpc, hprio⟩ := h
  have hne : d.mask ≠ 0 := by rintro h0; simp [h0, Mask.has] at hm
  exact hfold _ [] ⟨d, List.mem_filter.mpr ⟨hd, by simpa using hne⟩, hm, hpc, hprio⟩

/-- The lanes `m` and those of a warp's first entry. -/
def firstMask (m : Mask) (w : Warp) : Mask := match w.first with | some x => m ||| x.mask | none => m

theorem has_firstMask_of_acc {m : Mask} {l : Nat} (h : Mask.has m l = true) (w : Warp) : Mask.has (firstMask m w) l = true := by
  unfold firstMask
  split
  · rw [Mask.has_or, h, Bool.true_or]
  · exact h

theorem has_foldl_firstMask {ws : List Warp} {w : Warp} {x : Entry} {l : Nat} (hw : w ∈ ws) (hx : w.first = some x) (hl : Mask.has x.mask l = true) (m : Mask) :
    Mask.has (ws.foldl firstMask m) l = true := by
  induction ws generalizing m with
  | nil => exact absurd hw List.not_mem_nil
  | cons v r ih =>
    rw [List.foldl_cons]
    rcases List.mem_cons.mp hw with rfl | hw
    · have hfirst : Mask.has (firstMask m w) l = true := by
        rw [firstMask, hx]
        exact (Mask.has_or ..).trans (by rw [hl, Bool.or_true])
      exact List.foldlRecOn (motive := fun a => Mask.has a l = true) r firstMask hfirst fun a ha v _ => has_firstMask_of_acc ha v
    · exact ih hw _

theorem mergeWarps_entries (ws : List Warp) (wid : Nat) (e : Entry) : (mergeWarps ws wid e).entries =
    sortEntries ({ e with mask := ws.foldl firstMask 0 } :: ws.flatMap (fun w => w.entries.drop 1)) := rfl

/-- A warp that stands at the head of entry `e` (R123). -/
theorem mem_rfPeers {g : Group} {e : Entry} {p : Warp} (h : p ∈ rfPeers g e) : ∃ x es, p.entries = x :: es ∧ x.pc = e.pc ∧ x.prio = e.prio := by
  have hp := (List.mem_filter.mp h).2
  cases hes : p.entries with
  | nil => simp [Warp.first, hes] at hp
  | cons x es =>
    simp only [Warp.first, hes, List.head?_cons, Bool.and_eq_true, beq_iff_eq] at hp
    obtain ⟨-, ⟨⟨hpc, -⟩, hprio⟩, -⟩ := hp
    exact ⟨x, es, rfl, hpc, hprio⟩

/-- The lanes of warps that merge stand where they stood (R123). -/
theorem mergeWarps_stands {g : Group} {e : Entry} (wid : Nat) {p : Warp} {a : Entry} {l : Nat} (hp : p ∈ rfPeers g e) (ha : a ∈ p.entries) (hl : Mask.has a.mask l = true) :
    Stands (mergeWarps (rfPeers g e) wid e).entries l a.pc a.prio := by
  obtain ⟨x, es, hes, hpc, hprio⟩ := mem_rfPeers hp
  rw [mergeWarps_entries]
  refine Stands.sortEntries ?_
  rw [hes] at ha
  rcases List.mem_cons.mp ha with rfl | ha
  · exact stands_cons.mpr (.inl ⟨has_foldl_firstMask hp (by rw [Warp.first, hes]; rfl) hl 0, hpc.symm, hprio.symm⟩)
  · exact stands_cons.mpr (.inr ⟨a, List.mem_flatMap.mpr ⟨p, hp, by rw [hes]; exact ha⟩, hl, rfl, rfl⟩)

/-- The warps of a group whose peers at a head have merged. -/
def Group.merged (ps : List Warp) (keep : Nat) (e : Entry) (g : Group) : Group :=
  { g with warps := g.warps.filter (fun w => !ps.any (fun q => q.wid == w.wid)) ++ [mergeWarps ps keep e] }

/-- No other warp can still reach the head of entry `e` (R123): each waits behind none of them. -/
theorem rfBlocked_peers {g : Group} {e : Entry} (wid : Nat)
    (hrest : ∀ q ∈ g.warps, (∀ p ∈ rfPeers g e, p.wid ≠ q.wid) → q.entries ≠ [] → q.parked = false ∧ ∀ a ∈ q.entries, a.prio.toNat ≤ e.prio.toNat) :
    rfBlocked { g with warps := g.warps.filter (fun w => w.wid == wid || !(rfPeers g e).any (fun q => q.wid == w.wid)) } wid e = false := by
  rw [rfBlocked, List.any_eq_false]
  intro q hq hblocked
  obtain ⟨hqg, hkept⟩ := List.mem_filter.mp hq
  rw [Bool.and_eq_true, bne_iff_ne, List.any_eq_true] at hblocked
  obtain ⟨hwid, a, ha, hlate⟩ := hblocked
  have hno : ∀ p ∈ rfPeers g e, p.wid ≠ q.wid := by
    rw [Bool.or_eq_true, beq_iff_eq] at hkept
    intro p hp hsame
    have hany : (rfPeers g e).any (fun p => p.wid == q.wid) = true := List.any_eq_true.mpr ⟨p, hp, beq_iff_eq.mpr hsame⟩
    rcases hkept with h | h
    · exact hwid h
    · rw [hany] at h
      exact Bool.false_ne_true h
  obtain ⟨hpark, hprio⟩ := hrest q hqg hno (List.ne_nil_of_mem ha)
  rw [Bool.or_eq_true, hpark, decide_eq_true_eq] at hlate
  rcases hlate with h | h
  · exact Bool.false_ne_true h
  · exact absurd h (Nat.not_lt.mpr (hprio a ha))

theorem exec_rfMerge {s : State} {gid wid : Nat} {g : Group} {w : Warp} {e : Entry} {h : DWord} (hstands : HeadStands s gid wid g w e)
    (hfetch : fetchWord s g.core g.ctx g.inPriv e.mask e.h = .word h) (hmark : hdrMark h = true) (hrf : hdrRf h = true) (hout : g.inHandler = false)
    (hmany : 2 ≤ (rfPeers g e).length)
    (hrest : ∀ q ∈ g.warps, (∀ p ∈ rfPeers g e, p.wid ≠ q.wid) → q.entries ≠ [] → q.parked = false ∧ ∀ a ∈ q.entries, a.prio.toNat ≤ e.prio.toNat) :
    exec (.rfMerge gid wid) s = .next (s.setGroup gid (Group.merged (rfPeers g e) (((rfPeers g e).map (fun p => p.wid)).min?.getD wid) e)) := by
  have hclear : (rfPeers g e).all (fun p => !rfBlocked { g with warps := g.warps.filter (fun w => w.wid == p.wid || !(rfPeers g e).any (fun q => q.wid == w.wid)) } p.wid e) = true :=
    List.all_eq_true.mpr fun p _ => by rw [rfBlocked_peers p.wid hrest]; rfl
  have hfew : decide ((rfPeers g e).length < 2) = false := decide_eq_false (by omega)
  change execRfMerge gid wid s = _
  unfold execRfMerge
  simp only [headOf_of_stands hstands, hfetch, hmark, hrf, hout, hfew, hclear, Bool.not_true, Bool.or_false, Bool.false_eq_true, if_false]
  rfl

/-- The second part of O42 (R123). -/
theorem warpsMerge (gid wid : Nat) : WarpsMerge gid wid := by
  intro s g w e h hstands hfetch hmark hrf hout hmany hrest
  have hexec := exec_rfMerge hstands hfetch hmark hrf hout hmany hrest
  generalize ((rfPeers g e).map (fun p => p.wid)).min?.getD wid = keep at hexec
  have hgid : ∀ k, (Group.merged (rfPeers g e) keep e k).gid = k.gid := fun _ => rfl
  have hgroup : (s.setGroup gid (Group.merged (rfPeers g e) keep e)).group gid = some (Group.merged (rfPeers g e) keep e g) :=
    (State.group_setGroup_self s gid _ hgid).trans (congrArg (Option.map _) hstands.group)
  refine ⟨_, _, mergeWarps (rfPeers g e) keep e, hexec, rfl, fun k hk => State.group_setGroup_ne s gid k _ hgid hk, hgroup, rfl, fun q => ?_, rfl, rfl, rfl,
    fun p hp a ha l hl => mergeWarps_stands keep hp ha hl⟩
  have hkept : (!(rfPeers g e).any (fun p => p.wid == q.wid)) = true ↔ ∀ p ∈ rfPeers g e, p.wid ≠ q.wid := by
    rw [Bool.not_eq_true', List.any_eq_false]
    exact forall₂_congr fun p _ => not_congr beq_iff_eq
  rw [Group.merged, List.mem_append, List.mem_filter, List.mem_singleton, hkept, or_comm]

end Sys2Proof.Machine
end

section
/-! The active set, the operand collector, and the errors of a core (R129, R130, R134, R136, R258, R266, R392). -/

namespace Sys2Proof.Machine
open Sys2Proof.Rules

/-! ## The active set -/

/-- A change of one group. -/
theorem State.setGroup_changes {s : State} {gid : Nat} {g : Group} (hg : s.group gid = some g) (f : Group → Group) (hf : ∀ g, (f g).gid = g.gid) :
    s.setGroup gid f = { s with groups := (s.setGroup gid f).groups } ∧ OtherGroupsSame gid s (s.setGroup gid f) ∧ (s.setGroup gid f).group gid = some (f g) :=
  ⟨rfl, fun k hk => State.group_setGroup_ne s gid k f hf hk, (State.group_setGroup_self s gid f hf).trans (congrArg (Option.map f) hg)⟩

/-- The third part of O42 (R129). -/
theorem groupsActivate (gid : Nat) : GroupsActivate gid := by
  intro s g hg hst hfew hfirst
  have hfull : decide (Config.activeGroups ≤ activeOn s g.core) = false := decide_eq_false (Nat.not_le.mpr hfew)
  have hlongest : s.groups.all (fun q => !(q.core == g.core && q.st == .ready) || decide (g.since ≤ q.since)) = true := by
    refine List.all_eq_true.mpr fun q hq => ?_
    cases hready : q.core == g.core && q.st == .ready with
    | false => rfl
    | true =>
      rw [Bool.and_eq_true, beq_iff_eq, beq_iff_eq] at hready
      exact decide_eq_true (hfirst q hq hready.1 hready.2)
  have hexec : exec (.groupActivate gid) s = .next (s.setGroup gid (fun g => { g with st := .active, since := s.bw, lastIssue := s.bw })) := by
    change execGroupActivate gid s = _
    unfold execGroupActivate
    simp only [hg, hst, hfull, hlongest]
    rfl
  exact ⟨_, hexec, State.setGroup_changes hg _ fun _ => rfl⟩

/-- A warp that waits for something outside it waits (R129, R130). -/
theorem warpWaits_of_outside {s : State} {g : Group} {w : Warp} (h : w.parked = true ∨ w.held = true ∨ g.mayRun w.wid = false ∨ WaitsOutside g w) :
    warpWaits s g w = true := by
  have houtside : WaitsOutside g w → w.wait.outside g = true := by
    unfold WaitsOutside
    cases w.wait with
    | waitdc n v => exact fun h => decide_eq_true h
    | none | other | fence | phase | bank => exact False.elim
    | _ => exact fun _ => rfl
  unfold warpWaits
  rcases h with h | h | h | h
  · simp [h]
  · simp [h]
  · simp [h]
  · simp [houtside h]

section
variable {s : State} {gid : Nat} {g : Group} (hg : s.group gid = some g) (hst : g.st = .active) (hstop : g.stopped = false)
include hg hst hstop

theorem exec_groupIdleTimeout_waits (hwaits : g.warps.all (warpWaits s g) = true) :
    exec (.groupIdleTimeout gid) s = .next (s.setGroup gid (fun g => { g with st := .waiting, since := s.bw })) := by
  change execGroupIdleTimeout gid s = _
  unfold execGroupIdleTimeout
  simp only [hg, hst, hstop, hwaits]
  rfl

/-- A group that has not issued for long gives its slot, at once or at the next clause boundary. -/
theorem exec_groupIdleTimeout_yields (hwaits : g.warps.all (warpWaits s g) = false) (hother : s.groups.any (fun q => q.core == g.core && q.st == .ready) = true)
    (hlong : g.lastIssue + fclkTicks s g.core 32 ≤ s.bw) : exec (.groupIdleTimeout gid) s = .next (s.setGroup gid (fun k =>
      if g.warps.any (fun w => w.inClause && !w.parked && g.mayRun w.wid) then { k with yieldDue := true } else { k with st := .ready, since := s.bw })) := by
  change execGroupIdleTimeout gid s = _
  unfold execGroupIdleTimeout
  simp only [hg, hst, hstop, hwaits, hother, decide_eq_true hlong]
  cases g.warps.any (fun w => w.inClause && !w.parked && g.mayRun w.wid) <;> rfl
end

/-- The fourth part of O42 (R129, R130). -/
theorem groupsIdle (gid : Nat) : GroupsIdle gid := by
  intro s g hg hst hstop
  refine ⟨fun hall => ?_, fun ⟨w, hw, hruns⟩ ⟨q, hq, hcore, hready⟩ hlong => ?_⟩
  · have hwaits : g.warps.all (warpWaits s g) = true := List.all_eq_true.mpr fun w hw => warpWaits_of_outside (hall w hw)
    exact ⟨_, exec_groupIdleTimeout_waits hg hst hstop hwaits, State.setGroup_changes hg _ fun _ => rfl⟩
  · have hwaits : g.warps.all (warpWaits s g) = false := List.all_eq_false.mpr ⟨w, hw, Bool.eq_false_iff.mp hruns⟩
    have hother : s.groups.any (fun q => q.core == g.core && q.st == .ready) = true :=
      List.any_eq_true.mpr ⟨q, hq, by rw [hcore, hready]; simp⟩
    have hexec := exec_groupIdleTimeout_yields hg hst hstop hwaits hother hlong
    obtain ⟨hframe, hothers, hgroup⟩ := State.setGroup_changes hg (fun k =>
      if g.warps.any (fun w => w.inClause && !w.parked && g.mayRun w.wid) then { k with yieldDue := true } else { k with st := .ready, since := s.bw })
      fun k => by split <;> rfl
    refine ⟨_, hexec, hframe, hothers, fun hbetween => ?_, fun ⟨v, hv, hin, hpark, hrun⟩ => ?_⟩
    · have hany : g.warps.any (fun w => w.inClause && !w.parked && g.mayRun w.wid) = false :=
        List.any_eq_false.mpr fun v hv => by simp [hbetween v hv]
      rw [hgroup, hany]
      rfl
    · have hany : g.warps.any (fun w => w.inClause && !w.parked && g.mayRun w.wid) = true :=
        List.any_eq_true.mpr ⟨v, hv, by rw [hin, hpark, hrun]; rfl⟩
      rw [hgroup, hany]
      rfl

/-- The fifth part of O42 (R136, R250). -/
theorem collectorsDispatch (core : Nat) : CollectorsDispatch core := by
  intro s g hfirst hg
  have hexec : exec (.collectorDispatch core) s =
      if (s.cluster (clusterOf core)).pend then .next s else .next (s.setGroup g.gid (fun g => { g with coll := g.coll - 1 })) := by
    change execCollectorDispatch core s = _
    unfold execCollectorDispatch
    simp only [hfirst]
  refine ⟨fun hpend => ?_, fun hpend => ?_⟩
  · rw [hpend] at hexec
    exact ⟨_, hexec, State.setGroup_changes hg _ fun _ => rfl⟩
  · rw [hpend] at hexec
    exact hexec

/-! ## Uncorrectable errors -/

theorem State.setCluster_cluster (s : State) (k : Nat) (f : Cluster → Cluster) (j : Nat) :
    (s.setCluster k f).cluster j = if j = k ∧ k < s.clusters.length then f (s.cluster k) else s.cluster j :=
  getD_modAt f k j s.clusters {}

theorem getLsbD_63_add {n : Nat} (h : n < 2 ^ 63) : (BitVec.ofNat 64 (2 ^ 63 + n)).getLsbD 63 = true := by
  rw [BitVec.getLsbD_ofNat, Nat.testBit_two_pow_add_eq, Nat.testBit_lt_two_pow h]
  rfl

/-- SERPT records that an uncorrectable error has come (R266). -/
theorem serptUe_recorded (core : Nat) {unit_ : Nat} (hu : unit_ < 16) (v : DWord) : (serptUe core unit_ v).getLsbD 63 = true := by
  unfold serptUe
  split
  · assumption
  · have hlow : core % 128 * 2 ^ 56 + (unit_ * 2 ^ 52 + v.toNat % 2 ^ 52) < 2 ^ 63 := by omega
    rw [Nat.add_assoc, Nat.add_assoc]
    exact getLsbD_63_add hlow

theorem State.serpt_recorded (s : State) (core : Nat) {unit_ : Nat} (hu : unit_ < 16) (h : core / 128 < s.clusters.length) :
    ((s.serpt core unit_).cluster (core / 128)).serpt.getLsbD 63 = true := by
  have hcluster : (s.serpt core unit_).cluster (core / 128) = _ := (State.setCluster_cluster s (clusterOf core) _ (core / 128)).trans (if_pos ⟨rfl, h⟩)
  rw [hcluster]
  exact serptUe_recorded core hu _

section
variable (site arg lanes : Nat) (s : State)

theorem exec_error_register {g : Group} (hg : s.group site = some g) (harg : arg < 256) (hgen : (g.vreg arg).isGen = true) :
    exec (.uncorrectableError 0 site arg lanes) s =
      .next ((s.setGroup site (fun g => g.setPois arg (g.vpois arg ||| (BitVec.ofNat 64 lanes &&& g.all)))).serpt g.core 0) := by
  change execUncorrectableError 0 site arg lanes s = _
  unfold execUncorrectableError
  simp only [hg]
  refine if_neg ?_
  rintro (h | h)
  · omega
  · rw [hgen] at h
    exact Bool.false_ne_true h

theorem exec_error_bank (hteam : HasTeam s site) (harg : arg < 1024 * (s.team site).banks.length) :
    exec (.uncorrectableError 1 site arg lanes) s =
      .next ((s.setTeam site (fun t => { t with spois := if t.spois.contains arg then t.spois else t.spois ++ [arg] })).serpt (s.team site).core 1) := by
  change execUncorrectableError 1 site arg lanes s = _
  unfold execUncorrectableError
  refine if_neg ?_
  rintro (h | h)
  · exact h (team_tid hteam)
  · omega

theorem exec_error_tile (hteam : HasTeam s site) (harg : arg < (s.team site).nt) :
    exec (.uncorrectableError 2 site arg lanes) s =
      .next ((s.setTeam site (fun t => { t with tiles := Amap.set {} t.tiles arg (Tile.poison (Amap.get {} t.tiles arg)) })).serpt (s.team site).core 2) := by
  change execUncorrectableError 2 site arg lanes s = _
  unfold execUncorrectableError
  refine if_neg ?_
  rintro (h | h)
  · exact h (team_tid hteam)
  · omega

theorem exec_error_block : exec (.uncorrectableError 6 site arg lanes) s = .next (if s.poison.contains site then s else { s with poison := s.poison ++ [site] }) := by
  change (if s.poison.contains site then Host.Outcome.next s else .next { s with poison := s.poison ++ [site] }) = _
  split <;> rfl
end

theorem Tile.poison_fcause (t : Tile) : t.poison.fcause ≠ 0 := by
  unfold Tile.poison
  split
  · exact (show cPOISON ≠ 0 by decide)
  · assumption

theorem Group.vpois_setPois (g : Group) (r : Nat) (m : Mask) (k : Nat) : (g.setPois r m).vpois k = if k = r then m else g.vpois k :=
  Amap.get_set g.vpoison r k m

theorem Mask.has_and (m k : Mask) (l : Nat) : Mask.has (m &&& k) l = (Mask.has m l && Mask.has k l) := BitVec.getLsbD_and

theorem Mask.has_ofNat (n : Nat) {l : Nat} (hl : l < 64) : Mask.has (BitVec.ofNat 64 n) l = n.testBit l := by
  rw [Mask.has, BitVec.getLsbD_ofNat, decide_eq_true hl, Bool.true_and]

/-- The sixth part of O42 (R266, R392). -/
theorem errorsPoison (site arg lanes : Nat) : ErrorsPoison site arg lanes := by
  intro s ue
  refine ⟨fun g hg harg hgen => ?_, fun hteam harg => ?_, fun hteam harg => ?_, ?_, ?_, ?_⟩
  · obtain ⟨-, hothers, hgroup⟩ := State.setGroup_changes hg (fun g => g.setPois arg (g.vpois arg ||| (BitVec.ofNat 64 lanes &&& g.all))) fun _ => rfl
    refine ⟨_, _, exec_error_register site arg lanes s hg harg hgen, rfl, hothers, hgroup, rfl, fun hlen => State.serpt_recorded _ g.core (by decide) hlen, fun r l hl => ?_⟩
    rw [Group.vpois_setPois]
    by_cases hr : r = arg
    · subst hr
      rw [if_pos rfl, Mask.has_or, Mask.has_and, Mask.has_ofNat lanes hl, decide_eq_true rfl, Bool.true_and]
    · rw [if_neg hr, decide_eq_false hr, Bool.false_and, Bool.false_and, Bool.or_false]
  · have hteams := State.setTeam_team s site (fun t => { t with spois := if t.spois.contains arg then t.spois else t.spois ++ [arg] }) (fun _ h => h) hteam site
    refine ⟨_, exec_error_bank site arg lanes s hteam harg, rfl, fun hlen => State.serpt_recorded _ _ (by decide) hlen, fun g => ?_⟩
    refine (iff_of_eq (congrArg (fun t : Team => g ∈ t.spois) (hteams.trans (if_pos rfl)))).trans ?_
    show g ∈ (if (s.team site).spois.contains arg then (s.team site).spois else (s.team site).spois ++ [arg]) ↔ _
    split
    · next hin =>
      exact ⟨.inr, fun h => h.elim (fun h => h ▸ List.contains_iff_mem.mp hin) id⟩
    · rw [List.mem_append, List.mem_singleton, or_comm]
  · have hteams := State.setTeam_team s site (fun t => { t with tiles := Amap.set {} t.tiles arg (Tile.poison (Amap.get {} t.tiles arg)) }) (fun _ h => h) hteam site
    refine ⟨_, exec_error_tile site arg lanes s hteam harg, rfl, fun hlen => State.serpt_recorded _ _ (by decide) hlen, ?_⟩
    refine (congrArg (fun t : Team => (Amap.get {} t.tiles arg).fcause ≠ 0) (hteams.trans (if_pos rfl))).mpr ?_
    show (Amap.get {} (Amap.set {} (s.team site).tiles arg _) arg).fcause ≠ 0
    rw [Amap.get_set_self]
    exact Tile.poison_fcause _
  · refine ⟨_, rfl, rfl, fun hlen => State.serpt_recorded _ site (by decide) hlen, fun l hl hcore hline => ?_⟩
    obtain ⟨q, -, rfl⟩ := List.mem_map.mp hl
    split at hcore
    · next hq => rw [if_pos hq]
    · next hq =>
      rw [if_neg hq] at hline
      exact absurd (Bool.and_eq_true_iff.mpr ⟨beq_iff_eq.mpr hcore, beq_iff_eq.mpr hline⟩) hq
  · refine ⟨_, rfl, rfl, fun hlen => State.serpt_recorded _ site (by decide) hlen, fun e => ?_⟩
    refine List.mem_filter.trans (and_congr_right fun _ => ?_)
    cases e.second <;> exact bne_iff_ne
  · refine ⟨_, exec_error_block site arg lanes s, ?_, fun b => ?_⟩
    · split <;> rfl
    · split
      · next hin => exact ⟨.inr, fun h => h.elim (fun h => h ▸ List.contains_iff_mem.mp hin) id⟩
      · exact List.mem_append.trans (by rw [List.mem_singleton, or_comm])

/-! ## Corrected errors -/

theorem serptField_cases (unit_ : Nat) : serptField unit_ = 0 ∨ serptField unit_ = 16 ∨ serptField unit_ = 32 := by
  unfold serptField
  split_ifs
  · exact .inl rfl
  · exact .inr (.inr rfl)
  · exact .inr (.inl rfl)

/-- One more in a count of SERPT that is not at its bound carries into no other count (R266). -/
theorem serpt_count {v f : Nat} (hf : f = 0 ∨ f = 16 ∨ f = 32) (hv : v < 2 ^ 64) (hfree : v / 2 ^ f % 2 ^ 16 + 1 < 2 ^ 16) :
    field (v + 2 ^ f) f 16 = v / 2 ^ f % 2 ^ 16 + 1 ∧ (v + 2 ^ f) / 2 ^ 48 = v / 2 ^ 48 ∧ v + 2 ^ f < 2 ^ 64 := by
  unfold field
  rcases hf with rfl | rfl | rfl
  · omega
  · omega
  · omega

section
variable (s : State) (core unit_ i : Nat)

/-- The machine after the TLB entry of a TLB's error has gone. -/
def State.tlbDropped : State := if unit_ = 4 then { s with tlb := s.tlb.eraseIdx (i % s.tlb.length) } else s

theorem State.tlbDropped_frame : s.tlbDropped unit_ i = { s with tlb := (s.tlbDropped unit_ i).tlb } := by
  unfold State.tlbDropped
  split <;> rfl

theorem State.tlbDropped_tlb : (∀ e ∈ (s.tlbDropped unit_ i).tlb, e ∈ s.tlb) ∧ (unit_ ≠ 4 → (s.tlbDropped unit_ i).tlb = s.tlb) := by
  unfold State.tlbDropped
  split
  · next h => exact ⟨fun _ he => List.mem_of_mem_eraseIdx he, fun hno => absurd h hno⟩
  · exact ⟨fun _ he => he, fun _ => rfl⟩

/-- SERPT of the core's cluster with one more corrected error of a unit (R266). -/
def State.serptNext : Nat :=
  if field (s.cluster (core / 128)).serpt.toNat (serptField unit_) 16 = 0xFFFF then (s.cluster (core / 128)).serpt.toNat
  else (s.cluster (core / 128)).serpt.toNat + 2 ^ serptField unit_

variable (hc : core / 128 < 64)
include hc

/-- A count below 0x8000 stays in SERPT. -/
theorem State.corrected_stays (h : field (s.serptNext core unit_) (serptField unit_) 16 < 0x8000) : s.corrected core unit_ i =
    (s.tlbDropped unit_ i).setCluster (core / 128) (fun k => { k with serpt := BitVec.ofNat 64 (s.serptNext core unit_) }) := by
  unfold State.corrected
  extract_lets f c v v' s1
  exact (if_neg (show ¬ 64 ≤ c from Nat.not_le.mpr hc)).trans (if_neg (Nat.not_le.mpr h))

/-- One that has reached 0x8000 goes to the log (R392). -/
theorem State.corrected_logs (h : 0x8000 ≤ field (s.serptNext core unit_) (serptField unit_) 16) : s.corrected core unit_ i =
    { (s.tlbDropped unit_ i).setCluster (core / 128) (fun k => { k with serpt := BitVec.ofNat 64 (s.serptNext core unit_ / 2 ^ 48 * 2 ^ 48) }) with
      pkg := { (s.tlbDropped unit_ i).pkg with serlog := (s.tlbDropped unit_ i).pkg.serlog ++ [(core / 128, s.serptNext core unit_ % 2 ^ 48)] } } := by
  unfold State.corrected
  extract_lets f c v v' s1
  exact (if_neg (show ¬ 64 ≤ c from Nat.not_le.mpr hc)).trans (if_pos h)

/-- Of a corrected error only the cluster's SERPT, the TLB and the log tell. -/
theorem State.corrected_frame : (∀ k, k ≠ core / 128 → (s.corrected core unit_ i).cluster k = s.cluster k) ∧
    (s.corrected core unit_ i).tlb = (s.tlbDropped unit_ i).tlb := by
  have hclusters : ∀ f k, k ≠ core / 128 → ((s.tlbDropped unit_ i).setCluster (core / 128) f).cluster k = s.cluster k := by
    intro f k hk
    rw [State.setCluster_cluster, if_neg fun h => hk h.1, State.tlbDropped_frame]
    rfl
  by_cases h : field (s.serptNext core unit_) (serptField unit_) 16 < 0x8000
  · rw [State.corrected_stays s core unit_ i hc h]
    exact ⟨hclusters _, rfl⟩
  · rw [State.corrected_logs s core unit_ i hc (Nat.le_of_not_lt h)]
    exact ⟨hclusters _, rfl⟩
end

/-- The seventh part of O42 (R134, R258, R266, R392). -/
theorem errorsCount (core unit_ i : Nat) : ErrorsCount core unit_ i := by
  intro s hlen hc c v f t
  obtain ⟨hothers, htlb⟩ := State.corrected_frame s core unit_ i hc
  obtain ⟨hsub, hsame⟩ := State.tlbDropped_tlb s unit_ i
  have hlen' : core / 128 < (s.tlbDropped unit_ i).clusters.length := by
    rw [State.tlbDropped_frame]
    exact hlen
  have hserpt : ∀ n : Nat, n < 2 ^ 64 →
      (((s.tlbDropped unit_ i).setCluster (core / 128) (fun k => { k with serpt := BitVec.ofNat 64 n })).cluster (core / 128)).serpt.toNat = n := by
    intro n hn
    rw [State.setCluster_cluster, if_pos ⟨rfl, hlen'⟩, BitVec.toNat_ofNat, Nat.mod_eq_of_lt hn]
  have hnext : v / 2 ^ f % 2 ^ 16 + 1 < 2 ^ 16 → s.serptNext core unit_ = v + 2 ^ f := fun h => if_neg (show ¬ v / 2 ^ f % 2 ^ 16 = 0xFFFF by omega)
  have hcount := fun h => serpt_count (serptField_cases unit_) (BitVec.isLt (s.cluster (core / 128)).serpt) (f := f) h
  refine ⟨hothers, fun e he => hsub e (htlb ▸ he), fun hunit => htlb.trans (hsame hunit), fun hlow => ?_, fun hhigh => ?_⟩
  · have hfree : v / 2 ^ f % 2 ^ 16 + 1 < 2 ^ 16 := lt_of_lt_of_le hlow (by decide)
    obtain ⟨hfield, -, hbound⟩ := hcount hfree
    have hstays := State.corrected_stays s core unit_ i hc (by rw [hnext hfree]; exact hfield ▸ hlow)
    rw [hnext hfree] at hstays
    rw [show t = _ from hstays]
    refine ⟨?_, hserpt _ hbound⟩
    rw [State.tlbDropped_frame]
    rfl
  · have hfree : v / 2 ^ f % 2 ^ 16 + 1 < 2 ^ 16 := lt_of_eq_of_lt hhigh (by decide)
    obtain ⟨hfield, hhead, hbound⟩ := hcount hfree
    have hlogs := State.corrected_logs s core unit_ i hc (by rw [hnext hfree]; exact (hfield.trans hhigh).ge)
    rw [hnext hfree, hhead] at hlogs
    rw [show t = _ from hlogs]
    refine ⟨?_, hserpt _ (lt_of_le_of_lt (Nat.div_mul_le_self ..) (BitVec.isLt _))⟩
    rw [State.tlbDropped_frame]
    rfl

end Sys2Proof.Machine
end

section
/-! The ports of a core and the passing of time (R126, R248, R249), and with them the steps of a core. -/

namespace Sys2Proof.Machine
open Sys2Proof.Rules

/-! ## Ports -/

/-- A warp inside a clause takes a port where it has not issued, a port is free, and no rival would issue (R126). -/
theorem State.portAllows_inside {s : State} {r : WarpRef} {g : Group} {w : Warp} {e : Entry} {es : List Entry} {cl : Clause} (hg : s.group r.gid = some g)
    (hw : g.warp r.wid = some w) (hes : w.entries = e :: es) (hcl : e.cl = some cl) :
    s.portAllows r = (!g.issued.contains w.wid && decide (issuedOn s g.core < 2) && (rivals s g w).all (fun q => !wouldIssue s q)) := by
  unfold State.portAllows
  simp only [hg, hw, Warp.first, hes, List.head?_cons, hcl, Option.isNone_some, Bool.false_or]

/-- A warp that stands inside a clause, has not issued and has waited longer is a rival. -/
theorem mem_rivals {s : State} {g h : Group} {w v : Warp} {a : Entry} (hh : h ∈ s.groups) (hcore : h.core = g.core) (hst : h.st = .active) (hv : v ∈ h.warps)
    (ha : v.first = some a) (hin : a.cl.isSome = true) (hfresh : v.wid ∉ h.issued) (hother : h.gid ≠ g.gid ∨ v.wid ≠ w.wid) (hlong : v.turn < w.turn) :
    ({ gid := h.gid, wid := v.wid } : WarpRef) ∈ rivals s g w := by
  have hbefore : before h v g w = true := by
    unfold before
    rw [if_pos (Nat.ne_of_lt hlong)]
    exact decide_eq_true hlong
  have hunissued : v ∈ h.unissued := by
    unfold Group.unissued
    rw [hst]
    refine List.mem_filter.mpr ⟨hv, ?_⟩
    simp only [ha, hin, Bool.and_true, Bool.not_eq_true']
    exact Bool.eq_false_iff.mpr fun h => hfresh (List.contains_iff_mem.mp h)
  have hnot : (!(h.gid == g.gid && v.wid == w.wid)) = true := by
    rcases hother with h | h <;> simp [h]
  exact List.mem_flatMap.mpr ⟨h, List.mem_filter.mpr ⟨hh, beq_iff_eq.mpr hcore⟩,
    List.mem_map.mpr ⟨v, List.mem_filter.mpr ⟨hunissued, by rw [hnot, hbefore]; rfl⟩, rfl⟩⟩

/-- The eighth part of O42 (R126). -/
theorem portsShare : PortsShare := by
  intro s r rest g w e cl hturn _ s' issued
  obtain ⟨hnext, hg, hw, ⟨es, hes⟩, hcl⟩ := hturn
  have hallows : s'.portAllows r = _ := State.portAllows_inside (s := s') hg hw hes hcl
  refine ⟨fun hport => ?_, fun hport => ?_, fun h v a hh hcore hst hv ha hin hfresh hother hlong hwould => ?_⟩
  · rw [hallows, Bool.and_eq_true, Bool.and_eq_true, Bool.not_eq_true', decide_eq_true_eq] at hport
    obtain ⟨⟨hfresh, hfree⟩, -⟩ := hport
    exact ⟨fun hin => Bool.eq_false_iff.mp hfresh (List.contains_iff_mem.mpr hin), hfree⟩
  · rw [step_of_agenda hnext]
    exact if_pos (by rw [show ({ s with agenda := rest } : State).portAllows r = false from hport]; rfl)
  · have hrival : ({ gid := h.gid, wid := v.wid } : WarpRef) ∈ rivals s' g w := mem_rivals (s := s') hh hcore hst hv ha hin hfresh hother hlong
    have hall : (rivals s' g w).all (fun q => !wouldIssue s' q) = false := List.all_eq_false.mpr ⟨_, hrival, by rw [hwould]; exact Bool.false_ne_true⟩
    rw [hallows, hall, Bool.and_false]

/-! ## Time -/

/-- A tick is due or stands, whatever else the agenda holds. -/
theorem step_tick {s : State} {rest : List Move} (h : s.agenda = .tick :: rest) :
    step s = .next (if ({ s with agenda := rest } : State).mustAct then { s with agenda := rest } else ({ s with agenda := rest } : State).tick) :=
  step_of_agenda h

/-- The clusters in which an FCLK cycle begins: none through a compute reset (R374). -/
def State.begins (s : State) : List Nat := if s.l2Off then [] else s.owing

theorem State.mem_begins {s : State} {k : Nat} : k ∈ s.begins ↔ s.pkg.reset = .idle ∧ k < s.clusters.length ∧ (s.cluster k).owed ≠ 0 := by
  unfold State.begins State.l2Off State.owing
  by_cases hreset : s.pkg.reset = .idle
  · simp [hreset]
  · simp [hreset]

theorem State.tick_bw {s : State} (h : s.begins = []) : s.tick =
    ({ s with bw := s.bw + 1, served := [], clusters := if s.l2Off then s.clusters else s.clusters.map Cluster.begin } : State).postDone.ackHosts :=
  if_pos (List.isEmpty_iff.mpr h)

theorem State.tick_fclk {s : State} (h : s.begins ≠ []) : s.tick =
    { s.startCycle s.begins with served := [], clusters := s.clusters.map (fun k => if k.owed = 0 then k else k.cycle) } :=
  if_neg fun hempty => h (List.isEmpty_iff.mp hempty)

/-- `t` is `s` with groups that may have been woken: their registers stand. -/
structure Woken (s t : State) : Prop where
  frame : t = { s with groups := t.groups }
  group : ∀ gid g, s.group gid = some g → ∃ h, t.group gid = some h ∧ h.v = g.v ∧ h.s = g.s ∧ h.core = g.core

theorem Woken.refl (s : State) : Woken s s := ⟨rfl, fun _ g hg => ⟨g, hg, rfl, rfl, rfl⟩⟩

theorem Woken.trans {s t u : State} (a : Woken s t) (b : Woken t u) : Woken s u := by
  refine ⟨by rw [b.frame, a.frame], fun gid g hg => ?_⟩
  obtain ⟨h, hh, hv, hs, hcore⟩ := a.group gid g hg
  obtain ⟨k, hk, hkv, hks, hkcore⟩ := b.group gid h hh
  exact ⟨k, hk, hkv.trans hv, hks.trans hs, hkcore.trans hcore⟩

theorem Woken.foldl {α : Type} {f : State → α → State} (hf : ∀ s a, Woken s (f s a)) (l : List α) (s : State) : Woken s (l.foldl f s) :=
  List.foldlRecOn (motive := Woken s) l f (Woken.refl s) fun _ ht a _ => ht.trans (hf _ a)

theorem State.setGroup_woken (s : State) (gid : Nat) (f : Group → Group) (hf : ∀ g, (f g).gid = g.gid ∧ (f g).v = g.v ∧ (f g).s = g.s ∧ (f g).core = g.core) :
    Woken s (s.setGroup gid f) := by
  refine ⟨rfl, fun k g hg => ?_⟩
  obtain ⟨hid, hv, hs, hcore⟩ := hf g
  by_cases hk : k = gid
  · subst hk
    exact ⟨f g, (State.group_setGroup_self s k f fun g => (hf g).1).trans (congrArg (Option.map f) hg), hv, hs, hcore⟩
  · exact ⟨g, (State.group_setGroup_ne s gid k f (fun g => (hf g).1) hk).trans hg, rfl, rfl, rfl⟩

theorem State.release_woken (s : State) (gid wid : Nat) : Woken s (s.release gid wid) :=
  (State.setGroup_woken s gid (fun g => g.setWarp wid fun w => { w with wait := .none, released := true }) fun _ => ⟨rfl, rfl, rfl, rfl⟩).trans
    (State.setGroup_woken _ gid _ fun _ => ⟨rfl, rfl, rfl, rfl⟩)

/-- The release of those that wait for a phase leaves registers (R160, R161). -/
theorem State.phaseWaiters_woken (s : State) (cs : List Nat) : Woken s (s.phaseWaiters cs) := by
  refine Woken.foldl (fun s g => ?_) s.groups s
  split
  · refine Woken.foldl (fun s w => ?_) g.warps s
    split
    · split
      · split
        · exact State.release_woken s g.gid w.wid
        · exact Woken.refl s
      · exact Woken.refl s
    · exact Woken.refl s
  · exact Woken.refl s

/-- A group of a cluster in which an FCLK cycle begins, or another. -/
def Group.cycled (cs : List Nat) (g : Group) : Group := if cs.contains (clusterOf g.core) then g.startCycle else g

theorem Group.cycled_gid (cs : List Nat) (g : Group) : (g.cycled cs).gid = g.gid := by
  unfold Group.cycled
  split <;> rfl

theorem Group.cycled_regs (cs : List Nat) (g : Group) : (g.cycled cs).v = g.v ∧ (g.cycled cs).s = g.s := by
  unfold Group.cycled
  split <;> exact ⟨rfl, rfl⟩

theorem Group.cycled_notes {cs : List Nat} {g : Group} (h : g.core / 128 ∈ cs) : (g.cycled cs).issued = [] ∧ (g.cycled cs).commits = [] := by
  unfold Group.cycled
  rw [show cs.contains (clusterOf g.core) = true from List.contains_iff_mem.mpr h]
  exact ⟨rfl, rfl⟩

/-- An FCLK cycle begins: registers stand, and what the groups note of the last cycle goes (R58, R99). -/
theorem State.startCycle_group {s : State} (cs : List Nat) {gid : Nat} {g : Group} (hg : s.group gid = some g) :
    ∃ h, (s.startCycle cs).group gid = some h ∧ h.v = g.v ∧ h.s = g.s ∧ (g.core / 128 ∈ cs → h.issued = [] ∧ h.commits = []) := by
  obtain ⟨h, hh, hv, hs, hcore⟩ := (State.phaseWaiters_woken s cs).group gid g hg
  obtain ⟨hcv, hcs⟩ := h.cycled_regs cs
  refine ⟨h.cycled cs, ?_, hcv.trans hv, hcs.trans hs, fun hin => Group.cycled_notes (by rw [hcore]; exact hin)⟩
  exact (find?_map_of_key Group.gid gid (Group.cycled cs) (fun g => (g.cycled_gid cs).symm ▸ rfl) (s.phaseWaiters cs).groups).trans
    (congrArg (Option.map (Group.cycled cs)) hh)

theorem getD_map_of_lt {α β : Type} (f : α → β) {l : List α} {k : Nat} (h : k < l.length) (d : α) (d' : β) : (l.map f).getD k d' = f (l.getD k d) := by
  simp [List.getD_eq_getElem?_getD, h]

/-- An FCLK cycle and its LCLK cycles, as R248 counts them. -/
theorem Cluster.cycle_eq (k : Cluster) : k.cycle = cycled k := by
  unfold Cluster.cycle cycled lclkOf
  cases k.pend with
  | false => rfl
  | true => cases k.draining <;> rfl

/-- The ninth part of O42 (R248, R249). -/
theorem timePasses : TimePasses := by
  intro s rest hnext s' owed
  have hbegins : ∀ k, k ∈ s'.begins ↔ owed k := fun k => State.mem_begins (s := s')
  have hstep := step_tick hnext
  refine ⟨fun hdue => ?_, fun hfree hnone => ?_, fun hfree ⟨k, hk⟩ => ?_⟩
  · rw [hstep]
    exact congrArg Host.Outcome.next (if_pos hdue)
  · have hnil : s'.begins = [] := List.eq_nil_iff_forall_not_mem.mpr fun k hk => hnone k ((hbegins k).mp hk)
    refine ⟨if s.l2Off then s.clusters else s.clusters.map Cluster.begin, ?_, ?_, fun k hk => ?_⟩
    · split
      · rfl
      · exact List.length_map ..
    · rw [hstep]
      exact congrArg Host.Outcome.next ((if_neg (Bool.eq_false_iff.mp hfree)).trans (State.tick_bw hnil))
    · by_cases hreset : s.pkg.reset = .idle
      · have hon : s.l2Off = false := by rw [State.l2Off, hreset]; rfl
        rw [hon, if_neg Bool.false_ne_true, if_pos hreset]
        exact getD_map_of_lt Cluster.begin hk {} {}
      · have hoff : s.l2Off = true := bne_iff_ne.mpr hreset
        rw [hoff, if_pos rfl, if_neg hreset]
        rfl
  · have hsome : s'.begins ≠ [] := List.ne_nil_of_mem ((hbegins k).mpr hk)
    have hwoken := (State.phaseWaiters_woken s' s'.begins).frame
    refine ⟨s'.tick, ?_, ?_, fun j hj => ?_, fun gid g hg => ?_⟩
    · rw [hstep]
      exact congrArg Host.Outcome.next (if_neg (Bool.eq_false_iff.mp hfree))
    · rw [State.tick_fclk hsome]
      unfold State.startCycle
      rw [hwoken]
    · rw [State.tick_fclk hsome]
      rw [← Cluster.cycle_eq]
      exact getD_map_of_lt (fun k : Cluster => if k.owed = 0 then k else k.cycle) hj {} {}
    · obtain ⟨h, hh, hv, hs, hnotes⟩ := State.startCycle_group (s := s') s'.begins hg
      refine ⟨h, ?_, hv, hs, fun howed => hnotes ((hbegins _).mpr howed)⟩
      rw [State.tick_fclk hsome]
      exact hh

/-- Settles O42: the steps of a core, one by one. -/
theorem coreStepsComplete : Obligations.CoreStepsComplete :=
  ⟨fun gid wid => ⟨clausesStart gid wid, warpsMerge gid wid⟩, fun gid => ⟨groupsActivate gid, groupsIdle gid⟩, collectorsDispatch,
    fun site arg lanes => ⟨errorsPoison site arg lanes, errorsCount site arg lanes⟩, portsShare, timePasses⟩

end Sys2Proof.Machine
end

section
/-! Instructions of register writes (R54, R73, R88, R89): what a plain outcome with readable sources makes of the machine, and the
results of 32 and of 64 bits. -/

namespace Sys2Proof.Machine
open Sys2Proof.Rules

/-! ## Outcomes without traps -/

/-- No lane traps where no flag that it raises is enabled (R34). -/
theorem fpxCauses_of_noTrap {x : Issue} {o : Out} (h : NoTrap x o.fl) : fpxCauses x o = [] := by
  have hlanes : x.act &&& Mask.where_ (fun l => o.fl l &&& x.g.old.fcr.extractLsb' 4 5 != 0#5) = 0 := by
    refine BitVec.eq_of_getLsbD_eq fun l hl => ?_
    have hw := Mask.has_where (fun l => o.fl l &&& x.g.old.fcr.extractLsb' 4 5 != 0#5) hl
    unfold Mask.has at hw
    rw [BitVec.getLsbD_and, hw]
    by_cases hact : x.act.getLsbD l = true
    · rw [h l hact]; simp
    · simp [hact]
  unfold fpxCauses
  simp only [hlanes, if_true]

/-- No lane raises a flag. -/
theorem noTrap_zero (x : Issue) : NoTrap x (fun _ => 0) := fun _ _ => BitVec.zero_and

theorem allFlags_zero (x : Issue) : allFlags x (fun _ => 0) = 0 := by
  unfold allFlags
  exact List.foldlRecOn (motive := fun m : FFlags => m = 0) _ _ rfl fun m hm _ _ => by rw [hm]; exact BitVec.or_zero

/-- Lanes that raise no flag leave FSR but for WOB. -/
theorem fsrGain_zero (x : Issue) (os : List Opr) : fsrGain x os (fun _ => 0) = wobFlag os := by
  rw [fsrGain, allFlags_zero]
  exact BitVec.zero_or

/-! ## Plain outcomes -/

/-- A plain outcome of readable sources: register writes, flags, magnitudes, and an effect `e` on the group (R32 to R35, R54). -/
theorem runIssue_plainOut {s : State} {i : Instr} {x : Issue} {prio : BitVec 8} {f : Issue → Out} (h : Issues s i x prio)
    {srcs : List Opr} {ws : List RegWrite} {fl : Nat → FFlags} {mags : List Nat} {eff : State → State} {rs : List RegId}
    (hf : f x = Out.ofSrcs x srcs { writes := ws, fl := fl, amax := mags, eff := eff }) (hr : Readable srcs) (hfree : Free x rs)
    (hdst : ∀ r ∈ ws.flatMap RegWrite.dst, r ∈ rs) (hnoP : ∀ w ∈ ws, w.noP) (htrap : NoTrap x fl) (e : Group → Group)
    (hgid : ∀ g, (e g).gid = g.gid) (hwarps : ∀ g, (e g).warps = g.warps) (heff : ∀ s, eff s = s.setGroup x.g.gid e) :
    ∃ t, runIssue s i f = .next t ∧
      Commits x prio (x.read srcs s) t (e ((ws.foldl Group.applyW x.g).commit x.act (fsrGain x srcs fl) mags)) := by
  have ho := hf.trans (Out.ofSrcs_readable hr { writes := ws, fl := fl, amax := mags, eff := eff } rfl rfl rfl)
  have hclean : Clean x (f x) := by
    rw [ho]
    exact ⟨rfl, rfl, rfl, lawar_nil hfree hdst, regBudget_nil hfree hdst, fpxCauses_of_noTrap htrap⟩
  have hwrites : (f x).writes = ws := by rw [ho]
  have heff' : ∀ s, (f x).eff s = s.setGroup x.g.gid e := by rw [ho]; exact heff
  have hnoP' : ∀ w ∈ (f x).writes, w.noP := by rw [hwrites]; exact hnoP
  have honly := commitOut_plain h.pos prio (o := f x) (by rw [ho]) (by rw [ho]) (by rw [ho]) (by rw [ho]) (by rw [ho]) hnoP' e hgid heff'
  have hgoes := commitOut_plain_goes h.pos prio (o := f x) (by rw [ho]) (by rw [ho]) (by rw [ho]) (by rw [ho]) (by rw [ho]) hnoP' e hgid
    hwarps heff'
  have hvas : readVas x.g.core x.g.ctx (f x).vas s = x.read srcs s := by rw [ho]; rfl
  have hfsr : (f x).fsr x = fsrGain x srcs fl := by rw [ho]; rfl
  have hmags : (f x).amax = mags := by rw [ho]
  rw [hvas, hwrites, hfsr, hmags] at honly
  exact ⟨_, runIssue_commit h hclean, honly, hgoes⟩

/-- Without an effect of its own. -/
theorem runIssue_writes {s : State} {i : Instr} {x : Issue} {prio : BitVec 8} {f : Issue → Out} (h : Issues s i x prio)
    {srcs : List Opr} {ws : List RegWrite} {fl : Nat → FFlags} {mags : List Nat} {rs : List RegId}
    (hf : f x = Out.ofSrcs x srcs { writes := ws, fl := fl, amax := mags }) (hr : Readable srcs) (hfree : Free x rs)
    (hdst : ∀ r ∈ ws.flatMap RegWrite.dst, r ∈ rs) (hnoP : ∀ w ∈ ws, w.noP) (htrap : NoTrap x fl) :
    ∃ t, runIssue s i f = .next t ∧
      Commits x prio (x.read srcs s) t (mags.foldl Group.updAmax ((ws.foldl Group.applyW x.g).orFsr (fsrGain x srcs fl))) := by
  obtain ⟨t, hrun, honly, hgoes⟩ := runIssue_plainOut h hf hr hfree hdst hnoP htrap (fun g => g) (fun _ => rfl) (fun _ => rfl)
    (fun s => (State.setGroup_id s _).symm)
  exact ⟨t, hrun, honly.commit, hgoes⟩

/-! ## Results of lanes -/

theorem put32_putCC_dst (x : Issue) (ext : Ext) (sh : Option VReg) (f : Nat → Word) (c z n v : Nat → Bool) :
    ∀ r ∈ (x.put32 ext sh f ++ x.putCC c z n v).flatMap RegWrite.dst, r ∈ x.dests 1 := by
  intro r hr
  rw [List.flatMap_append, List.mem_append] at hr
  rcases hr with hr | hr
  · exact put32_dst x _ _ _ r hr
  · exact mem_dests x 1 r (.inr (.inr (putCC_dst x _ _ _ _ r hr)))

theorem put64_putCC_dst (x : Issue) (uni : Bool) (f : Nat → DWord) (c z n v : Nat → Bool) :
    ∀ r ∈ (x.put64 uni f ++ x.putCC c z n v).flatMap RegWrite.dst, r ∈ x.dests 2 := by
  intro r hr
  rw [List.flatMap_append, List.mem_append] at hr
  rcases hr with hr | hr
  · exact put64_dst x _ _ r hr
  · exact mem_dests x 2 r (.inr (.inr (putCC_dst x _ _ _ _ r hr)))

/-- An instruction that writes a 32-bit result and its codes in each lane completes with them. -/
theorem runIssue_result32 {s : State} {i : Instr} {x : Issue} {prio : BitVec 8} {f : Issue → Out} (h : Issues s i x prio)
    {srcs : List Opr} {ext : Ext} {sh : Option VReg} {val : Nat → Word} {c z n v : Nat → Bool} {fl : Nat → FFlags} {mags : List Nat}
    (hf : f x = Out.ofSrcs x srcs { writes := x.put32 ext sh val ++ x.putCC c z n v, fl := fl, amax := mags }) (hr : Readable srcs)
    (hfree : Free x (x.dests 1)) (htrap : NoTrap x fl) (hsh : ∀ r, sh = some r → ∀ l, r.lane l = val l) :
    ∃ t g, runIssue s i f = .next t ∧ Commits x prio (x.read srcs s) t (mags.foldl Group.updAmax g) ∧
      Result32 x g ext val c z n v (fsrGain x srcs fl) := by
  obtain ⟨t, hrun, hcommits⟩ := runIssue_writes h hf hr hfree (put32_putCC_dst x _ _ _ _ _ _ _)
    (List.forall_mem_append.mpr ⟨put32_noP x _ _ _, putCC_noP x _ _ _ _⟩) htrap
  exact ⟨t, _, hrun, hcommits, put32_result x ext sh val c z n v _ hsh (position_full h.pos)⟩

/-- The same for 64-bit results. -/
theorem runIssue_result64 {s : State} {i : Instr} {x : Issue} {prio : BitVec 8} {f : Issue → Out} (h : Issues s i x prio)
    {srcs : List Opr} {uni : Bool} {val : Nat → DWord} {c z n v : Nat → Bool} {fl : Nat → FFlags} {mags : List Nat}
    (hf : f x = Out.ofSrcs x srcs { writes := x.put64 uni val ++ x.putCC c z n v, fl := fl, amax := mags }) (hr : Readable srcs)
    (hfree : Free x (x.dests 2)) (htrap : NoTrap x fl) (hsh : uni = true → ∀ l, val l = val 0) :
    ∃ t g, runIssue s i f = .next t ∧ Commits x prio (x.read srcs s) t (mags.foldl Group.updAmax g) ∧
      Result64 x g val c z n v (fsrGain x srcs fl) := by
  obtain ⟨t, hrun, hcommits⟩ := runIssue_writes h hf hr hfree (put64_putCC_dst x _ _ _ _ _ _)
    (List.forall_mem_append.mpr ⟨put64_noP x _ _, putCC_noP x _ _ _ _⟩) htrap
  exact ⟨t, _, hrun, hcommits, put64_result x uni val c z n v _ hsh (position_full h.pos)⟩

end Sys2Proof.Machine
end

section
/-! Rows of lane-by-lane instructions (R88, R89): a model's numbers for a lane against the spec's word and codes. -/

namespace Sys2Proof.Machine
open Sys2Proof.Rules

/-! ## A lane's number and codes -/

/-- A lane's outcome is the word `r` with the codes `k`. -/
structure CC.Gives {w : Nat} (c : CC) (r : BitVec w) (k : Codes) : Prop where
  word : BitVec.ofNat w c.r = r
  codes : (⟨c.c, c.z, c.n, c.v⟩ : Codes) = k

/-- A lane-by-lane outcome computes the row `k`, its shape included (R41, R88). -/
structure LaneRow (x : Issue) (o : Out) (k : Lane 32) : Prop where
  row : ∃ ext sh g, o = laneOut32 x ext k.srcs sh g ∧ (isS x.fd = true → ext = k.ext) ∧
    (∀ r, sh = some r → ∀ l, r.lane l = BitVec.ofNat 32 (g l).r) ∧ ∀ l, (g l).Gives (k.val l) (k.codes l)

/-- The extension matters to an S register alone (R88). -/
theorem put32_of_ext {x : Issue} {e k : Ext} (h : isS x.fd = true → e = k) (sh : Option VReg) (f : Nat → Word) :
    x.put32 e sh f = x.put32 k sh f := by
  by_cases hS : isS x.fd = true
  · rw [h hS]
  · simp only [Issue.put32, hS, Bool.false_eq_true, if_false]

/-- An instruction whose outcome is a row completes with it. -/
theorem runIssue_laneRow {s : State} {i : Instr} {x : Issue} {prio : BitVec 8} {f : Issue → Out} {k : Lane 32} (h : Issues s i x prio)
    (hrow : LaneRow x (f x) k) (hr : Readable k.srcs) (hfree : Free x (x.dests 1)) :
    ∃ t g, runIssue s i f = .next t ∧ Commits x prio (x.read k.srcs s) t g ∧
      Result32 x g k.ext k.val (fun l => (k.codes l).c) (fun l => (k.codes l).z) (fun l => (k.codes l).n) (fun l => (k.codes l).v)
        (wobFlag k.srcs) := by
  obtain ⟨ext, sh, g, ho, hext, hsh, hg⟩ := hrow.row
  have hval : (fun l => BitVec.ofNat 32 (g l).r) = k.val := funext fun l => (hg l).word
  have hcodes : ∀ l, k.codes l = ⟨(g l).c, (g l).z, (g l).n, (g l).v⟩ := fun l => (hg l).codes.symm
  rw [← hval]
  simp only [hcodes]
  rw [laneOut32, put32_of_ext hext] at ho
  obtain ⟨t, g', hrun, hcommits, hres⟩ := runIssue_result32 h ho hr hfree (noTrap_zero x) hsh
  rw [fsrGain_zero] at hres
  exact ⟨t, g', hrun, hcommits, hres⟩

/-! ## The shapes of operands -/

/-- Uniform operands read one value in every lane. -/
theorem at32_of_uni {p : Opr} (h : p.uni = true) (l : Nat) : p.at32 l = p.at32 0 := by
  rw [Opr.uni, Bool.and_eq_true] at h
  unfold Opr.at32
  cases hlo : p.lo with
  | uni b => rfl
  | _ => rw [hlo] at h; exact Bool.noConfusion h.1

theorem at64_of_uni {p : Opr} (h : p.uni = true) (l : Nat) : p.at64 l = p.at64 0 := by
  have hlow := at32_of_uni h l
  rw [Opr.uni, Bool.and_eq_true] at h
  unfold Opr.at32 at hlow
  unfold Opr.at64
  rw [hlow]
  cases hhi : p.hi with
  | uni b => rfl
  | _ => rw [hhi] at h; exact Bool.noConfusion h.2

/-- A shape made of uniform operands holds the one value that they give (R41). -/
theorem uniSh_lane {os : List Opr} {v : Word} {r : VReg} (h : uniSh os v = some r) : (∀ p ∈ os, p.uni = true) ∧ ∀ l, r.lane l = v := by
  unfold uniSh at h
  split at h
  · next hall =>
    cases h
    exact ⟨List.all_eq_true.mp hall, fun _ => rfl⟩
  · cases h

/-- A lane-by-lane operation of two operands whose result is uniform when they are. -/
theorem bin32_laneRow {x : Issue} {ext : Ext} {p q : Opr} {f : Nat → Nat → CC} {F : Word → Word → Word} {K : Word → Word → Word → Codes}
    (h : ∀ a b : Word, (f a.toNat b.toNat).Gives (F a b) (K (F a b) a b)) : LaneRow x (bin32 x ext p q f) (two ext p q F K) := by
  refine ⟨ext, _, _, rfl, fun _ => rfl, fun r hr l => ?_, fun l => h _ _⟩
  obtain ⟨huni, hlane⟩ := uniSh_lane hr
  rw [hlane, at32_of_uni (huni p (by simp)) l, at32_of_uni (huni q (by simp)) l]

theorem un32_laneRow {x : Issue} {ext : Ext} {p : Opr} {f : Nat → CC} {F : Word → Word} {K : Word → Word → Codes}
    (h : ∀ a : Word, (f a.toNat).Gives (F a) (K (F a) a)) : LaneRow x (un32 x ext p f) (one ext p F K) := by
  refine ⟨ext, _, _, rfl, fun _ => rfl, fun r hr l => ?_, fun l => h _⟩
  obtain ⟨huni, hlane⟩ := uniSh_lane hr
  rw [hlane, at32_of_uni (huni p (by simp)) l]

theorem tri32_laneRow {x : Issue} {ext : Ext} {p q r : Opr} {f : Nat → Nat → Nat → CC} {F : Word → Word → Word → Word}
    (h : ∀ a b c : Word, (f a.toNat b.toNat c.toNat).Gives (F a b c) (plain (F a b c))) :
    LaneRow x (tri32 x ext p q r f) (three ext p q r F) := by
  refine ⟨ext, _, _, rfl, fun _ => rfl, fun v hv l => ?_, fun l => h _ _ _⟩
  obtain ⟨huni, hlane⟩ := uniSh_lane hv
  rw [hlane, at32_of_uni (huni p (by simp)) l, at32_of_uni (huni q (by simp)) l, at32_of_uni (huni r (by simp)) l]

/-- An operation with an AFF shape of its own, whose lanes are its results. -/
theorem bin32sh_laneRow {x : Issue} {ext : Ext} {p q : Opr} {sh : Option VReg} {f : Nat → Nat → CC} {F : Word → Word → Word}
    {K : Word → Word → Word → Codes} (h : ∀ a b : Word, (f a.toNat b.toNat).Gives (F a b) (K (F a b) a b))
    (hsh : ∀ r, sh = some r → ∀ l, r.lane l = F (p.at32 l) (q.at32 l)) : LaneRow x (bin32sh x ext p q sh f) (two ext p q F K) := by
  refine ⟨ext, _, _, rfl, fun _ => rfl, fun r hr l => ?_, fun l => h _ _⟩
  split at hr
  · next v hv =>
    cases hr
    obtain ⟨huni, hlane⟩ := uniSh_lane hv
    rw [hlane, at32_of_uni (huni p (by simp)) l, at32_of_uni (huni q (by simp)) l]
  · rw [hsh r hr l, (h _ _).word]

end Sys2Proof.Machine
end

section
/-! Integer and address instructions (R89, R92, R93): the model's sums, differences and products of numbers are the spec's of words. -/

namespace Sys2Proof.Machine
open Sys2Proof.Rules

/-! ## Numbers and words -/

section
variable {w : Nat}

theorem sInt_toNat (hw : 0 < w) (a : BitVec w) : sInt a.toNat w = a.toInt := by
  obtain ⟨n, rfl⟩ : ∃ n, w = n + 1 := ⟨w - 1, by omega⟩
  have ha := a.isLt
  have hpow : 2 ^ (n + 1) = 2 * 2 ^ n := pow_succ' 2 n
  have hcast : ((2 ^ (n + 1) : Nat) : Int) = 2 ^ (n + 1) := by norm_cast
  rw [sInt, BitVec.toInt_eq_toNat_cond, Nat.mod_eq_of_lt ha, Nat.add_sub_cancel, hcast]
  split_ifs <;> omega

theorem rdI_toNat (hw : 0 < w) (u : Bool) (a : BitVec w) : rdI u a.toNat w = val u a := by
  cases u
  · exact sInt_toNat hw a
  · simp only [rdI, val, if_true, Nat.mod_eq_of_lt a.isLt]

theorem truncI_eq_toNat (i : Int) : truncI w i = (BitVec.ofInt w i).toNat := by
  rw [BitVec.toNat_ofInt, truncI]
  norm_cast

theorem ofNat_truncI (i : Int) : BitVec.ofNat w (truncI w i) = BitVec.ofInt w i := by
  rw [truncI_eq_toNat, BitVec.ofNat_toNat, BitVec.setWidth_eq]

/-- A word is the number that it reads as, whether signed or not. -/
theorem ofInt_val (u : Bool) (a : BitVec w) : BitVec.ofInt w (val u a) = a := by
  cases u
  · exact BitVec.ofInt_toInt
  · rw [val, if_pos rfl, BitVec.ofInt_natCast, BitVec.ofNat_toNat, BitVec.setWidth_eq]

theorem testBit_eq_msb (hw : 0 < w) (r : Nat) : r.testBit (w - 1) = (BitVec.ofNat w r).msb := by
  rw [BitVec.msb_eq_getLsbD_last, BitVec.getLsbD_ofNat, decide_eq_true (by omega), Bool.true_and]

theorem mod_beq_zero (r : Nat) : (r % 2 ^ w == 0) = (BitVec.ofNat w r == 0) := by
  rw [Bool.eq_iff_iff, beq_iff_eq, beq_iff_eq, ← BitVec.toNat_inj, BitVec.toNat_ofNat]
  rfl

theorem ofNat_mod (r : Nat) : BitVec.ofNat w (r % 2 ^ w) = BitVec.ofNat w r := BitVec.eq_of_toNat_eq (by simp)

theorem truncI_beq_zero (i : Int) : (truncI w i == 0) = (BitVec.ofInt w i == 0) := by
  rw [truncI_eq_toNat, Bool.eq_iff_iff, beq_iff_eq, beq_iff_eq, ← BitVec.toNat_inj]
  rfl

/-- A number out of a range is below or above it. -/
theorem decide_out_of_range (t lo hi : Int) : (decide (t < lo) || decide (hi - 1 < t)) = decide (¬ (lo ≤ t ∧ t < hi)) := by
  rw [← Bool.decide_or, decide_eq_decide]
  omega

/-! ## Codes -/

theorem addCC_gives (hw : 0 < w) (a b : BitVec w) (cin : Nat) : (addCC a.toNat b.toNat cin w).Gives (BitVec.ofNat w (a.toNat + b.toNat + cin))
    (sumCodes (BitVec.ofNat w (a.toNat + b.toNat + cin)) a b cin) := by
  unfold addCC sumCodes
  simp only [Nat.mod_eq_of_lt a.isLt, Nat.mod_eq_of_lt b.isLt, sInt_toNat hw]
  refine ⟨ofNat_mod _, ?_⟩
  simp only [mod_beq_zero, testBit_eq_msb hw, decide_out_of_range, ofNat_mod]

theorem subCC_gives (hw : 0 < w) (a b : BitVec w) (bin : Nat) : (subCC a.toNat b.toNat bin w).Gives (BitVec.ofInt w (a.toNat - b.toNat - bin))
    (diffCodes (BitVec.ofInt w (a.toNat - b.toNat - bin)) a b bin) := by
  unfold subCC diffCodes
  simp only [Nat.mod_eq_of_lt a.isLt, Nat.mod_eq_of_lt b.isLt, sInt_toNat hw]
  refine ⟨ofNat_truncI _, ?_⟩
  have hborrow : decide (0 ≤ (a.toNat : Int) - b.toNat - bin) = decide (b.toNat + bin ≤ a.toNat) := decide_eq_decide.mpr (by omega)
  simp only [testBit_eq_msb hw, decide_out_of_range, ofNat_truncI, truncI_beq_zero, hborrow]

theorem logicCC_gives (hw : 0 < w) (r : Nat) : (logicCC r w).Gives (BitVec.ofNat w r) (plain (BitVec.ofNat w r)) := by
  unfold logicCC plain
  refine ⟨ofNat_mod _, ?_⟩
  simp only [mod_beq_zero, testBit_eq_msb hw]
/-- The word of a logic operation. -/
theorem logicCC_gives_of (hw : 0 < w) {r : Nat} {v : BitVec w} (h : BitVec.ofNat w r = v) : (logicCC r w).Gives v (plain v) :=
  h ▸ logicCC_gives hw r

/-- With another result, C and V stay those of the exact operation (R89). -/
theorem withResult_gives (hw : 0 < w) {c : CC} {v : BitVec w} {k : Codes} (h : c.Gives v k) (r : Nat) :
    (c.withResult r w).Gives (BitVec.ofNat w r) { k with z := BitVec.ofNat w r == 0, n := (BitVec.ofNat w r).msb } := by
  obtain ⟨-, rfl⟩ := h
  unfold CC.withResult
  refine ⟨ofNat_mod _, ?_⟩
  simp only [mod_beq_zero, testBit_eq_msb hw]

theorem addCC_gives_add (hw : 0 < w) (a b : BitVec w) : (addCC a.toNat b.toNat 0 w).Gives (a + b) (sumCodes (a + b) a b 0) := by
  have h := addCC_gives hw a b 0
  rwa [show BitVec.ofNat w (a.toNat + b.toNat + 0) = a + b from BitVec.eq_of_toNat_eq (by simp)] at h

theorem ofInt_sub_toNat (a b : BitVec w) : BitVec.ofInt w ((a.toNat : Int) - b.toNat) = a - b := by
  rw [sub_eq_add_neg, BitVec.ofInt_add, BitVec.ofInt_neg, BitVec.ofInt_natCast, BitVec.ofInt_natCast, BitVec.ofNat_toNat, BitVec.ofNat_toNat,
    BitVec.setWidth_eq, BitVec.setWidth_eq, BitVec.sub_eq_add_neg]

theorem subCC_gives_sub (hw : 0 < w) (a b : BitVec w) : (subCC a.toNat b.toNat 0 w).Gives (a - b) (diffCodes (a - b) a b 0) := by
  have h := subCC_gives hw a b 0
  rwa [Nat.cast_zero, sub_zero, ofInt_sub_toNat] at h

/-! ## Sums and differences with saturation -/

/-- x + y, wrapping or saturating (R93). -/
theorem addOp_gives (hw : 0 < w) (u sat : Bool) (a b : BitVec w) :
    (addOp u sat w a.toNat b.toNat).Gives (if sat then clamp u w (val u a + val u b) else a + b)
      (sumCodes (if sat then clamp u w (val u a + val u b) else a + b) a b 0) := by
  have h := addCC_gives_add hw a b
  cases sat
  · exact h
  · have hsat := withResult_gives hw h (truncI w (satI (rdI u a.toNat w + rdI u b.toNat w) (loI u w) (hiI u w)))
    rw [ofNat_truncI] at hsat
    simp only [addOp, rdI_toNat hw, if_true] at hsat ⊢
    exact hsat

theorem subOp_gives (hw : 0 < w) (u sat : Bool) (a b : BitVec w) :
    (subOp u sat w a.toNat b.toNat).Gives (if sat then clamp u w (val u a - val u b) else a - b)
      (diffCodes (if sat then clamp u w (val u a - val u b) else a - b) a b 0) := by
  have h := subCC_gives_sub hw a b
  cases sat
  · exact h
  · have hsat := withResult_gives hw h (truncI w (satI (rdI u a.toNat w - rdI u b.toNat w) (loI u w) (hiI u w)))
    rw [ofNat_truncI] at hsat
    simp only [subOp, rdI_toNat hw, if_true] at hsat ⊢
    exact hsat

/-- A comparison writes −1, 0 or 1 with the codes of the difference (R89). -/
theorem cmpOp_gives (hw : 0 < w) (u : Bool) (a b : BitVec w) {r : Word}
    (hr : r = if val u a < val u b then 0xFFFFFFFF else if val u a = val u b then 0 else 1) :
    (cmpOp u w a.toNat b.toNat).Gives r (diffCodes (a - b) a b 0) := by
  obtain ⟨-, hcodes⟩ := subCC_gives_sub hw a b
  refine ⟨?_, hcodes⟩
  simp only [cmpOp, CC.value, rdI_toNat hw, hr]
  split_ifs <;> rfl

end

/-! ## The rows of 32 bits -/

theorem adcOp_gives (a b : Word) (c : Bool) : (addCC a.toNat b.toNat (if c then 1 else 0) 32).Gives (a + b + (if c then 1 else 0))
    (sumCodes (a + b + (if c then 1 else 0)) a b (if c then 1 else 0)) := by
  have h := addCC_gives (w := 32) (by decide) a b (if c then 1 else 0)
  rwa [show BitVec.ofNat 32 (a.toNat + b.toNat + if c then 1 else 0) = a + b + (if c then 1 else 0) from
    BitVec.eq_of_toNat_eq (by cases c <;> simp)] at h

theorem sbcOp_gives (a b : Word) (c : Bool) : (subCC a.toNat b.toNat (if c then 0 else 1) 32).Gives (a - b - (if c then 0 else 1))
    (diffCodes (a - b - (if c then 0 else 1)) a b (if c then 0 else 1)) := by
  have h := subCC_gives (w := 32) (by decide) a b (if c then 0 else 1)
  rwa [show BitVec.ofInt 32 ((a.toNat : Int) - b.toNat - (if c then 0 else 1 : Nat)) = a - b - (if c then 0 else 1) by
    rw [← ofInt_sub_toNat a b, sub_eq_add_neg (_ - _), BitVec.ofInt_add, BitVec.sub_eq_add_neg]; cases c <;> rfl] at h

theorem negOp_gives (a : Word) : (negOp a.toNat).Gives (-a) (diffCodes (-a) 0 a 0) := by
  have h := subCC_gives_sub (w := 32) (by decide) 0 a
  rwa [show 0 - a = -a from BitVec.zero_sub a] at h

theorem absOp_gives (a : Word) : (absOp a.toNat).Gives (if a.msb then -a else a)
    { plain (if a.msb then -a else a) with v := a == 0x80000000 } := by
  have hmag : BitVec.ofNat 32 a.toInt.natAbs = if a.msb then -a else a := by
    rw [BitVec.toInt_eq_msb_cond]
    split
    · have hle := a.isLt
      rw [show ((a.toNat : Int) - (2 ^ 32 : Nat)).natAbs = 2 ^ 32 - a.toNat by omega]
      exact BitVec.eq_of_toNat_eq (by simp)
    · simp
  obtain ⟨hword, hcodes⟩ := logicCC_gives_of (w := 32) (by decide) hmag
  unfold absOp
  rw [sInt_toNat (by decide)]
  refine ⟨hword, ?_⟩
  rw [← hcodes, Nat.mod_eq_of_lt a.isLt]
  congr 1
  rw [Bool.eq_iff_iff, beq_iff_eq, beq_iff_eq, ← BitVec.toNat_inj]
  rfl

theorem minOp_gives (u : Bool) (a b : Word) : (minOp u a.toNat b.toNat).Gives (if val u a ≤ val u b then a else b)
    (plain (if val u a ≤ val u b then a else b)) := by
  refine logicCC_gives_of (by decide) ?_
  rw [rdI_toNat (by decide), rdI_toNat (by decide)]
  split <;> simp

theorem maxOp_gives (u : Bool) (a b : Word) : (maxOp u a.toNat b.toNat).Gives (if val u a ≤ val u b then b else a)
    (plain (if val u a ≤ val u b then b else a)) := by
  refine logicCC_gives_of (by decide) ?_
  rw [rdI_toNat (by decide), rdI_toNat (by decide)]
  split <;> simp

theorem ofInt_val_mul {w : Nat} (u : Bool) (a b : BitVec w) : BitVec.ofInt w (val u a * val u b) = a * b := by
  rw [BitVec.ofInt_mul, ofInt_val, ofInt_val]

theorem mulOp_gives (u : Bool) (a b : Word) : (mulOp u a.toNat b.toNat).Gives (a * b)
    { plain (a * b) with v := decide (¬ (lo u 32 ≤ val u a * val u b ∧ val u a * val u b ≤ hi u 32)) } := by
  obtain ⟨hword, hcodes⟩ := logicCC_gives_of (w := 32) (by decide) (ofNat_truncI (val u a * val u b))
  rw [ofInt_val_mul] at hword hcodes
  unfold mulOp
  simp only [rdI_toNat (w := 32) (by decide)]
  refine ⟨hword, ?_⟩
  rw [← hcodes]
  congr 1
  rw [← Bool.decide_or, decide_eq_decide]
  exact ⟨fun h ⟨h1, h2⟩ => h.elim (not_lt.mpr h1) (not_lt.mpr h2), fun h => by by_contra hc; exact h ⟨not_lt.mp (hc ∘ .inl), not_lt.mp (hc ∘ .inr)⟩⟩

theorem mulhOp_gives (u : Bool) (a b : Word) : (mulhOp u a.toNat b.toNat).Gives ((BitVec.ofInt 64 (val u a * val u b)).extractLsb' 32 32)
    (plain ((BitVec.ofInt 64 (val u a * val u b)).extractLsb' 32 32)) := by
  refine logicCC_gives_of (by decide) ?_
  rw [rdI_toNat (by decide), rdI_toNat (by decide), truncI_eq_toNat, BitVec.extractLsb', Nat.shiftRight_eq_div_pow]

theorem madOp_gives (a b c : Word) : (madOp a.toNat b.toNat c.toNat).Gives (a * b + c) (plain (a * b + c)) := by
  refine logicCC_gives_of (by decide) ?_
  rw [sInt_toNat (by decide), sInt_toNat (by decide), sInt_toNat (by decide), ofNat_truncI, BitVec.ofInt_add, BitVec.ofInt_mul,
    BitVec.ofInt_toInt, BitVec.ofInt_toInt, BitVec.ofInt_toInt]

/-- A sum reads its operands modulo the width. -/
theorem addCC_mod (x y cin n : Nat) : addCC x (y % 2 ^ n) cin n = addCC x y cin n := by
  have hsigned : sInt (y % 2 ^ n) n = sInt y n := by rw [sInt, sInt, Nat.mod_mod]
  simp only [addCC, hsigned, Nat.mod_mod]

theorem leaOp_gives (sh : Nat) (a b : Word) : (leaOp sh a.toNat b.toNat).Gives (a + b <<< sh) (sumCodes (a + b <<< sh) a (b <<< sh) 0) := by
  have hshift : b.toNat * 2 ^ sh % 2 ^ 32 = (b <<< sh).toNat := by rw [BitVec.toNat_shiftLeft, Nat.shiftLeft_eq]
  rw [leaOp, ← addCC_mod, hshift]
  exact addCC_gives_add (by decide) a (b <<< sh)

/-- The width that ISAT takes from its second operand (R93). -/
theorem satI_width (b : Nat) : (satI b 1 32).toNat = max 1 (min 32 b) := by
  unfold satI
  omega

/-- ISAT's value before it is cut to a word. -/
def isatInt (u ux : Bool) (a b : Word) : Int :=
  max (lo u (max 1 (min 32 b.toNat))) (min (hi u (max 1 (min 32 b.toNat))) (val ux a))

theorem isatOp_gives (u ux : Bool) (a b : Word) : (isatOp u ux a.toNat b.toNat).Gives (BitVec.ofInt 32 (isatInt u ux a b))
    { plain (BitVec.ofInt 32 (isatInt u ux a b)) with v := decide (isatInt u ux a b ≠ val ux a) } := by
  obtain ⟨hword, hcodes⟩ := logicCC_gives_of (w := 32) (by decide) (ofNat_truncI (isatInt u ux a b))
  unfold isatOp
  simp only [satI_width, rdI_toNat (w := 32) (by decide)]
  exact ⟨hword, hcodes ▸ rfl⟩

/-! ## AFF shapes (R41) -/

theorem affAdd_lane {p q r : VReg} (h : affAdd p q = some r) (l : Nat) : r.lane l = p.lane l + q.lane l := by
  unfold affAdd at h
  split at h <;> cases h <;> simp only [VReg.lane]
  · ring
  · ring
  · ring

theorem affSub_lane {p q r : VReg} (h : affSub p q = some r) (l : Nat) : r.lane l = p.lane l - q.lane l := by
  unfold affSub at h
  split at h <;> cases h <;> simp only [VReg.lane]
  · ring
  · ring
  · ring

theorem affMul_lane {p q r : VReg} (h : affMul p q = some r) (l : Nat) : r.lane l = p.lane l * q.lane l := by
  unfold affMul at h
  split at h <;> cases h <;> simp only [VReg.lane]
  · ring
  · ring

/-! ## The outcomes -/

section
variable (x : Issue) (q : Issue → Opr)

theorem oAdd_laneRow : LaneRow x (oAdd q x) (addRow x (q x)) := by
  refine bin32sh_laneRow (addOp_gives (by decide) (x.mb 0) (x.mb 1)) fun r hr l => ?_
  cases hsat : x.mb 1
  · rw [hsat] at hr
    exact affAdd_lane hr l
  · rw [hsat] at hr
    cases hr

theorem oSub_laneRow : LaneRow x (oSub q x) (subRow x (q x)) := by
  refine bin32sh_laneRow (subOp_gives (by decide) (x.mb 0) (x.mb 1)) fun r hr l => ?_
  cases hsat : x.mb 1
  · rw [hsat] at hr
    exact affSub_lane hr l
  · rw [hsat] at hr
    cases hr

theorem oAdc_laneRow : LaneRow x (oAdc q x) (adcRow x (q x)) :=
  ⟨.s, none, _, rfl, fun _ => rfl, nofun, fun _ => adcOp_gives _ _ _⟩

theorem oSbc_laneRow : LaneRow x (oSbc q x) (sbcRow x (q x)) :=
  ⟨.s, none, _, rfl, fun _ => rfl, nofun, fun _ => sbcOp_gives _ _ _⟩

theorem oNeg_laneRow : LaneRow x (oNeg q x) (negRow (q x)) := by
  refine ⟨.s, _, _, rfl, fun _ => rfl, fun r hr l => ?_, fun l => negOp_gives _⟩
  rw [(negOp_gives _).word]
  split at hr
  · next b t hlo =>
    cases hr
    rw [Opr.at32, hlo]
    simp only [VReg.lane]
    ring
  · obtain ⟨huni, hlane⟩ := uniSh_lane hr
    rw [hlane, (negOp_gives _).word, at32_of_uni (huni _ (by simp)) l]

theorem oMul_laneRow : LaneRow x (oMul q x) (mulRow x (q x)) :=
  bin32sh_laneRow (mulOp_gives (x.mb 0)) fun _ hr l => affMul_lane hr l

theorem oIsat_laneRow : LaneRow x (oIsat q x) (isatRow x (q x)) := by
  unfold oIsat isatRow
  exact bin32_laneRow (isatOp_gives (x.mb 0) (x.mb 1))

theorem oCmp64_laneRow : LaneRow x (oCmp64 q x) (cmp64Row x (q x)) := by
  refine ⟨.s, _, _, rfl, fun _ => rfl, fun r hr l => ?_, fun l => cmpOp_gives (by decide) (x.mb 0) _ _ rfl⟩
  obtain ⟨huni, hlane⟩ := uniSh_lane hr
  rw [hlane, at64_of_uni (huni x.opX (by simp)) l, at64_of_uni (huni (q x) (by simp)) l]

end

/-- Every integer or address instruction of 32-bit results goes through the pipeline with its row (R92). -/
theorem exec_of_intLane {i : Instr} {x : Issue} {k : Lane 32} (h : intLane i x = some k) :
    ∃ f, (∀ s, exec i s = runIssue s i f) ∧ LaneRow x (f x) k := by
  cases i <;> cases h
  case iadd a => exact ⟨_, fun _ => rfl, oAdd_laneRow x _⟩
  case iaddImm a => exact ⟨_, fun _ => rfl, oAdd_laneRow x _⟩
  case isub a => exact ⟨_, fun _ => rfl, oSub_laneRow x _⟩
  case isubImm a => exact ⟨_, fun _ => rfl, oSub_laneRow x _⟩
  case iadc a => exact ⟨_, fun _ => rfl, oAdc_laneRow x _⟩
  case iadcImm a => exact ⟨_, fun _ => rfl, oAdc_laneRow x _⟩
  case isbc a => exact ⟨_, fun _ => rfl, oSbc_laneRow x _⟩
  case isbcImm a => exact ⟨_, fun _ => rfl, oSbc_laneRow x _⟩
  case ineg a => exact ⟨_, fun _ => rfl, oNeg_laneRow x _⟩
  case inegImm a => exact ⟨_, fun _ => rfl, oNeg_laneRow x _⟩
  case iabs a => exact ⟨_, fun _ => rfl, un32_laneRow absOp_gives⟩
  case iabsImm a => exact ⟨_, fun _ => rfl, un32_laneRow absOp_gives⟩
  case imin a => exact ⟨_, fun _ => rfl, bin32_laneRow (minOp_gives _)⟩
  case iminImm a => exact ⟨_, fun _ => rfl, bin32_laneRow (minOp_gives _)⟩
  case imax a => exact ⟨_, fun _ => rfl, bin32_laneRow (maxOp_gives _)⟩
  case imaxImm a => exact ⟨_, fun _ => rfl, bin32_laneRow (maxOp_gives _)⟩
  case imul a => exact ⟨_, fun _ => rfl, oMul_laneRow x _⟩
  case imulImm a => exact ⟨_, fun _ => rfl, oMul_laneRow x _⟩
  case imulh a => exact ⟨_, fun _ => rfl, bin32_laneRow (mulhOp_gives _)⟩
  case imulhImm a => exact ⟨_, fun _ => rfl, bin32_laneRow (mulhOp_gives _)⟩
  case imad a => exact ⟨_, fun _ => rfl, tri32_laneRow madOp_gives⟩
  case imadImm a => exact ⟨_, fun _ => rfl, tri32_laneRow madOp_gives⟩
  case icmp a => exact ⟨_, fun _ => rfl, bin32_laneRow fun _ _ => cmpOp_gives (by decide) _ _ _ rfl⟩
  case icmpImm a => exact ⟨_, fun _ => rfl, bin32_laneRow fun _ _ => cmpOp_gives (by decide) _ _ _ rfl⟩
  case isat a => exact ⟨_, fun _ => rfl, oIsat_laneRow x _⟩
  case isatImm a => exact ⟨_, fun _ => rfl, oIsat_laneRow x _⟩
  case lea a => exact ⟨_, fun _ => rfl, bin32_laneRow (leaOp_gives _)⟩
  case leaImm a => exact ⟨_, fun _ => rfl, bin32_laneRow (leaOp_gives _)⟩
  case icmp64 a => exact ⟨_, fun _ => rfl, oCmp64_laneRow x _⟩
  case icmp64Imm a => exact ⟨_, fun _ => rfl, oCmp64_laneRow x _⟩

/-- Settles O1: each instruction's outcome is its row, which the pipeline commits. -/
theorem integerRowsComplete : Obligations.IntegerRowsComplete := by
  unfold Obligations.IntegerRowsComplete
  intro i s x prio k _ h hk hr hfree
  obtain ⟨f, hexec, hrow⟩ := exec_of_intLane hk
  rw [hexec]
  exact runIssue_laneRow h hrow hr hfree

end Sys2Proof.Machine
end

section
/-! Logic, bit and move instructions (R94 to R97, R100): the model's numbers are the spec's words, bit by bit. -/

namespace Sys2Proof.Machine
open Sys2Proof.Rules

/-! ## Bits of numbers -/

/-- The number whose bit `i`, below `n`, is the digit `b i`. -/
def bitSum (b : Nat → Nat) (n : Nat) : Nat := (List.range n).foldl (fun r i => r + b i * 2 ^ i) 0

theorem bitSum_succ (b : Nat → Nat) (n : Nat) : bitSum b (n + 1) = 2 ^ n * b n + bitSum b n := by
  rw [bitSum, List.range_succ, List.foldl_append, List.foldl_cons, List.foldl_nil, Nat.add_comm, Nat.mul_comm]
  rfl

theorem bitSum_lt {b : Nat → Nat} (hb : ∀ i, b i < 2) (n : Nat) : bitSum b n < 2 ^ n := by
  induction n with
  | zero => exact Nat.one_pos
  | succ n ih =>
    have hdigit : 2 ^ n * b n ≤ 2 ^ n := by
      simpa using Nat.mul_le_mul_left (2 ^ n) (Nat.le_of_lt_succ (hb n))
    rw [bitSum_succ, pow_succ']
    omega

theorem testBit_digit {d : Nat} (h : d < 2) (j : Nat) : d.testBit j = (decide (j = 0) && decide (d = 1)) := by
  cases j with
  | zero => rw [Nat.testBit_zero, Nat.mod_eq_of_lt h]; simp
  | succ j => rw [Nat.testBit_succ, Nat.div_eq_of_lt h, Nat.zero_testBit]; simp

theorem testBit_bitSum {b : Nat → Nat} (hb : ∀ i, b i < 2) (n k : Nat) : (bitSum b n).testBit k = (decide (k < n) && decide (b k = 1)) := by
  induction n with
  | zero => simp [bitSum]
  | succ n ih =>
    rw [bitSum_succ, Nat.testBit_two_pow_mul_add _ (bitSum_lt hb n), ih, testBit_digit (hb n)]
    obtain hlt | rfl | hgt := Nat.lt_trichotomy k n
    · simp [hlt, Nat.lt_succ_of_lt hlt]
    · simp
    · simp [show ¬ k < n by omega, show ¬ k < n + 1 by omega, show k - n ≠ 0 by omega]

/-- A digit of a word is its bit. -/
theorem toNat_digit {w : Nat} (a : BitVec w) (i : Nat) : a.toNat / 2 ^ i % 2 = (a.getLsbD i).toNat :=
  (Nat.toNat_testBit a.toNat i).symm

/-- A word is given by its digits. -/
theorem ofNat_bitSum {w : Nat} {b : Nat → Nat} (hb : ∀ i, b i < 2) {v : BitVec w} (h : ∀ i, i < w → v.getLsbD i = decide (b i = 1)) :
    BitVec.ofNat w (bitSum b w) = v := by
  refine BitVec.eq_of_getLsbD_eq fun i hi => ?_
  rw [BitVec.getLsbD_ofNat, testBit_bitSum hb, h i hi, decide_eq_true hi, Bool.true_and, Bool.true_and]

/-- The word of a number that is a word's. -/
theorem logicCC_toNat_gives {w : Nat} (hw : 0 < w) (v : BitVec w) : (logicCC v.toNat w).Gives v (plain v) :=
  logicCC_gives_of hw (by rw [BitVec.ofNat_toNat, BitVec.setWidth_eq])

/-! ## Shifts -/

theorem shlOp_gives (a b : Word) : (shlOp a.toNat b.toNat).Gives (if b.toNat < 32 then a <<< b.toNat else 0)
    (plain (if b.toNat < 32 then a <<< b.toNat else 0)) := by
  refine logicCC_gives_of (by decide) ?_
  split
  · exact BitVec.eq_of_toNat_eq (by rw [BitVec.toNat_ofNat, BitVec.toNat_shiftLeft, Nat.shiftLeft_eq])
  · rfl

theorem shrOp_gives (a b : Word) : (shrOp a.toNat b.toNat).Gives (if b.toNat < 32 then a >>> b.toNat else 0)
    (plain (if b.toNat < 32 then a >>> b.toNat else 0)) := by
  unfold shrOp
  split
  · rw [← Nat.shiftRight_eq_div_pow, ← BitVec.toNat_ushiftRight]
    exact logicCC_toNat_gives (by decide) _
  · exact logicCC_gives_of (by decide) rfl

theorem sarOp_gives (a b : Word) : (sarOp a.toNat b.toNat).Gives (a.sshiftRight (min b.toNat 31)) (plain (a.sshiftRight (min b.toNat 31))) := by
  refine logicCC_gives_of (by decide) ?_
  have h := BitVec.toInt_sshiftRight (x := a) (n := min b.toNat 31)
  rw [Int.shiftRight_eq_div_pow] at h
  rw [ofNat_truncI, sInt_toNat (by decide), show ((2 : Int) ^ min b.toNat 31) = ((2 ^ min b.toNat 31 : Nat) : Int) by norm_cast, ← h,
    BitVec.ofInt_toInt]

theorem rotOp_gives (a b : Word) : (rotOp a.toNat b.toNat).Gives (a.rotateLeft (b.toNat % 32)) (plain (a.rotateLeft (b.toNat % 32))) := by
  refine logicCC_gives_of (by decide) ?_
  generalize hr : b.toNat % 32 = r
  have hr32 : r < 32 := hr ▸ Nat.mod_lt _ (by decide)
  have hlow : a.toNat / 2 ^ (32 - r) < 2 ^ r := by
    rw [Nat.div_lt_iff_lt_mul (by positivity), ← pow_add, Nat.add_sub_cancel' (by omega)]
    exact a.isLt
  have hhigh : a.toNat * 2 ^ r % 2 ^ 32 = 2 ^ r * (a.toNat % 2 ^ (32 - r)) := by
    rw [show 2 ^ 32 = 2 ^ r * 2 ^ (32 - r) by rw [← pow_add]; congr 1; omega, Nat.mul_comm, Nat.mul_mod_mul_left]
  refine BitVec.eq_of_toNat_eq ?_
  have hsum := Nat.two_pow_add_eq_or_of_lt hlow (a.toNat % 2 ^ (32 - r))
  rw [BitVec.rotateLeft_def, Nat.mod_eq_of_lt hr32, BitVec.toNat_or, BitVec.toNat_shiftLeft, BitVec.toNat_ushiftRight, Nat.shiftLeft_eq,
    Nat.shiftRight_eq_div_pow, hhigh, ← hsum, ← hhigh, BitVec.toNat_ofNat, Nat.mod_eq_of_lt]
  rw [hhigh, hsum, ← hhigh]
  refine Nat.or_lt_two_pow (Nat.mod_lt _ (by decide)) (hlow.trans_le (Nat.pow_le_pow_right (by decide) hr32.le))

theorem toNat_append_add {m n : Nat} (a : BitVec m) (b : BitVec n) : (a ++ b).toNat = a.toNat * 2 ^ n + b.toNat := by
  rw [BitVec.toNat_append, ← Nat.shiftLeft_add_eq_or_of_lt b.isLt, Nat.shiftLeft_eq]

theorem fshlOp_gives (a b c : Word) : (fshlOp a.toNat b.toNat c.toNat).Gives (fshl a b c) (plain (fshl a b c)) := by
  refine logicCC_gives_of (by decide) ?_
  unfold fshl
  refine BitVec.eq_of_toNat_eq ?_
  rw [BitVec.extractLsb'_toNat, BitVec.toNat_ofNat, BitVec.toNat_shiftLeft, Nat.shiftLeft_eq, Nat.shiftRight_eq_div_pow, toNat_append_add]
  omega

theorem fshrOp_gives (a b c : Word) : (fshrOp a.toNat b.toNat c.toNat).Gives (fshr a b c) (plain (fshr a b c)) := by
  refine logicCC_gives_of (by decide) ?_
  unfold fshr
  refine BitVec.eq_of_toNat_eq ?_
  rw [BitVec.extractLsb'_toNat, BitVec.toNat_ofNat, BitVec.toNat_ushiftRight, Nat.shiftRight_zero, Nat.shiftRight_eq_div_pow, toNat_append_add]

/-! ## Counts of bits -/

theorem clzAuxRec_eq_takeWhile {w : Nat} (x : BitVec w) {n : Nat} (hn : n < w) :
    x.clzAuxRec n = BitVec.ofNat w (w - 1 - n + ((List.range (n + 1)).reverse.takeWhile (fun i => !x.getLsbD i)).length) := by
  induction n with
  | zero =>
    rw [BitVec.clzAuxRec_zero]
    cases h : x.getLsbD 0
    · simp [h, show w - 1 + 1 = w by omega]
    · simp [h]
  | succ n ih =>
    rw [BitVec.clzAuxRec_succ, List.range_succ (n := n + 1), List.reverse_append]
    cases h : x.getLsbD (n + 1)
    · rw [ih (by omega)]
      simp [h]
      congr 1
      omega
    · simp [h]

theorem clz_eq_takeWhile {w : Nat} (hw : 0 < w) (x : BitVec w) :
    x.clz = BitVec.ofNat w ((List.range w).reverse.takeWhile (fun i => !x.getLsbD i)).length := by
  rw [BitVec.clz, clzAuxRec_eq_takeWhile x (by omega), Nat.sub_self, Nat.zero_add, Nat.sub_add_cancel hw]

theorem takeWhile_length_congr {p q : Nat → Bool} {l : List Nat} (h : ∀ i ∈ l, p i = q i) :
    (l.takeWhile p).length = (l.takeWhile q).length := by
  induction l with
  | nil => rfl
  | cons i l ih =>
    rw [List.takeWhile_cons, List.takeWhile_cons, h i (by simp)]
    split
    · rw [List.length_cons, List.length_cons, ih fun j hj => h j (by simp [hj])]
    · rfl

theorem reverse_range_eq_map (n : Nat) : (List.range n).reverse = (List.range n).map (fun i => n - 1 - i) := by
  rw [List.range_eq_range', List.reverse_range', List.range_eq_range']
  simp

theorem ctz_eq_takeWhile {w : Nat} (hw : 0 < w) (x : BitVec w) :
    x.ctz = BitVec.ofNat w ((List.range w).takeWhile (fun i => !x.getLsbD i)).length := by
  rw [BitVec.ctz, clz_eq_takeWhile hw, reverse_range_eq_map, List.takeWhile_map, List.length_map]
  congr 1
  refine takeWhile_length_congr fun i hi => ?_
  have hi := List.mem_range.mp hi
  simp only [Function.comp_apply, BitVec.getLsbD_reverse, BitVec.getMsbD, decide_eq_true (show w - 1 - i < w by omega), Bool.true_and,
    show w - 1 - (w - 1 - i) = i by omega]

/-! ## Bit fields -/

theorem brevOp_gives (a : Word) : (brevOp a.toNat).Gives a.reverse (plain a.reverse) := by
  refine logicCC_gives_of (by decide) ?_
  refine ofNat_bitSum (b := fun i => a.toNat / 2 ^ (31 - i) % 2) (fun i => Nat.mod_lt _ (by decide)) fun i hi => ?_
  rw [toNat_digit, BitVec.getLsbD_reverse, BitVec.getMsbD, decide_eq_true hi, Bool.true_and]
  cases a.getLsbD (31 - i) <;> rfl

/-- LUT3 picks a bit of the table by the lane's three bits (R95). -/
theorem getLsbD_lutVal (tbl : Nat) (d a b : Word) {i : Nat} (hi : i < 32) :
    (lutVal tbl d a b).getLsbD i = tbl.testBit (4 * (d.getLsbD i).toNat + 2 * (a.getLsbD i).toNat + (b.getLsbD i).toNat) := by
  simp only [lutVal, List.range, List.range.loop, List.foldl_cons, List.foldl_nil, apply_ite (BitVec.getLsbD · i), BitVec.getLsbD_or,
    BitVec.getLsbD_and, BitVec.getLsbD_not, hi, decide_true, Bool.true_and]
  cases d.getLsbD i <;> cases a.getLsbD i <;> cases b.getLsbD i <;> simp

theorem lut3Op_gives (tbl : Nat) (d a b : Word) : (lut3Op tbl d.toNat a.toNat b.toNat).Gives (lutVal tbl d a b) (plain (lutVal tbl d a b)) := by
  refine logicCC_gives_of (by decide) ?_
  refine ofNat_bitSum (b := fun i => tbl / 2 ^ (4 * (d.toNat / 2 ^ i % 2) + 2 * (a.toNat / 2 ^ i % 2) + b.toNat / 2 ^ i % 2) % 2)
    (fun i => Nat.mod_lt _ (by decide)) fun i hi => ?_
  simp only [toNat_digit, getLsbD_lutVal tbl d a b hi]
  rw [← Nat.toNat_testBit]
  cases tbl.testBit _ <;> rfl

/-- BFI's mask of the low `n` bits (R96). -/
def lowMask (n : Nat) : Word := if n < 32 then (1#32 <<< n) - 1 else 0xFFFFFFFF

theorem bfiVal_eq (d a p n : Word) : bfiVal d a p n =
    if 32 ≤ p.toNat then d else (d &&& ~~~(lowMask n.toNat <<< p.toNat)) ||| ((a &&& lowMask n.toNat) <<< p.toNat) := rfl

theorem getLsbD_lowMask (n : Nat) {i : Nat} (hi : i < 32) : (lowMask n).getLsbD i = decide (i < n) := by
  unfold lowMask
  split
  · next hn =>
    have hpow : (1#32 <<< n - 1).toNat = 2 ^ n - 1 := by
      have hlt : 2 ^ n < 2 ^ 32 := Nat.pow_lt_pow_right (by decide) hn
      have hpos : 0 < 2 ^ n := by positivity
      rw [BitVec.toNat_sub, BitVec.toNat_shiftLeft, Nat.shiftLeft_eq, show (1#32).toNat = 1 from rfl, show (1 : Word).toNat = 1 from rfl]
      omega
    rw [← BitVec.testBit_toNat, hpow, Nat.testBit_two_pow_sub_one]
  · next hn =>
    rw [show (0xFFFFFFFF : Word) = BitVec.allOnes 32 from rfl, BitVec.getLsbD_allOnes, decide_eq_true hi, decide_eq_true (by omega)]

/-- BFI takes a bit of the field from x, and every other from the old destination. -/
theorem getLsbD_bfiVal (d a p n : Word) {i : Nat} (hi : i < 32) : (bfiVal d a p n).getLsbD i =
    if p.toNat ≤ i ∧ i < p.toNat + min n.toNat 32 then a.getLsbD (i - p.toNat) else d.getLsbD i := by
  rw [bfiVal_eq]
  split
  · next hp => rw [if_neg (by omega)]
  · next hp =>
    simp only [BitVec.getLsbD_or, BitVec.getLsbD_and, BitVec.getLsbD_not, BitVec.getLsbD_shiftLeft, hi, decide_true, Bool.true_and,
      getLsbD_lowMask _ (show i - p.toNat < 32 by omega)]
    by_cases hlow : i < p.toNat
    · simp [hlow, show ¬ p.toNat ≤ i by omega]
    · by_cases hin : i - p.toNat < n.toNat
      · simp [hlow, hin, show p.toNat ≤ i ∧ i < p.toNat + min n.toNat 32 by omega]
      · rw [if_neg (by omega)]
        simp [hlow, hin]

theorem bfiOp_gives (d a p n : Word) : (bfiOp d.toNat a.toNat p.toNat n.toNat).Gives (bfiVal d a p n) (plain (bfiVal d a p n)) := by
  refine logicCC_gives_of (by decide) ?_
  refine ofNat_bitSum (b := fun i => if p.toNat ≤ i ∧ i < p.toNat + min n.toNat 32 then a.toNat / 2 ^ (i - p.toNat) % 2 else d.toNat / 2 ^ i % 2)
    (fun i => by split <;> exact Nat.mod_lt _ (by decide)) fun i hi => ?_
  have hdigit (b : Bool) : b = decide (b.toNat = 1) := by cases b <;> rfl
  simp only [toNat_digit, getLsbD_bfiVal d a p n hi]
  split <;> exact hdigit _

/-! ## Fields extended to words -/

theorem shl_ushiftRight_toNat (v : Word) {n : Nat} (hn : n ≤ 32) : (v <<< (32 - n) >>> (32 - n)).toNat = v.toNat % 2 ^ n := by
  rw [BitVec.toNat_ushiftRight, BitVec.toNat_shiftLeft, Nat.shiftLeft_eq, Nat.shiftRight_eq_div_pow,
    show 2 ^ 32 = 2 ^ n * 2 ^ (32 - n) by rw [← pow_add]; congr 1; omega, Nat.mul_mod_mul_right, Nat.mul_div_cancel _ (by positivity)]

theorem shl_sshiftRight (v : Word) {n : Nat} (h0 : 0 < n) (hn : n ≤ 32) :
    (v <<< (32 - n)).sshiftRight (32 - n) = (v.setWidth n).signExtend 32 := by
  refine BitVec.eq_of_getLsbD_eq fun i hi => ?_
  rw [BitVec.getLsbD_sshiftRight, BitVec.getLsbD_signExtend, BitVec.getLsbD_shiftLeft, BitVec.getLsbD_setWidth, BitVec.msb_eq_getLsbD_last,
    BitVec.msb_eq_getLsbD_last, BitVec.getLsbD_shiftLeft, BitVec.getLsbD_setWidth]
  by_cases hin : i < n
  · simp [hi, hin, show 32 - n + i < 32 by omega]
  · simp [hin, hi, show ¬ 32 ≤ i by omega, show ¬ 31 < 32 - n by omega, show ¬ 32 - n + i < 32 by omega, show 31 - (32 - n) = n - 1 by omega, h0]

/-- The signed value of a word's low `n` bits. -/
theorem ofInt_sInt_low (v : Word) {n : Nat} (h0 : 0 < n) (hn : n ≤ 32) :
    BitVec.ofInt 32 (sInt v.toNat n) = (v <<< (32 - n)).sshiftRight (32 - n) := by
  have hmod : sInt v.toNat n = sInt (v.setWidth n).toNat n := by rw [BitVec.toNat_setWidth, sInt, sInt, Nat.mod_mod]
  rw [shl_sshiftRight v h0 hn, hmod, sInt_toNat h0, BitVec.signExtend]

theorem toNat_low (v : Word) {n : Nat} (hn : n ≤ 32) : BitVec.ofNat 32 (v.toNat % 2 ^ n) = v <<< (32 - n) >>> (32 - n) := by
  rw [← shl_ushiftRight_toNat v hn, BitVec.ofNat_toNat, BitVec.setWidth_eq]

/-- SXT and ZXT of a field as wide as a word, or wider, keep it (R97). -/
theorem extend_of_wide (sx : Bool) {w : Nat} (hw : 2 ≤ w) (a : Word) : extend sx w a = a := by
  have hpow : 2 ^ 2 ≤ 2 ^ w := Nat.pow_le_pow_right (by decide) hw
  unfold extend
  simp [show 32 - 8 * 2 ^ w = 0 by omega]

theorem extend_of_narrow (sx : Bool) {w : Nat} (hw : w < 2) (a : Word) : extend sx w a =
    if sx then BitVec.ofInt 32 (sInt a.toNat (8 * 2 ^ w)) else BitVec.ofNat 32 (a.toNat % 2 ^ (8 * 2 ^ w)) := by
  have hn : 8 * 2 ^ w ≤ 32 := by interval_cases w <;> decide
  rw [ofInt_sInt_low a (by positivity) hn, toNat_low a hn]
  rfl

theorem sxtOp_gives (w : Nat) (a : Word) : (logicCC (truncI 32 (sInt a.toNat (8 * 2 ^ w))) 32).Gives (extend true w a) (plain (extend true w a)) := by
  refine logicCC_gives_of (by decide) ?_
  rw [ofNat_truncI]
  by_cases hw : w < 2
  · exact (extend_of_narrow true hw a).symm
  · have hpow : 2 ^ 2 ≤ 2 ^ w := Nat.pow_le_pow_right (by decide) (by omega)
    rw [extend_of_wide true (by omega)]
    by_cases h32 : w = 2
    · rw [h32, show 8 * 2 ^ 2 = 32 by norm_num, sInt_toNat (by decide), BitVec.ofInt_toInt]
    · have hpow : 2 ^ 3 ≤ 2 ^ w := Nat.pow_le_pow_right (by decide) (by omega)
      have hlt : a.toNat < 2 ^ (8 * 2 ^ w - 1) := a.isLt.trans_le (Nat.pow_le_pow_right (by decide) (by omega))
      have hle : a.toNat < 2 ^ (8 * 2 ^ w) := hlt.trans_le (Nat.pow_le_pow_right (by decide) (by omega))
      rw [sInt, Nat.mod_eq_of_lt hle, if_pos hlt, BitVec.ofInt_natCast, BitVec.ofNat_toNat, BitVec.setWidth_eq]

theorem zxtOp_gives (w : Nat) (a : Word) : (logicCC (a.toNat % 2 ^ (8 * 2 ^ w)) 32).Gives (extend false w a) (plain (extend false w a)) := by
  refine logicCC_gives_of (by decide) ?_
  by_cases hw : w < 2
  · exact (extend_of_narrow false hw a).symm
  · have hpow : 2 ^ 2 ≤ 2 ^ w := Nat.pow_le_pow_right (by decide) (by omega)
    rw [extend_of_wide false (by omega), Nat.mod_eq_of_lt (a.isLt.trans_le (Nat.pow_le_pow_right (by decide) (by omega))), BitVec.ofNat_toNat,
      BitVec.setWidth_eq]

/-- What BFX shifts: its source read signed or unsigned, far enough out (R96). -/
def bfxSource (sx : Bool) (a p : Word) : BitVec 128 := (if sx then a.signExtend 128 else a.zeroExtend 128) >>> (min p.toNat 64)

theorem bfxVal_eq (sx : Bool) (a p n : Word) : bfxVal sx a p n = if min n.toNat 32 = 0 then 0 else if sx then
      ((bfxSource sx a p).extractLsb' 0 32 <<< (32 - min n.toNat 32)).sshiftRight (32 - min n.toNat 32)
    else (bfxSource sx a p).extractLsb' 0 32 <<< (32 - min n.toNat 32) >>> (32 - min n.toNat 32) := rfl

/-- The low bits of the shifted source. -/
theorem bfxSource_low (sx : Bool) (a p : Word) {n : Nat} (hn : n ≤ 32) :
    truncI n ((if sx then a.toInt else (a.toNat : Int)) / 2 ^ min p.toNat 64) = ((bfxSource sx a p).extractLsb' 0 32).toNat % 2 ^ n := by
  have hp : min p.toNat 64 ≤ 64 := min_le_right _ _
  have hcast : ((2 : Int) ^ min p.toNat 64) = ((2 ^ min p.toNat 64 : Nat) : Int) := by norm_cast
  rw [← BitVec.toNat_setWidth, truncI_eq_toNat, BitVec.toNat_inj, hcast, ← Int.shiftRight_eq_div_pow]
  refine BitVec.eq_of_getLsbD_eq fun i hi => ?_
  unfold bfxSource
  rw [BitVec.getLsbD_setWidth, BitVec.getLsbD_extractLsb', BitVec.getLsbD_ushiftRight]
  cases sx
  · rw [if_neg (by decide), if_neg (by decide), show ((a.toNat : Int) >>> min p.toNat 64) = ((a.toNat >>> min p.toNat 64 : Nat) : Int) from rfl,
      BitVec.ofInt_natCast, BitVec.getLsbD_ofNat, Nat.testBit_shiftRight,
      BitVec.zeroExtend_eq_setWidth, BitVec.getLsbD_setWidth]
    simp [hi, show i < 32 by omega, show min p.toNat 64 + i < 128 by omega, BitVec.testBit_toNat]
  · rw [if_pos rfl, if_pos rfl, ← BitVec.toInt_sshiftRight, ← BitVec.signExtend, BitVec.getLsbD_signExtend, BitVec.getLsbD_signExtend,
      BitVec.getLsbD_sshiftRight]
    simp [hi, show i < 32 by omega, show ¬ 32 ≤ i by omega, show min p.toNat 64 + i < 128 by omega]

theorem bfxOp_gives (sx : Bool) (a p n : Word) : (bfxOp sx a.toNat p.toNat n.toNat).Gives (bfxVal sx a p n) (plain (bfxVal sx a p n)) := by
  rw [bfxVal_eq]
  unfold bfxOp
  have hn : min n.toNat 32 ≤ 32 := min_le_right _ _
  simp only [sInt_toNat (w := 32) (by decide), bfxSource_low sx a p hn]
  split
  · exact logicCC_gives_of (by decide) rfl
  · next h0 =>
    refine logicCC_gives_of (by decide) ?_
    cases sx
    · exact toNat_low _ hn
    · rw [if_pos rfl, if_pos rfl, ofNat_truncI, ← ofInt_sInt_low _ (by omega) hn, sInt, sInt, Nat.mod_mod]

/-! ## Bytes and halves -/

/-- The byte that nibble `b` of z names, or eight copies of its top bit (R96). -/
def prmbByte (a b z : Word) (k : Nat) : BitVec 8 :=
  let q := z.extractLsb' (4 * k) 4
  let e := (b ++ a : DWord).extractLsb' (8 * (q.toNat % 8)) 8
  if q.msb then (if e.msb then 0xFF else 0) else e

theorem toNat_extractLsb'_eq_field {w : Nat} (v : BitVec w) (i n : Nat) : (v.extractLsb' i n).toNat = field v.toNat i n := by
  rw [BitVec.extractLsb'_toNat, Nat.shiftRight_eq_div_pow, field]

theorem prmbByte_toNat (a b z : Word) (k : Nat) : (prmbByte a b z k).toNat =
    if field z.toNat (4 * k) 4 < 8 then field (a.toNat + b.toNat * 2 ^ 32) (8 * (field z.toNat (4 * k) 4 % 8)) 8
    else if 128 ≤ field (a.toNat + b.toNat * 2 ^ 32) (8 * (field z.toNat (4 * k) 4 % 8)) 8 then 255 else 0 := by
  have hbyte (q : Nat) : ((b ++ a : DWord).extractLsb' (8 * q) 8).toNat = field (a.toNat + b.toNat * 2 ^ 32) (8 * q) 8 := by
    rw [toNat_extractLsb'_eq_field, toNat_append_add, Nat.add_comm]
  simp only [prmbByte, BitVec.msb_eq_decide, toNat_extractLsb'_eq_field z, hbyte, Nat.reduceSub, Nat.reducePow, decide_eq_true_eq]
  by_cases h8 : field z.toNat (4 * k) 4 < 8
  · rw [if_neg (by omega), if_pos h8]
    exact hbyte _
  · rw [if_pos (by omega), if_neg h8]
    split <;> rfl

theorem prmbVal_eq (a b z : Word) : prmbVal a b z = prmbByte a b z 3 ++ prmbByte a b z 2 ++ prmbByte a b z 1 ++ prmbByte a b z 0 := by
  simp only [prmbVal, prmbByte]

theorem toNat_bytes (p q r t : BitVec 8) : (p ++ q ++ r ++ t).toNat = 0 + t.toNat * 2 ^ (8 * 0) + r.toNat * 2 ^ (8 * 1) + q.toNat * 2 ^ (8 * 2) +
    p.toNat * 2 ^ (8 * 3) := by
  rw [toNat_append_add, toNat_append_add, toNat_append_add]
  ring

theorem prmbVal_toNat (a b z : Word) : (prmbVal a b z).toNat =
    (List.range 4).foldl (fun r k => r + (prmbByte a b z k).toNat * 2 ^ (8 * k)) 0 := by
  rw [show List.range 4 = [0, 1, 2, 3] from rfl, List.foldl_cons, List.foldl_cons, List.foldl_cons, List.foldl_cons, List.foldl_nil, prmbVal_eq]
  exact toNat_bytes _ _ _ _

theorem prmbOp_gives (a b z : Word) : (prmbOp a.toNat b.toNat z.toNat).Gives (prmbVal a b z) (plain (prmbVal a b z)) := by
  have h := logicCC_toNat_gives (by decide) (prmbVal a b z)
  simp only [prmbVal_toNat, prmbByte_toNat] at h
  exact h

end Sys2Proof.Machine
end

section
/-! The rows of the logic, bit and move instructions (R94 to R97, R100). -/

namespace Sys2Proof.Machine
open Sys2Proof.Rules

/-! ## MOVHI -/

/-- The model's MOVHI on numbers: half `h` replaced, those below and above kept (R97). -/
def putHalf (h half v : Nat) : Nat := v / 2 ^ (16 * h + 16) * 2 ^ (16 * h + 16) + half * 2 ^ (16 * h) + v % 2 ^ (16 * h)

theorem testBit_putHalf {h half : Nat} (v : Nat) (hhalf : half < 2 ^ 16) (i : Nat) : (putHalf h half v).testBit i =
    if 16 * h ≤ i ∧ i < 16 * h + 16 then half.testBit (i - 16 * h) else v.testBit i := by
  have hput : putHalf h half v = 2 ^ (16 * h) * (2 ^ 16 * (v / 2 ^ (16 * h + 16)) + half) + v % 2 ^ (16 * h) := by
    rw [putHalf, pow_add]
    ring
  rw [hput, Nat.testBit_two_pow_mul_add _ (Nat.mod_lt _ (by positivity)), Nat.testBit_two_pow_mul_add _ hhalf, Nat.testBit_mod_two_pow,
    Nat.testBit_div_two_pow]
  by_cases hlow : i < 16 * h
  · simp [hlow, show ¬ 16 * h ≤ i by omega]
  · by_cases hin : i < 16 * h + 16
    · simp [hlow, hin, show 16 * h ≤ i by omega, show i - 16 * h < 16 by omega]
    · simp [hlow, hin, show ¬ i - 16 * h < 16 by omega, show i - 16 * h - 16 + (16 * h + 16) = i by omega]

theorem getLsbD_movhiVal {w : Nat} (m : BitVec 27) (d : BitVec w) {i : Nat} (hi : i < w) : (movhiVal m d).getLsbD i =
    if 16 * (m.toNat / 2 ^ 16 % 4) ≤ i ∧ i < 16 * (m.toNat / 2 ^ 16 % 4) + 16 then (m.toNat % 2 ^ 16).testBit (i - 16 * (m.toNat / 2 ^ 16 % 4))
    else d.getLsbD i := by
  have hpos : (m.extractLsb' 16 2).toNat = m.toNat / 2 ^ 16 % 4 := toNat_extractLsb'_eq_field m 16 2
  have hbits (j : Nat) : (m.toNat % 2 ^ 16).testBit j = (m.extractLsb' 0 16).getLsbD j := by
    rw [← BitVec.testBit_toNat, toNat_extractLsb'_eq_field, field, pow_zero, Nat.div_one]
  simp only [movhiVal, hpos, hbits, show (0xFFFF#16) = BitVec.allOnes 16 from rfl]
  generalize 16 * (m.toNat / 2 ^ 16 % 4) = p
  simp only [BitVec.getLsbD_or, BitVec.getLsbD_and, BitVec.getLsbD_not, BitVec.getLsbD_shiftLeft, BitVec.zeroExtend_eq_setWidth,
    BitVec.getLsbD_setWidth, BitVec.getLsbD_allOnes, hi, show i - p < w by omega, decide_true, Bool.true_and]
  by_cases hlow : i < p
  · simp [hlow, show ¬ p ≤ i by omega]
  · by_cases hin : i < p + 16
    · simp [hlow, hin, show p ≤ i by omega, show i - p < 16 by omega]
    · simp [hlow, hin, show ¬ i - p < 16 by omega, BitVec.getLsbD_of_ge _ _ (show 16 ≤ i - p by omega)]

theorem ofNat_putHalf {w : Nat} (m : BitVec 27) (d : BitVec w) :
    BitVec.ofNat w (putHalf (m.toNat / 2 ^ 16 % 4) (m.toNat % 2 ^ 16) d.toNat) = movhiVal m d := by
  refine BitVec.eq_of_getLsbD_eq fun i hi => ?_
  rw [BitVec.getLsbD_ofNat, testBit_putHalf _ (Nat.mod_lt _ (by decide)), getLsbD_movhiVal m d hi, decide_eq_true hi, Bool.true_and,
    BitVec.testBit_toNat]

/-! ## AFF shapes and rows without codes -/

theorem affShl_lane {p q r : VReg} (h : affShl p q = some r) (l : Nat) :
    r.lane l = if (q.lane l).toNat < 32 then p.lane l <<< (q.lane l).toNat else 0 := by
  unfold affShl at h
  split at h
  · next b t k =>
    split at h
    · next hk =>
      cases h
      simp only [VReg.lane, hk, if_true]
      simp only [BitVec.shiftLeft_eq_mul_twoPow]
      ring
    · cases h
  · cases h

/-- An outcome that writes a word in each lane, of an instruction that asks for no codes, is a row with any codes (R88, R89). -/
theorem laneRow_of_noCode {x : Issue} {o : Out} {k : Lane 32} {ext : Ext} {sh : Option VReg} (hwcc : x.a.wcc = false)
    (ho : o = Out.ofSrcs x k.srcs { writes := x.put32 ext sh k.val }) (hext : isS x.fd = true → ext = k.ext)
    (hsh : ∀ r, sh = some r → ∀ l, r.lane l = k.val l) : LaneRow x o k := by
  have hval : (fun l => BitVec.ofNat 32 (k.val l).toNat) = k.val := funext fun l => by rw [BitVec.ofNat_toNat, BitVec.setWidth_eq]
  refine ⟨ext, sh, fun l => ⟨(k.val l).toNat, (k.codes l).c, (k.codes l).z, (k.codes l).n, (k.codes l).v⟩, ?_, hext, ?_, fun l => ⟨?_, rfl⟩⟩
  · rw [ho, laneOut32, hval, Issue.putCC, if_neg (by simp [hwcc]), List.append_nil]
  · intro r hr l
    rw [hsh r hr l]
    exact (congrFun hval l).symm
  · exact congrFun hval l

/-! ## The outcomes -/

section
variable (x : Issue) (q : Issue → Opr)

theorem oShl_laneRow : LaneRow x (oShl q x) (logRow x (q x) (fun a b => if b.toNat < 32 then a <<< b.toNat else 0)) :=
  bin32sh_laneRow shlOp_gives fun _ hr l => affShl_lane hr l

theorem oBfi_laneRow : LaneRow x (oBfi x) (bfiRow x) := by
  refine ⟨.z, _, _, rfl, fun _ => rfl, fun r hr l => ?_, fun l => bfiOp_gives _ _ _ _⟩
  obtain ⟨huni, hlane⟩ := uniSh_lane hr
  rw [hlane, at32_of_uni (huni x.opD (by simp)) l, at32_of_uni (huni x.opX (by simp)) l, at32_of_uni (huni x.opY (by simp)) l,
    at32_of_uni (huni x.opZ (by simp)) l]

theorem popcOp_gives (a : Word) : (popcOp a.toNat).Gives (BitVec.ofNat 32 ((List.range 32).filter (fun k => a.getLsbD k)).length)
    (plain (BitVec.ofNat 32 ((List.range 32).filter (fun k => a.getLsbD k)).length)) :=
  logicCC_gives_of (by decide) rfl

theorem clzOp_gives (a : Word) : (clzOp a.toNat).Gives a.clz (plain a.clz) :=
  logicCC_gives_of (by decide) (clz_eq_takeWhile (by decide) a).symm

theorem ctzOp_gives (a : Word) : (ctzOp a.toNat).Gives a.ctz (plain a.ctz) :=
  logicCC_gives_of (by decide) (ctz_eq_takeWhile (by decide) a).symm

theorem notOp_gives (a : Word) : (logicCC (2 ^ 32 - 1 - a.toNat) 32).Gives (~~~a) (plain (~~~a)) := by
  rw [← BitVec.toNat_not]
  exact logicCC_toNat_gives (by decide) _

/-- MOV keeps the shape of its source (R41, R97). -/
theorem oMov_laneRow (h : x.mb 0 = false) : LaneRow x (oMov x) (one .s x.opX (fun a => a) (fun r _ => plain r)) := by
  have ho : oMov x = laneOut32 x .s [x.opX] (match x.opX.lo with | .gen _ => none | v => some v)
      (fun l => logicCC (x.opX.at32 l).toNat 32) := by
    unfold oMov
    exact if_neg (by rw [h]; decide)
  refine ⟨.s, _, _, ho, fun _ => rfl, fun r hr l => ?_, fun l => logicCC_toNat_gives (by decide) _⟩
  rw [(logicCC_toNat_gives (by decide) _).word, Opr.at32]
  split at hr
  · cases hr
  · cases hr; rfl

/-- MOVHI into other than an S register (R97). -/
theorem oMovhi_laneRow {a : IArgs} (ha : x.a = .i a) (h : isS x.fd = false) :
    LaneRow x (oMovhi x) (one .s x.opD (movhiVal a.imm) (fun r _ => plain r)) := by
  have ho : oMovhi x = un32 x .z x.opD (fun v => logicCC (putHalf (a.imm.toNat / 2 ^ 16 % 4) (a.imm.toNat % 2 ^ 16) v) 32) := by
    unfold oMovhi
    rw [if_neg (by rw [h]; decide), ha]
    rfl
  have hgives (v : Word) : (logicCC (putHalf (a.imm.toNat / 2 ^ 16 % 4) (a.imm.toNat % 2 ^ 16) v.toNat) 32).Gives (movhiVal a.imm v)
      (plain (movhiVal a.imm v)) := logicCC_gives_of (by decide) (ofNat_putHalf a.imm v)
  rw [ho]
  refine ⟨.z, _, _, rfl, fun hS => absurd hS (by rw [h]; decide), fun r hr l => ?_, fun l => hgives _⟩
  obtain ⟨huni, hlane⟩ := uniSh_lane hr
  rw [hlane, at32_of_uni (huni x.opD (by simp)) l]

/-- MFS into other than an S register: a special register, or the tag of a V register (R98). -/
theorem oMfs_laneRow (hwcc : x.a.wcc = false) (h : isS x.fd = false) : LaneRow x (oMfs x)
    (if x.mb 0 then ⟨[], .z, fun _ => BitVec.ofNat 32 (mfsTag x), fun _ => ⟨false, false, false, false⟩⟩
      else ⟨[mfsSrc x], .z, fun l => (mfsSrc x).at32 l, fun _ => ⟨false, false, false, false⟩⟩) := by
  cases hm : x.mb 0
  · refine laneRow_of_noCode (ext := .z) (sh := match (mfsSrc x).lo with | .uni v => some (.uni v) | _ => none) hwcc ?_ (fun _ => rfl) ?_
    · unfold oMfs
      rw [hm, h]
      rfl
    · intro r hr l
      show r.lane l = (mfsSrc x).lo.lane l
      split at hr
      · next v hlo => cases hr; rw [hlo]
      · cases hr
  · refine laneRow_of_noCode (ext := .z) (sh := some (.uni (BitVec.ofNat 32 (mfsTag x)))) hwcc ?_ (fun _ => rfl) ?_
    · unfold oMfs
      rw [hm]
      rfl
    · intro r hr l
      cases hr
      rfl

theorem oSel_laneRow (hwcc : x.a.wcc = false) : LaneRow x (oSel x) (selRow x) :=
  laneRow_of_noCode (ext := .z) (sh := none) hwcc rfl (fun _ => rfl) nofun

theorem oCcrd_laneRow (hwcc : x.a.wcc = false) : LaneRow x (oCcrd x) (ccrdRow x) := by
  have hdigit (m : Mask) (l k : Nat) : BitVec.ofNat 32 (if Mask.has m l then k else 0) = bitOf m l (BitVec.ofNat 32 k) := by
    unfold bitOf; split <;> rfl
  refine laneRow_of_noCode (ext := .z) (sh := none) hwcc ?_ (fun _ => rfl) nofun
  unfold oCcrd
  simp only [BitVec.ofNat_add, hdigit]
  rfl

end

/-- Every logic, bit or move instruction of 32-bit results goes through the pipeline with its row (R94 to R100). -/
theorem exec_of_bitLane {s : State} {i : Instr} {x : Issue} {k : Lane 32} (hwf : WellFormed i) (hpos : s.position i = some x)
    (h : bitLane i x = some k) : ∃ f, exec i s = runIssue s i f ∧ LaneRow x (f x) k := by
  have ha := State.position_args hpos
  cases i <;> try cases h
  case andL a => exact ⟨_, rfl, bin32_laneRow fun a b => logicCC_toNat_gives (by decide) (a &&& b)⟩
  case andLImm a => exact ⟨_, rfl, bin32_laneRow fun a b => logicCC_toNat_gives (by decide) (a &&& b)⟩
  case orL a => exact ⟨_, rfl, bin32_laneRow fun a b => logicCC_toNat_gives (by decide) (a ||| b)⟩
  case orLImm a => exact ⟨_, rfl, bin32_laneRow fun a b => logicCC_toNat_gives (by decide) (a ||| b)⟩
  case xorL a => exact ⟨_, rfl, bin32_laneRow fun a b => logicCC_toNat_gives (by decide) (a ^^^ b)⟩
  case xorLImm a => exact ⟨_, rfl, bin32_laneRow fun a b => logicCC_toNat_gives (by decide) (a ^^^ b)⟩
  case notL a => exact ⟨_, rfl, un32_laneRow notOp_gives⟩
  case notLImm a => exact ⟨_, rfl, un32_laneRow notOp_gives⟩
  case lut3 a =>
    refine ⟨_, rfl, ?_⟩
    rw [oLut3, lutTbl, ha]
    exact tri32_laneRow (lut3Op_gives _)
  case lut3Imm a =>
    refine ⟨_, rfl, ?_⟩
    rw [oLut3, lutTbl, lutImmY, ha]
    exact tri32_laneRow (lut3Op_gives _)
  case shl a => exact ⟨_, rfl, oShl_laneRow x _⟩
  case shlImm a => exact ⟨_, rfl, oShl_laneRow x _⟩
  case shr a => exact ⟨_, rfl, bin32_laneRow shrOp_gives⟩
  case shrImm a => exact ⟨_, rfl, bin32_laneRow shrOp_gives⟩
  case sar a => exact ⟨_, rfl, bin32_laneRow sarOp_gives⟩
  case sarImm a => exact ⟨_, rfl, bin32_laneRow sarOp_gives⟩
  case rot a => exact ⟨_, rfl, bin32_laneRow rotOp_gives⟩
  case rotImm a => exact ⟨_, rfl, bin32_laneRow rotOp_gives⟩
  case fshl a => exact ⟨_, rfl, tri32_laneRow fshlOp_gives⟩
  case fshlImm a => exact ⟨_, rfl, tri32_laneRow fshlOp_gives⟩
  case fshr a => exact ⟨_, rfl, tri32_laneRow fshrOp_gives⟩
  case fshrImm a => exact ⟨_, rfl, tri32_laneRow fshrOp_gives⟩
  case popc a => exact ⟨_, rfl, un32_laneRow popcOp_gives⟩
  case clz a => exact ⟨_, rfl, un32_laneRow clzOp_gives⟩
  case ctz a => exact ⟨_, rfl, un32_laneRow ctzOp_gives⟩
  case brev a => exact ⟨_, rfl, un32_laneRow brevOp_gives⟩
  case bfx a => exact ⟨_, rfl, tri32_laneRow (bfxOp_gives _)⟩
  case bfi a => exact ⟨_, rfl, oBfi_laneRow x⟩
  case prmb a => exact ⟨_, rfl, tri32_laneRow prmbOp_gives⟩
  case sel a => exact ⟨_, rfl, oSel_laneRow x (ha ▸ wcc_eq_false hwf rfl rfl)⟩
  case mov a =>
    obtain ⟨hm, rfl⟩ : x.mb 0 = false ∧ one .s x.opX (fun a => a) (fun r _ => plain r) = k := by simpa [bitLane] using h
    exact ⟨_, rfl, oMov_laneRow x hm⟩
  case movi a => exact ⟨_, rfl, un32_laneRow fun a => logicCC_toNat_gives (by decide) a⟩
  case movhi a =>
    obtain ⟨hS, rfl⟩ : isS x.fd = false ∧ one .s x.opD (movhiVal a.imm) (fun r _ => plain r) = k := by simpa [bitLane] using h
    exact ⟨_, rfl, oMovhi_laneRow x ha hS⟩
  case mfs a =>
    simp only [bitLane] at h
    split at h
    · cases h
    · next hS =>
      cases h
      exact ⟨_, rfl, oMfs_laneRow x (ha ▸ wcc_eq_false hwf rfl rfl) (Bool.eq_false_iff.mpr hS)⟩
  case sxt a => exact ⟨_, rfl, un32_laneRow (sxtOp_gives _)⟩
  case zxt a => exact ⟨_, rfl, un32_laneRow (zxtOp_gives _)⟩
  case ccrd a => exact ⟨_, rfl, oCcrd_laneRow x (ha ▸ wcc_eq_false hwf rfl rfl)⟩

/-- Settles O3: each instruction's outcome is its row, which the pipeline commits. -/
theorem logicRowsComplete : Obligations.LogicRowsComplete := by
  unfold Obligations.LogicRowsComplete
  intro i s x prio k hwf h hk hr hfree
  obtain ⟨f, hexec, hrow⟩ := exec_of_bitLane hwf h.pos hk
  rw [hexec]
  exact runIssue_laneRow h hrow hr hfree

end Sys2Proof.Machine
end

section
/-! O2 fails where a repeat steps the destination of a MOVHI out of the V registers. -/

namespace Sys2Proof.Machine
open Sys2Proof.Rules

/-- MOVHI of half 0 of V255, which asks for the condition codes of its result (R89, R97). -/
def steppedMovhiArgs : IArgs := { wcc := 1, d := 255 }
def steppedMovhi : Instr := .movhi steppedMovhiArgs
/-- A group of two lanes in repeat 1 (`steppedWarp`), whose code C is set in lane 0. -/
def carryGroup : Group := { noGroup with c := 1, warps := [steppedWarp] }
def carryState : State := { State.reset with groups := [carryGroup], issuer := some { gid := 0, wid := 0 } }
/-- The position of `steppedMovhi` there: its D has stepped to S0, the field after V255. -/
def carryIssue : Issue where
  s := carryState
  g := carryGroup
  w := steppedWarp
  e := steppedEntry
  cl := { eng := 0, cnt := 1, yld := false }
  n := info steppedMovhi
  a := args steppedMovhi
  act := 3
  full := false
  k := 1
  rmask := 1
  last := false
  more := false

theorem carryState_issues : Issues carryState steppedMovhi carryIssue 0 where
  pos := rfl
  held := by decide +kernel
  dcw := by decide +kernel
  due := by decide +kernel
  counter := by decide +kernel
  collector := fun _ => by decide +kernel
  role := by decide +kernel
  header := rfl

theorem carryIssue_free : Free carryIssue (carryIssue.dests 2) := ⟨by decide +kernel, .inl (by decide +kernel)⟩

theorem carryIssue_readable : Readable [carryIssue.opD] := by
  intro p hp
  rw [List.mem_singleton.mp hp]
  decide +kernel

/-- The model writes S0 and no code. -/
theorem carryIssue_keeps_c : ∃ t h, exec steppedMovhi carryState = .next t ∧ t.group 0 = some h ∧ h.c = 1 := by
  have hwrites : oMovhi carryIssue = Out.ofSrcs carryIssue [carryIssue.opD] { writes := [.sr 0 0] } := rfl
  obtain ⟨t, hrun, honly, -⟩ := runIssue_writes carryState_issues hwrites carryIssue_readable carryIssue_free (by decide +kernel)
    (by simp [RegWrite.noP]) (noTrap_zero _)
  obtain ⟨h, hgroup, hsched⟩ := honly.group
  have hc : h.c = 1 := by rw [hsched]; rfl
  exact ⟨t, h, hrun, hgroup, hc⟩

/-- Refutes O2: `steppedMovhi` asks for the codes of its result, and the row has them all false (R89), but once the repeat has stepped its D from V255 to S0 the
model writes S0 alone and leaves the codes, of which C was set. REP refuses such a repeat (R78), but `Issues` admits any RPC. -/
theorem not_longRowsComplete : ¬ Obligations.LongRowsComplete := by
  unfold Obligations.LongRowsComplete
  intro hrows
  obtain ⟨t, g, hexec, hcommits, hres⟩ := hrows steppedMovhi carryState carryIssue 0 _ (by decide +kernel) carryState_issues rfl
    carryIssue_readable carryIssue_free
  obtain ⟨t', h, hexec', hgroup, hc⟩ := carryIssue_keeps_c
  obtain rfl : t = t' := by injection hexec.symm.trans hexec'
  obtain ⟨h', hgroup', hsched⟩ := hcommits.only.group
  obtain rfl : h' = h := Option.some.inj (hgroup'.symm.trans hgroup)
  have hsame : h'.c = g.c := by rw [hsched]
  have hclear : Mask.has g.c 0 = false := (hres.cc 0 (by decide)).1
  rw [← hsame, hc] at hclear
  exact absurd hclear (by decide)

end Sys2Proof.Machine
end

section
/-! Instructions that change the group (R99, R100, R110, R115, R118, R155, R163): their effects, after the flags of their sources. -/

namespace Sys2Proof.Machine
open Sys2Proof.Rules

/-! ## Effects without flags of lanes -/

/-- What only scheduling tells apart, an instruction's completion does not tell apart. -/
theorem Commits.of_sched {x : Issue} {prio : BitVec 8} {s t : State} {g k : Group} (h : Commits x prio s t k) (hg : SchedOnly g k) :
    Commits x prio s t g := by
  obtain ⟨⟨hstate, hothers, m, hm, hs⟩, hgoes⟩ := h
  exact ⟨⟨hstate, hothers, m, hm, hg.trans hs⟩, hgoes⟩

/-- An instruction that raises no flag in a lane: its writes, then its sources' WOB, then its effect. -/
theorem runIssue_effect {s : State} {i : Instr} {x : Issue} {prio : BitVec 8} {f : Issue → Out} (h : Issues s i x prio)
    {srcs : List Opr} {ws : List RegWrite} {eff : State → State} {rs : List RegId}
    (hf : f x = Out.ofSrcs x srcs { writes := ws, eff := eff }) (hr : Readable srcs) (hfree : Free x rs)
    (hdst : ∀ r ∈ ws.flatMap RegWrite.dst, r ∈ rs) (hnoP : ∀ w ∈ ws, w.noP) (e : Group → Group)
    (hgid : ∀ g, (e g).gid = g.gid) (hwarps : ∀ g, (e g).warps = g.warps) (heff : ∀ s, eff s = s.setGroup x.g.gid e) :
    ∃ t, runIssue s i f = .next t ∧ Commits x prio (x.read srcs s) t (e ((ws.foldl Group.applyW x.g).commit x.act (wobFlag srcs) [])) := by
  have hrun := runIssue_plainOut h hf hr hfree hdst hnoP (noTrap_zero x) e hgid hwarps heff
  rw [fsrGain_zero] at hrun
  exact hrun

/-- An instruction without sources or destinations, and its effect. -/
theorem runIssue_setsGroup {s : State} {i : Instr} {x : Issue} {prio : BitVec 8} {f : Issue → Out} (h : Issues s i x prio)
    {eff : State → State} (hf : f x = { eff := eff }) (hfree : Free x []) (e : Group → Group)
    (hgid : ∀ g, (e g).gid = g.gid) (hwarps : ∀ g, (e g).warps = g.warps) (heff : ∀ s, eff s = s.setGroup x.g.gid e) :
    ∃ t, runIssue s i f = .next t ∧ Commits x prio s t (e x.g) := by
  have hrun := runIssue_effect h (srcs := []) (ws := []) hf (by simp [Readable]) hfree (by simp) (by simp) e hgid hwarps heff
  rwa [show wobFlag [] = 0 from rfl, Group.commit_nothing] at hrun

/-- An instruction of register writes, no flag and no magnitude. -/
theorem runIssue_writesOnly {s : State} {i : Instr} {x : Issue} {prio : BitVec 8} {f : Issue → Out} (h : Issues s i x prio)
    {srcs : List Opr} {ws : List RegWrite} {rs : List RegId} (hf : f x = Out.ofSrcs x srcs { writes := ws }) (hr : Readable srcs)
    (hfree : Free x rs) (hdst : ∀ r ∈ ws.flatMap RegWrite.dst, r ∈ rs) (hnoP : ∀ w ∈ ws, w.noP) :
    ∃ t, runIssue s i f = .next t ∧ Commits x prio (x.read srcs s) t ((ws.foldl Group.applyW x.g).orFsr (wobFlag srcs)) := by
  have hrun := runIssue_writes h hf hr hfree hdst hnoP (noTrap_zero x)
  rw [fsrGain_zero] at hrun
  exact hrun

/-! ## MTS -/

/-- Nothing is read beyond a window where no lane is active (R43, R221). -/
theorem readField_wob {x : Issue} {size : Nat} {f : BitVec 9} (h : (readField x size f).wob = true) : x.act ≠ 0 := by
  intro hact
  unfold readField at h
  have hno {o : Opr} (ho : o.wob = false) (h : o.wob = true) : False := by rw [ho] at h; cases h
  split_ifs at h
  · exact hno (o := oprS 0) rfl h
  · exact hno (by unfold readK; rw [if_pos hact]) h
  · exact hno (o := oprS 0) rfl h
  · exact hno (o := oprS 0) rfl h

theorem opX_wob {x : Issue} (h : wobFlag [x.opX] ≠ 0) : x.act ≠ 0 := by
  unfold Issue.opX at h
  split at h
  · exact readField_wob (by simpa [wobFlag] using h)
  · exact absurd rfl h

/-- The active lanes are of the warp. -/
theorem act_and_lanes {s : State} {i : Instr} {x : Issue} (h : s.position i = some x) : x.act &&& x.w.lanes = x.act := by
  obtain ⟨_, _, _, _, ⟨es, hes⟩, _, _, _, _, hact, _⟩ := State.position_inv h
  have hfold (es : List Entry) (m : Mask) (l : Nat) (hm : Mask.has m l = true) : Mask.has (es.foldl (fun m e => m ||| e.mask) m) l = true :=
    List.foldlRecOn (motive := fun m : Mask => Mask.has m l = true) es _ hm fun m hm e _ => by rw [Mask.has_or, hm, Bool.true_or]
  refine BitVec.eq_of_getLsbD_eq fun l _ => ?_
  rw [BitVec.getLsbD_and, Bool.and_eq_left_iff_imp]
  intro hl
  rw [hact, BitVec.getLsbD_and, Bool.and_eq_true] at hl
  rw [Warp.lanes, hes, List.foldl_cons]
  refine hfold es _ l ?_
  rw [Mask.has_or, show Mask.has x.e.mask l = true from hl.1, Bool.or_true]

theorem others_eq_commitsOf (x : Issue) : others x = x.g.commitsOf x.w.lanes false := by
  rw [others, Group.commitsOf]
  congr 1
  funext k
  cases hk : k.lanes &&& x.w.lanes == 0#64 <;> simp [bne, hk]

/-- What a group notes of the cycle that runs plays no part in AMAX. -/
theorem updAmax_with_commits (g : Group) (cs : List Commit) (n : Nat) :
    ({ g with commits := cs } : Group).updAmax n = { g.updAmax n with commits := cs } := by
  unfold Group.updAmax
  split_ifs <;> rfl

theorem foldl_updAmax_with_commits (cs : List Commit) (ns : List Nat) (g : Group) :
    ns.foldl Group.updAmax { g with commits := cs } = { ns.foldl Group.updAmax g with commits := cs } := by
  induction ns generalizing g with
  | nil => rfl
  | cons n ns ih => rw [List.foldl_cons, List.foldl_cons, updAmax_with_commits, ih]

theorem sched_of_with_commits {g h : Group} {cs : List Commit} (hh : h = { g with commits := cs }) : SchedOnly g h := by
  rw [hh]
  rfl

/-- The magnitudes of commits, shown to AMAX in their order (R36). -/
def showAll (ks : List Commit) (g : Group) : Group := ks.foldl (fun g k => k.mags.foldl Group.updAmax g) g

theorem showAll_with_commits (cs ks : List Commit) (g : Group) : showAll ks { g with commits := cs } = { showAll ks g with commits := cs } := by
  induction ks generalizing g with
  | nil => rfl
  | cons k ks ih =>
    show showAll ks (k.mags.foldl Group.updAmax { g with commits := cs }) = { showAll ks (k.mags.foldl Group.updAmax g) with commits := cs }
    rw [foldl_updAmax_with_commits, ih]

theorem showAll_gid (ks : List Commit) (g : Group) : (showAll ks g).gid = g.gid := foldl_gid _ (fun _ _ => foldl_gid _ (by simp) _ _) _ _
theorem showAll_warps (ks : List Commit) (g : Group) : (showAll ks g).warps = g.warps := foldl_warps _ (fun _ _ => foldl_warps _ (by simp) _ _) _ _

/-- MTS to AMAXC with no cycle noted, or with no commit of another warp in it. -/
theorem mtsAmaxc_of_alone {g : Group} {m : Mask} (h : g.cyc = none ∨ g.commitsOf m false = []) (v : Word) : g.mtsAmaxc m v = { g with amaxc := v } := by
  unfold Group.mtsAmaxc
  split
  · next hcyc hothers =>
    rw [hcyc, hothers] at h
    exact h.elim nofun nofun
  · rfl

/-- MTS to AMAXC (R36): the warp's own magnitudes of the cycle before the new AMAXC, those of others after it. -/
theorem mtsAmaxc_of_others {g : Group} {m : Mask} {c : Cycle} {ks : List Commit} (hcyc : g.cyc = some c) (hks : g.commitsOf m false = ks)
    (h0 : ks ≠ []) (v : Word) : g.mtsAmaxc m v = showAll ks { showAll (g.commitsOf m true) { g with amax := c.amax } with amaxc := v } := by
  obtain ⟨k, ks, rfl⟩ := List.exists_cons_of_ne_nil h0
  simp only [Group.mtsAmaxc, hcyc, hks]
  rfl

section
variable {g : Group} {act lanes : Mask} {fl : Word} (hact : fl ≠ 0 → act &&& lanes ≠ 0)

theorem commit_eq_with_commits (g : Group) (act : Mask) (fl : Word) :
    g.commit act fl [] = { g.orFsr fl with commits := (g.commit act fl []).commits } := by
  unfold Group.commit
  split <;> rfl

include hact

/-- Flags that a warp commits are not another's. -/
theorem commitsOf_commit_false : (g.commit act fl []).commitsOf lanes false = g.commitsOf lanes false := by
  unfold Group.commit
  split
  · rfl
  · next h =>
    have hown : (act &&& lanes != 0#64) = true := bne_iff_ne.mpr (hact (by simpa using h))
    simp [Group.commitsOf, hown, Group.orFsr]

theorem showAll_commitsOf_commit_true (k : Group) : showAll ((g.commit act fl []).commitsOf lanes true) k = showAll (g.commitsOf lanes true) k := by
  unfold Group.commit
  split
  · rfl
  · next h =>
    have hown : (act &&& lanes != 0#64) = true := bne_iff_ne.mpr (hact (by simpa using h))
    simp [Group.commitsOf, hown, Group.orFsr, showAll]

theorem mtsAmaxc_commit (v : Word) : SchedOnly ((g.orFsr fl).mtsAmaxc lanes v) ((g.commit act fl []).mtsAmaxc lanes v) := by
  have hothers := commitsOf_commit_false (g := g) hact
  have hown := showAll_commitsOf_commit_true (g := g) hact
  have hcommit := commit_eq_with_commits g act fl
  generalize (g.commit act fl []).commits = cs at hcommit
  by_cases halone : g.cyc = none ∨ g.commitsOf lanes false = []
  · rw [mtsAmaxc_of_alone (g := g.orFsr fl) halone, mtsAmaxc_of_alone (by rw [hothers, hcommit]; exact halone), hcommit]
    rfl
  · obtain ⟨hcyc, h0⟩ := not_or.mp halone
    obtain ⟨c, hc⟩ := Option.ne_none_iff_exists'.mp hcyc
    rw [mtsAmaxc_of_others (g := g.orFsr fl) hc rfl h0, mtsAmaxc_of_others (c := c) (by rw [hcommit]; exact hc) hothers h0, hown, hcommit]
    have hwith (k : Group) : showAll (g.commitsOf lanes false) { showAll (g.commitsOf lanes true) { k with commits := cs } with amaxc := v } =
        { showAll (g.commitsOf lanes false) { showAll (g.commitsOf lanes true) k with amaxc := v } with commits := cs } := by
      rw [showAll_with_commits]
      exact showAll_with_commits cs _ { showAll (g.commitsOf lanes true) k with amaxc := v }
    exact sched_of_with_commits (hwith { g.orFsr fl with amax := c.amax })

end

/-- MTS as the model does it, in the special register of `n`. -/
def mtsEffect (n : Nat) (lanes : Mask) (v : DWord) (g : Group) : Group :=
  match n with
  | 14 => g.mtsFsr lanes (v.extractLsb' 0 32 &&& 0x3F)
  | 15 => { g with fcr := v.extractLsb' 0 32 &&& 0x1FF }
  | 19 => g.mtsAmaxc lanes (v.extractLsb' 0 32 &&& 3)
  | 27 => { g with rng := if v = 0 then 0x9E3779B97F4A7C15 else v }
  | _ => g

theorem mtsEffect_fsr (m : Mask) (v : DWord) (g : Group) : mtsEffect 14 m v g = g.mtsFsr m (v.extractLsb' 0 32 &&& 0x3F) := rfl
theorem mtsEffect_fcr (m : Mask) (v : DWord) (g : Group) : mtsEffect 15 m v g = { g with fcr := v.extractLsb' 0 32 &&& 0x1FF } := rfl
theorem mtsEffect_amaxc (m : Mask) (v : DWord) (g : Group) : mtsEffect 19 m v g = g.mtsAmaxc m (v.extractLsb' 0 32 &&& 3) := rfl
theorem mtsEffect_rng (m : Mask) (v : DWord) (g : Group) : mtsEffect 27 m v g = { g with rng := if v = 0 then 0x9E3779B97F4A7C15 else v } := rfl

theorem mtsEffect_of_other {n : Nat} (h14 : n ≠ 14) (h15 : n ≠ 15) (h19 : n ≠ 19) (h27 : n ≠ 27) (m : Mask) (v : DWord) (g : Group) :
    mtsEffect n m v g = g := by
  unfold mtsEffect
  split
  · exact absurd rfl h14
  · exact absurd rfl h15
  · exact absurd rfl h19
  · exact absurd rfl h27
  · rfl

theorem mtsGroup_of_other {x : Issue} (h14 : fnum x.a.d ≠ 14) (h15 : fnum x.a.d ≠ 15) (h19 : fnum x.a.d ≠ 19) (h27 : fnum x.a.d ≠ 27) :
    mtsGroup x = x.g.orFsr (wobFlag [x.opX]) := by
  unfold mtsGroup
  extract_lets v w g
  split
  · next h => exact absurd h h14
  · next h => exact absurd h h15
  · next h => exact absurd h h19
  · next h => exact absurd h h27
  · rfl

theorem mtsAmaxc_gid (g : Group) (m : Mask) (v : Word) : (g.mtsAmaxc m v).gid = g.gid := by
  by_cases halone : g.cyc = none ∨ g.commitsOf m false = []
  · rw [mtsAmaxc_of_alone halone]
  · obtain ⟨hcyc, h0⟩ := not_or.mp halone
    obtain ⟨c, hc⟩ := Option.ne_none_iff_exists'.mp hcyc
    rw [mtsAmaxc_of_others hc rfl h0, showAll_gid, showAll_gid]

theorem mtsAmaxc_warps (g : Group) (m : Mask) (v : Word) : (g.mtsAmaxc m v).warps = g.warps := by
  by_cases halone : g.cyc = none ∨ g.commitsOf m false = []
  · rw [mtsAmaxc_of_alone halone]
  · obtain ⟨hcyc, h0⟩ := not_or.mp halone
    obtain ⟨c, hc⟩ := Option.ne_none_iff_exists'.mp hcyc
    rw [mtsAmaxc_of_others hc rfl h0, showAll_warps, showAll_warps]

theorem mtsEffect_gid (n : Nat) (m : Mask) (v : DWord) (g : Group) : (mtsEffect n m v g).gid = g.gid := by
  unfold mtsEffect
  split
  · rfl
  · rfl
  · exact mtsAmaxc_gid ..
  · rfl
  · rfl

theorem mtsEffect_warps (n : Nat) (m : Mask) (v : DWord) (g : Group) : (mtsEffect n m v g).warps = g.warps := by
  unfold mtsEffect
  split
  · rfl
  · rfl
  · exact mtsAmaxc_warps ..
  · rfl
  · rfl

theorem oMts_eq (x : Issue) : oMts x = Out.ofSrcs x [x.opX]
    { writes := [], eff := fun s => s.setGroup x.g.gid (mtsEffect (fnum x.a.d) x.w.lanes (x.opX.at64 0)) } := rfl

/-- The model's MTS after the flags of its source leaves what R99 says. -/
theorem mtsEffect_sched {s : State} {i : Instr} {x : Issue} (h : s.position i = some x) :
    SchedOnly (mtsGroup x) (mtsEffect (fnum x.a.d) x.w.lanes (x.opX.at64 0) (x.g.commit x.act (wobFlag [x.opX]) [])) := by
  have hact : wobFlag [x.opX] ≠ 0 → x.act &&& x.w.lanes ≠ 0 := fun hwob => by rw [act_and_lanes h]; exact opX_wob hwob
  have hcommit := commit_eq_with_commits x.g x.act (wobFlag [x.opX])
  by_cases h14 : fnum x.a.d = 14
  · simp only [mtsGroup, h14]
    rw [mtsEffect_fsr, Group.mtsFsr, commitsOf_commit_false hact, ← others_eq_commitsOf, hcommit]
    rfl
  by_cases h15 : fnum x.a.d = 15
  · simp only [mtsGroup, h15]
    rw [mtsEffect_fcr, hcommit]
    rfl
  by_cases h19 : fnum x.a.d = 19
  · simp only [mtsGroup, h19]
    rw [mtsEffect_amaxc]
    refine SchedOnly.trans ?_ (mtsAmaxc_commit hact _)
    split
    · next hnone => rw [mtsAmaxc_of_alone (g := x.g.orFsr _) (.inr ((others_eq_commitsOf x).symm.trans hnone))]; rfl
    · rfl
  by_cases h27 : fnum x.a.d = 27
  · simp only [mtsGroup, h27]
    rw [mtsEffect_rng, hcommit]
    rfl
  · rw [mtsGroup_of_other h14 h15 h19 h27, mtsEffect_of_other h14 h15 h19 h27, hcommit]
    rfl

/-! ## CCWR and LNWR -/

theorem ccwr_codes (m : Mask) (old : Mask) (p : Nat → Bool) :
    old &&& ~~~m ||| Mask.where_ p &&& m = Mask.where_ (fun l => if Mask.has m l then p l else Mask.has old l) := by
  refine BitVec.eq_of_getLsbD_eq fun l hl => ?_
  have hmerge := Mask.has_merge old m (Mask.where_ p) hl
  have hwhere := Mask.has_where (fun l => if Mask.has m l then p l else Mask.has old l) hl
  rw [Mask.has_where p hl] at hmerge
  exact hmerge.trans hwhere.symm

/-- CCWR's write, of the active lanes alone. -/
theorem ccwr_writes (x : Issue) (p : Opr) : (if x.act = 0 then [] else
      [RegWrite.cc x.act (Mask.where_ fun l => (p.at32 l).getLsbD 3) (Mask.where_ fun l => (p.at32 l).getLsbD 2)
        (Mask.where_ fun l => (p.at32 l).getLsbD 1) (Mask.where_ fun l => (p.at32 l).getLsbD 0)]).foldl Group.applyW x.g =
    x.g.applyW (.cc x.act (Mask.where_ fun l => (p.at32 l).getLsbD 3) (Mask.where_ fun l => (p.at32 l).getLsbD 2)
        (Mask.where_ fun l => (p.at32 l).getLsbD 1) (Mask.where_ fun l => (p.at32 l).getLsbD 0)) := by
  split
  · next hact =>
    have hkeep (old k : Mask) : old &&& ~~~(0 : Mask) ||| k &&& 0 = old := by
      rw [show ~~~(0 : Mask) = BitVec.allOnes 64 from rfl, BitVec.and_allOnes]
      simp
    rw [hact, Group.applyW_cc, hkeep, hkeep, hkeep, hkeep]
    rfl
  · rfl

/-- CCWR writes the codes or nothing. -/
theorem mem_oCcwr_writes {x : Issue} {w : RegWrite} (h : w ∈ (oCcwr x).writes) : ∃ c z n v, w = .cc x.act c z n v := by
  have h : w ∈ if x.act = 0 then [] else [_] := h
  split at h
  · cases h
  · exact ⟨_, _, _, _, List.mem_singleton.mp h⟩

theorem oCcwr_group (x : Issue) : (oCcwr x).writes.foldl Group.applyW x.g = ccwrGroup x := by
  refine (ccwr_writes x x.opX).trans ?_
  rw [Group.applyW_cc, ccwr_codes, ccwr_codes, ccwr_codes, ccwr_codes]
  rfl

/-- LNWR's write, none at or above the width (R155). -/
def lnwrWrites (x : Issue) : List RegWrite :=
  if lnwrLane x < x.g.width then [.vl x.fd.toNat (1#64 <<< lnwrLane x) (List.replicate 64 (x.opY.at32 0))] else []

theorem lnwrWrites_group (x : Issue) : (lnwrWrites x).foldl Group.applyW x.g = lnwrGroup x := by
  unfold lnwrWrites lnwrGroup
  by_cases hw : lnwrLane x < x.g.width
  · rw [if_pos hw]
    rw [List.foldl_cons, List.foldl_nil]
    by_cases h64 : lnwrLane x < 64
    · have hbit : 1#64 <<< lnwrLane x ≠ 0 := by
        intro h0
        have hget := congrArg (BitVec.getLsbD · (lnwrLane x)) h0
        simp [h64] at hget
      rw [if_pos (And.intro hw h64)]
      exact if_neg hbit
    · have hbit : 1#64 <<< lnwrLane x = 0 := BitVec.shiftLeft_eq_zero (by omega)
      rw [if_neg (fun hboth => h64 hboth.2)]
      exact if_pos hbit
  · rw [if_neg hw, if_neg (by simp [hw])]
    rfl

/-- A uniform operand, or no active lane, meets R155's demand of one value. -/
theorem needUni_nil {x : Issue} {p : Opr} (h : p.uni = true ∨ x.act = 0) : needUni x p = [] := by
  unfold needUni
  rw [if_pos (by simpa using h)]

/-- Where LNWR may issue, its operands are uniform and its lane is the entry's (R155). -/
theorem oLnwr_eq {x : Issue} (h : lnwrOk x = true) : oLnwr x = Out.ofSrcs x [x.opX, x.opY] { writes := lnwrWrites x } := by
  simp only [lnwrOk, Bool.and_eq_true, Bool.or_eq_true, beq_iff_eq] at h
  obtain ⟨huni, hlane⟩ := h
  have hinside : (decide (lnwrLane x < x.g.width) && !x.priv && !Mask.has x.e.mask (lnwrLane x)) = false := by
    rcases hlane with (hpriv | hwide) | hmask
    · simp [hpriv]
    · simp [show ¬ lnwrLane x < x.g.width by simpa using hwide]
    · simp [hmask]
  have hcauses : needUni x x.opX ++ needUni x x.opY ++
      (if (decide (lnwrLane x < x.g.width) && !x.priv && !Mask.has x.e.mask (lnwrLane x)) = true then [x.ill] else []) = [] := by
    rw [needUni_nil (huni.imp_left And.left), needUni_nil (huni.imp_left And.right), hinside]
    rfl
  show Out.ofSrcs x [x.opX, x.opY] { causes := _, writes := lnwrWrites x } = _
  exact congrArg (fun cs => Out.ofSrcs x [x.opX, x.opY] { causes := cs, writes := lnwrWrites x }) hcauses

/-! ## WAITDC -/

/-- A counter that nothing is held for holds nobody (R141). -/
theorem heldIn_of_none {g : Group} {n : Nat} (h : g.held.any (fun q => q.1 == n) = false) (m : Mask) : heldIn g m (fun k => k == n) = [] := by
  have hfind : g.held.find? (fun q => q.1 == n) = none := by
    rw [List.find?_eq_none]
    exact fun q hq => by simpa using List.any_eq_false.mp h q hq
  have hnil : (List.range 7).filterMap (fun k => if k == n then (g.held.find? (fun q => q.1 == k)).map (fun q => heldCause m k q.2) else none) = [] := by
    refine List.filterMap_eq_nil_iff.mpr fun k _ => ?_
    split
    · next hk => rw [beq_iff_eq.mp hk, hfind]; rfl
    · rfl
  unfold heldIn
  rw [hnil]

/-- A WAITDC whose counter is low enough does nothing (R118). -/
theorem oWaitdc_eq {x : Issue} {a : IArgs} (ha : x.a = .i a)
    (h : x.act = 0 ∨ (a.imm.toNat / 8 ≥ x.g.old.dcv (a.imm.toNat % 8) ∧ x.g.held.any (fun q => q.1 == a.imm.toNat % 8) = false)) : oWaitdc x = {} := by
  unfold oWaitdc
  rw [ha]
  by_cases hact : x.act = 0
  · rw [if_pos hact]
  · obtain ⟨hlow, hheld⟩ := h.resolve_left hact
    dsimp only
    rw [if_neg hact, heldIn_of_none hheld, decide_eq_false (not_lt.mpr hlow)]
    congr 1
    funext s
    exact if_neg (not_lt.mpr hlow)

/-! ## BIND -/

/-- A group whose LIMB is `v`. -/
def withLimb (v : Word) (g : Group) : Group := { g with limb := v }

/-- BIND where one entry holds every lane, none parked, and integers are whole (R163). -/
theorem oBind_eq {x : Issue} {a : IArgs} (ha : x.a = .i a) (h : bindOk x (a.imm.toNat % 8) = true) :
    oBind x = { eff := fun s => s.setGroup x.g.gid (withLimb (BitVec.ofNat 32 (256 + a.imm.toNat % 8))) } := by
  simp only [bindOk, Bool.and_eq_true, decide_eq_true_eq, beq_iff_eq, List.all_eq_true, Bool.not_eq_true'] at h
  obtain ⟨⟨⟨hentries, hparked⟩, hmask⟩, hwidth⟩ := h
  have hnone : x.g.warps.any (fun w => w.parked) = false := List.any_eq_false.mpr fun w hw => by simp [hparked w hw]
  unfold oBind
  rw [ha]
  dsimp only
  rw [if_neg (by simp [hnone, hmask, hwidth, not_lt.mpr hentries])]
  rfl

/-- Settles O8: each instruction is a plain outcome whose writes and effect are what the rule says. -/
theorem groupEffectsComplete : Obligations.GroupEffectsComplete := by
  unfold Obligations.GroupEffectsComplete
  intro i s x prio k _hwf h hk hok hr hfree
  have ha := State.position_args h.pos
  cases i <;> cases hk
  case mts a =>
    obtain ⟨t, hrun, hcommits⟩ := runIssue_effect h (oMts_eq x) hr hfree (by simp) (by simp) _ (mtsEffect_gid _ _ _) (mtsEffect_warps _ _ _)
      (fun _ => rfl)
    exact ⟨t, hrun, hcommits.of_sched (mtsEffect_sched h.pos)⟩
  case ccwr a =>
    have hdst : ∀ r ∈ (oCcwr x).writes.flatMap RegWrite.dst, r ∈ [RegId.cc] := by
      intro r hr
      obtain ⟨w, hw, hrw⟩ := List.mem_flatMap.mp hr
      obtain ⟨_, _, _, _, rfl⟩ := mem_oCcwr_writes hw
      exact hrw
    have hnoP : ∀ w ∈ (oCcwr x).writes, w.noP := by
      intro w hw
      obtain ⟨_, _, _, _, rfl⟩ := mem_oCcwr_writes hw
      trivial
    have hrun := runIssue_writesOnly h (show oCcwr x = Out.ofSrcs x [x.opX] { writes := (oCcwr x).writes } from rfl) hr hfree hdst hnoP
    rw [oCcwr_group] at hrun
    exact hrun
  case lnwr a =>
    have hrun := runIssue_writesOnly h (oLnwr_eq hok) hr hfree (by unfold lnwrWrites; split <;> simp [RegWrite.dst])
      (by unfold lnwrWrites; split <;> simp [RegWrite.noP])
    rw [lnwrWrites_group] at hrun
    exact hrun
  case bind a => exact runIssue_setsGroup h (oBind_eq ha hok) hfree (withLimb _) (fun _ => rfl) (fun _ => rfl) (fun _ => rfl)
  case unbind a => exact runIssue_setsGroup h (f := oUnbind) rfl hfree (withLimb 0) (fun _ => rfl) (fun _ => rfl) (fun _ => rfl)
  case amaxclr a =>
    have hrun := runIssue_setsGroup h (f := oAmaxclr) rfl hfree (fun g => g.clearAmax x.w.lanes) (fun g => g.clearAmax_gid _)
      (fun g => g.clearAmax_warps _) (fun _ => rfl)
    rw [clearAmax_eq_clearedAmax x rfl] at hrun
    exact hrun
  case nop a => exact runIssue_setsGroup h (f := oNop) rfl hfree (fun g => g) (fun _ => rfl) (fun _ => rfl) (fun s => (State.setGroup_id s _).symm)
  case waitdc a =>
    have hout := oWaitdc_eq ha (by simpa using hok)
    exact runIssue_setsGroup h hout hfree (fun g => g) (fun _ => rfl) (fun _ => rfl) (fun s => (State.setGroup_id s _).symm)

end Sys2Proof.Machine
end

section
/-! Where lanes go (R111 to R115, R121, R122): the frontier of warps that split, and the warps of a group after a jump. -/

namespace Sys2Proof.Machine
open Sys2Proof.Rules

/-! ## Frontiers -/

/-- Merging an entry into a frontier adds its lanes and no other. -/
theorem stands_mergeInto_iff {e : Entry} {es : List Entry} {l : Nat} {pc : DWord} {prio : BitVec 8} :
    Stands (mergeInto e es) l pc prio ↔ (Mask.has e.mask l = true ∧ e.pc = pc ∧ e.prio = prio) ∨ Stands es l pc prio := by
  constructor
  · induction es with
    | nil => exact stands_cons.mp
    | cons d r ih =>
      rw [mergeInto]
      split
      · next hk =>
        obtain ⟨hprio, hpc⟩ := hk
        rw [stands_cons, stands_cons, Mask.has_or, Bool.or_eq_true]
        rintro (⟨hd | he, hdpc, hdprio⟩ | hr)
        · exact .inr (.inl ⟨hd, hdpc, hdprio⟩)
        · exact .inl ⟨he, hpc ▸ hdpc, hprio ▸ hdprio⟩
        · exact .inr (.inr hr)
      · split
        · exact stands_cons.mp
        · rw [stands_cons, stands_cons]
          rintro (hd | hr)
          · exact .inr (.inl hd)
          · exact (ih hr).imp_right .inr
  · rintro (⟨he, rfl, rfl⟩ | hes)
    · exact stands_mergeInto_self he es
    · exact hes.mergeInto e

/-- Sorting a frontier neither loses lanes nor adds any (R121). -/
theorem stands_sortEntries_iff {es : List Entry} {l : Nat} {pc : DWord} {prio : BitVec 8} :
    Stands (sortEntries es) l pc prio ↔ Stands es l pc prio := by
  refine ⟨fun h => ?_, Stands.sortEntries⟩
  have hfold (ds acc : List Entry) (hds : ds ⊆ es) :
      Stands (ds.foldl (fun acc e => mergeInto e acc) acc) l pc prio → Stands es l pc prio ∨ Stands acc l pc prio := by
    induction ds generalizing acc with
    | nil => exact .inr
    | cons d r ih =>
      intro hstands
      rw [List.foldl_cons] at hstands
      rcases ih _ (List.subset_of_cons_subset hds) hstands with hes | hacc
      · exact .inl hes
      · rcases stands_mergeInto_iff.mp hacc with hd | hacc
        · exact .inl ⟨d, hds (by simp), hd⟩
        · exact .inr hacc
  rcases hfold _ [] (List.filter_subset_self _) h with hes | ⟨_, hmem, _⟩
  · exact hes
  · exact absurd hmem List.not_mem_nil

theorem stands_append {es ds : List Entry} {l : Nat} {pc : DWord} {prio : BitVec 8} :
    Stands (es ++ ds) l pc prio ↔ Stands es l pc prio ∨ Stands ds l pc prio := by
  simp only [Stands, List.mem_append, or_and_right, exists_or]

/-! ## Destinations -/

/-- The destinations `ds` send the lanes of `m`, and no other: lane l to the header `tgt l` of priority `pr l`. -/
structure Sends (ds : List Dest) (m : Mask) (tgt : Nat → DWord) (pr : Nat → BitVec 8) : Prop where
  total : ∀ l, Mask.has m l = true → ∃ d ∈ ds, Mask.has d.mask l = true
  sound : ∀ d ∈ ds, ∀ l, Mask.has d.mask l = true → Mask.has m l = true ∧ d.h = tgt l ∧ d.prio = pr l

section
variable {ds : List Dest} {m : Mask} {tgt : Nat → DWord} {pr : Nat → BitVec 8}

/-- The entries of destinations hold each lane after its header (R56). -/
theorem Sends.stands_iff (h : Sends ds m tgt pr) {l : Nat} {pc : DWord} {prio : BitVec 8} :
    Stands (ds.map Dest.entry) l pc prio ↔ Mask.has m l = true ∧ pc = tgt l + 8 ∧ prio = pr l := by
  constructor
  · rintro ⟨e, he, hl, rfl, rfl⟩
    obtain ⟨d, hd, rfl⟩ := List.mem_map.mp he
    obtain ⟨hm, hh, hp⟩ := h.sound d hd l hl
    exact ⟨hm, congrArg (· + 8) hh, hp⟩
  · rintro ⟨hl, rfl, rfl⟩
    obtain ⟨d, hd, hdl⟩ := h.total l hl
    obtain ⟨-, hh, hp⟩ := h.sound d hd l hdl
    exact ⟨d.entry, List.mem_map_of_mem hd, hdl, congrArg (· + 8) hh, hp⟩

theorem Sends.cons {d : Dest} (h : Sends ds m tgt pr) (hd : ∀ l, Mask.has d.mask l = true → d.h = tgt l ∧ d.prio = pr l) :
    Sends (d :: ds) (m ||| d.mask) tgt pr where
  total l hl := by
    rw [Mask.has_or, Bool.or_eq_true] at hl
    rcases hl with hl | hl
    · obtain ⟨k, hk, hkl⟩ := h.total l hl
      exact ⟨k, List.mem_cons_of_mem _ hk, hkl⟩
    · exact ⟨d, List.mem_cons_self, hl⟩
  sound k hk l hkl := by
    rw [Mask.has_or]
    rcases List.mem_cons.mp hk with rfl | hk
    · exact ⟨by rw [hkl, Bool.or_true], hd l hkl⟩
    · obtain ⟨hm, hkd⟩ := h.sound k hk l hkl
      exact ⟨by rw [hm, Bool.true_or], hkd⟩

theorem has_zero (l : Nat) : Mask.has 0 l = false := BitVec.getLsbD_zero

theorem Sends.nil : Sends [] 0 tgt pr := ⟨fun l hl => absurd ((has_zero l).symm.trans hl) Bool.false_ne_true, fun _ hd => absurd hd List.not_mem_nil⟩

/-- Destinations without lanes play no part. -/
theorem Sends.filter (h : Sends ds m tgt pr) : Sends (ds.filter (fun d => d.mask ≠ 0)) m tgt pr where
  total l hl := by
    obtain ⟨d, hd, hdl⟩ := h.total l hl
    have hne : d.mask ≠ 0 := by rintro h0; rw [h0, has_zero] at hdl; cases hdl
    exact ⟨d, List.mem_filter.mpr ⟨hd, by simpa using hne⟩, hdl⟩
  sound d hd := h.sound d (List.mem_of_mem_filter hd)

/-- One more destination, joined to those of the same header. -/
def joinOne (acc : List Dest) (d : Dest) : List Dest :=
  if acc.any (fun x => x.h = d.h ∧ x.prio = d.prio) then
    acc.map (fun x => if x.h = d.h ∧ x.prio = d.prio then { x with mask := x.mask ||| d.mask } else x)
  else acc ++ [d]

theorem joinDests_eq_foldl (ds : List Dest) : joinDests ds = ds.foldl joinOne [] := rfl

theorem Sends.joinOne {d : Dest} (h : Sends ds m tgt pr) (hd : ∀ l, Mask.has d.mask l = true → d.h = tgt l ∧ d.prio = pr l) :
    Sends (joinOne ds d) (m ||| d.mask) tgt pr := by
  unfold Machine.joinOne
  split
  · next hany =>
    obtain ⟨k, hk, hsame⟩ := List.any_eq_true.mp hany
    have hsame : k.h = d.h ∧ k.prio = d.prio := by simpa using hsame
    constructor
    · intro l hl
      rw [Mask.has_or, Bool.or_eq_true] at hl
      rcases hl with hl | hl
      · obtain ⟨j, hj, hjl⟩ := h.total l hl
        refine ⟨_, List.mem_map_of_mem hj, ?_⟩
        split
        · exact (Mask.has_or ..).trans (by rw [hjl, Bool.true_or])
        · exact hjl
      · refine ⟨_, List.mem_map_of_mem hk, ?_⟩
        rw [if_pos hsame]
        exact (Mask.has_or ..).trans (by rw [hl, Bool.or_true])
    · intro j hj l hjl
      rw [Mask.has_or]
      obtain ⟨i, hi, rfl⟩ := List.mem_map.mp hj
      split at hjl
      · next hid =>
        rw [if_pos hid]
        rw [show Mask.has (i.mask ||| d.mask) l = _ from Mask.has_or .., Bool.or_eq_true] at hjl
        rcases hjl with hil | hdl
        · obtain ⟨hm, hi⟩ := h.sound i hi l hil
          exact ⟨by rw [hm, Bool.true_or], hi⟩
        · obtain ⟨hh, hp⟩ := hd l hdl
          exact ⟨by rw [hdl, Bool.or_true], hid.1.trans hh, hid.2.trans hp⟩
      · next hid =>
        rw [if_neg hid]
        obtain ⟨hm, hi⟩ := h.sound i hi l hjl
        exact ⟨by rw [hm, Bool.true_or], hi⟩
  · constructor
    · intro l hl
      obtain ⟨j, hj, hjl⟩ := (h.cons hd).total l hl
      exact ⟨j, by simpa [or_comm] using hj, hjl⟩
    · intro j hj
      exact (h.cons hd).sound j (by simpa [or_comm] using hj)

/-- Joining destinations keeps where each lane goes. -/
theorem Sends.joinDests (h : Sends ds m tgt pr) : Sends (joinDests ds) m tgt pr := by
  have hfold : ∀ (es acc : List Dest) (k : Mask), Sends acc k tgt pr → (∀ d ∈ es, ∀ l, Mask.has d.mask l = true → d.h = tgt l ∧ d.prio = pr l) →
      Sends (es.foldl Machine.joinOne acc) (es.foldl (fun k d => k ||| d.mask) k) tgt pr := by
    intro es
    induction es with
    | nil => exact fun acc k hacc _ => hacc
    | cons d r ih =>
      intro acc k hacc hes
      exact ih _ _ (hacc.joinOne (hes d (by simp))) fun j hj => hes j (by simp [hj])
  have hjoined := hfold ds [] 0 Sends.nil fun d hd l hl => (h.sound d hd l hl).2
  rw [joinDests_eq_foldl]
  have hall : ∀ l, Mask.has (ds.foldl (fun k d => k ||| d.mask) 0) l = true ↔ Mask.has m l = true := by
    have hmem : ∀ (es : List Dest) (k : Mask) (l : Nat), Mask.has (es.foldl (fun k d => k ||| d.mask) k) l = true ↔
        Mask.has k l = true ∨ ∃ d ∈ es, Mask.has d.mask l = true := by
      intro es
      induction es with
      | nil => simp
      | cons d r ih => intro k l; rw [List.foldl_cons, ih, Mask.has_or, Bool.or_eq_true]; simp [or_assoc]
    intro l
    rw [hmem, has_zero]
    exact ⟨fun hl => by obtain ⟨d, hd, hdl⟩ := hl.resolve_left (by simp); exact (h.sound d hd l hdl).1, fun hl => .inr (h.total l hl)⟩
  exact ⟨fun l hl => hjoined.total l ((hall l).mpr hl), fun d hd l hl => ⟨(hall l).mp (hjoined.sound d hd l hl).1, (hjoined.sound d hd l hl).2⟩⟩

/-! ## Warps that split (R122) -/

/-- The destinations with the lanes that move to new warps. -/
def movedDests (goes : Dest → Mask) (ds : List Dest) : List Dest := ds.map (fun d => { d with mask := goes d })
def movedMask (goes : Dest → Mask) (ds : List Dest) : Mask := (movedDests goes ds).foldl (fun k d => k ||| d.mask) 0
/-- The destinations with the lanes that stay in the warp. -/
def stayDests (k : Mask) (ds : List Dest) : List Dest := (ds.map (fun d => { d with mask := d.mask &&& ~~~k })).filter (fun d => d.mask ≠ 0)

theorem has_foldl_masks {es : List Dest} {k : Mask} {l : Nat} : Mask.has (es.foldl (fun k d => k ||| d.mask) k) l = true ↔
    Mask.has k l = true ∨ ∃ d ∈ es, Mask.has d.mask l = true := by
  induction es generalizing k with
  | nil => simp
  | cons d r ih => rw [List.foldl_cons, ih, Mask.has_or, Bool.or_eq_true]; simp [or_assoc]

theorem has_diff {m k : Mask} {l : Nat} : Mask.has (m &&& ~~~k) l = true ↔ Mask.has m l = true ∧ Mask.has k l = false := by
  rw [Mask.has_and, Bool.and_eq_true, Mask.has, Mask.has, Mask.has, BitVec.getLsbD_not]
  refine and_congr_right fun hm => ?_
  simp [show l < 64 from BitVec.lt_of_getLsbD hm]

theorem Sends.moved (h : Sends ds m tgt pr) {goes : Dest → Mask} (hgoes : ∀ d l, Mask.has (goes d) l = true → Mask.has d.mask l = true) :
    Sends (movedDests goes ds) (movedMask goes ds) tgt pr where
  total l hl := (has_foldl_masks.mp hl).resolve_left (by rw [has_zero]; exact Bool.false_ne_true)
  sound d hd l hl := by
    refine ⟨has_foldl_masks.mpr (.inr ⟨d, hd, hl⟩), ?_⟩
    obtain ⟨e, he, rfl⟩ := List.mem_map.mp hd
    exact (h.sound e he l (hgoes e l hl)).2

theorem Sends.stay (h : Sends ds m tgt pr) (k : Mask) : Sends (stayDests k ds) (m &&& ~~~k) tgt pr := by
  refine Sends.filter ⟨fun l hl => ?_, fun d hd l hl => ?_⟩
  · obtain ⟨hm, hk⟩ := has_diff.mp hl
    obtain ⟨d, hd, hdl⟩ := h.total l hm
    exact ⟨_, List.mem_map_of_mem hd, has_diff.mpr ⟨hdl, hk⟩⟩
  · obtain ⟨e, he, rfl⟩ := List.mem_map.mp hd
    obtain ⟨hel, hk⟩ := has_diff.mp hl
    obtain ⟨hm, hto⟩ := h.sound e he l hel
    exact ⟨has_diff.mpr ⟨hm, hk⟩, hto⟩

/-- Lane `l` stands in one of the warps. -/
def StandsIn (ws : List Warp) (l : Nat) (pc : DWord) (prio : BitVec 8) : Prop := ∃ v ∈ ws, Stands v.entries l pc prio

theorem standsIn_append {ws vs : List Warp} {l : Nat} {pc : DWord} {prio : BitVec 8} :
    StandsIn (ws ++ vs) l pc prio ↔ StandsIn ws l pc prio ∨ StandsIn vs l pc prio := by
  simp only [StandsIn, List.mem_append, or_and_right, exists_or]

/-- The warp that keeps a frontier, none where it is empty. -/
theorem standsIn_whole {es : List Entry} {f : List Entry → Warp} (hf : (f es).entries = es) {l : Nat} {pc : DWord} {prio : BitVec 8} :
    StandsIn (if es.isEmpty then [] else [f es]) l pc prio ↔ Stands es l pc prio := by
  cases es with
  | nil => simp [StandsIn, Stands]
  | cons e r => simp [StandsIn, hf]

/-- New warps, one for each destination. -/
theorem standsIn_news {ds : List Dest} {f : Dest × Nat → Warp} (hf : ∀ x, (f x).entries = [x.1.entry]) {l : Nat} {pc : DWord} {prio : BitVec 8} :
    StandsIn (ds.zipIdx.map f) l pc prio ↔ Stands (ds.map Dest.entry) l pc prio := by
  constructor
  · rintro ⟨v, hv, hs⟩
    obtain ⟨x, hx, rfl⟩ := List.mem_map.mp hv
    obtain ⟨e, he, hs⟩ := hs
    rw [hf, List.mem_singleton] at he
    exact ⟨e, he ▸ List.mem_map_of_mem (List.fst_mem_of_mem_zipIdx hx), hs⟩
  · rintro ⟨e, he, hs⟩
    obtain ⟨d, hd, rfl⟩ := List.mem_map.mp he
    obtain ⟨n, hn, rfl⟩ := List.mem_iff_getElem.mp hd
    refine ⟨_, List.mem_map_of_mem (a := (ds[n], n)) ?_, ds[n].entry, by rw [hf]; exact List.mem_singleton.mpr rfl, hs⟩
    exact List.mem_zipIdx_iff_getElem?.mpr (by simp [hn])

/-- A warp that splits holds the lanes of the destinations after their headers, and those of its other entries where they stood (R122). -/
theorem splitWarp_stands_iff (h : Sends ds m tgt pr) (w : Warp) (issuing : Mask) (n : Nat) {l : Nat} {pc : DWord} {prio : BitVec 8} :
    StandsIn (splitWarp w issuing ds n) l pc prio ↔
      (Mask.has m l = true ∧ pc = tgt l + 8 ∧ prio = pr l) ∨ Stands (w.entries.drop 1) l pc prio := by
  unfold splitWarp
  extract_lets js rest restM ended whole goes moved movedM stay news
  change StandsIn _ l pc prio ↔ _ ∨ Stands rest l pc prio
  have hds : Sends js m tgt pr := h.joinDests.filter
  have hwhole (es : List Entry) : StandsIn (whole es) l pc prio ↔ Stands es l pc prio :=
    standsIn_whole (f := fun es => { w with entries := es, pend := splitPend w.pend (es.foldl (fun m e => m ||| e.mask) (0 : Mask)) }) rfl
  have hone : StandsIn (whole (sortEntries (js.map Dest.entry ++ rest))) l pc prio ↔
      (Mask.has m l = true ∧ pc = tgt l + 8 ∧ prio = pr l) ∨ Stands rest l pc prio := by
    rw [hwhole, stands_sortEntries_iff, stands_append, hds.stands_iff]
  by_cases hnil : js = []
  · rw [hnil] at hone ⊢
    exact hone
  · obtain ⟨d, more, hcons⟩ := List.exists_cons_of_ne_nil hnil
    rw [hcons]
    dsimp only
    split
    · next hwhole1 =>
      rw [Bool.and_eq_true] at hwhole1
      rw [hcons, List.isEmpty_iff.mp hwhole1.1] at hone
      exact hone
    · have hgoes : ∀ d l, Mask.has (goes d) l = true → Mask.has d.mask l = true := by
        intro d l hl
        have hl := (Mask.has_where _ (BitVec.lt_of_getLsbD hl)).symm.trans hl
        dsimp only at hl
        rw [Bool.and_eq_true, Bool.and_eq_true] at hl
        exact hl.1.1
      have hmoved : Sends moved movedM tgt pr := hds.moved hgoes
      have hsub : Mask.has movedM l = true → Mask.has m l = true := fun hl => by
        obtain ⟨d, hd, hdl⟩ := hmoved.total l hl
        obtain ⟨e, he, rfl⟩ := List.mem_map.mp hd
        exact (hds.sound e he l (hgoes e l hdl)).1
      have hnews : StandsIn news l pc prio ↔ Stands ((moved.filter (fun d => d.mask ≠ 0)).map Dest.entry) l pc prio := standsIn_news fun _ => rfl
      have hstay : Stands (stay.map Dest.entry) l pc prio ↔ _ := (hds.stay movedM).stands_iff
      rw [standsIn_append, hwhole, stands_sortEntries_iff, stands_append, hnews, hstay, hmoved.filter.stands_iff, has_diff]
      cases hk : Mask.has movedM l
      · simp
      · simp [hsub hk, or_comm]

end

end Sys2Proof.Machine
end

section
/-! Jumps (R111 to R115, R122, R431): the headers that an instruction reads, the destinations it finds, and what its warp and its group
become. -/

namespace Sys2Proof.Machine
open Sys2Proof.Rules

/-! ## Lanes grouped by their target -/

/-- The lanes of `m` grouped by the header `tgt l` they go to. -/
structure Routes (ts : List (DWord × Mask)) (m : Mask) (tgt : Nat → DWord) : Prop where
  total : ∀ l, Mask.has m l = true → ∃ q ∈ ts, Mask.has q.2 l = true
  lanes : ∀ q ∈ ts, ∀ l, Mask.has q.2 l = true → Mask.has m l = true ∧ q.1 = tgt l

/-- One more lane, with those of its target. -/
def addLane (f : Nat → DWord) (acc : List (DWord × Mask)) (l : Nat) : List (DWord × Mask) :=
  if acc.any (fun p => p.1 == f l) then acc.map (fun p => if p.1 == f l then (p.1, p.2 ||| (1#64 <<< l)) else p)
  else acc ++ [(f l, 1#64 <<< l)]

theorem byTarget_eq_foldl (f : Nat → DWord) (m : Mask) : byTarget f m = (Mask.lanes m).foldl (addLane f) [] := rfl

/-- A mask that is not empty has a lane. -/
theorem exists_lane {m : Mask} (h : m ≠ 0) : ∃ l, Mask.has m l = true := by
  by_contra hno
  refine h (BitVec.eq_of_getLsbD_eq fun l _ => ?_)
  rw [show (0 : Mask).getLsbD l = false from BitVec.getLsbD_zero]
  exact Bool.eq_false_iff.mpr fun hl => hno ⟨l, hl⟩

theorem has_or_lane {m : Mask} {l k : Nat} : Mask.has (m ||| (1#64 <<< l)) k = true ↔ Mask.has m k = true ∨ (k < 64 ∧ k = l) := by
  by_cases hk : k < 64
  · rw [Mask.has_or_bit m l k hk]
    simp [hk]
  · have hno (v : Mask) : Mask.has v k = false := BitVec.getLsbD_of_ge v k (by omega)
    rw [hno, hno]
    simp [hk]

theorem has_lane {l k : Nat} : Mask.has (1#64 <<< l) k = true ↔ k < 64 ∧ k = l := by
  have h := has_or_lane (m := 0#64) (l := l) (k := k)
  rwa [BitVec.zero_or, show Mask.has (0#64) k = false from has_zero k, or_iff_right Bool.false_ne_true] at h

/-- Lanes that have been grouped: each in the group of its target, and every group the target of one. -/
structure Grouped (f : Nat → DWord) (acc : List (DWord × Mask)) (L : List Nat) : Prop where
  total : ∀ l ∈ L, ∃ q ∈ acc, Mask.has q.2 l = true
  lanes : ∀ q ∈ acc, ∀ l, Mask.has q.2 l = true → l ∈ L ∧ q.1 = f l
  target : ∀ q ∈ acc, ∃ l ∈ L, q.1 = f l

theorem Grouped.addLane {f : Nat → DWord} {acc : List (DWord × Mask)} {L : List Nat} (h : Grouped f acc L) {l : Nat} (hl : l < 64) :
    Grouped f (addLane f acc l) (L ++ [l]) := by
  unfold Machine.addLane
  split
  · next hany =>
    obtain ⟨p, hp, hpl⟩ := List.any_eq_true.mp hany
    have htaken (q : DWord × Mask) : (if q.1 == f l then (q.1, q.2 ||| (1#64 <<< l)) else q).1 = q.1 := by split <;> rfl
    refine ⟨fun k hk => ?_, fun q hq k hqk => ?_, fun q hq => ?_⟩
    · rcases List.mem_append.mp hk with hk | hk
      · obtain ⟨q, hq, hqk⟩ := h.total k hk
        refine ⟨_, List.mem_map_of_mem hq, ?_⟩
        split
        · exact has_or_lane.mpr (.inl hqk)
        · exact hqk
      · obtain rfl := List.mem_singleton.mp hk
        refine ⟨_, List.mem_map_of_mem hp, ?_⟩
        rw [if_pos hpl]
        exact has_or_lane.mpr (.inr ⟨hl, rfl⟩)
    · obtain ⟨r, hr, rfl⟩ := List.mem_map.mp hq
      rw [htaken]
      split at hqk
      · next hrl =>
        rcases has_or_lane.mp hqk with hk | ⟨-, rfl⟩
        · obtain ⟨hkL, hrk⟩ := h.lanes r hr k hk
          exact ⟨List.mem_append_left _ hkL, hrk⟩
        · exact ⟨by simp, beq_iff_eq.mp hrl⟩
      · obtain ⟨hkL, hrk⟩ := h.lanes r hr k hqk
        exact ⟨List.mem_append_left _ hkL, hrk⟩
    · obtain ⟨r, hr, rfl⟩ := List.mem_map.mp hq
      obtain ⟨k, hk, hrk⟩ := h.target r hr
      exact ⟨k, List.mem_append_left _ hk, by rw [htaken, hrk]⟩
  · refine ⟨fun k hk => ?_, fun q hq k hqk => ?_, fun q hq => ?_⟩
    · rcases List.mem_append.mp hk with hk | hk
      · obtain ⟨q, hq, hqk⟩ := h.total k hk
        exact ⟨q, List.mem_append_left _ hq, hqk⟩
      · obtain rfl := List.mem_singleton.mp hk
        exact ⟨_, List.mem_append_right _ (List.mem_singleton.mpr rfl), has_lane.mpr ⟨hl, rfl⟩⟩
    · rcases List.mem_append.mp hq with hq | hq
      · obtain ⟨hkL, hqf⟩ := h.lanes q hq k hqk
        exact ⟨List.mem_append_left _ hkL, hqf⟩
      · obtain rfl := List.mem_singleton.mp hq
        obtain ⟨-, rfl⟩ := has_lane.mp hqk
        exact ⟨by simp, rfl⟩
    · rcases List.mem_append.mp hq with hq | hq
      · obtain ⟨k, hk, hqk⟩ := h.target q hq
        exact ⟨k, List.mem_append_left _ hk, hqk⟩
      · obtain rfl := List.mem_singleton.mp hq
        exact ⟨l, by simp, rfl⟩

theorem byTarget_grouped (f : Nat → DWord) (m : Mask) : Grouped f (byTarget f m) (Mask.lanes m) := by
  have hfold : ∀ (L done : List Nat) (acc : List (DWord × Mask)), Grouped f acc done → (∀ l ∈ L, l < 64) → Grouped f (L.foldl (addLane f) acc) (done ++ L) := by
    intro L
    induction L with
    | nil => exact fun done acc h _ => by rwa [List.append_nil]
    | cons l r ih =>
      intro done acc h hL
      have hnext := ih _ _ (h.addLane (hL l (by simp))) fun k hk => hL k (by simp [hk])
      rwa [List.append_assoc] at hnext
  rw [byTarget_eq_foldl, ← List.nil_append (Mask.lanes m)]
  refine hfold _ [] [] ⟨by simp, by simp, by simp⟩ fun l hl => ?_
  exact BitVec.lt_of_getLsbD (Mask.mem_lanes.mp hl)

/-! ## Headers read -/

/-- A header has one priority. -/
theorem headerAt_unique {x : Issue} {t : DWord} {p q : BitVec 8} (hp : HeaderAt x t p) (hq : HeaderAt x t q) : p = q := by
  have h := (hp.2 0).symm.trans (hq.2 0)
  injection h

/-- Where every header is readable, each target becomes a destination and nothing is raised (R431). -/
theorem readTargets_of_headers {x : Issue} {ts : List (DWord × Mask)} (h : ∀ q ∈ ts, ∃ p, HeaderAt x q.1 p) :
    ∃ ds, readTargets x ts = ([], [], ds) ∧ (∀ q ∈ ts, ∃ d ∈ ds, d.h = q.1 ∧ d.mask = q.2) ∧ ∀ d ∈ ds, (d.h, d.mask) ∈ ts ∧ HeaderAt x d.h d.prio := by
  induction ts with
  | nil => exact ⟨[], rfl, by simp, by simp⟩
  | cons q r ih =>
    obtain ⟨ds, hread, hall, hfrom⟩ := ih fun q hq => h q (by simp [hq])
    obtain ⟨p, hp⟩ := h q (by simp)
    refine ⟨{ h := q.1, prio := p, mask := q.2 } :: ds, ?_, ?_, ?_⟩
    · have hok : ¬ (q.1.toNat < 2 ^ 57 ∧ q.1.toNat % 8 ≠ 0) := fun hbad => hbad.2 hp.1
      simp only [readTargets, if_neg hok, hp.2 q.2, hread]
    · intro k hk
      rcases List.mem_cons.mp hk with rfl | hk
      · exact ⟨_, List.mem_cons_self, rfl, rfl⟩
      · obtain ⟨d, hd, hdk⟩ := hall k hk
        exact ⟨d, List.mem_cons_of_mem _ hd, hdk⟩
    · intro d hd
      rcases List.mem_cons.mp hd with rfl | hd
      · exact ⟨List.mem_cons_self, hp⟩
      · exact ⟨List.mem_cons_of_mem _ (hfrom d hd).1, (hfrom d hd).2⟩

/-- The destinations of lanes grouped by target. -/
theorem readTargets_sends {x : Issue} {ts : List (DWord × Mask)} {m : Mask} {tgt : Nat → DWord} {pr : Nat → BitVec 8} (h : Routes ts m tgt)
    (hread : ∀ q ∈ ts, ∃ p, HeaderAt x q.1 p) (hpr : ∀ l, Mask.has m l = true → HeaderAt x (tgt l) (pr l)) :
    ∃ ds, readTargets x ts = ([], [], ds) ∧ Sends ds m tgt pr := by
  obtain ⟨ds, hds, hall, hfrom⟩ := readTargets_of_headers hread
  refine ⟨ds, hds, fun l hl => ?_, fun d hd l hdl => ?_⟩
  · obtain ⟨q, hq, hql⟩ := h.total l hl
    obtain ⟨d, hd, -, hmask⟩ := hall q hq
    exact ⟨d, hd, by rw [hmask, hql]⟩
  · obtain ⟨hmem, hp⟩ := hfrom d hd
    obtain ⟨hml, htgt⟩ := h.lanes _ hmem l hdl
    have htgt : d.h = tgt l := htgt
    exact ⟨hml, htgt, headerAt_unique hp (htgt ▸ hpr l hml)⟩

/-- Passing lanes go where `f` says, the others to h'. -/
theorem goTo_routes {x : Issue} (hsub : ∀ l, Mask.has x.act l = true → Mask.has x.e.mask l = true) (f : Nat → DWord) :
    Routes (byTarget f x.act ++ if x.e.mask &&& ~~~x.act = 0 then [] else [(x.hn, x.e.mask &&& ~~~x.act)]) x.e.mask (passOr x f) := by
  have hgroup := byTarget_grouped f x.act
  refine ⟨fun l hl => ?_, fun q hq l hql => ?_⟩
  · by_cases hact : Mask.has x.act l = true
    · obtain ⟨q, hq, hql⟩ := hgroup.total l (Mask.mem_lanes.mpr hact)
      exact ⟨q, List.mem_append_left _ hq, hql⟩
    · have hfail : Mask.has (x.e.mask &&& ~~~x.act) l = true := has_diff.mpr ⟨hl, Bool.eq_false_iff.mpr hact⟩
      have hne : x.e.mask &&& ~~~x.act ≠ 0 := by rintro h0; rw [h0, has_zero] at hfail; cases hfail
      exact ⟨_, List.mem_append_right _ (by rw [if_neg hne]; exact List.mem_singleton.mpr rfl), hfail⟩
  · rcases List.mem_append.mp hq with hq | hq
    · obtain ⟨hact, htgt⟩ := hgroup.lanes q hq l hql
      have hact := Mask.mem_lanes.mp hact
      exact ⟨hsub l hact, by rw [passOr, if_pos hact, htgt]⟩
    · split at hq
      · cases hq
      · obtain rfl := List.mem_singleton.mp hq
        obtain ⟨hl, hact⟩ := has_diff.mp hql
        exact ⟨hl, by rw [passOr, if_neg (by rw [hact]; exact Bool.false_ne_true)]⟩

/-- Every group of lanes has a lane, whose header is read. -/
theorem goTo_headers {x : Issue} (hsub : ∀ l, Mask.has x.act l = true → Mask.has x.e.mask l = true) {f : Nat → DWord} {pr : Nat → BitVec 8}
    (hpr : ∀ l, Mask.has x.e.mask l = true → HeaderAt x (passOr x f l) (pr l)) :
    ∀ q ∈ byTarget f x.act ++ (if x.e.mask &&& ~~~x.act = 0 then [] else [(x.hn, x.e.mask &&& ~~~x.act)]), ∃ p, HeaderAt x q.1 p := by
  intro q hq
  rcases List.mem_append.mp hq with hq | hq
  · obtain ⟨l, hl, htgt⟩ := (byTarget_grouped f x.act).target q hq
    have hact := Mask.mem_lanes.mp hl
    have hhead := hpr l (hsub l hact)
    rw [passOr, if_pos hact] at hhead
    exact ⟨pr l, htgt ▸ hhead⟩
  · split at hq
    · cases hq
    · next hne =>
      obtain rfl := List.mem_singleton.mp hq
      obtain ⟨l, hl⟩ := exists_lane hne
      obtain ⟨hmask, hact⟩ := has_diff.mp hl
      have hhead := hpr l hmask
      rw [passOr, if_neg (by rw [hact]; exact Bool.false_ne_true)] at hhead
      exact ⟨pr l, hhead⟩

/-- Lanes that keep whole integers together raise no LIMBDIV (R164). -/
theorem limbDiv_nil {x : Issue} {f : Nat → Option DWord} (h : Together x f) : limbDiv x f = [] := by
  unfold limbDiv
  extract_lets low m
  refine if_neg fun hraise => ?_
  rw [Bool.and_eq_true, bne_iff_ne] at hraise
  obtain ⟨hbound, hm⟩ := hraise
  obtain ⟨l, hml⟩ := exists_lane hm
  obtain ⟨hmask, hne⟩ := Bool.and_eq_true_iff.mp ((Mask.has_and ..).symm.trans hml)
  have hne := (Mask.has_where (fun l => f l != low) (BitVec.lt_of_getLsbD hml)).symm.trans hne
  have hlow : Mask.has x.e.mask (Mask.low x.e.mask) = true := by
    have hmem := Mask.mem_lanes.mpr hmask
    rw [Mask.low, List.headD_eq_head?_getD]
    cases hlanes : Mask.lanes x.e.mask with
    | nil => rw [hlanes] at hmem; cases hmem
    | cons k r => exact Mask.mem_lanes.mp (by rw [hlanes]; exact List.mem_cons_self)
  exact bne_iff_ne.mp hne (h hbound l _ hmask hlow)

end Sys2Proof.Machine
end

section
/-! Control transfers complete (R111 to R115, R122): the machine after a jump, and where it leaves each lane. -/

namespace Sys2Proof.Machine
open Sys2Proof.Rules

/-! ## The group after a jump -/

/-- What a jump to `ds` makes of the group `g`. -/
def jumpGroup (x : Issue) (s : State) (ds : List Dest) (g : Group) : Group :=
  match g.warp x.w.wid with
  | none => g
  | some w =>
    let w := { w with lastIssue := s.bw, turn := s.nextTurn x.g.core, released := false, pass := 0, snap := [], rpc := 0, waitAt := none }
    x.mark s.bw (g.replaceWarp x.w.wid (splitWarp w x.e.mask ds g.newWid))

theorem jump_eq (x : Issue) (s : State) (ds : List Dest) :
    jump x s ds = (s.setGroup x.g.gid (jumpGroup x s ds)).clauseEnd x.g.gid x.cl.yld := rfl

theorem jumpGroup_sched (x : Issue) (s : State) (ds : List Dest) (g : Group) : SchedOnly g (jumpGroup x s ds g) := by
  unfold jumpGroup
  split <;> rfl

theorem OnlyGroup.jump {x : Issue} {s t : State} {g : Group} (h : OnlyGroup x.g.gid s t g) (ds : List Dest) :
    OnlyGroup x.g.gid s (jump x t ds) g := by
  rw [jump_eq]
  exact (h.sched _ (jumpGroup_sched x t ds)).clauseEnd _

/-- The warps of a group after a jump: the others, and what its issuing warp split into. -/
structure Jumped (x : Issue) (ds : List Dest) (ws : List Warp) : Prop where
  warps : ∃ v n, v.entries = x.w.entries ∧ ws = x.g.warps.filter (fun w => w.wid != x.w.wid) ++ splitWarp v x.e.mask ds n

theorem jumpGroup_warps {x : Issue} {t : State} {ds : List Dest} {g : Group} {w : Warp} (hw : g.warp x.w.wid = some w) :
    ∃ v, v.entries = w.entries ∧
      (jumpGroup x t ds g).warps = g.warps.filter (fun w => w.wid != x.w.wid) ++ splitWarp v x.e.mask ds g.newWid := by
  unfold jumpGroup
  rw [hw]
  exact ⟨{ w with lastIssue := t.bw, turn := t.nextTurn x.g.core, released := false, pass := 0, snap := [], rpc := 0, waitAt := none }, rfl, rfl⟩

theorem HasWarps.jump {x : Issue} {t : State} {g : Group} (hg : t.group x.g.gid = some g) (hws : g.warps = x.g.warps)
    (hw : x.g.warp x.w.wid = some x.w) (ds : List Dest) : ∃ ws, HasWarps (jump x t ds) x.g.gid ws ∧ Jumped x ds ws := by
  have hid : ∀ g, (jumpGroup x t ds g).gid = g.gid := fun g => by
    have h := jumpGroup_sched x t ds g
    unfold SchedOnly at h
    rw [h]
  have hfind : g.warp x.w.wid = some x.w := by rw [Group.warp, hws]; exact hw
  obtain ⟨v, hv, hws'⟩ := jumpGroup_warps (t := t) (ds := ds) hfind
  have hbase : HasWarps (t.setGroup x.g.gid (jumpGroup x t ds)) x.g.gid (jumpGroup x t ds g).warps :=
    ⟨jumpGroup x t ds g, by rw [State.group_setGroup_self _ _ _ hid, hg]; rfl, rfl⟩
  rw [jump_eq]
  exact ⟨_, hbase.clauseEnd x.cl.yld, v, _, hv, by rw [hws', hws]⟩

/-- Groups of another number stay in the machine. -/
def KeepsOthers (gid : Nat) (s t : State) : Prop := ∀ q ∈ s.groups, q.gid ≠ gid → q ∈ t.groups

theorem KeepsOthers.trans {gid : Nat} {s t u : State} (a : KeepsOthers gid s t) (b : KeepsOthers gid t u) : KeepsOthers gid s u :=
  fun q hq hne => b q (a q hq hne) hne

theorem KeepsOthers.setGroup (s : State) (gid : Nat) (f : Group → Group) : KeepsOthers gid s (s.setGroup gid f) :=
  fun q hq hne => List.mem_map.mpr ⟨q, hq, if_neg (by simpa using hne)⟩

theorem KeepsOthers.yieldSlot (s : State) (gid : Nat) : KeepsOthers gid s (s.yieldSlot gid) := by
  unfold State.yieldSlot
  split
  · exact fun q hq _ => hq
  · split
    · exact KeepsOthers.setGroup _ _ _
    · split <;> exact KeepsOthers.setGroup _ _ _

theorem KeepsOthers.clauseEnd (s : State) (gid : Nat) (y : Bool) : KeepsOthers gid s (s.clauseEnd gid y) := by
  unfold State.clauseEnd
  extract_lets s1 due
  have h1 : KeepsOthers gid s s1 := KeepsOthers.setGroup _ _ _
  by_cases hd : (y || due) = true
  · rw [if_pos hd]
    exact h1.trans (KeepsOthers.yieldSlot _ _)
  · rw [if_neg hd]
    exact h1

theorem KeepsOthers.jump (x : Issue) (s : State) (ds : List Dest) : KeepsOthers x.g.gid s (jump x s ds) := by
  rw [jump_eq]
  exact (KeepsOthers.setGroup s x.g.gid (jumpGroup x s ds)).trans (KeepsOthers.clauseEnd _ _ _)

/-- The group holds its slot, or has given it up to wait for one (R129). -/
def HasSlot (s : State) (gid : Nat) : Prop := ∃ g, s.group gid = some g ∧ (g.st = .active ∨ g.st = .ready)

theorem HasSlot.setGroup {s : State} {gid : Nat} (h : HasSlot s gid) (f : Group → Group) (hf : ∀ g, (f g).gid = g.gid)
    (hst : ∀ g, (f g).st = g.st ∨ (f g).st = .ready) : HasSlot (s.setGroup gid f) gid := by
  obtain ⟨g, hg, hslot⟩ := h
  refine ⟨f g, by rw [State.group_setGroup_self s gid f hf, hg]; rfl, ?_⟩
  rcases hst g with hsame | hready
  · rwa [hsame]
  · exact .inr hready

theorem HasSlot.yieldSlot {s : State} {gid : Nat} (h : HasSlot s gid) : HasSlot (s.yieldSlot gid) gid := by
  unfold State.yieldSlot
  split
  · exact h
  · split
    · exact h.setGroup _ (fun _ => rfl) (fun _ => .inl rfl)
    · split
      · exact h.setGroup _ (fun _ => rfl) (fun _ => .inl rfl)
      · exact h.setGroup _ (fun _ => rfl) (fun _ => .inr rfl)

theorem HasSlot.clauseEnd {s : State} {gid : Nat} (h : HasSlot s gid) (y : Bool) : HasSlot (s.clauseEnd gid y) gid := by
  have h1 := h.setGroup (fun g => if g.haltDue then { g with halted := true, haltDue := false } else g)
    (fun g => by split <;> rfl) (fun g => by split <;> exact .inl rfl)
  unfold State.clauseEnd
  extract_lets s1 due
  by_cases hd : (y || due) = true
  · rw [if_pos hd]
    exact h1.yieldSlot
  · rw [if_neg hd]
    exact h1

theorem HasSlot.jump {x : Issue} {s : State} (h : HasSlot s x.g.gid) (ds : List Dest) : HasSlot (jump x s ds) x.g.gid := by
  have hsched (g : Group) : (jumpGroup x s ds g).gid = g.gid ∧ (jumpGroup x s ds g).st = g.st := by
    unfold jumpGroup
    split
    · exact ⟨rfl, rfl⟩
    · exact ⟨rfl, rfl⟩
  rw [jump_eq]
  exact (h.setGroup _ (fun g => (hsched g).1) (fun g => .inl (hsched g).2)).clauseEnd _

/-! ## Where lanes stand -/

theorem standsAt_iff {h : Group} {ws : List Warp} (hws : h.warps = ws) {l : Nat} {pc : DWord} {prio : BitVec 8} :
    StandsAt h l pc prio ↔ StandsIn ws l pc prio := by
  rw [← hws]
  rfl

/-- After a jump a lane stands where its destination is, or where it stood in another entry or another warp. -/
theorem Jumped.standsAt_iff {x : Issue} {ds : List Dest} {m : Mask} {tgt : Nat → DWord} {pr : Nat → BitVec 8} {h : Group}
    (hj : Jumped x ds h.warps) (hs : Sends ds m tgt pr) {l : Nat} {pc : DWord} {prio : BitVec 8} :
    StandsAt h l pc prio ↔ StandsIn (x.g.warps.filter (fun w => w.wid != x.w.wid)) l pc prio ∨
      (Mask.has m l = true ∧ pc = tgt l + 8 ∧ prio = pr l) ∨ Stands (x.w.entries.drop 1) l pc prio := by
  obtain ⟨v, n, hv, hws⟩ := hj.warps
  rw [Machine.standsAt_iff hws, standsIn_append, splitWarp_stands_iff hs, hv]

theorem Jumped.moved {x : Issue} {ds : List Dest} {m : Mask} {tgt : Nat → DWord} {pr : Nat → BitVec 8} {h : Group}
    (hj : Jumped x ds h.warps) (hs : Sends ds m tgt pr) : Rules.Moved x h m tgt pr where
  lanes l hl := (hj.standsAt_iff hs).mpr (.inr (.inl ⟨hl, rfl, rfl⟩))
  rest e he l hl _ := (hj.standsAt_iff hs).mpr (.inr (.inr ⟨e, he, hl, rfl, rfl⟩))
  warps w hw hne e he l hl _ := (hj.standsAt_iff hs).mpr (.inl ⟨w, List.mem_filter.mpr ⟨hw, by simpa using hne⟩, e, he, hl, rfl, rfl⟩)

/-! ## Outcomes that jump -/

theorem applyW_st (g : Group) (w : RegWrite) : (g.applyW w).st = g.st := by
  cases w with
  | vl r m vals =>
    by_cases hm : m = 0
    · exact congrArg Group.st (show g.applyW (.vl r m vals) = g from if_pos hm)
    · exact (congrArg Group.st (show g.applyW (.vl r m vals) = g.writeLanes r m vals from if_neg hm)).trans rfl
  | _ => rfl

theorem foldl_applyW_st (ws : List RegWrite) (g : Group) : (ws.foldl Group.applyW g).st = g.st :=
  List.foldlRecOn (motive := fun k : Group => k.st = g.st) ws _ rfl fun k hk w _ => (applyW_st k w).trans hk

/-- The machine after an outcome that goes to `ds`, before its last effect. -/
structure Jumps (s : State) (x : Issue) (srcs : List Opr) (ws : List RegWrite) (ds : List Dest) (u : State) : Prop where
  only : OnlyGroup x.g.gid (x.read srcs s) u ((ws.foldl Group.applyW x.g).orFsr (wobFlag srcs))
  keeps : KeepsOthers x.g.gid s u
  slot : HasSlot u x.g.gid
  warps : ∃ h, u.group x.g.gid = some h ∧ Jumped x ds h.warps

/-- An outcome that raises and parks nothing, and goes to `ds`: its writes, its sources' WOB, the jump and what follows it. -/
theorem runIssue_jump {s : State} {i : Instr} {x : Issue} {prio : BitVec 8} {f : Issue → Out} (h : Issues s i x prio) {srcs : List Opr}
    {ws : List RegWrite} {ds : List Dest} {post : State → State} {rs : List RegId}
    (hf : f x = Out.ofSrcs x srcs { writes := ws, kind := 4, ctl := some ds, post := post }) (hr : Readable srcs) (hfree : Free x rs)
    (hdst : ∀ r ∈ ws.flatMap RegWrite.dst, r ∈ rs) (hnoP : ∀ w ∈ ws, w.noP) :
    ∃ u, runIssue s i f = .next (post u) ∧ Jumps s x srcs ws ds u := by
  have ho := hf.trans (Out.ofSrcs_readable hr { writes := ws, kind := 4, ctl := some ds, post := post } rfl rfl rfl)
  have hclean : Clean x (f x) := by
    rw [ho]
    exact ⟨rfl, rfl, rfl, lawar_nil hfree hdst, regBudget_nil hfree hdst, fpx_none x _ rfl⟩
  have hfsr : (f x).fsr x = wobFlag srcs := by rw [ho]; exact Out.fsr_none x _ rfl
  have hgrp : (x.read srcs s).group x.g.gid = some x.g := by rw [Issue.read, readVas_group]; exact State.position_group h.pos
  have hgid (g : Group) : ((ws.foldl Group.applyW g).commit x.act (wobFlag srcs) []).gid = g.gid := by
    rw [Group.commit_gid]; exact foldl_gid _ (by simp) _ _
  have hwarps (g : Group) : ((ws.foldl Group.applyW g).commit x.act (wobFlag srcs) []).warps = g.warps := by
    rw [Group.commit_warps]; exact foldl_warps _ (by simp) _ _
  have hst' (g : Group) : ((ws.foldl Group.applyW g).commit x.act (wobFlag srcs) []).st = g.st := by
    rw [commit_eq_with_commits]
    exact foldl_applyW_st ws g
  let F (g : Group) : Group := (ws.foldl Group.applyW g).commit x.act (wobFlag srcs) []
  have hrun : runIssue s i f = .next (post (jump x ((x.read srcs s).setGroup x.g.gid F) ds)) := by
    rw [runIssue_commit h hclean]
    unfold commitOut
    rw [hfsr, ho, State.position_s h.pos]
    simp only [Bool.false_eq_true, if_false, false_and, State.applyWs_eq _ _ _ _ hnoP, List.nil_append]
    rw [State.setGroup_setGroup _ _ _ _ (fun g => foldl_gid _ (by simp) _ _)]
    rfl
  have hbase : ((x.read srcs s).setGroup x.g.gid F).group x.g.gid = some (F x.g) := by
    rw [State.group_setGroup_self _ _ _ hgid, hgrp]
    rfl
  refine ⟨_, hrun, ?_, ?_, ?_, ?_⟩
  · exact ((OnlyGroup.refl_setGroup hgrp F hgid).jump ds).commit
  · refine KeepsOthers.trans (t := (x.read srcs s).setGroup x.g.gid F) ?_ (KeepsOthers.jump _ _ _)
    have hkeeps := KeepsOthers.setGroup (x.read srcs s) x.g.gid F
    rwa [KeepsOthers, Issue.read, readVas_groups] at hkeeps
  · refine HasSlot.jump ⟨F x.g, hbase, .inl ?_⟩ ds
    obtain ⟨_, _, _, _, _, _, _, _, _, _, _, hst, _⟩ := State.position_inv h.pos
    exact (hst' x.g).trans hst
  · obtain ⟨ws', ⟨k, hk, rfl⟩, hj⟩ := HasWarps.jump hbase (hwarps x.g) (State.position_warp h.pos) ds
    exact ⟨k, hk, hj⟩

end Sys2Proof.Machine
end

section
/-! Branches, calls and returns (R63, R111 to R113, R122). -/

namespace Sys2Proof.Machine
open Sys2Proof.Rules

/-! ## Where the lanes of a branch go -/

theorem act_sub {s : State} {i : Instr} {x : Issue} (h : s.position i = some x) {l : Nat} (hl : Mask.has x.act l = true) :
    Mask.has x.e.mask l = true := by
  obtain ⟨_, _, _, _, _, _, _, _, _, hact, _⟩ := State.position_inv h
  rw [hact, Mask.has_and, Bool.and_eq_true] at hl
  exact hl.1

/-- Where every header is readable and integers stay together, a transfer raises nothing and sends each lane to its target. -/
theorem goTo_eq {s : State} {i : Instr} {x : Issue} (h : s.position i = some x) {f : Nat → DWord} {pr : Nat → BitVec 8}
    (hpr : ∀ l, Mask.has x.e.mask l = true → HeaderAt x (passOr x f l) (pr l)) (htog : Together x (fun l => some (passOr x f l))) :
    ∃ ds, Sends ds x.e.mask (passOr x f) pr ∧
      ∀ ws post, goTo x f { writes := ws, post := post } = { writes := ws, kind := 4, ctl := some ds, post := post } := by
  have hsub : ∀ l, Mask.has x.act l = true → Mask.has x.e.mask l = true := fun l => act_sub h
  obtain ⟨ds, hread, hsends⟩ := readTargets_sends (goTo_routes hsub f) (goTo_headers hsub hpr) hpr
  have hlimb : limbDiv x (fun l => some (if Mask.has x.act l then f l else x.hn)) = [] := limbDiv_nil htog
  refine ⟨ds, hsends, fun ws post => ?_⟩
  simp only [goTo, hread, hlimb, List.append_nil]

/-- An outcome without sources. -/
theorem Out.ofSrcs_nil (x : Issue) (o : Out) : Out.ofSrcs x [] o = o := by
  simp [Out.ofSrcs]

theorem goVia_eq {x : Issue} {p : Opr} (h : Readable [p]) (o : Out) : goVia x p o = Out.ofSrcs x [p] (goTo x p.at64 o) := by
  obtain ⟨-, -, -, hfailed⟩ := h p (by simp)
  rw [goVia, hfailed, if_neg Bool.false_ne_true]

/-- The target of a direct branch is h + 8 × SInt(OFF, 36) (R63). -/
theorem brTarget_eq {x : Issue} {a : BArgs} (ha : x.a = .b a) : brTarget x = direct x a := by
  have hoff : a.off.signExtend 64 <<< 3 = BitVec.ofInt 64 (8 * a.off.toInt) := by
    rw [BitVec.shiftLeft_eq_mul_twoPow, BitVec.signExtend, mul_comm, BitVec.ofInt_mul]
    rfl
  rw [brTarget, bArgs, ha, direct, hoff]

/-! ## Missed hints -/

theorem OnlyGroup.withCores {gid : Nat} {s t : State} {g : Group} (h : OnlyGroup gid s t g) (cs : Amap Core) :
    OnlyGroup gid { s with cores := cs } { t with cores := cs } g := by
  obtain ⟨hstate, hothers, hgroup⟩ := h
  exact ⟨by rw [hstate], hothers, hgroup⟩

theorem State.core_setCore (s : State) (c : Nat) (f : Core → Core) (d : Nat) :
    (s.setCore c f).core d = if d = c then f (s.core d) else s.core d := by
  rw [State.core, State.setCore, Amap.get_set]
  split
  · next h => rw [h]
  · rfl

/-- What follows the jump of instruction `i` counts its missed hint, and does no more (R63). -/
structure CountsHint (i : Instr) (x : Issue) (post : State → State) : Prop where
  cores : ∀ u, post u = { u with cores := (post u).cores }
  counts : ∀ u c, (post u).core c = if c = x.g.core ∧ hinted i = true ∧ x.act ≠ 0 ∧ x.act ≠ x.e.mask
    then { u.core c with hintMiss := (u.core c).hintMiss + 1 } else u.core c

theorem countsHint_of_none {i : Instr} (x : Issue) (h : hinted i = false) : CountsHint i x (fun s => s) :=
  ⟨fun _ => rfl, fun _ _ => by rw [if_neg (by simp [h])]⟩

theorem countsHint_countMiss {i : Instr} {x : Issue} {a : BArgs} (ha : x.a = .b a) (h : hinted i = a.hint.getLsbD 0) :
    CountsHint i x (countMiss x) := by
  have hmiss : hintMissed x = true ↔ hinted i = true ∧ x.act ≠ 0 ∧ x.act ≠ x.e.mask := by
    rw [hintMissed, bArgs, ha, Bool.and_eq_true, Bool.and_eq_true, bne_iff_ne, bne_iff_ne, h, and_assoc]
  unfold countMiss
  by_cases hm : hintMissed x = true
  · simp only [hm, if_true]
    refine ⟨fun u => rfl, fun u c => ?_⟩
    rw [State.core_setCore]
    simp only [hmiss.mp hm, and_true, ne_eq, not_false_eq_true]
  · simp only [hm, Bool.false_eq_true, if_false]
    exact ⟨fun u => rfl, fun u c => by rw [if_neg fun hc => hm (hmiss.mpr hc.2)]⟩

/-- What `read` leaves of the cores. -/
theorem Issue.read_core (x : Issue) (os : List Opr) (s : State) (c : Nat) : (x.read os s).core c = s.core c := by
  rw [State.core, Issue.read, readVas_reads]
  rfl

/-- A transfer whose headers are readable: the writes of its link, the jump, and the hint that it missed. -/
theorem runIssue_branch {s : State} {i : Instr} {x : Issue} {prio : BitVec 8} {f : Issue → Out} (h : Issues s i x prio) {srcs : List Opr}
    {ws : List RegWrite} {tgt : Nat → DWord} {pr : Nat → BitVec 8} {post : State → State} {rs : List RegId}
    (hf : f x = Out.ofSrcs x srcs (goTo x tgt { writes := ws, post := post })) (hpost : CountsHint i x post) (hr : Readable srcs)
    (hfree : Free x rs) (hdst : ∀ r ∈ ws.flatMap RegWrite.dst, r ∈ rs) (hnoP : ∀ w ∈ ws, w.noP)
    (hpr : ∀ l, Mask.has x.e.mask l = true → HeaderAt x (passOr x tgt l) (pr l)) (htog : Together x (fun l => some (passOr x tgt l))) :
    ∃ t, runIssue s i f = .next t ∧
      OnlyGroup x.g.gid { x.read srcs s with cores := t.cores } t ((ws.foldl Group.applyW x.g).orFsr (wobFlag srcs)) ∧
      (∀ c, t.core c = if c = x.g.core ∧ hinted i = true ∧ x.act ≠ 0 ∧ x.act ≠ x.e.mask
        then { s.core c with hintMiss := (s.core c).hintMiss + 1 } else s.core c) ∧
      ∃ k, t.group x.g.gid = some k ∧ Rules.Moved x k x.e.mask (passOr x tgt) pr := by
  obtain ⟨ds, hsends, hgo⟩ := goTo_eq h.pos hpr htog
  rw [hgo] at hf
  obtain ⟨u, hrun, hjumps⟩ := runIssue_jump h hf hr hfree hdst hnoP
  obtain ⟨k, hk, hjumped⟩ := hjumps.warps
  have hcore (c : Nat) : u.core c = s.core c := by rw [hjumps.only.state]; exact x.read_core srcs s c
  refine ⟨_, hrun, ?_, fun c => ?_, k, ?_, hjumped.moved hsends⟩
  · rw [hpost.cores u]
    exact hjumps.only.withCores _
  · rw [hpost.counts u c, hcore]
  · rw [hpost.cores u]
    exact hk

/-! ## Links (R113) -/

theorem linkV_lanes (x : Issue) (r : Nat) (hfull : x.full = true → ∀ l, l < x.g.width → l < 64 → Mask.has x.act l = true) (q : Nat) {l : Nat}
    (hw : l < x.g.width) (hl : l < 64) : (((linkV x r).foldl Group.applyW x.g).vreg q).lane l =
      if q = r ∧ Mask.has x.act l then x.hn.extractLsb' 0 32 else if q = r + 1 ∧ Mask.has x.act l then x.hn.extractLsb' 32 32
      else (x.g.vreg q).lane l := by
  unfold linkV
  extract_lets lo hi
  by_cases h0 : x.act = 0
  · simp [h0, show Mask.has (0#64) l = false from has_zero l]
  · rw [if_neg h0]
    by_cases hf : x.full = true
    · rw [if_pos hf, vreg_pair, hfull hf l hw hl]
      by_cases hq1 : q = r + 1
      · simp [hq1, VReg.lane, hi]
      · by_cases hq : q = r
        · simp [hq, VReg.lane, lo]
        · simp [hq1, hq]
    · have happly (g : Group) (r : Nat) (vals : List Word) : g.applyW (.vl r x.act vals) = g.writeLanes r x.act vals := if_neg h0
      rw [if_neg hf, List.foldl_cons, List.foldl_cons, List.foldl_nil, happly, happly, vreg_writeLanes _ _ _ _ _ (by exact hw) hl,
        vreg_writeLanes _ _ _ _ _ hw hl, List.getD_replicate _ hl, List.getD_replicate _ hl]
      by_cases hq1 : q = r + 1
      · simp [hq1, hi]
      · simp [hq1, lo]

theorem mem_linkV {x : Issue} {r : Nat} {w : RegWrite} (h : w ∈ linkV x r) : w.onlyV ∧ w.noP ∧ ∀ k ∈ w.dst, k = .v r ∨ k = .v (r + 1) := by
  unfold linkV at h
  split_ifs at h
  · cases h
  · simp only [List.mem_cons, List.not_mem_nil, or_false] at h
    rcases h with rfl | rfl <;> exact ⟨trivial, trivial, by simp [RegWrite.dst]⟩
  · simp only [List.mem_cons, List.not_mem_nil, or_false] at h
    rcases h with rfl | rfl <;> exact ⟨trivial, trivial, by simp [RegWrite.dst]⟩

/-- The group after the link of a call into V registers. -/
theorem linkV_linked {x : Issue} {r : Nat} (hfull : x.full = true → ∀ l, l < x.g.width → l < 64 → Mask.has x.act l = true) (fl : Word) :
    Linked x r fl (((linkV x r).foldl Group.applyW x.g).orFsr fl) := by
  refine ⟨?_, fun q l hw hl => linkV_lanes x r hfull q hw hl⟩
  obtain ⟨V, P, hVP⟩ := foldl_onlyV (linkV x r) (fun w hw => (mem_linkV hw).1) x.g
  rw [hVP]
  rfl

theorem linkV_dst {x : Issue} {r : Nat} : ∀ k ∈ (linkV x r).flatMap RegWrite.dst, k ∈ [RegId.v r, RegId.v (r + 1)] := by
  intro k hk
  obtain ⟨w, hw, hkw⟩ := List.mem_flatMap.mp hk
  simpa using (mem_linkV hw).2.2 k hkw

theorem linkS_linked (x : Issue) (r : Nat) (fl : Word) : LinkedS x r fl ((([.sr r x.hn] : List RegWrite).foldl Group.applyW x.g).orFsr fl) :=
  ⟨rfl, fun q => Group.sreg_setS x.g r q x.hn⟩

/-- Settles O10: each transfer is a jump to the headers of its lanes' targets, after the writes of its link. -/
theorem branchesComplete : Obligations.BranchesComplete := by
  unfold Obligations.BranchesComplete
  intro i s x prio k pr hwf h hk hok hr hfree hpr htog
  have ha := State.position_args h.pos
  have hfull := position_full h.pos
  cases i <;> cases hk
  case br a =>
    have htgt : (fun _ : Nat => brTarget x) = fun _ => direct x a := by rw [brTarget_eq ha]
    have hf : oBr x = Out.ofSrcs x [] (goTo x (fun _ => direct x a) { writes := [], post := countMiss x }) := by
      rw [← htgt, Out.ofSrcs_nil]
      rfl
    obtain ⟨t, hrun, honly, hcores, hmoved⟩ := runIssue_branch h hf (countsHint_countMiss ha rfl) hr hfree (by simp) (by simp) hpr htog
    exact ⟨t, _, hrun, Group.orFsr_zero _, honly, hcores, hmoved⟩
  case brx a =>
    have hf : oBrx x = Out.ofSrcs x [x.opX] (goTo x x.opX.at64 { writes := [], post := fun s => s }) := goVia_eq hr _
    obtain ⟨t, hrun, honly, hcores, hmoved⟩ := runIssue_branch h hf (countsHint_of_none x rfl) hr hfree (by simp) (by simp) hpr htog
    exact ⟨t, _, hrun, rfl, honly, hcores, hmoved⟩
  case call a =>
    have htgt : (fun _ : Nat => brTarget x) = fun _ => direct x a := by rw [brTarget_eq ha]
    have hf : oCall x = Out.ofSrcs x [] (goTo x (fun _ => direct x a) { writes := linkV x 254, post := countMiss x }) := by
      rw [← htgt, Out.ofSrcs_nil]
      rfl
    obtain ⟨t, hrun, honly, hcores, hmoved⟩ := runIssue_branch h hf (countsHint_countMiss ha rfl) hr hfree linkV_dst
      (fun w hw => (mem_linkV hw).2.1) hpr htog
    exact ⟨t, _, hrun, linkV_linked hfull 0, honly, hcores, hmoved⟩
  case callx a =>
    have had : x.a.d = a.d := by rw [ha]; rfl
    have hf : oCallx x = Out.ofSrcs x [x.opX] (goTo x x.opX.at64
        { writes := if isS a.d then [.sr (fnum a.d) x.hn] else linkV x a.d.toNat, post := fun s => s }) := by
      have hbad : (isS a.d && a.cond != 0#4) = false := by
        cases hS : isS a.d
        · rfl
        · rw [hok hS]; rfl
      rw [oCallx, goVia_eq hr, had, show x.a.cond = a.cond by rw [ha]; rfl, hbad]
      rfl
    dsimp only at hfree ⊢
    cases hS : isS a.d
    · rw [hS] at hf hfree
      obtain ⟨t, hrun, honly, hcores, hmoved⟩ := runIssue_branch h hf (countsHint_of_none x rfl) hr hfree linkV_dst
        (fun w hw => (mem_linkV hw).2.1) hpr htog
      exact ⟨t, _, hrun, linkV_linked hfull _, honly, hcores, hmoved⟩
    · rw [hS] at hf hfree
      obtain ⟨t, hrun, honly, hcores, hmoved⟩ := runIssue_branch h hf (countsHint_of_none x rfl) hr hfree (by simp [RegWrite.dst])
        (by simp [RegWrite.noP]) hpr htog
      exact ⟨t, _, hrun, linkS_linked x _ _, honly, hcores, hmoved⟩
  case ret a =>
    have hf : oBrx x = Out.ofSrcs x [x.opX] (goTo x x.opX.at64 { writes := [], post := fun s => s }) := goVia_eq hr _
    obtain ⟨t, hrun, honly, hcores, hmoved⟩ := runIssue_branch h hf (countsHint_of_none x rfl) hr hfree (by simp) (by simp) hpr htog
    exact ⟨t, _, hrun, rfl, honly, hcores, hmoved⟩

end Sys2Proof.Machine
end

section
/-! EXIT and YIELD (R57, R114, R115, R129): lanes that end, and the slot that is given up. -/

namespace Sys2Proof.Machine
open Sys2Proof.Rules

/-! ## One destination -/

/-- Lanes that all go to h', none where there are none. -/
theorem readTargets_next {x : Issue} {m : Mask} {pr : BitVec 8} (h : m ≠ 0 → HeaderAt x x.hn pr) :
    ∃ ds, readTargets x (if m = 0 then [] else [(x.hn, m)]) = ([], [], ds) ∧ Sends ds m (fun _ => x.hn) (fun _ => pr) := by
  refine readTargets_sends ⟨fun l hl => ?_, fun q hq l hql => ?_⟩ (fun q hq => ?_) fun l hl => ?_
  · have hne : m ≠ 0 := by rintro rfl; exact Bool.false_ne_true ((has_zero l).symm.trans hl)
    exact ⟨(x.hn, m), by rw [if_neg hne]; exact List.mem_singleton.mpr rfl, hl⟩
  · split at hq
    · cases hq
    · obtain rfl := List.mem_singleton.mp hq
      exact ⟨hql, rfl⟩
  · split at hq
    · cases hq
    · next hne =>
      obtain rfl := List.mem_singleton.mp hq
      exact ⟨pr, h hne⟩
  · exact h fun h0 => Bool.false_ne_true ((has_zero l).symm.trans (h0 ▸ hl))

theorem readTargets_all {x : Issue} {m : Mask} {pr : BitVec 8} (h : HeaderAt x x.hn pr) :
    ∃ ds, readTargets x [(x.hn, m)] = ([], [], ds) ∧ Sends ds m (fun _ => x.hn) (fun _ => pr) := by
  refine readTargets_sends ⟨fun l hl => ⟨_, List.mem_singleton.mpr rfl, hl⟩, fun q hq l hql => ?_⟩ (fun q hq => ?_) fun _ _ => h
  · obtain rfl := List.mem_singleton.mp hq
    exact ⟨hql, rfl⟩
  · obtain rfl := List.mem_singleton.mp hq
    exact ⟨pr, h⟩

/-! ## EXIT -/

/-- With no fault held for a counter, none holds lanes back. -/
theorem heldIn_of_empty {g : Group} (h : g.held = []) (m : Mask) (p : Nat → Bool) : heldIn g m p = [] := by
  have hnil : (List.range 7).filterMap (fun k => if p k then (g.held.find? (fun q => q.1 == k)).map (fun q => heldCause m k q.2) else none) = [] := by
    refine List.filterMap_eq_nil_iff.mpr fun k _ => ?_
    rw [h]
    split <;> rfl
  unfold heldIn
  rw [hnil]

/-- The last lanes of a group, of which one passes. -/
theorem endsGroup_iff {x : Issue} : endsGroup x = true ↔ x.act ≠ 0 ∧ lastOnes x := by
  have hsub (a b : Mask) : Mask.sub a b = true ↔ ∀ l, Mask.has a l = true → Mask.has b l = true := by
    rw [Mask.sub, beq_iff_eq]
    constructor
    · intro h0 l hl
      by_contra hb
      have hl : Mask.has (a &&& ~~~b) l = true := has_diff.mpr ⟨hl, Bool.eq_false_iff.mpr hb⟩
      rw [h0] at hl
      exact Bool.false_ne_true ((has_zero l).symm.trans hl)
    · intro hall
      by_contra hne
      obtain ⟨l, hl⟩ := exists_lane hne
      obtain ⟨ha, hb⟩ := has_diff.mp hl
      exact Bool.false_ne_true (hb.symm.trans (hall l ha))
  simp only [endsGroup, Bool.and_eq_true, bne_iff_ne, List.all_eq_true, hsub, lastOnes]

/-- What follows the jump of an EXIT: in a handler the lanes leave every entry and TAM. -/
def exitPost (x : Issue) (s : State) : State := if x.g.inHandler then s.setGroup x.g.gid (fun g => g.dropLanes x.act) else s

/-- Where no counter and no held fault keeps the last lanes, EXIT raises nothing. -/
theorem oExit_eq {x : Issue} {pr : BitVec 8} (hpr : x.act ≠ x.e.mask → HeaderAt x x.hn pr)
    (htog : Together x (fun l => if Mask.has x.act l then none else some x.hn))
    (hlast : lastOnes x → x.act = 0 ∨ (x.g.dc.all (· == 0) = true ∧ x.g.old.dc.all (· == 0) = true ∧ x.g.held = [])) :
    ∃ ds, Sends ds (x.e.mask &&& ~~~x.act) (fun _ => x.hn) (fun _ => pr) ∧
      oExit x = { writes := [], kind := 4, ctl := some ds, post := exitPost x } := by
  have hne : x.e.mask &&& ~~~x.act ≠ 0 → HeaderAt x x.hn pr := fun hfail => hpr fun hsame => hfail (by rw [hsame]; simp)
  obtain ⟨ds, hread, hsends⟩ := readTargets_next hne
  have hlimb : limbDiv x (fun l => if Mask.has x.act l then none else some x.hn) = [] := limbDiv_nil htog
  have hheld : (if endsGroup x then heldIn x.g x.e.mask (fun _ => true) else []) = [] ∧
      (endsGroup x && (x.g.dc.any (· != 0) || x.g.old.dc.any (· != 0))) = false := by
    cases hends : endsGroup x
    · exact ⟨rfl, rfl⟩
    · obtain ⟨hact, hones⟩ := endsGroup_iff.mp hends
      obtain ⟨hdc, hold, hnone⟩ := (hlast hones).resolve_left hact
      have hlow (l : List Nat) (h : l.all (· == 0) = true) : l.any (· != 0) = false := by
        rw [List.any_eq_false]
        intro k hk
        simpa using List.all_eq_true.mp h k hk
      rw [if_pos rfl, heldIn_of_empty hnone, hlow _ hdc, hlow _ hold]
      exact ⟨rfl, rfl⟩
  refine ⟨ds, hsends, ?_⟩
  obtain ⟨hcauses, hhold⟩ := hheld
  unfold oExit
  simp only [hread, hcauses, hlimb, List.append_nil, List.isEmpty_nil, Bool.and_true, hhold]
  rfl

/-- Once lanes have left every entry, the others stand where they stood. -/
theorem standsAt_dropLanes {g : Group} {m : Mask} {l : Nat} {pc : DWord} {prio : BitVec 8} :
    StandsAt (g.dropLanes m) l pc prio ↔ StandsAt g l pc prio ∧ Mask.has m l = false := by
  constructor
  · rintro ⟨w, hw, e, he, hl, rfl, rfl⟩
    obtain ⟨v, hv, rfl⟩ := List.mem_map.mp (List.mem_of_mem_filter hw)
    obtain ⟨d, hd, rfl⟩ := List.mem_map.mp (List.mem_of_mem_filter he)
    obtain ⟨hdl, hm⟩ := has_diff.mp hl
    exact ⟨⟨v, hv, d, hd, hdl, rfl, rfl⟩, hm⟩
  · rintro ⟨⟨v, hv, d, hd, hdl, rfl, rfl⟩, hm⟩
    have hl : Mask.has (d.mask &&& ~~~m) l = true := has_diff.mpr ⟨hdl, hm⟩
    have hne : d.mask &&& ~~~m ≠ 0 := fun h0 => Bool.false_ne_true ((has_zero l).symm.trans (h0 ▸ hl))
    have he : { d with mask := d.mask &&& ~~~m } ∈ (v.entries.map (fun e => { e with mask := e.mask &&& ~~~m })).filter (fun e => e.mask ≠ 0) :=
      List.mem_filter.mpr ⟨List.mem_map_of_mem hd, by simpa using hne⟩
    refine ⟨_, List.mem_filter.mpr ⟨List.mem_map_of_mem hv, ?_⟩, _, he, hl, rfl, rfl⟩
    simpa using List.ne_nil_of_mem he

/-- A change of a group that follows scheduling. -/
theorem OnlyGroup.setGroup {gid : Nat} {s t : State} {g k : Group} (h : OnlyGroup gid s t g) (f : Group → Group) (hf : ∀ g, (f g).gid = g.gid)
    (hk : ∀ m, SchedOnly g m → SchedOnly k (f m)) : OnlyGroup gid s (t.setGroup gid f) k := by
  obtain ⟨hstate, hothers, m, hm, hsched⟩ := h
  refine ⟨by rw [hstate]; rfl, fun j hj => (State.group_setGroup_ne t gid j f hf hj).trans (hothers j hj), f m, ?_, hk m hsched⟩
  rw [State.group_setGroup_self t gid f hf, hm]
  rfl

theorem dropLanes_sched {g k : Group} (h : SchedOnly g k) (m : Mask) : SchedOnly { g with handlers := tamLess g m } (k.dropLanes m) := by
  unfold SchedOnly at h ⊢
  rw [h]
  rfl

/-- Of two places that hold lanes of `m`, at most one is counted. -/
theorem entries_unique {ws : List Warp} {m : Mask} {l : Nat} (hl : Mask.has m l = true)
    (hcount : ((ws.flatMap (fun w => w.entries)).filter (fun e => e.mask &&& m != 0)).length ≤ 1) {w : Warp} (hw : w ∈ ws) {e : Entry} {es : List Entry}
    (hes : w.entries = e :: es) (he : Mask.has e.mask l = true) :
    (∀ v ∈ ws, v ≠ w → ∀ d ∈ v.entries, Mask.has d.mask l = false) ∧ ∀ d ∈ es, Mask.has d.mask l = false := by
  have hmeets {d : Entry} (hd : Mask.has d.mask l = true) : (d.mask &&& m != 0) = true := by
    rw [bne_iff_ne]
    intro h0
    have hboth : Mask.has (d.mask &&& m) l = true := by rw [Mask.has_and, hd, hl, Bool.and_self]
    rw [h0] at hboth
    exact Bool.false_ne_true ((has_zero l).symm.trans hboth)
  have hpos {vs : List Warp} {v : Warp} {d : Entry} (hv : v ∈ vs) (hd : d ∈ v.entries) (hdl : Mask.has d.mask l = true) :
      0 < ((vs.flatMap (fun w => w.entries)).filter (fun e => e.mask &&& m != 0)).length :=
    List.length_pos_of_mem (List.mem_filter.mpr ⟨List.mem_flatMap.mpr ⟨v, hv, hd⟩, hmeets hdl⟩)
  obtain ⟨as, bs, rfl⟩ := List.append_of_mem hw
  rw [List.flatMap_append, List.flatMap_cons, List.filter_append, List.filter_append, List.length_append, List.length_append, hes,
    List.filter_cons_of_pos (p := fun e : Entry => e.mask &&& m != 0) (hmeets he), List.length_cons] at hcount
  refine ⟨fun v hv hne d hd => Bool.eq_false_iff.mpr fun hdl => ?_, fun d hd => Bool.eq_false_iff.mpr fun hdl => ?_⟩
  · rcases List.mem_append.mp hv with hv | hv
    · have := hpos hv hd hdl
      omega
    · have := hpos ((List.mem_cons.mp hv).resolve_left hne) hd hdl
      omega
  · have := List.length_pos_of_mem (List.mem_filter (p := fun e : Entry => e.mask &&& m != 0).mpr ⟨hd, hmeets hdl⟩)
    omega

theorem not_inHandler {g : Group} (h : g.inHandler = false) : g.handlers = [] := by
  simpa [Group.inHandler] using h

/-- EXIT (R114). -/
theorem exits (a : RArgs) : Exits a := by
  intro s x prio pr hwf h hpr htog hlast
  have hsub : ∀ l, Mask.has x.act l = true → Mask.has x.e.mask l = true := fun l => act_sub h.pos
  obtain ⟨ds, hsends, hout⟩ := oExit_eq hpr htog hlast
  obtain ⟨u, hrun, hjumps⟩ := runIssue_jump h (f := oExit) (srcs := []) (rs := []) (hout.trans (Out.ofSrcs_nil x _).symm) (by simp [Readable])
    ⟨by simp, .inl rfl⟩ (by simp) (by simp)
  have honly : OnlyGroup x.g.gid s u x.g := by
    have honly := hjumps.only
    rwa [show wobFlag [] = 0 from rfl, Group.orFsr_zero] at honly
  obtain ⟨k, hk, hjumped⟩ := hjumps.warps
  have hmoved := hjumped.moved hsends
  unfold exitPost at hrun
  cases hin : x.g.inHandler
  · rw [hin] at hrun
    refine ⟨u, k, hrun, ?_, hk, hmoved, fun hone l pc p hl hstands => ?_⟩
    · rw [show tamLess x.g x.act = x.g.handlers by rw [tamLess, not_inHandler hin]; rfl]
      exact honly
    · obtain ⟨r, hr, hgrp, hwarp, ⟨es, hes⟩, _⟩ := State.position_inv h.pos
      obtain ⟨hothers, hrest⟩ := entries_unique hl (hone.resolve_left Bool.false_ne_true) (List.mem_of_find?_eq_some hwarp) hes (hsub l hl)
      rcases (hjumped.standsAt_iff hsends).mp hstands with ⟨v, hv, d, hd, hdl, -⟩ | ⟨hm, -⟩ | ⟨d, hd, hdl, -⟩
      · obtain ⟨hv, hne⟩ := List.mem_filter.mp hv
        have hne : v ≠ x.w := fun hsame => by simp [hsame] at hne
        exact Bool.false_ne_true ((hothers v hv hne d hd).symm.trans hdl)
      · exact Bool.false_ne_true ((has_diff.mp hm).2.symm.trans hl)
      · rw [hes] at hd
        exact Bool.false_ne_true ((hrest d hd).symm.trans hdl)
  · rw [hin] at hrun
    have hdrop : (u.setGroup x.g.gid (fun g => g.dropLanes x.act)).group x.g.gid = some (k.dropLanes x.act) := by
      rw [State.group_setGroup_self _ _ (fun g => g.dropLanes x.act) fun _ => rfl, hk]
      rfl
    have hkept {l : Nat} (hl : Mask.has x.e.mask l = false) : Mask.has x.act l = false :=
      Bool.eq_false_iff.mpr fun hact => Bool.false_ne_true (hl.symm.trans (hsub l hact))
    refine ⟨_, _, hrun, honly.setGroup _ (fun _ => rfl) (fun m hm => dropLanes_sched hm x.act), hdrop, ⟨fun l hl => ?_, fun e he l hl hno => ?_,
      fun w hw hne e he l hl hno => ?_⟩, fun _ l pc p hl hstands => ?_⟩
    · exact standsAt_dropLanes.mpr ⟨hmoved.lanes l hl, (has_diff.mp hl).2⟩
    · exact standsAt_dropLanes.mpr ⟨hmoved.rest e he l hl hno, hkept hno⟩
    · exact standsAt_dropLanes.mpr ⟨hmoved.warps w hw hne e he l hl hno, hkept hno⟩
    · exact Bool.false_ne_true ((standsAt_dropLanes.mp hstands).2.symm.trans hl)

/-! ## YIELD -/

/-- An entry stands at the head of its clause (R57). -/
def AtHead (e : Entry) : Prop := e.pc = e.h + 8

theorem atHead_mergeInto {e : Entry} {es : List Entry} (he : AtHead e) (hes : ∀ d ∈ es, AtHead d) : ∀ d ∈ mergeInto e es, AtHead d := by
  induction es with
  | nil => simpa [mergeInto] using he
  | cons c r ih =>
    have hr : ∀ d ∈ r, AtHead d := fun d hd => hes d (List.mem_cons_of_mem _ hd)
    have hc : AtHead c := hes c List.mem_cons_self
    rw [mergeInto]
    split
    · exact List.forall_mem_cons.mpr ⟨hc, hr⟩
    · split
      · exact List.forall_mem_cons.mpr ⟨he, hes⟩
      · exact List.forall_mem_cons.mpr ⟨hc, ih hr⟩

theorem atHead_sortEntries {es : List Entry} (h : ∀ d ∈ es, AtHead d) : ∀ d ∈ sortEntries es, AtHead d := by
  unfold sortEntries
  refine List.foldlRecOn (motive := fun acc => ∀ d ∈ acc, AtHead d) _ _ (fun _ hd => absurd hd List.not_mem_nil) fun acc hacc e he => ?_
  exact atHead_mergeInto (h e (List.mem_of_mem_filter he)) hacc

theorem atHead_dests (ds : List Dest) : ∀ d ∈ ds.map Dest.entry, AtHead d := by
  intro e he
  obtain ⟨d, -, rfl⟩ := List.mem_map.mp he
  rfl

/-- Every warp that a warp splits into stands at the head of a clause, where its other entries do. -/
theorem atHead_splitWarp {w : Warp} (hrest : ∀ e ∈ w.entries.drop 1, AtHead e) (issuing : Mask) (ds : List Dest) (n : Nat) :
    ∀ v ∈ splitWarp w issuing ds n, ∀ e ∈ v.entries, AtHead e := by
  unfold splitWarp
  extract_lets js rest restM ended whole goes moved movedM stay news
  have hwhole {es : List Entry} (hes : ∀ e ∈ es, AtHead e) : ∀ v ∈ whole (sortEntries es), ∀ e ∈ v.entries, AtHead e := by
    intro v hv
    by_cases hemp : (sortEntries es).isEmpty = true
    · have hv : v ∈ (if (sortEntries es).isEmpty then [] else _ : List Warp) := hv
      rw [if_pos hemp] at hv
      cases hv
    · have hv : v ∈ (if (sortEntries es).isEmpty then [] else _ : List Warp) := hv
      rw [if_neg hemp, List.mem_singleton] at hv
      rw [hv]
      exact atHead_sortEntries hes
  have hnews : ∀ v ∈ news, ∀ e ∈ v.entries, AtHead e := by
    intro v hv e he
    obtain ⟨p, -, rfl⟩ := List.mem_map.mp hv
    obtain rfl := List.mem_singleton.mp he
    rfl
  by_cases hnil : js = []
  · rw [hnil]
    exact hwhole hrest
  · obtain ⟨d, more, hcons⟩ := List.exists_cons_of_ne_nil hnil
    rw [hcons]
    dsimp only
    split
    · exact hwhole (List.forall_mem_cons.mpr ⟨rfl, hrest⟩)
    · exact List.forall_mem_append.mpr ⟨hwhole (List.forall_mem_append.mpr ⟨atHead_dests stay, hrest⟩), hnews⟩

theorem inClause_of_atHead {w : Warp} (h : ∀ e ∈ w.entries, AtHead e) : w.inClause = false := by
  unfold Warp.inClause Warp.first
  cases hes : w.entries with
  | nil => rfl
  | cons e r =>
    have he : e.pc = e.h + 8 := h e (by simp [hes])
    simpa using he

/-- A group of which no warp stands inside a clause gives its slot up to a READY group (R129). -/
theorem yieldSlot_ready {u : State} {gid : Nat} {k q : Group} (hk : u.group gid = some k) (hslot : k.st = .active ∨ k.st = .ready)
    (hq : q ∈ u.groups) (hcore : q.core = k.core) (hready : q.st = .ready) (hclause : ∀ w ∈ k.warps, w.inClause = false) :
    ∃ h, (u.yieldSlot gid).group gid = some h ∧ h.st = .ready := by
  have hany : u.groups.any (fun q => q.core == k.core && q.st == .ready) = true :=
    List.any_eq_true.mpr ⟨q, hq, by rw [hcore, hready]; simp⟩
  have hnone : k.warps.any (fun w => w.inClause && !w.parked && k.mayRun w.wid) = false :=
    List.any_eq_false.mpr fun w hw => by simp [hclause w hw]
  have hset (f : Group → Group) (hf : ∀ g, (f g).gid = g.gid) : (u.setGroup gid f).group gid = some (f k) := by
    rw [State.group_setGroup_self u gid f hf, hk]
    rfl
  unfold State.yieldSlot
  rw [hk]
  dsimp only
  rcases hslot with hactive | hgone
  · rw [if_neg (by simp [hactive, hany]), hnone, if_neg Bool.false_ne_true]
    exact ⟨_, hset _ fun _ => rfl, rfl⟩
  · rw [if_pos (by simp [hgone])]
    exact ⟨_, hset _ fun _ => rfl, hgone⟩

/-- YIELD (R115). -/
theorem yields (a : RArgs) : Yields a := by
  intro s x prio pr hwf h hpr
  obtain ⟨ds, hread, hsends⟩ := readTargets_all (m := x.e.mask) hpr
  have hout : oYield x = { writes := [], kind := 4, ctl := some ds, post := fun s => if x.act = 0 then s else s.yieldSlot x.g.gid } := by
    unfold oYield
    rw [hread]
  obtain ⟨u, hrun, hjumps⟩ := runIssue_jump h (f := oYield) (srcs := []) (rs := []) (hout.trans (Out.ofSrcs_nil x _).symm) (by simp [Readable])
    ⟨by simp, .inl rfl⟩ (by simp) (by simp)
  have honly : OnlyGroup x.g.gid s u x.g := by
    have honly := hjumps.only
    rwa [show wobFlag [] = 0 from rfl, Group.orFsr_zero] at honly
  obtain ⟨k, hk, hjumped⟩ := hjumps.warps
  by_cases hact : x.act = 0
  · rw [if_pos hact] at hrun
    exact ⟨u, k, hrun, honly, hk, hjumped.moved hsends, fun hne => absurd hact hne⟩
  · rw [if_neg hact] at hrun
    obtain ⟨h', hh', hwarps⟩ := HasWarps.yieldSlot ⟨k, hk, rfl⟩
    refine ⟨_, h', hrun, honly.yieldSlot, hh', Jumped.moved (by rw [hwarps]; exact hjumped) hsends, fun _ ⟨q, hq, hne, hcore, hready⟩ hothers hrest => ?_⟩
    obtain ⟨m, hm, hslot⟩ := hjumps.slot
    obtain rfl : m = k := Option.some.inj (hm.symm.trans hk)
    obtain ⟨v, n, hv, hws⟩ := hjumped.warps
    have hclause : ∀ w ∈ m.warps, w.inClause = false := by
      rw [hws]
      refine List.forall_mem_append.mpr ⟨fun w hw => ?_, fun w hw => ?_⟩
      · obtain ⟨hw, hwid⟩ := List.mem_filter.mp hw
        exact hothers w hw (by simpa using hwid)
      · exact inClause_of_atHead (atHead_splitWarp (by rw [hv]; exact hrest) _ _ _ w hw)
    have hmcore : m.core = x.g.core := by
      obtain ⟨-, -, m', hm', hsched⟩ := honly
      obtain rfl : m' = m := Option.some.inj (hm'.symm.trans hm)
      rw [hsched]
    obtain ⟨h'', hh'', hst⟩ := yieldSlot_ready hm hslot (hjumps.keeps q hq hne) (hcore.trans hmcore.symm) hready hclause
    obtain rfl : h'' = h' := Option.some.inj (hh''.symm.trans hh')
    exact hst

/-- Settles O11: both are jumps to h', after which the passing lanes have ended, or the slot is given up. -/
theorem exitAndYieldComplete : Obligations.ExitAndYieldComplete := ⟨exits, yields⟩

end Sys2Proof.Machine
end

section
/-! What a fetch does not see of the groups, and the trap entry of TRAP and BKPT (R116, R138). -/

namespace Sys2Proof.Machine
open Sys2Proof.Rules

/-! ## Fetches do not see the groups -/

/-- `s` with other groups. -/
def State.regrouped (s : State) (gs : List Group) : State := { s with groups := gs }

section
variable (s : State) (gs : List Group)

@[simp] theorem State.regrouped_ctx (k : Nat) : (s.regrouped gs).ctx k = s.ctx k := rfl
@[simp] theorem State.regrouped_nodeId : (s.regrouped gs).nodeId = s.nodeId := rfl
@[simp] theorem State.regrouped_icHit (core line : Nat) : (s.regrouped gs).icHit core line = s.icHit core line := rfl
@[simp] theorem State.regrouped_lineSt (line : Nat) : (s.regrouped gs).lineSt line = s.lineSt line := rfl
@[simp] theorem State.regrouped_poisoned (pa k : Nat) : (s.regrouped gs).poisoned pa k = s.poisoned pa k := rfl
@[simp] theorem State.regrouped_rdBytes (pa k : Nat) : (s.regrouped gs).rdBytes pa k = s.rdBytes pa k := rfl
@[simp] theorem tlbFind_regrouped (core asid vpn : Nat) : tlbFind (s.regrouped gs) core asid vpn = tlbFind s core asid vpn := rfl
@[simp] theorem walkStart_regrouped (die asid vpn root : Nat) : walkStart (s.regrouped gs) die asid vpn root = walkStart s die asid vpn root := rfl
@[simp] theorem pteAt_regrouped (tab vpn k : Nat) : pteAt (s.regrouped gs) tab vpn k = pteAt s tab vpn k := rfl
@[simp] theorem pteBad_regrouped (e k vpn : Nat) : pteBad (s.regrouped gs) e k vpn = pteBad s e k vpn := rfl
@[simp] theorem recoverable_regrouped (ctx : Nat) (priv : Bool) (va : Nat) : recoverable (s.regrouped gs) ctx priv va = recoverable s ctx priv va := rfl

@[simp] theorem walk_regrouped (vpn k tab : Nat) : walk (s.regrouped gs) vpn k tab = walk s vpn k tab := by
  induction k generalizing tab with
  | zero =>
    simp only [walk, pteAt_regrouped, pteBad_regrouped]
    rfl
  | succ k ih => simp only [walk, pteAt_regrouped, pteBad_regrouped, ih]

@[simp] theorem tenantTr_regrouped (p ta : Nat) : tenantTr (s.regrouped gs) p ta = tenantTr s p ta := by
  simp only [tenantTr, walk_regrouped]
  rfl

@[simp] theorem translate_regrouped (core ctx va : Nat) : translate (s.regrouped gs) core ctx va = translate s core ctx va := by
  simp only [translate, walk_regrouped, State.regrouped_ctx, tlbFind_regrouped, walkStart_regrouped]

@[simp] theorem accessTr_regrouped (core ctx : Nat) (k : AccK) (va : Nat) : accessTr (s.regrouped gs) core ctx k va = accessTr s core ctx k va := by
  simp only [accessTr, translate_regrouped, State.regrouped_ctx, State.regrouped_nodeId, tenantTr_regrouped]

/-- A fetch that the region table does not hold back does not see the groups. -/
theorem fetchVia_regrouped (core ctx : Nat) (priv : Bool) (m : Mask) (va : DWord) :
    fetchVia false (s.regrouped gs) core ctx priv m va = fetchVia false s core ctx priv m va := by
  simp only [fetchVia, accessTr_regrouped, State.regrouped_icHit, State.regrouped_lineSt, State.regrouped_poisoned, State.regrouped_rdBytes,
    recoverable_regrouped, Bool.false_and]
  rfl
end

/-! ## Trap entry -/

/-- The handler that takes cause `c` of the warp that stands at `x`, a privileged one from code 0x20 (R138, R139). -/
def Issue.trapHandler (x : Issue) (c : Cause) : Handler :=
  { x.handler c with priv := decide (0x20 ≤ c.code), tcause := BitVec.ofNat 32 (c.code + if decide (0x20 ≤ c.code) then 256 else 0) }

/-- The group that has entered that handler. -/
def Issue.trapped (x : Issue) (c : Cause) (vec : DWord) (g : Group) : Group :=
  { x.inHandlerAt c vec g with handlers := x.trapHandler c :: g.handlers }

/-- A trapping instruction has started its clause, and makes no further pass. -/
def Issue.stopAt (x : Issue) (w : Warp) : Warp := { w with entries := x.started :: w.entries.drop 1, pass := 0, snap := [] }

/-- The vector of a code (R138). -/
def Issue.vectorOf (x : Issue) (c : Cause) : DWord := if decide (0x20 ≤ c.code) then (x.s.ctx x.g.ctx).ptvec else (x.s.ctx x.g.ctx).tvec

/-- A trap whose vector admits a handler enters it, whatever the groups are by then. -/
theorem raise_trapped {x : Issue} {c : Cause} (hx : c.code ≠ cXLATE) (hslot : c.slot = none)
    (hcan : CanEnter x (decide (0x20 ≤ c.code)) (x.vectorOf c)) (gs : List Group) :
    (x.s.regrouped gs).raise x.g (some x.w) (some x.e) c x.e.pc = (x.s.regrouped gs).setGroup x.g.gid (x.trapped c (x.vectorOf c)) := by
  obtain ⟨hfree, hvec, v, hfetch, hok⟩ := hcan
  have hout : (x.g.inHandler && !(decide (0x20 ≤ c.code) && !x.g.inPriv)) = false := by
    rcases hfree with hfree | ⟨hp, hin⟩
    · rw [hfree]
      rfl
    · rw [hp, hin]
      simp
  have hread := (fetchVia_regrouped x.s gs x.g.core x.g.ctx true x.e.mask (x.vectorOf c)).trans hfetch
  unfold Issue.vectorOf at hvec hread ⊢
  unfold State.raise
  simp only [State.regrouped_ctx, hread, hx, hslot, if_false]
  unfold State.trapEntry
  simp only [hout, hvec, hok, decide_false, Bool.not_true, Bool.or_false, Bool.false_eq_true, if_false]
  rfl

theorem takeTrap_eq {x : Issue} {c : Cause} (hx : c.code ≠ cXLATE) (hslot : c.slot = none)
    (hcan : CanEnter x (decide (0x20 ≤ c.code)) (x.vectorOf c)) :
    takeTrap x c = x.s.setGroup x.g.gid (fun g => x.trapped c (x.vectorOf c) (g.setWarp x.w.wid x.stopAt)) :=
  (raise_trapped hx hslot hcan _).trans (State.setGroup_setGroup x.s x.g.gid _ _ fun _ => rfl)

/-- The group in the handler runs none of the warps it had. -/
theorem trapped_mayRun (x : Issue) (c : Cause) (vec : DWord) (g : Group) (wid : Nat) :
    (x.trapped c vec g).mayRun wid = !(x.g.warps.map (fun w => w.wid)).contains wid := rfl

/-- Trap entry, as R138 has it. -/
theorem takeTrap_entered {s : State} {x : Issue} {c : Cause} (hs : x.s = s) (hg : s.group x.g.gid = some x.g) (hx : c.code ≠ cXLATE)
    (hslot : c.slot = none) (hcan : CanEnter x (decide (0x20 ≤ c.code)) (x.vectorOf c)) :
    Entered s x c.code c.tfm c.taddr c.tinfo (x.vectorOf c) (takeTrap x c) := by
  rw [takeTrap_eq hx hslot hcan, hs]
  have hgid (g : Group) : (x.trapped c (x.vectorOf c) (g.setWarp x.w.wid x.stopAt)).gid = g.gid := rfl
  have hgroup := (State.group_setGroup_self s x.g.gid _ hgid).trans (congrArg (Option.map _) hg)
  have hcause : BitVec.ofNat 32 (c.code + if decide (0x20 ≤ c.code) then 256 else 0) =
      BitVec.ofNat 32 (if 0x20 ≤ c.code then c.code + 256 else c.code) := by
    by_cases h : 0x20 ≤ c.code <;> simp [h]
  refine ⟨rfl, fun k hk => State.group_setGroup_ne s x.g.gid k _ hgid hk, _, x.trapHandler c, hgroup, rfl, rfl, rfl, rfl, rfl, hcause,
    rfl, rfl, rfl, rfl, rfl, rfl, fun w hw => ?_, _, List.mem_append_right _ (List.mem_singleton.mpr rfl), ?_, rfl⟩
  · rw [trapped_mayRun, List.contains_iff_mem.mpr (List.mem_map_of_mem hw)]
    rfl
  · rw [trapped_mayRun, Bool.not_eq_true', Bool.eq_false_iff]
    intro hin
    obtain ⟨w, hw, hwid⟩ := List.mem_map.mp (List.contains_iff_mem.mp hin)
    exact absurd hwid (Nat.ne_of_lt (Group.wid_lt_newWid hw))

/-! ## One cause -/

/-- An outcome that writes nothing and raises one cause of the first five stages is a trap. -/
theorem runIssue_trap {s : State} {i : Instr} {x : Issue} {prio : BitVec 8} {f : Issue → Out} {c : Cause} (h : Issues s i x prio)
    (hhold : (f x).hold = false) (hcauses : (f x).causes = [c]) (hdst : (f x).dst = []) (hwrites : (f x).writes = []) (hstage : c.stage ≤ 5) :
    runIssue s i f = .next (takeTrap x c) := by
  have hfree : Free x [] := ⟨by simp, .inl rfl⟩
  have hlawar : lawar x (f x) = [] := lawar_nil hfree (by simp [hdst, hwrites])
  have hbudget : regBudget x (f x) = [] := regBudget_nil hfree (by simp [hwrites])
  rw [runIssue_finish h]
  simp only [finishIssue, hhold, h.header, h.role, hcauses, hlawar, hbudget, List.append_nil, List.nil_append, Bool.false_eq_true, if_false,
    List.filter_cons_of_pos (p := fun c : Cause => decide (c.stage ≤ 5)) (decide_eq_true hstage), List.filter_nil, pickCause]

/-! ## TRAP and BKPT -/

theorem oTrapCode_traps {x : Issue} {code info : Nat} {always : Bool} {pr : BitVec 8} (hact : x.act ≠ 0)
    (hpr : always = true → HeaderAt x x.hn pr) :
    ∃ ds, oTrapCode code info always x =
      { causes := [{ stage := 2, code := code, tfm := x.act, tinfo := info }], parks := [], kind := 4, ctl := some ds } := by
  have hne : (x.act == 0) = false := beq_false_of_ne hact
  unfold oTrapCode
  rw [hne, Bool.or_false, if_neg hact]
  cases always
  · exact ⟨_, rfl⟩
  · obtain ⟨ds, hread, -⟩ := readTargets_all (m := x.e.mask) (hpr rfl)
    rw [if_pos rfl, hread]
    exact ⟨_, rfl⟩

theorem oTrapCode_enters {s : State} {i : Instr} {x : Issue} {prio pr : BitVec 8} {f : Issue → Out} {code info : Nat} {always : Bool}
    (h : Issues s i x prio) (hf : f x = oTrapCode code info always x) (hact : x.act ≠ 0) (hpr : always = true → HeaderAt x x.hn pr)
    (hx : code ≠ cXLATE) {vec : DWord} (hvec : vec = if decide (0x20 ≤ code) then (s.ctx x.g.ctx).ptvec else (s.ctx x.g.ctx).tvec)
    (hcan : CanEnter x (decide (0x20 ≤ code)) vec) :
    ∃ t, runIssue s i f = .next t ∧ Entered s x code x.act 0 info vec t := by
  obtain ⟨ds, hout⟩ := oTrapCode_traps (info := info) (code := code) hact hpr
  have hrun := runIssue_trap (c := { stage := 2, code := code, tfm := x.act, tinfo := info }) h (f := f) (by rw [hf, hout]) (by rw [hf, hout])
    (by rw [hf, hout]) (by rw [hf, hout]) (show 2 ≤ 5 by omega)
  have hs := State.position_s h.pos
  subst hs hvec
  exact ⟨_, hrun, takeTrap_entered (c := { stage := 2, code := code, tfm := x.act, tinfo := info }) rfl (State.position_group h.pos) hx rfl hcan⟩

/-- Where no lane passes, TRAP and BKPT are jumps to h'. -/
theorem oTrapCode_goesOn {s : State} {i : Instr} {x : Issue} {prio pr : BitVec 8} {f : Issue → Out} {code info : Nat} {always : Bool}
    (h : Issues s i x prio) (hf : f x = oTrapCode code info always x) (hact : x.act = 0) (hpr : HeaderAt x x.hn pr) :
    ∃ t k, runIssue s i f = .next t ∧ OnlyGroup x.g.gid s t x.g ∧ t.group x.g.gid = some k ∧
      Rules.Moved x k x.e.mask (fun _ => x.hn) (fun _ => pr) := by
  obtain ⟨ds, hread, hsends⟩ := readTargets_all (m := x.e.mask) hpr
  have hout : f x = { writes := [], kind := 4, ctl := some ds, post := fun s => s } := by
    rw [hf]
    unfold oTrapCode
    rw [hact, beq_self_eq_true, Bool.or_true, if_pos rfl, hread, if_pos rfl]
    rfl
  obtain ⟨u, hrun, hjumps⟩ := runIssue_jump h (f := f) (srcs := []) (rs := []) (hout.trans (Out.ofSrcs_nil x _).symm) (by simp [Readable])
    ⟨by simp, .inl rfl⟩ (by simp) (by simp)
  have honly := hjumps.only
  rw [show wobFlag [] = 0 from rfl, Group.orFsr_zero] at honly
  obtain ⟨k, hk, hjumped⟩ := hjumps.warps
  exact ⟨u, k, hrun, honly, hk, hjumped.moved hsends⟩

/-- TRAP (R116). -/
theorem traps (a : IArgs) : Traps a := by
  intro s x prio pr hwf h hpr
  have hout : oTrap x = oTrapCode cTRAP (a.imm.toNat % 256) true x := by
    unfold oTrap
    rw [State.position_args h.pos]
    rfl
  exact ⟨fun hact hcan => oTrapCode_enters h hout hact (fun _ => hpr) (by decide) rfl hcan, fun hact => oTrapCode_goesOn h hout hact hpr⟩

/-- BKPT (R116). -/
theorem breaks (a : RArgs) : Breaks a := by
  intro s x prio pr hwf h
  have hcode (dbg : Bool) (hdbg : (s.ctx x.g.ctx).dbg = dbg) : oBkpt x = oTrapCode (if dbg then cDEBUGHALT else cBKPT) 0 false x := by
    unfold oBkpt
    rw [State.position_s h.pos, hdbg]
  refine ⟨fun hact hdbg hcan => ?_, fun hact hdbg hcan => ?_, fun hact hpr => oTrapCode_goesOn h (hcode _ rfl) hact hpr⟩
  · exact oTrapCode_enters (pr := pr) h (hcode _ hdbg) hact (fun hno => absurd hno Bool.false_ne_true) (by decide) rfl hcan
  · exact oTrapCode_enters (pr := pr) h (hcode _ hdbg) hact (fun hno => absurd hno Bool.false_ne_true) (by decide) rfl hcan

/-- Settles O13: with a passing lane the one cause enters the handler, and without one there is a jump to h'. -/
theorem trapsComplete : Obligations.TrapsComplete := ⟨traps, breaks⟩

end Sys2Proof.Machine
end

section
/-! RTT (R117): the handler's end, the interrupted warp that stands again, and the header it may go on to. -/

namespace Sys2Proof.Machine
open Sys2Proof.Rules

/-! ## The end of a handler -/

/-- The group without its innermost handler and the warps of it. -/
def Group.leave (g : Group) (d : Handler) : Group :=
  { g with handlers := g.handlers.drop 1, warps := g.warps.filter (fun w => d.frozen.contains w.wid) }

/-- The interrupted warp, which stood at `e`, with the lanes of TAM back where they stood. -/
def Handler.resume (d : Handler) (e : Entry) (w : Warp) : Warp :=
  { w with rpc := d.rpc,
           entries := sortEntries ({ prio := d.tprio.extractLsb' 0 8, pc := e.pc, mask := d.tam, h := e.h, cl := e.cl } :: w.entries.drop 1) }

/-- The group once a handler with lanes in TAM has ended. -/
def Group.resumed (g : Group) (d : Handler) (wid : Nat) (e : Entry) : Group :=
  { g.leave d with warps := ((g.leave d).setWarp wid (d.resume e)).warps.filter (fun w => !w.entries.isEmpty) }

theorem endHandler_eq {g : Group} {d : Handler} {wid : Nat} (hintr : d.intr = some wid) (htam : d.tam ≠ 0) (e : Entry) :
    g.endHandler d e.pc e.h (d.tprio.extractLsb' 0 8) e.cl d.rpc = g.resumed d wid e := by
  unfold Group.endHandler
  simp only [hintr, if_neg htam]
  rfl

/-- A frontier with a live entry is not empty. -/
theorem sortEntries_ne_nil {e : Entry} {es : List Entry} (h : e.mask ≠ 0) : sortEntries (e :: es) ≠ [] := by
  obtain ⟨l, hl⟩ := exists_lane h
  obtain ⟨k, hk, -⟩ := stands_sortEntries hl es
  exact List.ne_nil_of_mem hk

/-- What is found in a list is found among its elements that meet a test, if it meets the test. -/
theorem find_filter_of {α : Type} {p q : α → Bool} {l : List α} {a : α} (h : l.find? q = some a) (hp : p a = true) :
    (l.filter p).find? q = some a := by
  induction l with
  | nil => cases h
  | cons b r ih =>
    by_cases hq : q b = true
    · rw [List.find?_cons_of_pos hq] at h
      obtain rfl := Option.some.inj h
      rw [List.filter_cons_of_pos hp, List.find?_cons_of_pos hq]
    · rw [List.find?_cons_of_neg hq] at h
      by_cases hb : p b = true
      · rw [List.filter_cons_of_pos hb, List.find?_cons_of_neg hq]
        exact ih h
      · rw [List.filter_cons_of_neg hb]
        exact ih h

section
variable {g : Group} {d : Handler} {w : Warp}

/-- The interrupted warp is in the group again. -/
theorem resumed_warp (hw : g.warp w.wid = some w) (hfrozen : d.frozen.contains w.wid = true) (htam : d.tam ≠ 0) (e : Entry) :
    (g.resumed d w.wid e).warp w.wid = some (d.resume e w) := by
  have hleave : (g.leave d).warp w.wid = some w := find_filter_of hw hfrozen
  have hset : ((g.leave d).setWarp w.wid (d.resume e)).warp w.wid = some (d.resume e w) :=
    (find_updWhere_self Warp.wid w.wid (d.resume e) (fun _ => rfl) _).trans (congrArg _ hleave)
  exact find_filter_of hset (by simpa [Handler.resume] using sortEntries_ne_nil htam)

/-- A warp of a group in which a handler has ended is one that the handler froze. -/
theorem resumed_frozen {e : Entry} {wid : Nat} {q : Warp} (h : q ∈ (g.resumed d wid e).warps) : d.frozen.contains q.wid = true := by
  obtain ⟨p, hp, rfl⟩ := List.mem_map.mp (List.mem_of_mem_filter h)
  have hp := (List.mem_filter.mp hp).2
  split
  · exact hp
  · exact hp

/-- The other warps that the handler froze are in the group again. -/
theorem resumed_others {e : Entry} {wid : Nat} {q : Warp} (hq : q ∈ g.warps) (hne : q.wid ≠ wid) (hfrozen : d.frozen.contains q.wid = true)
    (hes : q.entries ≠ []) : q ∈ (g.resumed d wid e).warps := by
  have hset : q ∈ ((g.leave d).setWarp wid (d.resume e)).warps :=
    List.mem_map.mpr ⟨q, List.mem_filter.mpr ⟨hq, hfrozen⟩, if_neg (by simpa using hne)⟩
  exact List.mem_filter.mpr ⟨hset, by simpa using hes⟩
end

/-! ## What RTT makes of the machine -/

/-- An outcome that leaves the instruction, and does nothing but its effect. -/
theorem commitOut_gone (x : Issue) (prio : BitVec 8) (ps : List (Nat × Nat × Nat)) (eff : State → State) :
    commitOut x prio { gone := true, parks := ps, eff := eff } = eff x.s := by
  have hfsr : ({ gone := true, parks := ps, eff := eff } : Out).fsr x = 0 := Out.fsr_none x _ rfl
  unfold commitOut
  rw [hfsr]
  simp only [Group.commit_nothing, State.setGroup_id, Bool.false_eq_true, if_false]
  rfl

/-- A group that has run a handler goes on: no warp of it has been stalled for long, and the warp of the RTT has issued. -/
def Issue.awake (x : Issue) (now : Nat) (g : Group) : Group := { g.afresh now with issued := g.issued ++ [x.w.wid] }
/-- What RTT does to its group once the handler has ended: a dead one stops. -/
def Issue.thaw (x : Issue) (now : Nat) (g : Group) : Group :=
  if (x.awake now g).dead && (x.awake now g).handlers.isEmpty then { x.awake now g with stopped := true } else x.awake now g

theorem thaw_eq (x : Issue) (now : Nat) {g : Group} (h : g.dead = false) : x.thaw now g = x.awake now g := by
  have hdead : (x.awake now g).dead = false := h
  unfold Issue.thaw
  rw [hdead]
  rfl

theorem thaw_gid (x : Issue) (now : Nat) (g : Group) : (x.thaw now g).gid = g.gid := by
  unfold Issue.thaw
  split <;> rfl

theorem thawed_group {x : Issue} {t : State} {gid now : Nat} {k : Group} (hk : t.group gid = some k) (hdead : k.dead = false) :
    (t.setGroup gid (x.thaw now)).group gid = some (x.awake now k) := by
  rw [State.group_setGroup_self _ _ _ fun _ => thaw_gid .., hk, Option.map_some, thaw_eq _ _ hdead]

/-- A group that goes on has its warps, but for their times. -/
theorem awake_warp {x : Issue} {g : Group} {wid : Nat} {w : Warp} (now : Nat) (h : g.warp wid = some w) :
    (x.awake now g).warp wid = some { w with lastIssue := now, waitAt := w.waitAt.map (fun _ => now) } :=
  (find?_map_of_key Warp.wid wid (fun w : Warp => { w with lastIssue := now, waitAt := w.waitAt.map (fun _ => now) }) (fun _ => rfl) g.warps).trans
    (congrArg _ h)

/-- RTT, where nothing holds it back: the handler ends and the group is thawed. -/
theorem runIssue_rtt {s : State} {i : Instr} {x : Issue} {prio : BitVec 8} {d : Handler} {r : List Handler} (h : Issues s i x prio)
    (hd : x.g.handlers = d :: r) (hsnoop : rttSnoop x d = []) :
    runIssue s i oRtt = .next ((s.rtt x.g d).setGroup x.g.gid (x.thaw s.bw)) := by
  have hout : oRtt x = { gone := true, parks := [], eff := fun s => (s.rtt x.g d).setGroup x.g.gid (x.thaw s.bw) } := by
    unfold oRtt
    rw [hd, ← hsnoop]
    rfl
  have hfree : Free x [] := ⟨by simp, .inl rfl⟩
  have hclean : Clean x (oRtt x) := by
    rw [hout]
    exact ⟨rfl, rfl, rfl, lawar_nil hfree (fun _ hr => hr), regBudget_nil hfree (fun _ hr => hr), fpx_none x _ rfl⟩
  rw [runIssue_commit h hclean, hout, commitOut_gone, State.position_s h.pos]

/-- The handler of a warp that is still there ends: the lanes of TAM are back. -/
theorem rtt_resumes {s : State} {g : Group} {d : Handler} {w : Warp} {e : Entry} {es : List Entry} (hintr : d.intr = some w.wid)
    (hw : g.warp w.wid = some w) (hes : w.entries = e :: es) (htam : d.tam ≠ 0) (hcode : d.tcause.toNat % 256 ≠ cTRAP ∧ d.tcause.toNat % 256 ≠ cBKPT) :
    s.rtt g d = s.setGroup g.gid (fun g => g.resumed d w.wid e) := by
  unfold State.rtt
  simp only [hintr, Option.bind_some, hw, hes, hcode, or_self, and_false, if_false, endHandler_eq hintr htam]

/-- Lanes of an entry of a warp stand in a group that goes on. -/
theorem awake_standsAt {x : Issue} {g : Group} {wid l : Nat} {w : Warp} {pc : DWord} {prio : BitVec 8} (now : Nat) (h : g.warp wid = some w)
    (hl : Stands w.entries l pc prio) : StandsAt (x.awake now g) l pc prio := by
  obtain ⟨e, he, hstands⟩ := hl
  exact ⟨_, List.mem_of_find?_eq_some (awake_warp now h), e, he, hstands⟩

/-- A group whose handler has ended, and that goes on, is one to which the handler has returned. -/
theorem awake_returned {x : Issue} {d : Handler} {w : Warp} {e : Entry} (hw : x.g.warp w.wid = some w) (hfrozen : d.frozen.contains w.wid = true)
    (htam : d.tam ≠ 0) : Returned x d w e (x.awake x.s.bw (x.g.resumed d w.wid e)) where
  rest := rfl
  frozen q hq := by
    obtain ⟨p, hp, rfl⟩ := List.mem_map.mp hq
    exact resumed_frozen (q := p) hp
  rpc := ⟨_, awake_warp _ (resumed_warp hw hfrozen htam e), rfl⟩
  lanes l hl := awake_standsAt _ (resumed_warp hw hfrozen htam e) (stands_sortEntries hl (w.entries.drop 1))
  others q hq hne hfro hes := ⟨_, List.mem_map_of_mem (resumed_others hq hne hfro hes), rfl⟩
  fresh q hq := by
    obtain ⟨p, -, rfl⟩ := List.mem_map.mp hq
    rfl

/-- Where the trap was neither TRAP nor BKPT no header is to be read. -/
theorem rttSnoop_nil {x : Issue} {d : Handler} (hcode : d.tcause.toNat % 256 ≠ cTRAP ∧ d.tcause.toNat % 256 ≠ cBKPT) : rttSnoop x d = [] := by
  unfold rttSnoop
  cases (d.intr.bind x.g.warp).bind Warp.first with
  | none => rfl
  | some e =>
    cases hcl : e.cl with
    | none => simp only [hcl]
    | some cl => simp only [hcl, if_pos (Or.inr hcode)]

/-- RTT (R117) of a trap that goes back to its instruction. -/
theorem resumes (a : RArgs) : Resumes a := by
  intro s x prio d r w e es hwf h hd hintr hw hes htam hfrozen htrap hbkpt hdead
  have hs := State.position_s h.pos
  subst hs
  have hgroup := thawed_group (x := x) (now := x.s.bw) ((State.group_setGroup_self x.s x.g.gid (fun g => g.resumed d w.wid e) fun _ => rfl).trans
    (congrArg _ (State.position_group h.pos))) hdead
  have hrun := runIssue_rtt h hd (rttSnoop_nil ⟨htrap, hbkpt⟩)
  rw [rtt_resumes hintr hw hes htam ⟨htrap, hbkpt⟩] at hrun
  refine ⟨_, _, hrun, rfl, fun k hk => ?_, hgroup, awake_returned hw hfrozen htam⟩
  exact (State.group_setGroup_ne _ _ _ _ (fun _ => thaw_gid ..) hk).trans (State.group_setGroup_ne _ _ _ _ (fun _ => rfl) hk)

/-! ## The header after a TRAP or BKPT -/

/-- The lanes that a fetch is for do not change the word that it reads. -/
theorem fetchVia_word {gated priv : Bool} {s : State} {core ctx : Nat} {m : Mask} {va w : DWord}
    (h : fetchVia gated s core ctx priv m va = .word w) (gated' : Bool) (hgated : gated' = true → gated = true) (m' : Mask) :
    fetchVia gated' s core ctx priv m' va = .word w := by
  unfold fetchVia at h ⊢
  cases hacc : accessTr s core ctx .fetch va.toNat with
  | xlate i => simp [hacc] at h
  | prot i => simp [hacc] at h
  | absent k =>
    simp only [hacc] at h
    split at h <;> cases h
  | ok pa l =>
    simp only [hacc] at h ⊢
    cases hic : s.icHit core (pa / 128) with
    | some l =>
      simp only [hic] at h ⊢
      exact h
    | none =>
      simp only [hic] at h ⊢
      split at h
      · cases h
      · next hopen =>
        split at h
        · cases h
        · next hcp =>
          split at h
          · cases h
          · next hpoison =>
            have hopen' : ¬ (gated' && !gateOpen s pa false) = true := fun hno => by
              rw [Bool.and_eq_true] at hno
              exact hopen (by rw [hgated hno.1, hno.2, Bool.and_self])
            rw [if_neg hopen', if_neg hcp, if_neg hpoison]
            exact h

/-- The header that a TRAP or BKPT at `e`, in clause `cl`, goes on to. -/
def Entry.next (e : Entry) (cl : Clause) : DWord := e.h + BitVec.ofNat 64 (8 * (cl.cnt + 2))

/-- The entry stands after the header `hw` at `hn`. -/
def Entry.after (e : Entry) (hn hw : DWord) : Entry := { e with pc := hn + 8, h := hn, prio := hdrPrio hw, cl := none }
/-- The warp with another first entry. -/
def Warp.place (w : Warp) (e : Entry) : Warp := { w with entries := sortEntries (e :: w.entries.drop 1) }
/-- The entry of a handler's lanes. -/
def Handler.entry (d : Handler) (e : Entry) : Entry := { e with mask := d.tam, prio := d.tprio.extractLsb' 0 8 }

section
variable {d : Handler} {w : Warp} {e : Entry} {es : List Entry} {cl : Clause} {hw : DWord}

/-- A header that can be read holds the RTT of a TRAP or BKPT back in nothing. -/
theorem rttSnoop_of_word {x : Issue} (hintr : d.intr = some w.wid) (hwarp : x.g.warp w.wid = some w) (hes : w.entries = e :: es) (hcl : e.cl = some cl)
    (hfetch : fetchWord x.s x.g.core x.g.ctx false d.tam (e.next cl) = .word hw) : rttSnoop x d = [] := by
  have hread := fetchVia_word hfetch true id e.mask
  unfold Entry.next at hread
  unfold rttSnoop
  simp only [hintr, Option.bind_some, hwarp, Warp.first, hes, List.head?_cons, hcl, fetchWord, hread, ite_self]

/-- A next header that can be read places the lanes after it. -/
theorem rttNext_word {s : State} {g : Group} {cnt : Nat} {prio : BitVec 8}
    (hfetch : fetchVia false s g.core g.ctx g.inPriv e.mask (e.h + BitVec.ofNat 64 (8 * (cnt + 2))) = .word hw) (hmark : hdrMark hw = true) :
    rttNext s g w e cnt prio = s.setWarp g.gid w.wid (fun w => w.place (e.after (e.h + BitVec.ofNat 64 (8 * (cnt + 2))) hw)) := by
  unfold rttNext
  simp only [hfetch, hmark, if_true]
  rfl

/-- The outermost handler of a TRAP or BKPT ends, and the lanes of TAM go on after the next header. -/
theorem rtt_goesOn {s : State} {g : Group} (hg : s.group g.gid = some g) (hd : g.handlers = [d]) (hintr : d.intr = some w.wid)
    (hwarp : g.warp w.wid = some w) (hes : w.entries = e :: es) (hcl : e.cl = some cl) (htam : d.tam ≠ 0)
    (hfrozen : d.frozen.contains w.wid = true) (hcode : d.tcause.toNat % 256 = cTRAP ∨ d.tcause.toNat % 256 = cBKPT)
    (hfetch : ∀ gs, fetchVia false (s.regrouped gs) g.core g.ctx false d.tam (e.next cl) = .word hw) (hmark : hdrMark hw = true) :
    s.rtt g d = (s.setGroup g.gid (fun g => g.resumed d w.wid e)).setWarp g.gid w.wid (fun w => w.place ((d.entry e).after (e.next cl) hw)) := by
  have hgroup : (s.setGroup g.gid (fun g => g.resumed d w.wid e)).group g.gid = some (g.resumed d w.wid e) :=
    (State.group_setGroup_self s g.gid (fun g => g.resumed d w.wid e) fun _ => rfl).trans (congrArg _ hg)
  have hout : (g.resumed d w.wid e).inPriv = false := by
    have hnone : (g.resumed d w.wid e).handlers = [] := congrArg (List.drop 1) hd
    unfold Group.inPriv
    rw [hnone]
  have hread : fetchVia false (s.setGroup g.gid (fun g => g.resumed d w.wid e)) (g.resumed d w.wid e).core (g.resumed d w.wid e).ctx
      (g.resumed d w.wid e).inPriv d.tam (e.next cl) = .word hw := by
    rw [hout]
    exact hfetch _
  have hend : (fun g : Group => g.endHandler d e.pc e.h (d.tprio.extractLsb' 0 8) (some cl) d.rpc) = fun g => g.resumed d w.wid e :=
    funext fun g => by rw [← hcl, endHandler_eq hintr htam]
  unfold State.rtt
  simp only [hintr, Option.bind_some, hwarp, hes, htam, hcode, ne_eq, not_false_eq_true, and_self, if_true, hcl, hend, hgroup,
    resumed_warp hwarp hfrozen htam e]
  exact rttNext_word (e := d.entry e) hread hmark
end

/-- RTT (R117) of a TRAP or BKPT. -/
theorem resumesPast (a : RArgs) : ResumesPast a := by
  intro s x prio d w e es cl hw hwf h hd hintr hwarp hes hcl htam hfrozen hcode hdead _ hfetch hmark
  have hs := State.position_s h.pos
  subst hs
  have hg := State.position_group h.pos
  have hrun := runIssue_rtt h hd (rttSnoop_of_word hintr hwarp hes hcl (hfetch x.s.groups))
  rw [rtt_goesOn hg hd hintr hwarp hes hcl htam hfrozen hcode
    (fun gs => fetchVia_word (hfetch gs) false (fun hno => absurd hno Bool.false_ne_true) d.tam) hmark] at hrun
  have hgroup := State.group_setGroup_self (x.s.setGroup x.g.gid (fun g => g.resumed d w.wid e)) x.g.gid
    (fun g => g.setWarp w.wid (fun w => w.place ((d.entry e).after (e.next cl) hw))) fun _ => rfl
  rw [State.group_setGroup_self x.s x.g.gid (fun g => g.resumed d w.wid e) fun _ => rfl, hg] at hgroup
  refine ⟨_, _, hrun, thawed_group hgroup hdead, fun l hl => ?_⟩
  have hset : ((x.g.resumed d w.wid e).setWarp w.wid (fun w => w.place ((d.entry e).after (e.next cl) hw))).warp w.wid =
      some ((d.resume e w).place ((d.entry e).after (e.next cl) hw)) :=
    (find_updWhere_self Warp.wid w.wid (fun w => w.place ((d.entry e).after (e.next cl) hw)) (fun _ => rfl) _).trans (congrArg _ (resumed_warp hwarp hfrozen htam e))
  exact awake_standsAt _ hset (stands_sortEntries hl _)

/-- Settles O14: with the handler gone, the interrupted warp has the lanes of TAM back at its entry, or moves them on to the next header. -/
theorem handlerReturnCompletes : Obligations.HandlerReturnCompletes := ⟨resumes, resumesPast⟩

end Sys2Proof.Machine
end

section
/-! Numbers of the floating-point rows (R12 to R18, R89, R101, R102, R106): the model's patterns against the spec's. -/

namespace Sys2Proof.Machine
open Sys2Proof.Rules

/-! ## Sign and magnitude -/

section
variable (f : Fmt) (s : Bool) (b : Nat)

theorem Fmt.bits_pred : f.bits - 1 = f.fbits + f.ebits := by cases f <;> rfl

theorem signBit_eq_mul : f.signBit s = 2 ^ (f.bits - 1) * s.toNat := by cases s <;> simp [Fmt.signBit]

/-- The fraction, the exponent and the sign of a pattern whose sign has been replaced (R13). -/
theorem frac_signed : (f.signBit s + b % 2 ^ (f.bits - 1)) % 2 ^ f.fbits = b % 2 ^ f.fbits := by
  rw [signBit_eq_mul, f.bits_pred, pow_add, Nat.mul_assoc, Nat.mul_add_mod, Nat.mod_mul_right_mod]

theorem exponent_signed : (f.signBit s + b % 2 ^ (f.bits - 1)) / 2 ^ f.fbits % 2 ^ f.ebits = b / 2 ^ f.fbits % 2 ^ f.ebits := by
  rw [signBit_eq_mul, f.bits_pred, pow_add, Nat.mul_assoc, Nat.mul_add_div (by positivity), Nat.mod_mul_right_div_self, Nat.mul_add_mod,
    Nat.mod_mod]

theorem sign_signed : (f.signBit s + b % 2 ^ (f.bits - 1)) / 2 ^ (f.bits - 1) % 2 = s.toNat := by
  rw [signBit_eq_mul, Nat.mul_add_div (by positivity), Nat.div_eq_of_lt (Nat.mod_lt _ (by positivity)), Nat.add_zero]
  cases s <;> rfl

theorem isNeg_eq_testBit : f.isNeg b = b.testBit (f.bits - 1) := by
  rw [Fmt.isNeg, Nat.testBit_eq_decide_div_mod_eq]

/-- The modifiers of R101 replace the sign and keep the magnitude. -/
theorem modSign_eq (abs neg : Bool) :
    f.modSign abs neg b = f.signBit ((if abs then false else b.testBit (f.bits - 1)) ^^ neg) + b % 2 ^ (f.bits - 1) := by
  rw [Fmt.modSign, isNeg_eq_testBit]
  cases neg <;> simp

/-- Without a modifier a pattern of the format is as it was. -/
theorem modSign_none {v : Nat} (hv : v < 2 ^ f.bits) : f.modSign false false v = v := by
  have hbits : f.bits = f.bits - 1 + 1 := by cases f <;> rfl
  rw [hbits, pow_succ] at hv
  have htop : v / 2 ^ (f.bits - 1) < 2 := Nat.div_lt_of_lt_mul hv
  have hsign : (v.testBit (f.bits - 1)).toNat = v / 2 ^ (f.bits - 1) := by
    rw [Nat.toNat_testBit, Nat.mod_eq_of_lt htop]
  rw [modSign_eq, if_neg Bool.false_ne_true, Bool.xor_false, signBit_eq_mul, hsign, Nat.div_add_mod]

/-! ## Operands -/

/-- A subnormal pattern is flushed to the zero of its sign (R18). -/
theorem flushIn_signed (on : Bool) : f.flushIn on (f.signBit s + b % 2 ^ (f.bits - 1)) =
    f.signBit s + if on && decide (b % 2 ^ (f.bits - 1) < 2 ^ f.fbits) then 0 else b % 2 ^ (f.bits - 1) := by
  have hexp : b / 2 ^ f.fbits % 2 ^ f.ebits = 0 ↔ b % 2 ^ (f.bits - 1) < 2 ^ f.fbits := by
    rw [← Nat.mod_mul_right_div_self, f.bits_pred, pow_add, Nat.div_eq_zero_iff]
    simp
  have hfrac (h : b % 2 ^ (f.bits - 1) < 2 ^ f.fbits) : b % 2 ^ f.fbits = b % 2 ^ (f.bits - 1) := by
    rw [← Nat.mod_mul_right_mod b (2 ^ f.fbits) (2 ^ f.ebits), ← pow_add, ← f.bits_pred, Nat.mod_eq_of_lt h]
  rw [Fmt.flushIn, Fmt.isSubnormal, frac_signed, exponent_signed, sign_signed, Nat.mul_comm, ← signBit_eq_mul]
  cases on
  · rfl
  · by_cases h : b % 2 ^ (f.bits - 1) < 2 ^ f.fbits
    · by_cases h0 : b % 2 ^ (f.bits - 1) = 0 <;> simp [hexp, hfrac, h, h0]
    · simp [hexp, h]
end

/-- The model's operand is the spec's (R18, R101). -/
theorem fop_eq_fIn (x : Issue) (f : Fmt) (abs neg : Bool) (v : Nat) : x.fop f abs neg v = fIn f x.fin abs neg v := by
  rw [Issue.fop, modSign_eq, flushIn_signed, fIn, Nat.add_comm, Fmt.signBit]

theorem flushIn_eq_plainIn (x : Issue) {f : Fmt} {v : Nat} (hv : v < 2 ^ f.bits) : f.flushIn x.fin v = plainIn x f v := by
  rw [plainIn, ← fop_eq_fIn, Issue.fop, modSign_none f hv]

theorem flushIn_fp32 (x : Issue) (w : Word) : Fmt.fp32.flushIn x.fin w.toNat = plainIn x .fp32 w.toNat := flushIn_eq_plainIn x w.isLt

/-- A pattern whose sign is flipped is the negative (R101). -/
theorem decode_flip (f : Fmt) (b : Nat) : f.decode (f.modSign false true b) = (f.decode b).neg := by
  have hsign (s : Bool) : decide (s.toNat = 1) = s := by cases s <;> rfl
  rw [modSign_eq]
  simp only [Fmt.decode, frac_signed, exponent_signed, sign_signed, hsign, apply_ite Fv.neg, Nat.testBit_eq_decide_div_mod_eq, Bool.xor_true,
    Bool.false_eq_true, if_false]
  simp only [Fv.neg]

theorem fsubF_eq (o : RoundOpt) (a b : Nat) : fsubF o a b = fSub .fp32 o a b := by
  rw [fSub, ← decode_flip]
  rfl

/-! ## Codes -/

theorem decode_eq_nan (r : Nat) : Fmt.fp32.decode r = .nan ↔ 0x7F800000 < r % 2 ^ 31 := by
  have hne : Fmt.fp32 ≠ .e4m3 := by decide
  have hexp : r % 2 ^ 31 / 2 ^ 23 = r / 2 ^ 23 % 2 ^ 8 := Nat.mod_mul_right_div_self r (2 ^ 23) (2 ^ 8)
  have hfrac : r % 2 ^ 31 % 2 ^ 23 = r % 2 ^ 23 := Nat.mod_mul_right_mod r (2 ^ 23) (2 ^ 8)
  unfold Fmt.decode
  extract_lets frac ex neg allOnes
  have hex : ex = r / 2 ^ 23 % 2 ^ 8 := rfl
  have hfr : frac = r % 2 ^ 23 := rfl
  have hall : allOnes = 255 := rfl
  by_cases h0 : ex = 0
  · rw [if_pos h0]
    simp only [reduceCtorEq, false_iff]
    omega
  · by_cases h1 : ex = allOnes
    · rw [if_neg h0, if_pos ⟨h1, hne⟩]
      by_cases h2 : frac = 0
      · rw [if_pos h2]
        simp only [reduceCtorEq, false_iff]
        omega
      · rw [if_neg h2]
        simp only [true_iff]
        omega
    · rw [if_neg h0, if_neg fun h => h1 h.1, if_neg fun h => h1 h.1]
      simp only [reduceCtorEq, false_iff]
      omega

/-- FloatCC of a pattern is that of the word (R89). -/
theorem floatCC_codes (r : Nat) : (⟨false, (floatCC r).z, (floatCC r).n, (floatCC r).v⟩ : Codes) = fCodes (BitVec.ofNat 32 r) := by
  have hmag : (BitVec.ofNat 32 r &&& 0x7FFFFFFF).toNat = r % 2 ^ 31 := by
    rw [BitVec.toNat_and, BitVec.toNat_ofNat, show ((0x7FFFFFFF : Word).toNat) = 2 ^ 31 - 1 from rfl, Nat.and_two_pow_sub_one_eq_mod]
    omega
  have hzero : (r % 2 ^ 31 == 0) = (BitVec.ofNat 32 r &&& 0x7FFFFFFF == 0) := by
    rw [Bool.eq_iff_iff, beq_iff_eq, beq_iff_eq, ← hmag]
    exact ⟨fun h => BitVec.eq_of_toNat_eq h, fun h => congrArg BitVec.toNat h⟩
  have hnan : decide (Fmt.fp32.decode r = .nan) = decide (0x7F800000 < (BitVec.ofNat 32 r &&& 0x7FFFFFFF).toNat) := by
    rw [hmag]
    exact decide_eq_decide.mpr (decode_eq_nan r)
  rw [fCodes, ← hzero, ← hnan, ← testBit_eq_msb (by decide)]
  rfl

/-! ## Comparisons -/

theorem pred_eq_holds {k : Nat} (hk : k < 8) (o : Option Ordering) : pred k o = fcmpHolds k o := by
  revert k
  rcases o with _ | _ | _ | _ <;> decide

theorem minMax_eq (mx : Bool) (a b : Nat) : Fmt.fp32.minMax mx a b = fminmax mx a b := by
  unfold Fmt.minMax fminmax
  cases fvCmp (Fmt.fp32.decode a) (Fmt.fp32.decode b) with
  | none => by_cases ha : Fmt.fp32.decode a = .nan <;> by_cases hb : Fmt.fp32.decode b = .nan <;> simp [ha, hb, Fmt.nan]
  | some o => cases o <;> simp [isNeg_eq_testBit, Fmt.bits]

/-! ## Results in their format -/

section
variable (f : Fmt)

theorem signBit_add_lt {m : Nat} (hm : m < 2 ^ (f.bits - 1)) (s : Bool) : f.signBit s + m < 2 ^ f.bits := by
  have hbits : f.bits = f.bits - 1 + 1 := by cases f <;> rfl
  rw [signBit_eq_mul, hbits, pow_succ]
  cases s <;> simp <;> omega

theorem Fmt.maxBits_lt : f.maxBits < 2 ^ (f.bits - 1) := by cases f <;> decide
theorem Fmt.nan_lt : f.nan < 2 ^ f.bits := by cases f <;> decide
theorem Fmt.inf_lt {i : Nat} (h : f.inf = some i) : i < 2 ^ (f.bits - 1) := by cases f <;> cases h <;> decide

theorem overflow_lt (mode : Rm) (s : Bool) : f.overflow mode s < 2 ^ f.bits := by
  unfold Fmt.overflow
  cases hi : f.inf with
  | none => exact f.nan_lt
  | some i =>
    have hmag (up : Bool) : (if up then i else f.maxBits) < 2 ^ (f.bits - 1) := by
      cases up
      · exact f.maxBits_lt
      · exact f.inf_lt hi
    exact signBit_add_lt f (hmag _) s

theorem round_lt (o : RoundOpt) (s : Bool) (m : Nat) (e : Int) (sticky : Bool) : (f.round o s m e sticky).1 < 2 ^ f.bits := by
  have hzero : f.signBit s < 2 ^ f.bits := signBit_add_lt f (m := 0) (by positivity) s
  unfold Fmt.round
  split
  · exact hzero
  · extract_lets lg ee qe sh up n0 rem half inexact n bits tiny fl
    split
    · split
      · exact signBit_add_lt f f.maxBits_lt s
      · exact overflow_lt f _ s
    · next hbits =>
      split
      · exact hzero
      · exact signBit_add_lt f (lt_of_le_of_lt (not_lt.mp hbits) f.maxBits_lt) s

/-- What Round gives fits the format (R15). -/
theorem roundFv_lt (o : RoundOpt) (v : Fv) : (f.roundFv o v).1 < 2 ^ f.bits := by
  cases v with
  | nan => exact f.nan_lt
  | inf s =>
    show (f.roundInf o s).1 < _
    unfold Fmt.roundInf
    split
    · exact signBit_add_lt f f.maxBits_lt s
    · split
      · next i hi => exact signBit_add_lt f (f.inf_lt hi) s
      · exact f.nan_lt
  | fin s m e => exact round_lt f o s m e false

theorem convert_lt (o : RoundOpt) (a b : Fv) : (convert f o a b).1 < 2 ^ f.bits := roundFv_lt f o _
end

/-! ## Elements -/

theorem testBit_setElem (b n v e i : Nat) : (setElem b n v e).testBit i =
    if b * n ≤ i ∧ i < b * n + b then e.testBit (i - b * n) else v.testBit i := by
  have hset : setElem b n v e = 2 ^ (b * n) * (2 ^ b * (v / 2 ^ (b * n + b)) + e % 2 ^ b) + v % 2 ^ (b * n) := by
    rw [setElem, pow_add]
    ring
  rw [hset, Nat.testBit_two_pow_mul_add _ (Nat.mod_lt _ (by positivity)), Nat.testBit_two_pow_mul_add _ (Nat.mod_lt _ (by positivity)),
    Nat.testBit_mod_two_pow, Nat.testBit_mod_two_pow, Nat.testBit_div_two_pow]
  by_cases hlow : i < b * n
  · simp [hlow, show ¬ b * n ≤ i by omega]
  · by_cases hin : i < b * n + b
    · simp [hlow, hin, show b * n ≤ i by omega, show i - b * n < b by omega]
    · simp [hlow, hin, show ¬ i - b * n < b by omega, show i - b * n - b + (b * n + b) = i by omega]

theorem getLsbD_withEl (b n : Nat) (v : Word) (e : Nat) {i : Nat} (hi : i < 32) : (withEl b n v e).getLsbD i =
    if b * n ≤ i ∧ i < b * n + b then e.testBit (i - b * n) else v.getLsbD i := by
  unfold withEl
  simp only [BitVec.getLsbD_or, BitVec.getLsbD_and, BitVec.getLsbD_not, BitVec.getLsbD_shiftLeft, BitVec.getLsbD_ofNat, Nat.testBit_two_pow_sub_one,
    Nat.testBit_mod_two_pow, hi, show i - b * n < 32 by omega, decide_true, Bool.true_and]
  by_cases hlow : i < b * n
  · simp [hlow, show ¬ b * n ≤ i by omega]
  · by_cases hin : i < b * n + b
    · simp [hlow, hin, show b * n ≤ i by omega, show i - b * n < b by omega]
    · simp [hlow, hin, show ¬ i - b * n < b by omega]

/-- A word with an element replaced (R106). -/
theorem ofNat_setElem (b n v e : Nat) : BitVec.ofNat 32 (setElem b n v e) = withEl b n (BitVec.ofNat 32 v) e := by
  refine BitVec.eq_of_getLsbD_eq fun i hi => ?_
  rw [getLsbD_withEl b n _ e hi, BitVec.getLsbD_ofNat, BitVec.getLsbD_ofNat, testBit_setElem, decide_eq_true hi, Bool.true_and, Bool.true_and]

theorem elem_lt (b n v : Nat) : elem b n v < 2 ^ b := Nat.mod_lt _ (by positivity)

/-- An element that an instruction reads (R18, R106). -/
theorem flushIn_elem (x : Issue) (f : Fmt) (n v : Nat) : f.flushIn x.fin (elem f.bits n v) = plainIn x f (elAt f.bits n v) :=
  flushIn_eq_plainIn x (elem_lt f.bits n v)

theorem magOf_eq_shown (f : Fmt) (b : Nat) : magOf f b = shown f b := by
  unfold magOf shown
  cases f.decode b <;> simp [Fmt.nan]

end Sys2Proof.Machine
end

section
/-! The rows of FP32 and packed arithmetic, comparisons, classes and conversions (R101 to R104, R107 to R109). -/

namespace Sys2Proof.Machine
open Sys2Proof.Rules

/-! ## Rows with flags -/

/-- An outcome computes the floating-point row `k`: values, codes, flags and magnitudes, in a shape whose lanes are the values (R41). -/
structure FRow (x : Issue) (o : Out) (k : FLane 32) : Prop where
  row : ∃ sh, o = Out.ofSrcs x k.srcs
      { writes := x.put32 k.ext sh k.val ++ x.putCC (fun l => (k.codes l).c) (fun l => (k.codes l).z) (fun l => (k.codes l).n) (fun l => (k.codes l).v),
        fl := k.fl, amax := k.amax } ∧ ∀ r, sh = some r → ∀ l, r.lane l = k.val l

/-- Uniform sources give every lane one outcome (R41). -/
def Uniform {α : Type} (os : List Opr) (f : Nat → α) : Prop := (∀ p ∈ os, p.uni = true) → ∀ l, f l = f 0

theorem Uniform.shape {os : List Opr} {f : Nat → Word} (h : Uniform os f) : ∀ r, uniSh os (f 0) = some r → ∀ l, r.lane l = f l := by
  intro r hr l
  obtain ⟨huni, hlane⟩ := uniSh_lane hr
  rw [hlane, h huni l]

theorem runIssue_fRow {s : State} {i : Instr} {x : Issue} {prio : BitVec 8} {f : Issue → Out} {k : FLane 32} (h : Issues s i x prio)
    (hrow : FRow x (f x) k) (hr : Readable k.srcs) (hfree : Free x (x.dests 1)) (htrap : NoTrap x k.fl) :
    ∃ t g, runIssue s i f = .next t ∧ Commits x prio (x.read k.srcs s) t (k.amax.foldl (fun g m => g.updAmax m) g) ∧
      Result32 x g k.ext k.val (fun l => (k.codes l).c) (fun l => (k.codes l).z) (fun l => (k.codes l).n) (fun l => (k.codes l).v)
        (fsrGain x k.srcs k.fl) := by
  obtain ⟨sh, ho, hsh⟩ := hrow.row
  exact runIssue_result32 h ho hr hfree htrap hsh

/-- A lane-by-lane row raises no flag and shows AMAX nothing. -/
theorem LaneRow.fRow {x : Issue} {o : Out} {k : Lane 32} (h : LaneRow x o k) :
    FRow x o { srcs := k.srcs, ext := k.ext, val := k.val, codes := k.codes } := by
  obtain ⟨ext, sh, g, ho, hext, hsh, hg⟩ := h.row
  have hval : (fun l => BitVec.ofNat 32 (g l).r) = k.val := funext fun l => (hg l).word
  have hcodes : k.codes = fun l => ⟨(g l).c, (g l).z, (g l).n, (g l).v⟩ := funext fun l => (hg l).codes.symm
  refine ⟨sh, ?_, fun r hr l => (hsh r hr l).trans (congrFun hval l)⟩
  rw [ho, laneOut32, put32_of_ext hext, hval, hcodes]

section
variable {x : Issue}

/-- A result without codes, of an instruction that asks for none (R88). -/
theorem fRow_of_noCode {o : Out} {k : FLane 32} (hwcc : x.a.wcc = false) (huni : Uniform k.srcs k.val)
    (ho : o = Out.ofSrcs x k.srcs { writes := x.put32 k.ext (uniSh k.srcs (k.val 0)) k.val, fl := k.fl, amax := k.amax }) : FRow x o k := by
  refine ⟨_, ?_, huni.shape⟩
  rw [ho, Issue.putCC, if_neg (by simp [hwcc]), List.append_nil]

/-- FP32 results with FloatCC. -/
theorem fOut_fRow {srcs : List Opr} {f g : Nat → Nat × FFlags} (hg : ∀ l, f l = g l) (huni : Uniform srcs g) :
    FRow x (fOut x srcs false f) (fRow srcs g) := by
  obtain rfl : f = g := funext hg
  have hcodes : (fRow srcs f).codes = fun l => ⟨false, (floatCC (f l).1).z, (floatCC (f l).1).n, (floatCC (f l).1).v⟩ :=
    funext fun l => (floatCC_codes _).symm
  refine ⟨uniSh srcs (BitVec.ofNat 32 (f 0).1), ?_, Uniform.shape fun h l => congrArg (fun r : Nat × FFlags => BitVec.ofNat 32 r.1) (huni h l)⟩
  rw [hcodes]
  rfl

/-! ## FP32 arithmetic -/

theorem uniform_two {α : Type} {p q : Opr} (f : Word → Word → α) : Uniform [p, q] (fun l => f (p.at32 l) (q.at32 l)) := by
  intro h l
  simp only [at32_of_uni (h p (by simp)) l, at32_of_uni (h q (by simp)) l]

theorem uniform_three {α : Type} {p q r : Opr} (f : Word → Word → Word → α) :
    Uniform [p, q, r] (fun l => f (p.at32 l) (q.at32 l) (r.at32 l)) := by
  intro h l
  simp only [at32_of_uni (h p (by simp)) l, at32_of_uni (h q (by simp)) l, at32_of_uni (h r (by simp)) l]

theorem oFbin_fRow {f : RoundOpt → Nat → Nat → Nat × FFlags} {g : Nat → Nat → Nat × FFlags} (h : ∀ a b, f x.ro a b = g a b) :
    FRow x (oFbin f x) (fRow [x.opX, x.opY] (fun l => g (fX x l) (fY x l))) := by
  refine fOut_fRow (fun l => ?_) (uniform_two (fun a b => g (fIn .fp32 x.fin (x.mb 2) (x.mb 0) a.toNat) (fIn .fp32 x.fin (x.mb 3) (x.mb 1) b.toNat)))
  rw [h, Issue.fx, Issue.fy, fop_eq_fIn, fop_eq_fIn]
  rfl

theorem oFfma_fRow : FRow x (oFfma x) (fRow [x.opX, x.opY, x.opZ] (fun l => fFma .fp32 x.ro (fX x l) (fY x l) (fZ x l))) := by
  refine fOut_fRow (fun l => ?_) (uniform_three (fun a b c => fFma .fp32 x.ro (fIn .fp32 x.fin (x.mb 2) (x.mb 0) a.toNat)
    (fIn .fp32 x.fin (x.mb 3) (x.mb 1) b.toNat) (fIn .fp32 x.fin false (x.mb 4) c.toNat)))
  rw [Issue.fx, Issue.fy, Issue.fz, fop_eq_fIn, fop_eq_fIn, fop_eq_fIn]
  rfl

theorem oFmm_fRow (mx : Bool) : FRow x (oFmm mx x) (fRow [x.opX, x.opY] (fun l => (fminmax mx (fX x l) (fY x l), 0))) :=
  oFbin_fRow (f := fun _ a b => (Fmt.fp32.minMax mx a b, 0)) (g := fun a b => (fminmax mx a b, 0)) fun a b => by rw [minMax_eq]

theorem oFrnd_fRow : FRow x (oFrnd x) (fRow [x.opX] (fun l => (frnd x.rm (plainIn x .fp32 (x.opX.at32 l).toNat), 0))) := by
  refine fOut_fRow (fun l => by rw [flushIn_fp32]) fun h l => ?_
  rw [at32_of_uni (h x.opX (by simp)) l]

/-! ## Comparisons and classes -/

theorem oFcmp_fRow : FRow x (oFcmp x) (fcmpRow x) := by
  have hval (o : Option Ordering) : BitVec.ofNat 32 (if fcmpHolds (x.m.toNat % 8) o then 0xFFFFFFFF else 0) =
      if pred (x.m.toNat % 8) o then 0xFFFFFFFF else 0 := by
    rw [pred_eq_holds (Nat.mod_lt _ (by decide))]
    split <;> rfl
  have hnone (o : Option Ordering) : (o == none) = o.isNone := by cases o <;> rfl
  refine ⟨uniSh [x.opX, x.opY] ((fcmpRow x).val 0), ?_, Uniform.shape (f := (fcmpRow x).val) (uniform_two (fun a b =>
    if pred (x.m.toNat % 8) (fvCmp (Fmt.fp32.decode (plainIn x .fp32 a.toNat)) (Fmt.fp32.decode (plainIn x .fp32 b.toNat))) then 0xFFFFFFFF else 0))⟩
  unfold oFcmp laneOut32
  simp only [hval, hnone, flushIn_fp32]
  rfl

/-- The format whose classes FCLASS tells apart (R103). -/
def classFmt (x : Issue) : Fmt :=
  match x.m.toNat % 4 with
  | 0 => .fp32
  | 1 => .fp16
  | _ => .bf16

theorem oFclass_fRow : FRow x (oFclass x) (classRow x) := by
  refine (un32_laneRow (ext := .z) (p := x.opX) (F := fun a => BitVec.ofNat 32 (classBit (classFmt x) (a.toNat % 2 ^ (classFmt x).bits)))
    (K := fun r _ => plain r) fun a => logicCC_gives_of (by decide) ?_).fRow
  unfold classFmt
  generalize x.m.toNat % 4 = k
  have hword : a.toNat % 2 ^ 32 = a.toNat := Nat.mod_eq_of_lt a.isLt
  match k with
  | 0 => exact congrArg (fun b => BitVec.ofNat 32 (classBit .fp32 b)) hword.symm
  | 1 => rfl
  | k + 2 => rfl

/-! ## Packed arithmetic -/

theorem ofNat_halves {a : Nat} (b : Nat) (ha : a < 2 ^ 16) : BitVec.ofNat 32 (a + b * 2 ^ 16) = BitVec.ofNat 16 b ++ BitVec.ofNat 16 a := by
  refine BitVec.eq_of_toNat_eq ?_
  rw [toNat_append_add, BitVec.toNat_ofNat, BitVec.toNat_ofNat, BitVec.toNat_ofNat]
  omega

theorem oPacked_fRow {f : Fmt} {op op' : RoundOpt → Nat → Nat → Nat → Nat × FFlags} (hwcc : x.a.wcc = false) (hop : op = op')
    (hlt : ∀ o a b c, (op' o a b c).1 < 2 ^ 16) : FRow x (oPacked f op x) (packedRow x f op') := by
  subst hop
  refine fRow_of_noCode hwcc (fun h l => ?_) ?_
  · simp only [packedRow, at32_of_uni (h x.opX (by simp [packedRow])) l, at32_of_uni (h x.opY (by simp [packedRow])) l,
      at32_of_uni (h x.opZ (by simp [packedRow])) l]
  · unfold oPacked
    simp only [fop_eq_fIn, ofNat_halves _ (hlt _ _ _ _)]
    rfl

/-! ## Conversions -/

/-- A converted element in its place (R106, R107). -/
def converted (x : Issue) (o : RoundOpt) (v : Nat → Fv) (l : Nat) : Nat × FFlags :=
  let r := convert (fmtOf (zfld x % 8)) o (v l) (Fmt.fp32.decode (Fmt.fp32.flushIn x.fin (x.opY.at32 l).toNat))
  (setElem (fmtOf (zfld x % 8)).bits (x.m.toNat / 2 % 4) (if x.mb 5 then 0 else (x.opD.at32 l).toNat) r.1, r.2)

theorem converted_fRow {o : RoundOpt} {v : Nat → Fv} {amax : List Nat} {out : Out} (hwcc : x.a.wcc = false)
    (huni : x.opX.uni = true → ∀ l, v l = v 0) {os : List Opr} (hos : os = if x.mb 5 then [x.opX, x.opY] else [x.opX, x.opY, x.opD])
    (hout : out = Out.ofSrcs x os
      { writes := x.put32 .z (uniSh os (BitVec.ofNat 32 (converted x o v 0).1)) (fun l => BitVec.ofNat 32 (converted x o v l).1),
        fl := fun l => (converted x o v l).2, amax := amax }) : FRow x out (cvtRow x o v amax) := by
  subst hos
  have hval : (fun l => BitVec.ofNat 32 (converted x o v l).1) = (cvtRow x o v amax).val := by
    funext l
    show BitVec.ofNat 32 (setElem _ _ _ _) = withEl _ _ _ _
    rw [ofNat_setElem, flushIn_fp32]
    cases x.mb 5
    · rw [if_neg Bool.false_ne_true, if_neg Bool.false_ne_true, BitVec.ofNat_toNat, BitVec.setWidth_eq]
      rfl
    · rfl
  have hfl : (fun l => (converted x o v l).2) = (cvtRow x o v amax).fl := by
    funext l
    show (convert _ _ _ (Fmt.fp32.decode _)).2 = _
    rw [flushIn_fp32]
    rfl
  refine fRow_of_noCode hwcc (fun h l => ?_) (hout.trans ?_)
  · have hX := h x.opX (by show x.opX ∈ (if x.mb 5 then _ else _); split <;> simp)
    have hY := h x.opY (by show x.opY ∈ (if x.mb 5 then _ else _); split <;> simp)
    have hD : x.mb 5 = false → x.opD.uni = true := fun hno => h x.opD (by show x.opD ∈ (if x.mb 5 then _ else _); rw [hno]; simp)
    simp only [cvtRow, scaleOf, huni hX l, at32_of_uni hY l]
    cases hm : x.mb 5
    · simp only [Bool.false_eq_true, if_false, at32_of_uni (hD hm) l]
    · rfl
  · rw [hfl, hval, ← hval]
    rfl

theorem oFcvt_fRow (hwcc : x.a.wcc = false) : FRow x (oFcvt x) (fcvtRow x) := by
  refine converted_fRow hwcc (fun hX l => ?_) rfl ?_
  · simp only [at32_of_uni hX l]
  · unfold oFcvt
    simp only [flushIn_elem, magOf_eq_shown]
    rfl

theorem oIcvt_fRow (hwcc : x.a.wcc = false) : FRow x (oIcvt x) (icvtRow x) := by
  refine converted_fRow hwcc (fun hX l => ?_) rfl ?_
  · simp only [at32_of_uni hX l, at64_of_uni hX l]
  · have hint (w sp v : Nat) : intEl w (x.mb 0) sp v = val (x.mb 0) (BitVec.ofNat (8 * 2 ^ w) (elAt (8 * 2 ^ w) sp v)) := by
      rw [← rdI_toNat (by positivity), BitVec.toNat_ofNat, Nat.mod_eq_of_lt (show elAt (8 * 2 ^ w) sp v < _ from elem_lt ..)]
      rfl
    unfold oIcvt
    simp only [hint]
    rfl

/-- Two halves as two elements of a word (R106, R109). -/
theorem ofNat_pair {a : Nat} (b : Nat) (ha : a < 2 ^ 16) : BitVec.ofNat 32 (a + b * 2 ^ 16) = withEl 16 1 (withEl 16 0 0 a) b := by
  rw [show (0 : Word) = BitVec.ofNat 32 0 from rfl, ← ofNat_setElem, ← ofNat_setElem]
  refine BitVec.eq_of_toNat_eq ?_
  simp only [BitVec.toNat_ofNat, setElem]
  omega

theorem oPack_fRow (hwcc : x.a.wcc = false) : FRow x (oPack x) (packRow x) := by
  have hsrc {p : Opr} (hp : p ∈ [x.opX, x.opY, x.opZ]) : p ∈ (packRow x).srcs := by
    show p ∈ if (fmtOf (x.m.toNat % 8)).bits = 16 then [x.opX, x.opY, x.opZ] else [x.opX, x.opY, x.opZ, x.opD]
    split
    · exact hp
    · exact List.mem_append_left [x.opD] hp
  have hX (h : ∀ p ∈ (packRow x).srcs, p.uni = true) (l : Nat) :
      x.opX.at32 l = x.opX.at32 0 ∧ x.opY.at32 l = x.opY.at32 0 ∧ x.opZ.at32 l = x.opZ.at32 0 :=
    ⟨at32_of_uni (h x.opX (hsrc (by simp))) l, at32_of_uni (h x.opY (hsrc (by simp))) l, at32_of_uni (h x.opZ (hsrc (by simp))) l⟩
  by_cases hbits : (fmtOf (x.m.toNat % 8)).bits = 16
  · refine fRow_of_noCode hwcc (fun h l => ?_) ?_
    · obtain ⟨hx, hy, hz⟩ := hX h l
      simp only [packRow, scaleOf, if_pos hbits, hx, hy, hz]
    · have hlt (o : RoundOpt) (a b : Fv) : (convert (fmtOf (x.m.toNat % 8)) o a b).1 < 2 ^ 16 := hbits ▸ convert_lt ..
      unfold oPack packRow
      simp only [if_pos hbits, flushIn_fp32, magOf_eq_shown, ofNat_pair _ (hlt _ _ _)]
      rfl
  · refine fRow_of_noCode hwcc (fun h l => ?_) ?_
    · obtain ⟨hx, hy, hz⟩ := hX h l
      have hd := at32_of_uni (h x.opD (by simp [packRow, hbits])) l
      simp only [packRow, scaleOf, if_neg hbits, hx, hy, hz, hd]
    · unfold oPack packRow
      simp only [if_neg hbits, flushIn_fp32, magOf_eq_shown, ofNat_setElem, BitVec.ofNat_toNat, BitVec.setWidth_eq]
      rfl

theorem oUnpk_fRow (hwcc : x.a.wcc = false) : FRow x (oUnpk x) (unpkRow x) := by
  refine fRow_of_noCode hwcc (fun h l => ?_) ?_
  · simp only [unpkRow, at32_of_uni (h x.opX (by simp [unpkRow])) l]
  · unfold oUnpk
    simp only [flushIn_elem]
    rfl

/-- The integer of FICVT, extended to the destination (R11, R108). -/
theorem ficvt_extend (u : Bool) (b : Nat) (hb : 0 < b) (r : DWord) :
    BitVec.ofNat 64 (if u then r.toNat % 2 ^ b else truncI 64 (sInt r.toNat b)) = BitVec.ofInt 64 (val u (r.setWidth b)) := by
  cases u
  · have hs : sInt r.toNat b = (r.setWidth b).toInt := by
      rw [← sInt_toNat hb, BitVec.toNat_setWidth, sInt, sInt, Nat.mod_mod]
    rw [if_neg Bool.false_ne_true, ofNat_truncI, hs]
    rfl
  · rw [if_pos rfl, ← BitVec.toNat_setWidth, ← BitVec.ofInt_natCast]
    rfl

theorem uniform_ficvt (w : Nat) : Uniform [x.opX, x.opY] (ficvtVal x w) := by
  intro h l
  simp only [ficvtVal, scaleOf, at32_of_uni (h x.opX (by simp)) l, at32_of_uni (h x.opY (by simp)) l]

theorem oFicvt_fRow (hwcc : x.a.wcc = false) (hw : zfld x % 4 ≠ 3) : FRow x (oFicvt x) (ficvtRow x) := by
  refine fRow_of_noCode hwcc (fun h l => ?_) ?_
  · exact congrArg (fun r : DWord × FFlags => r.1.setWidth 32) (uniform_ficvt _ h l)
  · unfold oFicvt
    have hnarrow : ¬ x.a.z.toNat % 4 = 3 := hw
    simp only [flushIn_elem, flushIn_fp32, ficvt_extend _ (8 * 2 ^ (x.a.z.toNat % 4)) (by positivity), hnarrow, if_false,
      ← BitVec.setWidth_eq_extractLsb' (show 32 ≤ 64 by decide)]
    rfl

end

/-! ## The obligation -/

/-- Every instruction with a floating-point row of 32 bits goes through the pipeline with it (R101 to R109). -/
theorem exec_of_floatLane {s : State} {i : Instr} {x : Issue} {k : FLane 32} (hwf : WellFormed i) (hpos : s.position i = some x)
    (h : floatLane i x = some k) : ∃ f, exec i s = runIssue s i f ∧ FRow x (f x) k := by
  have ha := State.position_args hpos
  cases i <;> try cases h
  case fadd a => exact ⟨_, rfl, oFbin_fRow fun _ _ => rfl⟩
  case fsub a => exact ⟨_, rfl, oFbin_fRow fun _ _ => fsubF_eq ..⟩
  case fmul a => exact ⟨_, rfl, oFbin_fRow fun _ _ => rfl⟩
  case ffma a => exact ⟨_, rfl, oFfma_fRow⟩
  case fmin a => exact ⟨_, rfl, oFmm_fRow false⟩
  case fmax a => exact ⟨_, rfl, oFmm_fRow true⟩
  case fcmp a => exact ⟨_, rfl, oFcmp_fRow⟩
  case fclass a => exact ⟨_, rfl, oFclass_fRow⟩
  case frnd a => exact ⟨_, rfl, oFrnd_fRow⟩
  case hadd2 a => exact ⟨_, rfl, oPacked_fRow (ha ▸ wcc_eq_false hwf rfl rfl) rfl fun _ _ _ _ => roundFv_lt .fp16 ..⟩
  case hmul2 a => exact ⟨_, rfl, oPacked_fRow (ha ▸ wcc_eq_false hwf rfl rfl) rfl fun _ _ _ _ => roundFv_lt .fp16 ..⟩
  case hfma2 a => exact ⟨_, rfl, oPacked_fRow (ha ▸ wcc_eq_false hwf rfl rfl) rfl fun _ _ _ _ => roundFv_lt .fp16 ..⟩
  case badd2 a => exact ⟨_, rfl, oPacked_fRow (ha ▸ wcc_eq_false hwf rfl rfl) rfl fun _ _ _ _ => roundFv_lt .bf16 ..⟩
  case bmul2 a => exact ⟨_, rfl, oPacked_fRow (ha ▸ wcc_eq_false hwf rfl rfl) rfl fun _ _ _ _ => roundFv_lt .bf16 ..⟩
  case bfma2 a => exact ⟨_, rfl, oPacked_fRow (ha ▸ wcc_eq_false hwf rfl rfl) rfl fun _ _ _ _ => roundFv_lt .bf16 ..⟩
  case fcvt a => exact ⟨_, rfl, oFcvt_fRow (ha ▸ wcc_eq_false hwf rfl rfl)⟩
  case icvt a => exact ⟨_, rfl, oIcvt_fRow (ha ▸ wcc_eq_false hwf rfl rfl)⟩
  case ficvt a =>
    simp only [floatLane] at h
    split at h
    · cases h
    · next hw =>
      cases h
      exact ⟨_, rfl, oFicvt_fRow (ha ▸ wcc_eq_false hwf rfl rfl) hw⟩
  case pack a => exact ⟨_, rfl, oPack_fRow (ha ▸ wcc_eq_false hwf rfl rfl)⟩
  case unpk a => exact ⟨_, rfl, oUnpk_fRow (ha ▸ wcc_eq_false hwf rfl rfl)⟩

/-- FICVT to 64 bits (R108). -/
theorem oFicvt_wide {x : Issue} (hw : zfld x % 4 = 3) : oFicvt x = Out.ofSrcs x [x.opX, x.opY]
    { writes := x.put64 ([x.opX, x.opY].all Opr.uni) (fun l => (ficvtVal x 3 l).1), fl := fun l => (ficvtVal x 3 l).2 } := by
  have hwide : x.a.z.toNat % 4 = 3 := hw
  unfold oFicvt
  simp only [flushIn_elem, flushIn_fp32, hwide, if_true, ficvt_extend _ (8 * 2 ^ 3) (by decide)]
  rfl

theorem ficvt_computes64 (a : RArgs) : ComputesF64 (.ficvt a) (fun x => if zfld x % 4 = 3 then some (ficvt64Row x) else none) := by
  intro s x prio k hwf h hk hr hfree htrap
  have hwcc : x.a.wcc = false := State.position_args h.pos ▸ wcc_eq_false hwf rfl rfl
  beta_reduce at hk
  split at hk
  · next hw =>
    cases hk
    have ho : oFicvt x = Out.ofSrcs x (ficvt64Row x).srcs
        { writes := x.put64 ([x.opX, x.opY].all Opr.uni) (ficvt64Row x).val ++ x.putCC noCode noCode noCode noCode, fl := (ficvt64Row x).fl,
          amax := [] } := by
      rw [oFicvt_wide hw, Issue.putCC, if_neg (by simp [hwcc]), List.append_nil]
      rfl
    exact runIssue_result64 h ho hr hfree htrap fun huni l =>
      congrArg Prod.fst (uniform_ficvt (x := x) 3 (fun p hp => List.all_eq_true.mp huni p hp) l)
  · cases hk

/-- Settles O4: each instruction's outcome is its row, with the flags and magnitudes that the pipeline gathers. -/
theorem floatRowsComplete : Obligations.FloatRowsComplete := by
  refine ⟨fun i s x prio k hwf h hk hr hfree htrap => ?_, ficvt_computes64⟩
  obtain ⟨f, hexec, hrow⟩ := exec_of_floatLane hwf h.pos hk
  rw [hexec]
  exact runIssue_fRow h hrow hr hfree htrap

end Sys2Proof.Machine
end

section
/-! Results that come late (R73, R105, R146 to R148, R153, R154): the special functions and the exchanges between lanes. -/

namespace Sys2Proof.Machine
open Sys2Proof.Rules

/-! ## Late rows -/

/-- An outcome promises the row `k`, in a shape whose lanes are the values (R41, R73). -/
structure LateRow (x : Issue) (o : Out) (k : LateLane 32) : Prop where
  row : ∃ sh, o = lateOut x 1 k.srcs
      { writes := x.put32 k.ext sh k.val ++ x.putCC (fun l => (k.codes l).c) (fun l => (k.codes l).z) (fun l => (k.codes l).n) (fun l => (k.codes l).v),
        fl := k.fl } ∧ ∀ r, sh = some r → ∀ l, r.lane l = k.val l

/-- The same for 64-bit results. -/
structure LateRow64 (x : Issue) (o : Out) (k : LateLane 64) : Prop where
  row : ∃ uni, o = lateOut x 2 k.srcs
      { writes := x.put64 uni k.val ++ x.putCC (fun l => (k.codes l).c) (fun l => (k.codes l).z) (fun l => (k.codes l).n) (fun l => (k.codes l).v),
        fl := k.fl } ∧ (uni = true → ∀ l, k.val l = k.val 0)

section
variable {s : State} {i : Instr} {x : Issue} {prio : BitVec 8} {f : Issue → Out}

theorem runIssue_lateRow {k : LateLane 32} (h : Issues s i x prio) (hrow : LateRow x (f x) k) (hr : Readable k.srcs) (hfree : Free x (x.dests 1))
    (htrap : NoTrap x k.fl) :
    ∃ t p, runIssue s i f = .next t ∧ Promises x prio 1 (x.read k.srcs s) t p ∧ p.flags = laneFlags x k.srcs k.fl ∧
      Result32 x (p.on x.g) k.ext k.val (fun l => (k.codes l).c) (fun l => (k.codes l).z) (fun l => (k.codes l).n) (fun l => (k.codes l).v) 0 := by
  obtain ⟨sh, ho, hsh⟩ := hrow.row
  obtain ⟨t, p, hrun, hprom, hwrites, hflags⟩ := runIssue_lateOut h 1 k.srcs _ k.fl false ho hr hfree (put32_putCC_dst x _ _ _ _ _ _ _)
    (fpxCauses_of_noTrap (by rw [ho]; exact htrap))
  have hres := put32_result x k.ext sh k.val (fun l => (k.codes l).c) (fun l => (k.codes l).z) (fun l => (k.codes l).n) (fun l => (k.codes l).v) 0 hsh
    (position_full h.pos)
  rw [Group.orFsr_zero, ← hwrites] at hres
  exact ⟨t, p, hrun, hprom, hflags, hres⟩

theorem runIssue_lateRow64 {k : LateLane 64} (h : Issues s i x prio) (hrow : LateRow64 x (f x) k) (hr : Readable k.srcs)
    (hfree : Free x (x.dests 2)) (htrap : NoTrap x k.fl) :
    ∃ t p, runIssue s i f = .next t ∧ Promises x prio 2 (x.read k.srcs s) t p ∧ p.flags = laneFlags x k.srcs k.fl ∧
      Result64 x (p.on x.g) k.val (fun l => (k.codes l).c) (fun l => (k.codes l).z) (fun l => (k.codes l).n) (fun l => (k.codes l).v) 0 := by
  obtain ⟨uni, ho, hsh⟩ := hrow.row
  obtain ⟨t, p, hrun, hprom, hwrites, hflags⟩ := runIssue_lateOut h 2 k.srcs _ k.fl false ho hr hfree (put64_putCC_dst x _ _ _ _ _ _)
    (fpxCauses_of_noTrap (by rw [ho]; exact htrap))
  have hres := put64_result x uni k.val (fun l => (k.codes l).c) (fun l => (k.codes l).z) (fun l => (k.codes l).n) (fun l => (k.codes l).v) 0 hsh
    (position_full h.pos)
  rw [Group.orFsr_zero, ← hwrites] at hres
  exact ⟨t, p, hrun, hprom, hflags, hres⟩
end

section
variable {x : Issue}

/-- A late result without codes, of an instruction that asks for none. -/
theorem lateRow_of_noCode {o : Out} {k : LateLane 32} {sh : Option VReg} (hwcc : x.a.wcc = false)
    (ho : o = lateOut x 1 k.srcs { writes := x.put32 k.ext sh k.val, fl := k.fl }) (hsh : ∀ r, sh = some r → ∀ l, r.lane l = k.val l) :
    LateRow x o k := by
  refine ⟨sh, ?_, hsh⟩
  rw [ho, Issue.putCC, if_neg (by simp [hwcc]), List.append_nil]

theorem lateRow64_of_noCode {o : Out} {k : LateLane 64} {uni : Bool} (hwcc : x.a.wcc = false)
    (ho : o = lateOut x 2 k.srcs { writes := x.put64 uni k.val, fl := k.fl }) (hsh : uni = true → ∀ l, k.val l = k.val 0) : LateRow64 x o k := by
  refine ⟨uni, ?_, hsh⟩
  rw [ho, Issue.putCC, if_neg (by simp [hwcc]), List.append_nil]

/-! ## Special functions -/

/-- A late FP32 result with FloatCC. -/
theorem fOut_lateRow {srcs : List Opr} {f g : Nat → Nat × FFlags} (hg : ∀ l, f l = g l) (huni : Uniform srcs g) :
    LateRow x (fOut x srcs true f)
      { srcs := srcs, val := fun l => BitVec.ofNat 32 (g l).1, fl := fun l => (g l).2, codes := fun l => fCodes (BitVec.ofNat 32 (g l).1) } := by
  obtain rfl : f = g := funext hg
  refine ⟨uniSh srcs (BitVec.ofNat 32 (f 0).1), ?_, Uniform.shape fun h l => congrArg (fun r : Nat × FFlags => BitVec.ofNat 32 r.1) (huni h l)⟩
  simp only [← floatCC_codes]
  rfl

theorem oSf_lateRow (f : RoundOpt → Word → Fv → Nat × FFlags) : LateRow x (oSf f x) (sfRow x f) :=
  fOut_lateRow (fun l => by rw [flushIn_fp32]) fun h l => by rw [at32_of_uni (h x.opX (by simp)) l]

theorem oFdiv_lateRow : LateRow x (oFdiv x) (fdivRow x) :=
  fOut_lateRow (fun l => by rw [fop_eq_fIn, fop_eq_fIn]) (uniform_two (fun a b => sfDiv x.ro (Fmt.fp32.decode (fIn .fp32 x.fin false (x.mb 0) a.toNat))
    (Fmt.fp32.decode (fIn .fp32 x.fin false (x.mb 1) b.toNat))))

/-! ## SHFL -/

/-- The model's source lane, and whether it lies in range and is active (R147). -/
def shflAt (x : Issue) (l : Nat) : Nat := (shflLane (x.m.toNat % 4) (64 / 2 ^ (x.m.toNat / 4 % 8)) l (x.opY.at32 l).toNat).1
def shflHits (x : Issue) (l : Nat) : Bool :=
  (shflLane (x.m.toNat % 4) (64 / 2 ^ (x.m.toNat / 4 % 8)) l (x.opY.at32 l).toNat).2 && Mask.has x.act (shflAt x l)

theorem shflFrom_eq (l : Nat) : shflFrom x l = if shflHits x l then some (shflAt x l) else none := by
  unfold shflFrom shflHits shflAt shflLane
  have hmode : x.m.toNat % 4 < 4 := Nat.mod_lt _ (by decide)
  generalize x.m.toNat % 4 = mode at hmode
  generalize 64 / 2 ^ (x.m.toNat / 4 % 8) = S
  generalize (x.opY.at32 l).toNat = k
  have hbase : l / S * S = l - l % S := by have := Nat.div_add_mod' l S; omega
  have hle : l % S ≤ l := Nat.mod_le l S
  have hoff : l - (l - l % S) = l % S := by omega
  have hsome (j : Nat) : (some j : Option Nat).filter (fun j => Mask.has x.act j) = if Mask.has x.act j then some j else none := rfl
  match mode, hmode with
  | 0, _ => simp only [hbase, hsome, Bool.true_and]
  | 1, _ =>
    have hin : l - l % S + k ≤ l ↔ k ≤ l - (l - l % S) := by omega
    by_cases hk : k ≤ l - (l - l % S)
    · simp only [hbase, hin, hk, if_true, hsome, decide_true, Bool.true_and]
    · simp [hbase, hin, hk]
  | 2, _ =>
    by_cases hk : l + k < l - l % S + S
    · simp only [hbase, hk, if_true, hsome, decide_true, Bool.true_and]
    · simp [hbase, hk]
  | 3, _ => simp only [hbase, hoff, hsome, Bool.true_and]

/-- SHFL keeps a uniform source whole (R41, R147). -/
theorem oShfl_lateRow : LateRow x (oShfl x) (shflRow x) := by
  have hval : (shflRow x).val = fun l => if shflHits x l then x.opX.at32 (shflAt x l) else x.opX.at32 l := by
    funext l
    show x.opX.at32 ((shflFrom x l).getD l) = _
    rw [shflFrom_eq]
    cases shflHits x l <;> rfl
  have hcodes : (shflRow x).codes = fun l => ⟨shflHits x l, (shflRow x).val l == 0, ((shflRow x).val l).msb, false⟩ := by
    funext l
    show (⟨(shflFrom x l).isSome, _, _, _⟩ : Codes) = _
    rw [shflFrom_eq]
    cases shflHits x l <;> rfl
  refine ⟨if x.opX.lo.isUni then some (.uni (x.opX.at32 0)) else none, ?_, fun r hr l => ?_⟩
  · rw [hcodes, hval]
    rfl
  · have huni : x.opX.lo.isUni = true := by
      by_contra hno
      rw [if_neg hno] at hr
      cases hr
    have hone (j : Nat) : x.opX.at32 j = x.opX.at32 0 := by
      unfold Opr.at32
      cases hlo : x.opX.lo with
      | uni b => rfl
      | _ => rw [hlo] at huni; exact Bool.noConfusion huni
    rw [if_pos huni] at hr
    cases hr
    exact (hone _).symm

/-! ## Votes and matches -/

theorem has_and_where {m : Mask} {p : Nat → Bool} {l : Nat} (hl : Mask.has m l = true) : Mask.has (m &&& Mask.where_ p) l = p l := by
  rw [Mask.has_and, hl, Mask.has_where p (BitVec.lt_of_getLsbD hl), Bool.true_and]

/-- A whole mask is hit where every active lane meets the test. -/
theorem and_where_eq (m : Mask) (p : Nat → Bool) : (m &&& Mask.where_ p == m) = (Mask.lanes m).all p := by
  rw [Bool.eq_iff_iff, beq_iff_eq, List.all_eq_true]
  constructor
  · intro h l hl
    have hl := Mask.mem_lanes.mp hl
    exact (has_and_where hl).symm.trans ((congrArg (fun k => Mask.has k l) h).trans hl)
  · intro h
    refine BitVec.eq_of_getLsbD_eq fun l _ => ?_
    cases hl : m.getLsbD l
    · rw [BitVec.getLsbD_and, hl, Bool.false_and]
    · exact (has_and_where hl).trans (h l (Mask.mem_lanes.mpr hl))

/-- A mask is hit where some active lane meets the test. -/
theorem and_where_ne_zero (m : Mask) (p : Nat → Bool) : (m &&& Mask.where_ p != 0) = (Mask.lanes m).any p := by
  rw [Bool.eq_iff_iff, bne_iff_ne, List.any_eq_true]
  constructor
  · intro h
    obtain ⟨l, hl⟩ := exists_lane h
    have hm : Mask.has m l = true := by
      rw [Mask.has_and, Bool.and_eq_true] at hl
      exact hl.1
    exact ⟨l, Mask.mem_lanes.mpr hm, (has_and_where hm).symm.trans hl⟩
  · rintro ⟨l, hl, hp⟩ h0
    have hhas := has_and_where (p := p) (Mask.mem_lanes.mp hl)
    rw [h0, has_zero, hp] at hhas
    cases hhas

/-- All active lanes agree with the lowest where each two of them agree. -/
theorem allEq_eq (m : Mask) (f : Nat → DWord) : allEq m f = (Mask.lanes m).all (fun l => (Mask.lanes m).all (fun j => f l == f j)) := by
  unfold allEq Mask.low
  cases Mask.lanes m with
  | nil => rfl
  | cons a r =>
    rw [Bool.eq_iff_iff]
    simp only [List.all_eq_true, beq_iff_eq, List.headD_cons]
    exact ⟨fun h l hl j hj => (h l hl).trans (h j hj).symm, fun h l hl => h l hl a List.mem_cons_self⟩

/-- A late result that every lane shares. -/
theorem lateRow_of_shared {o : Out} {k : LateLane 32} {v : Word} (hwcc : x.a.wcc = false) (hval : k.val = fun _ => v)
    (ho : o = lateOut x 1 k.srcs { writes := x.put32 k.ext (some (.uni v)) (fun _ => v), fl := k.fl }) : LateRow x o k :=
  lateRow_of_noCode hwcc (ho.trans (by rw [hval])) fun r hr l => by cases hr; rw [hval]; rfl

theorem oVote_lateRow {k : LateLane 32} (hwcc : x.a.wcc = false) (hk : voteRow x = some k) : LateRow x (oVote x) k := by
  have hwords (a b : Word) : (a.zeroExtend 64 == b.zeroExtend 64) = (a == b) := by
    rw [Bool.eq_iff_iff, beq_iff_eq, beq_iff_eq, ← BitVec.toNat_inj, ← BitVec.toNat_inj]
    simp only [BitVec.zeroExtend, BitVec.toNat_setWidth]
    omega
  unfold voteRow at hk
  unfold oVote
  have hmode : x.m.toNat % 4 < 4 := Nat.mod_lt _ (by decide)
  generalize x.m.toNat % 4 = mode at hk hmode
  match mode, hmode with
  | 0, _ =>
    cases hk
    simp only [and_where_eq]
    exact lateRow_of_shared hwcc rfl rfl
  | 1, _ =>
    cases hk
    simp only [and_where_ne_zero]
    exact lateRow_of_shared hwcc rfl rfl
  | 2, _ =>
    cases hk
    simp only [allEq_eq, hwords]
    exact lateRow_of_shared hwcc rfl rfl
  | 3, _ => cases hk

theorem oVote_lateRow64 (hwcc : x.a.wcc = false) (hmode : x.m.toNat % 4 = 3) : LateRow64 x (oVote x) (ballotRow x) := by
  refine lateRow64_of_noCode (uni := true) hwcc ?_ fun _ _ => rfl
  unfold oVote
  rw [hmode]
  rfl

theorem oMatch_lateRow64 (hwcc : x.a.wcc = false) : LateRow64 x (oMatch x) (matchRow x) := by
  cases hall : x.mb 1
  · refine lateRow64_of_noCode (uni := false) hwcc ?_ fun h => absurd h Bool.false_ne_true
    unfold oMatch matchRow
    simp only [hall, Bool.false_eq_true, if_false]
  · refine lateRow64_of_noCode (uni := true) hwcc ?_ fun _ l => by simp only [matchRow, hall, if_true]
    unfold oMatch matchRow
    simp only [hall, if_true, allEq_eq]

/-! ## One lane for all -/

theorem oBcast_lateRow (hwcc : x.a.wcc = false) (hok : (bcastRow x).ok = true) : LateRow x (oBcast x) (bcastRow x) := by
  have huni : needUni x x.opY = [] := needUni_nil (by simpa [bcastRow] using hok)
  have hlane (k : Nat) : (if x.mb 0 || decide (64 ≤ k) || !Mask.has x.act k then Mask.low x.act else k) =
      if x.mb 0 = false ∧ k < 64 ∧ Mask.has x.act k then k else (Mask.lanes x.act).headD 64 := by
    by_cases hin : x.mb 0 = false ∧ k < 64 ∧ Mask.has x.act k = true
    · obtain ⟨hm, hk, hact⟩ := hin
      simp [hm, hk, hact]
    · rw [if_neg hin, if_pos (by simp only [Bool.or_eq_true, decide_eq_true_eq, Bool.not_eq_true']; by_contra hno; simp_all)]
      rfl
  refine lateRow_of_shared hwcc rfl ?_
  unfold oBcast
  simp only [huni, hlane]
  rfl

/-- The lanes that LNRD reads hold poison: the second of them is read for 64 bits (R134, R154). -/
def lnrdPoisoned (x : Issue) : Prop :=
  (x.opY.at32 0).toNat < 64 ∧ (Mask.has (x.g.vpois (x.step 1 x.n.x x.a.x).toNat) (x.opY.at32 0).toNat = true ∨
    (x.mb 0 = true ∧ Mask.has (x.g.vpois ((x.step 1 x.n.x x.a.x).toNat + 1)) (x.opY.at32 0).toNat = true))

theorem lnrd_not_poisoned {n : Nat} (hn : 0 < n) (hwide : x.mb 0 = true → 1 < n) (h : lnrdClean x n = true) : ¬ lnrdPoisoned x := by
  have hreg (j : Nat) (hj : j < n) (hk : (x.opY.at32 0).toNat < 64) :
      Mask.has (x.g.vpois ((x.step 1 x.n.x x.a.x).toNat + j)) (x.opY.at32 0).toNat = false := by
    have := List.all_eq_true.mp h j (List.mem_range.mpr hj)
    simpa [hk] using this
  rintro ⟨hk, hlow | ⟨hm, hhigh⟩⟩
  · exact Bool.false_ne_true ((hreg 0 hn hk).symm.trans hlow)
  · exact Bool.false_ne_true ((hreg 1 (hwide hm) hk).symm.trans hhigh)

theorem oLnrd_lateRow (hwcc : x.a.wcc = false) (hm : x.mb 0 = false) (hok : (lnrdRow x).ok = true) : LateRow x (oLnrd x) (lnrdRow x) := by
  obtain ⟨huni, hclean⟩ : (x.opY.uni || x.act == 0) = true ∧ lnrdClean x 1 = true := Bool.and_eq_true_iff.mp hok
  have huni : needUni x x.opY = [] := needUni_nil (by simpa using huni)
  have hpois := lnrd_not_poisoned Nat.one_pos (fun h => absurd h (by simp [hm])) hclean
  unfold lnrdPoisoned at hpois
  refine lateRow_of_shared hwcc rfl ?_
  unfold oLnrd
  simp only [huni, hpois, false_and, if_false]
  simp only [hm, Bool.false_eq_true, if_false]
  rfl

theorem oLnrd_lateRow64 (hwcc : x.a.wcc = false) (hm : x.mb 0 = true) (hok : (lnrd64Row x).ok = true) : LateRow64 x (oLnrd x) (lnrd64Row x) := by
  obtain ⟨huni, hclean⟩ : (x.opY.uni || x.act == 0) = true ∧ lnrdClean x 2 = true := Bool.and_eq_true_iff.mp hok
  have huni : needUni x x.opY = [] := needUni_nil (by simpa using huni)
  have hpois := lnrd_not_poisoned Nat.two_pos (fun _ => Nat.one_lt_two) hclean
  unfold lnrdPoisoned at hpois
  refine lateRow64_of_noCode (uni := true) hwcc ?_ fun _ _ => rfl
  unfold oLnrd
  simp only [huni, hpois, false_and, if_false]
  simp only [hm, if_true]
  rfl

/-- Where the reduction that XRD waits for has committed, it promises XR (R153). -/
theorem oXrd_eq (hdue : xrdDue x = true) : oXrd x = lateOut x 1 [x.opX]
    { writes := if isS x.fd then [.sr (fnum x.fd) x.g.xr] else
        x.put32 .z (some (.uni (x.g.xr.extractLsb' 0 32))) (fun _ => x.g.xr.extractLsb' 0 32) } := by
  rw [xrdDue, Bool.and_eq_true, Bool.or_eq_true, beq_iff_eq, decide_eq_true_eq] at hdue
  have huni : needUni x x.opX = [] := needUni_nil hdue.1
  have hseq : (x.g.xrseq.toNat % 2 ^ 32 + 2 ^ 32 - (x.opX.at32 0).toNat) % 2 ^ 32 < 2 ^ 31 := by
    have := hdue.2
    rw [BitVec.toNat_sub, BitVec.extractLsb'_toNat, Nat.shiftRight_zero] at this
    have hlt := (x.opX.at32 0).isLt
    omega
  unfold oXrd
  simp only [hseq, decide_true, Bool.not_true, Bool.false_and, Bool.false_eq_true, if_false, if_true, huni]

theorem oXrd_lateRow (hwcc : x.a.wcc = false) (hS : isS x.fd = false) (hok : (xrdRow x).ok = true) : LateRow x (oXrd x) (xrdRow x) := by
  refine lateRow_of_shared hwcc rfl ?_
  rw [oXrd_eq hok, if_neg (by simp [hS])]
  rfl

theorem oXrd_lateRow64 (hwcc : x.a.wcc = false) (hS : isS x.fd = true) (hok : (xrdSRow x).ok = true) : LateRow64 x (oXrd x) (xrdSRow x) := by
  refine lateRow64_of_noCode (uni := true) hwcc ?_ fun _ _ => rfl
  have hdst : lateDst x 1 = lateDst x 2 := by rw [lateDst, lateDst, if_pos hS, if_pos hS]
  rw [oXrd_eq hok, if_pos hS, lateOut, hdst, Issue.put64, if_pos hS]
  rfl

end
end Sys2Proof.Machine
end

section
/-! The limb instructions (R164 to R166): whole integers of a bound group, against the spec's integers. -/

namespace Sys2Proof.Machine
open Sys2Proof.Rules

/-! ## Whole integers -/

/-- Limbs below 2^32 make an integer of as many words. -/
theorem limbs_lt {w : Nat → Nat} (hw : ∀ i, w i < 2 ^ 32) (L : Nat) : (List.range L).foldl (fun v i => v + w i * 2 ^ (32 * i)) 0 < 2 ^ (32 * L) := by
  induction L with
  | zero => exact Nat.one_pos
  | succ L ih =>
    rw [List.range_succ, List.foldl_append, List.foldl_cons, List.foldl_nil, Nat.mul_succ, pow_add]
    have hlimb : w L * 2 ^ (32 * L) ≤ (2 ^ 32 - 1) * 2 ^ (32 * L) := Nat.mul_le_mul_right _ (Nat.le_sub_one_of_lt (hw L))
    omega

theorem limbInt_lt (x : Issue) (p : Opr) (l : Nat) : limbInt x p l < 2 ^ bigN x := limbs_lt (fun _ => BitVec.isLt _) _

theorem bigN_pos (x : Issue) : 0 < bigN x := by
  unfold bigN
  positivity

theorem bigN_eq (x : Issue) : 32 * limbL x = bigN x := rfl

/-- One word in every limb. -/
theorem limbs_const (w L : Nat) : (List.range L).foldl (fun v i => v + w * 2 ^ (32 * i)) 0 * (2 ^ 32 - 1) = w * (2 ^ (32 * L) - 1) := by
  induction L with
  | zero => simp
  | succ L ih =>
    have hpos : 0 < 2 ^ (32 * L) := by positivity
    rw [List.range_succ, List.foldl_append, List.foldl_cons, List.foldl_nil, Nat.add_mul, ih, Nat.mul_assoc, ← Nat.mul_add, Nat.mul_succ, pow_add]
    congr 1
    omega

/-! ## Results and codes of whole integers -/

/-- A model's result of n bits is the word of `r`, with zero and sign of `z` (R89, R165). -/
structure LimbGives (n : Nat) (c : CC) (r z : Int) (carry ovf : Bool) : Prop where
  word : (c.r : Int) = r % 2 ^ n
  carry : c.c = carry
  zero : c.z = (z % 2 ^ n == 0)
  sign : c.n = decide (2 ^ (n - 1) ≤ z % 2 ^ n)
  ovf : c.v = ovf

section
variable {n : Nat}

theorem truncI_cast (z : Int) : (truncI n z : Int) = z % 2 ^ n := Int.toNat_of_nonneg (Int.emod_nonneg _ (by positivity))

theorem truncI_natCast (r : Nat) : truncI n r = r % 2 ^ n := by
  zify
  rw [truncI_cast]

/-- A result whose codes are those of the word that it writes. -/
theorem LimbGives.of_word (hn : 0 < n) {c : CC} {z : Int} {carry ovf : Bool} (hr : c.r = truncI n z) (hz : c.z = (c.r == 0))
    (hs : c.n = c.r.testBit (n - 1)) (hc : c.c = carry) (hv : c.v = ovf) : LimbGives n c z z carry ovf := by
  have hword : (c.r : Int) = z % 2 ^ n := by rw [hr, truncI_cast]
  have hlt : c.r < 2 ^ n := by
    zify
    rw [hword]
    exact Int.emod_lt_of_pos _ (by positivity)
  refine ⟨hword, hc, ?_, ?_, hv⟩
  · rw [hz, ← hword, Bool.eq_iff_iff, beq_iff_eq, beq_iff_eq, Int.natCast_eq_zero]
  · rw [hs, testBit_eq_msb hn, BitVec.msb_eq_decide, BitVec.toNat_ofNat, Nat.mod_eq_of_lt hlt, ← hword]
    exact decide_eq_decide.mpr (by norm_cast)

/-- Another value with the same codes (R165). -/
theorem LimbGives.value {c : CC} {r r' z : Int} {carry ovf : Bool} (h : LimbGives n c r z carry ovf) {w : Nat} (hw : (w : Int) = r' % 2 ^ n) :
    LimbGives n (c.value w) r' z carry ovf := ⟨hw, h.carry, h.zero, h.sign, h.ovf⟩

theorem sInt_eq_bigS {a : Nat} (ha : a < 2 ^ n) : sInt a n = bigS n a := by
  unfold sInt bigS
  rw [Nat.mod_eq_of_lt ha]
  by_cases h : a < 2 ^ (n - 1)
  · rw [if_pos h, if_pos (by exact_mod_cast h)]
  · rw [if_neg h, if_neg (by exact_mod_cast h)]

theorem addCC_limb (hn : 0 < n) {a b : Nat} (ha : a < 2 ^ n) (hb : b < 2 ^ n) (cin : Nat) :
    LimbGives n (addCC a b cin n) (a + b + cin) (a + b + cin) (decide ((2 : Int) ^ n ≤ a + b + cin)) (outOf n (bigS n a + bigS n b + cin)) := by
  refine .of_word hn ?_ rfl rfl ?_ ?_
  · show (a % 2 ^ n + b % 2 ^ n + cin) % 2 ^ n = _
    rw [Nat.mod_eq_of_lt ha, Nat.mod_eq_of_lt hb, ← truncI_natCast]
    push_cast
    rfl
  · show decide (2 ^ n ≤ a % 2 ^ n + b % 2 ^ n + cin) = _
    rw [Nat.mod_eq_of_lt ha, Nat.mod_eq_of_lt hb]
    exact decide_eq_decide.mpr (by norm_cast)
  · show (decide (sInt a n + sInt b n + cin < -(2 ^ (n - 1) : Int)) || decide ((2 ^ (n - 1) : Int) - 1 < sInt a n + sInt b n + cin)) = _
    rw [decide_out_of_range, sInt_eq_bigS ha, sInt_eq_bigS hb]
    rfl

theorem subCC_limb (hn : 0 < n) {a b : Nat} (ha : a < 2 ^ n) (hb : b < 2 ^ n) (bin : Nat) :
    LimbGives n (subCC a b bin n) (a - b - bin) (a - b - bin) (decide ((b : Int) + bin ≤ a)) (outOf n (bigS n a - bigS n b - bin)) := by
  refine .of_word hn ?_ rfl rfl ?_ ?_
  · show truncI n ((a % 2 ^ n : Nat) - (b % 2 ^ n : Nat) - (bin : Int)) = _
    rw [Nat.mod_eq_of_lt ha, Nat.mod_eq_of_lt hb]
  · show decide (0 ≤ ((a % 2 ^ n : Nat) : Int) - (b % 2 ^ n : Nat) - (bin : Int)) = _
    rw [Nat.mod_eq_of_lt ha, Nat.mod_eq_of_lt hb]
    exact decide_eq_decide.mpr (by omega)
  · show (decide (sInt a n - sInt b n - bin < -(2 ^ (n - 1) : Int)) || decide ((2 ^ (n - 1) : Int) - 1 < sInt a n - sInt b n - bin)) = _
    rw [decide_out_of_range, sInt_eq_bigS ha, sInt_eq_bigS hb]
    rfl

/-- A word that agrees with `z` in its n bits. -/
theorem logicCC_limb (hn : 0 < n) {r : Nat} {z : Int} (h : (r : Int) % 2 ^ n = z % 2 ^ n) : LimbGives n (logicCC r n) z z false false := by
  refine .of_word hn ?_ rfl ?_ rfl rfl
  · show r % 2 ^ n = truncI n z
    zify
    rw [truncI_cast, h]
  · show r.testBit (n - 1) = (r % 2 ^ n).testBit (n - 1)
    rw [Nat.testBit_mod_two_pow, decide_eq_true (Nat.sub_one_lt_of_lt hn), Bool.true_and]
end

/-! ## Limb rows -/

section
variable {x : Issue}

/-- A limb instruction whose integers give the row's (R164, R165). -/
theorem limbOut_lateRow {srcs : List Opr} {ok : Bool} {cs : List Cause} {f : Nat → CC} {carry : Nat → Nat → Bool} {r z : Nat → Int} {c v : Nat → Bool}
    {low : Nat → Nat → Bool} (hok : (limbRow x srcs ok r z c v low).ok = true) (hcs : ok = true → cs = [])
    (hf : ∀ l, LimbGives (bigN x) (f l) (r l) (z l) (c l) (v l)) (hlow : ∀ l i, carry l i = low l i) :
    LateRow x (limbOut x srcs cs f carry) (limbRow x srcs ok r z c v low) := by
  obtain ⟨hchecks, hok⟩ : limbOk x = true ∧ ok = true := Bool.and_eq_true_iff.mp hok
  have hchecks : limbChecks x = [] := List.isEmpty_iff.mp hchecks
  have htop (l : Nat) : (l % limbL x == limbL x - 1) = isTop x l := by
    have hpos : 0 < limbL x := by unfold limbL; positivity
    rw [Bool.eq_iff_iff, beq_iff_eq, isTop, beq_iff_eq]
    show l % limbL x = limbL x - 1 ↔ l % limbL x + 1 = limbL x
    omega
  have hword (l : Nat) : BitVec.ofNat 32 ((f l).r / 2 ^ (32 * (l % limbL x))) = BitVec.ofInt 32 (r l % 2 ^ bigN x / 2 ^ (32 * limbIx x l)) := by
    rw [← (hf l).word, ← BitVec.ofInt_natCast]
    push_cast
    rfl
  refine ⟨none, ?_, nofun⟩
  unfold limbOut
  simp only [hchecks, hcs hok, htop, hword, hlow, (hf _).carry, (hf _).zero, (hf _).sign, (hf _).ovf]
  rfl

theorem limbAdd_lateRow {cin : Nat → Nat} {k : Nat → Int} (hk : ∀ l, k l = cin l) (hok : (limbSum x k).ok = true) :
    LateRow x (limbAdd x cin) (limbSum x k) := by
  obtain rfl : k = fun l => (cin l : Int) := funext hk
  have hsum (l : Nat) := addCC_limb (bigN_pos x) (limbInt_lt x x.opX l) (limbInt_lt x x.opY l) (cin l)
  have hlow (l i : Nat) : decide (2 ^ (32 * (i + 1)) ≤ limbInt x x.opX l % 2 ^ (32 * (i + 1)) + limbInt x x.opY l % 2 ^ (32 * (i + 1)) + cin l) =
      decide ((2 : Int) ^ (32 * (i + 1)) ≤ big x x.opX l % 2 ^ (32 * (i + 1)) + big x x.opY l % 2 ^ (32 * (i + 1)) + cin l) :=
    decide_eq_decide.mpr (by rw [big, big]; norm_cast)
  have hout : limbAdd x cin = limbOut x [x.opX, x.opY] [] (fun l => addCC (limbInt x x.opX l) (limbInt x x.opY l) (cin l) (32 * limbL x))
      (fun l i => decide (2 ^ (32 * (i + 1)) ≤ limbInt x x.opX l % 2 ^ (32 * (i + 1)) + limbInt x x.opY l % 2 ^ (32 * (i + 1)) + cin l)) := rfl
  rw [hout, bigN_eq]
  unfold limbSum at hok ⊢
  exact limbOut_lateRow hok (fun _ => rfl) hsum hlow

theorem limbSub_lateRow {srcs : List Opr} {a b bin : Nat → Nat} {val : Nat → Nat → Nat → Nat} {A B K R : Nat → Int} (hA : ∀ l, A l = a l)
    (hB : ∀ l, B l = b l) (hK : ∀ l, K l = bin l) (ha : ∀ l, a l < 2 ^ bigN x) (hb : ∀ l, b l < 2 ^ bigN x)
    (hR : ∀ l, (val (a l) (b l) (subCC (a l) (b l) (bin l) (bigN x)).r : Int) = R l % 2 ^ bigN x) (hok : (limbDiff x srcs A B K R).ok = true) :
    LateRow x (limbSub x srcs a b bin val) (limbDiff x srcs A B K R) := by
  obtain rfl : A = fun l => (a l : Int) := funext hA
  obtain rfl : B = fun l => (b l : Int) := funext hB
  obtain rfl : K = fun l => (bin l : Int) := funext hK
  refine limbOut_lateRow hok (fun _ => rfl) (fun l => (subCC_limb (bigN_pos x) (ha l) (hb l) (bin l)).value (hR l)) fun l i => ?_
  exact decide_eq_decide.mpr (by beta_reduce; norm_cast)

/-! ## Differences -/

/-- The difference itself is the result. -/
theorem keepR_word {a b : Nat} (ha : a < 2 ^ bigN x) (hb : b < 2 ^ bigN x) (bin : Nat) {r : Int} (hr : r = a - b - bin) :
    (keepR a b (subCC a b bin (bigN x)).r : Int) = r % 2 ^ bigN x := hr ▸ (subCC_limb (bigN_pos x) ha hb bin).word

section
variable {a : RArgs} {k : LateLane 32}

theorem oLsub_lateRow (hk : lateLane (.lsub a) x = some k) (hok : k.ok = true) : LateRow x (oLsub x) k := by
  cases hk
  exact limbSub_lateRow (fun _ => rfl) (fun _ => rfl) (fun _ => rfl) (limbInt_lt x _) (limbInt_lt x _)
    (fun l => keepR_word (limbInt_lt x _ l) (limbInt_lt x _ l) 0 (Int.sub_zero _).symm) hok

theorem oLsbc_lateRow (hk : lateLane (.lsbc a) x = some k) (hok : k.ok = true) : LateRow x (oLsbc x) k := by
  have hcast (c : Bool) : (if c then 0 else 1 : Int) = ((if c then 0 else 1 : Nat) : Int) := by cases c <;> rfl
  cases hk
  exact limbSub_lateRow (fun _ => rfl) (fun _ => rfl) (fun l => hcast (limbTop x l)) (limbInt_lt x _) (limbInt_lt x _)
    (fun l => keepR_word (limbInt_lt x _ l) (limbInt_lt x _ l) _ (congrArg _ (hcast (limbTop x l)))) hok

theorem oLneg_lateRow (hk : lateLane (.lneg a) x = some k) (hok : k.ok = true) : LateRow x (oLneg x) k := by
  cases hk
  exact limbSub_lateRow (fun _ => rfl) (fun _ => rfl) (fun _ => rfl) (fun _ => by positivity) (limbInt_lt x _)
    (fun l => keepR_word (by positivity) (limbInt_lt x _ l) 0 (by rw [big]; simp)) hok

/-- A limb of all ones in each lane is −1, and a one in each lane is what LCMP writes for "greater" (R165). -/
theorem limbs_ones : (List.range (limbL x)).foldl (fun v i => v + 0xFFFFFFFF * 2 ^ (32 * i)) 0 = 2 ^ bigN x - 1 := by
  have h := limbs_const 0xFFFFFFFF (limbL x)
  rw [Nat.mul_comm] at h
  exact Nat.eq_of_mul_eq_mul_left (by decide) h

theorem limbs_one : (List.range (limbL x)).foldl (fun v i => v + 1 * 2 ^ (32 * i)) 0 = (2 ^ bigN x - 1) / (2 ^ 32 - 1) := by
  have h := limbs_const 1 (limbL x)
  rw [Nat.one_mul] at h
  exact (Nat.div_eq_of_eq_mul_left (by decide) h.symm).symm

/-- What LCMP writes (R165). -/
theorem lcmp_word {a b : Nat} (ha : a < 2 ^ bigN x) (hb : b < 2 ^ bigN x) :
    ((if a = b then 0 else if (if x.mb 0 then decide (a < b) else decide (sInt a (bigN x) < sInt b (bigN x))) then 2 ^ bigN x - 1
      else (2 ^ bigN x - 1) / (2 ^ 32 - 1) : Nat) : Int) = lcmpVal x a b % 2 ^ bigN x := by
  have hpos : 1 ≤ 2 ^ bigN x := Nat.one_le_two_pow
  have hlt : (if x.mb 0 then decide (a < b) else decide (sInt a (bigN x) < sInt b (bigN x))) =
      if x.mb 0 then decide ((a : Int) < b) else decide (bigS (bigN x) a < bigS (bigN x) b) := by
    rw [sInt_eq_bigS ha, sInt_eq_bigS hb]
    split
    · exact decide_eq_decide.mpr (by norm_cast)
    · rfl
  have hval : lcmpVal x a b = ((if a = b then 0 else if (if x.mb 0 then decide (a < b) else decide (sInt a (bigN x) < sInt b (bigN x))) then
      2 ^ bigN x - 1 else (2 ^ bigN x - 1) / (2 ^ 32 - 1) : Nat) : Int) := by
    unfold lcmpVal
    simp only [← hlt, Nat.cast_inj]
    push_cast [hpos]
    rfl
  have hbound : (if a = b then 0 else if (if x.mb 0 then decide (a < b) else decide (sInt a (bigN x) < sInt b (bigN x))) then
      2 ^ bigN x - 1 else (2 ^ bigN x - 1) / (2 ^ 32 - 1)) < 2 ^ bigN x := by
    have hsel (c : Bool) : (if c then 2 ^ bigN x - 1 else (2 ^ bigN x - 1) / (2 ^ 32 - 1)) < 2 ^ bigN x := by
      cases c
      · exact lt_of_le_of_lt (Nat.div_le_self ..) (Nat.sub_one_lt_of_lt hpos)
      · exact Nat.sub_one_lt_of_lt hpos
    split
    · exact hpos
    · exact hsel _
  rw [hval]
  exact (Int.emod_eq_of_lt (Int.natCast_nonneg _) (by exact_mod_cast hbound)).symm

theorem oLcmp_lateRow (hk : lateLane (.lcmp a) x = some k) (hok : k.ok = true) : LateRow x (oLcmp x) k := by
  cases hk
  unfold oLcmp
  simp only [limbs_ones, limbs_one, bigN_eq]
  exact limbSub_lateRow (fun _ => rfl) (fun _ => rfl) (fun _ => rfl) (limbInt_lt x _) (limbInt_lt x _)
    (fun l => lcmp_word (limbInt_lt x _ l) (limbInt_lt x _ l)) hok

/-! ## Sums and products -/

theorem oLadd_lateRow (hk : lateLane (.ladd a) x = some k) (hok : k.ok = true) : LateRow x (oLadd x) k := by
  cases hk
  exact limbAdd_lateRow (fun _ => rfl) hok

theorem oLadc_lateRow (hk : lateLane (.ladc a) x = some k) (hok : k.ok = true) : LateRow x (oLadc x) k := by
  have hcast (c : Bool) : (if c then 1 else 0 : Int) = ((if c then 1 else 0 : Nat) : Int) := by cases c <;> rfl
  cases hk
  exact limbAdd_lateRow (fun l => hcast (limbTop x l)) hok

end

/-! ## Shifts -/

/-- The operand Y of an instruction that needs it uniform. -/
theorem needUni_of_ok (h : (x.opY.uni || x.act == 0) = true) : needUni x x.opY = [] := needUni_nil (by simpa using h)

theorem limbShift_lateRow {f : Nat → Nat → Nat → Nat} {r : Nat → Int}
    (hok : (limbLogic x [x.opX, x.opY] (x.opY.uni || x.act == 0) r (fun _ => false)).ok = true)
    (hr : ∀ l, (f (bigN x) (limbInt x x.opX l) (x.opY.at32 0).toNat : Int) % 2 ^ bigN x = r l % 2 ^ bigN x) :
    LateRow x (limbShift x f) (limbLogic x [x.opX, x.opY] (x.opY.uni || x.act == 0) r (fun _ => false)) := by
  unfold limbShift
  simp only [bigN_eq]
  exact limbOut_lateRow hok needUni_of_ok (fun l => logicCC_limb (bigN_pos x) (hr l)) fun _ _ => rfl

section
variable {a : RArgs} {k : LateLane 32}

theorem oLshl_lateRow (hk : lateLane (.lshl a) x = some k) (hok : k.ok = true) : LateRow x (oLshl x) k := by
  cases hk
  refine limbShift_lateRow hok fun l => congrArg (· % (2 : Int) ^ bigN x) ?_
  rw [big]
  split <;> norm_cast

theorem oLshr_lateRow (hk : lateLane (.lshr a) x = some k) (hok : k.ok = true) : LateRow x (oLshr x) k := by
  cases hk
  refine limbShift_lateRow hok fun l => congrArg (· % (2 : Int) ^ bigN x) ?_
  rw [big]
  split <;> norm_cast

theorem oLsar_lateRow (hk : lateLane (.lsar a) x = some k) (hok : k.ok = true) : LateRow x (oLsar x) k := by
  cases hk
  refine limbShift_lateRow hok fun l => ?_
  rw [truncI_cast, Int.emod_emod_of_dvd _ dvd_rfl, sInt_eq_bigS (limbInt_lt x _ l)]
  rfl

/-- LMAD, or with HI what passes the integer's width (R165). -/
theorem oLmad_lateRow (hk : lateLane (.lmad a) x = some k) (hok : k.ok = true) : LateRow x (oLmad x) k := by
  have hfull (l : Nat) : ((limbInt x x.opX l * (x.opY.at32 0).toNat + limbInt x x.opZ l : Nat) : Int) =
      big x x.opX l * (x.opY.at32 0).toNat + big x x.opZ l := by
    rw [big, big]
    norm_cast
  unfold oLmad
  simp only [bigN_eq]
  cases hm : x.mb 0
  · simp only [lateLane, hm, Bool.false_eq_true, if_false] at hk
    cases hk
    simp only [Bool.false_eq_true, if_false]
    refine limbOut_lateRow hok needUni_of_ok (fun l => ?_) fun _ _ => rfl
    have h := logicCC_limb (bigN_pos x) (congrArg (· % (2 : Int) ^ bigN x) (hfull l))
    exact ⟨h.word, decide_eq_decide.mpr (by rw [← hfull]; norm_cast), h.zero, h.sign, h.ovf⟩
  · simp only [lateLane, hm, if_true] at hk
    cases hk
    simp only [if_true]
    refine limbOut_lateRow hok needUni_of_ok (fun l => logicCC_limb (bigN_pos x) ?_) fun _ _ => rfl
    rw [← hfull]
    norm_cast

end
end

/-! ## The obligation -/

/-- Every long-latency instruction of 32-bit results goes through the pipeline with its row (R105, R146 to R148, R153, R154, R164 to R166). -/
theorem exec_of_lateLane {s : State} {i : Instr} {x : Issue} {k : LateLane 32} (hwf : WellFormed i) (hpos : s.position i = some x)
    (h : lateLane i x = some k) (hok : k.ok = true) : ∃ f, exec i s = runIssue s i f ∧ LateRow x (f x) k := by
  have ha := State.position_args hpos
  cases i <;> try cases h
  case frcp a => exact ⟨_, rfl, oSf_lateRow _⟩
  case frsq a => exact ⟨_, rfl, oSf_lateRow _⟩
  case fsqrt a => exact ⟨_, rfl, oSf_lateRow _⟩
  case fexp2 a => exact ⟨_, rfl, oSf_lateRow _⟩
  case flog2 a => exact ⟨_, rfl, oSf_lateRow _⟩
  case fsin a => exact ⟨_, rfl, oSf_lateRow _⟩
  case fcos a => exact ⟨_, rfl, oSf_lateRow _⟩
  case ftanh a => exact ⟨_, rfl, oSf_lateRow _⟩
  case fdiv a => exact ⟨_, rfl, oFdiv_lateRow⟩
  case shfl a => exact ⟨_, rfl, oShfl_lateRow⟩
  case vote a => exact ⟨_, rfl, oVote_lateRow (ha ▸ wcc_eq_false hwf rfl rfl) h⟩
  case bcast a => exact ⟨_, rfl, oBcast_lateRow (ha ▸ wcc_eq_false hwf rfl rfl) hok⟩
  case lnrd a =>
    simp only [lateLane] at h
    split at h
    · cases h
    · next hm =>
      cases h
      exact ⟨_, rfl, oLnrd_lateRow (ha ▸ wcc_eq_false hwf rfl rfl) (Bool.eq_false_iff.mpr hm) hok⟩
  case xrd a =>
    simp only [lateLane] at h
    split at h
    · cases h
    · next hS =>
      cases h
      exact ⟨_, rfl, oXrd_lateRow (ha ▸ wcc_eq_false hwf rfl rfl) (Bool.eq_false_iff.mpr hS) hok⟩
  case ladd a => exact ⟨_, rfl, oLadd_lateRow (a := a) rfl hok⟩
  case ladc a => exact ⟨_, rfl, oLadc_lateRow (a := a) rfl hok⟩
  case lsub a => exact ⟨_, rfl, oLsub_lateRow (a := a) rfl hok⟩
  case lsbc a => exact ⟨_, rfl, oLsbc_lateRow (a := a) rfl hok⟩
  case lneg a => exact ⟨_, rfl, oLneg_lateRow (a := a) rfl hok⟩
  case lcmp a => exact ⟨_, rfl, oLcmp_lateRow (a := a) rfl hok⟩
  case lshl a => exact ⟨_, rfl, oLshl_lateRow (a := a) rfl hok⟩
  case lshr a => exact ⟨_, rfl, oLshr_lateRow (a := a) rfl hok⟩
  case lsar a => exact ⟨_, rfl, oLsar_lateRow (a := a) rfl hok⟩
  case lmad a => exact ⟨_, rfl, oLmad_lateRow (a := a) rfl hok⟩

/-- Every long-latency instruction of 64-bit results goes through the pipeline with its row (R148, R153, R154). -/
theorem exec_of_late64 {s : State} {i : Instr} {x : Issue} {k : LateLane 64} (hwf : WellFormed i) (hpos : s.position i = some x)
    (h : late64 i x = some k) (hok : k.ok = true) : ∃ f, exec i s = runIssue s i f ∧ LateRow64 x (f x) k := by
  have ha := State.position_args hpos
  cases i <;> try cases h
  case vote a =>
    simp only [late64] at h
    split at h
    · next hm =>
      cases h
      exact ⟨_, rfl, oVote_lateRow64 (ha ▸ wcc_eq_false hwf rfl rfl) hm⟩
    · cases h
  case matchI a => exact ⟨_, rfl, oMatch_lateRow64 (ha ▸ wcc_eq_false hwf rfl rfl)⟩
  case lnrd a =>
    simp only [late64] at h
    split at h
    · next hm =>
      cases h
      exact ⟨_, rfl, oLnrd_lateRow64 (ha ▸ wcc_eq_false hwf rfl rfl) hm hok⟩
    · cases h
  case xrd a =>
    simp only [late64] at h
    split at h
    · next hS =>
      cases h
      exact ⟨_, rfl, oXrd_lateRow64 (ha ▸ wcc_eq_false hwf rfl rfl) hS hok⟩
    · cases h

/-- Settles O5: each instruction's outcome is its row, which the pipeline promises. -/
theorem lateRowsComplete : Obligations.LateRowsComplete := by
  refine ⟨fun i s x prio k hwf h hk hok hr hfree htrap => ?_, fun i s x prio k hwf h hk hok hr hfree htrap => ?_⟩
  · obtain ⟨f, hexec, hrow⟩ := exec_of_lateLane hwf h.pos hk hok
    rw [hexec]
    exact runIssue_lateRow h hrow hr hfree htrap
  · obtain ⟨f, hexec, hrow⟩ := exec_of_late64 hwf h.pos hk hok
    rw [hexec]
    exact runIssue_lateRow64 h hrow hr hfree htrap

end Sys2Proof.Machine
end

section
/-! The answers of the fault service (R125, R287): what RESOLVE and DENY make of a record and of the warps that wait on it, and where O43
fails. -/

namespace Sys2Proof.Machine
open Sys2Proof.Rules

/-! ## A warp that replays -/

/-- A warp that no record holds any more (R125). -/
def Warp.freed (w : Warp) : Warp := { w with parked := false, held := false }

/-- A warp whose record has been answered: it is free, and tests again what it waits on (R129). -/
def Warp.replayed (w : Warp) : Warp := w.freed.tested

theorem Warp.tested_wid (w : Warp) : w.tested.wid = w.wid := by rw [Warp.tested_frame]

theorem Warp.tested_tested (w : Warp) : w.tested.tested = w.tested := by
  obtain ⟨_, _, _, _, wait, _⟩ := w
  cases wait <;> rfl

theorem Warp.freed_tested (w : Warp) : w.tested.freed = w.replayed := by
  obtain ⟨_, _, _, _, wait, _⟩ := w
  cases wait <;> rfl

theorem Warp.replayed_of_tested {w : Warp} (h : w.tested = w) : w.replayed = w.freed := by rw [← Warp.freed_tested, h]

theorem Warp.tested_replayed (w : Warp) : w.replayed.tested = w.replayed := Warp.tested_tested _

/-- A test before the record is answered makes no difference. -/
theorem Warp.replayed_tested (w : Warp) : w.tested.replayed = w.replayed := by
  rw [Warp.replayed, Warp.freed_tested, Warp.tested_replayed]

theorem Warp.replayed_replayed (w : Warp) : w.replayed.replayed = w.replayed := w.freed.replayed_tested

/-! ## A group of which a warp replays -/

/-- Warp `wid` of a group is freed, and the group tests its waits. -/
def Group.replay (now wid : Nat) (g : Group) : Group := (g.setWarp wid Warp.freed).wake now

theorem Group.replay_gid (now wid : Nat) (g : Group) : (g.replay now wid).gid = g.gid := rfl

theorem Group.replay_st (now wid : Nat) (g : Group) : (g.replay now wid).st ≠ .waiting := by
  change (if g.st = .waiting then .ready else g.st) ≠ GState.waiting
  split
  · exact nofun
  · assumption

theorem Group.replay_warp (now wid k : Nat) (g : Group) : (g.replay now wid).warp k = ((g.setWarp wid Warp.freed).warp k).map Warp.tested :=
  find?_map_of_key Warp.wid k Warp.tested Warp.tested_wid _

theorem Group.replay_warp_self {now wid : Nat} {g : Group} {w : Warp} (h : g.warp wid = some w) : (g.replay now wid).warp wid = some w.replayed := by
  have hfreed : (g.setWarp wid Warp.freed).warp wid = (g.warp wid).map Warp.freed := find_updWhere_self Warp.wid wid Warp.freed (fun _ => rfl) g.warps
  rw [Group.replay_warp, hfreed, h]
  rfl

theorem Group.replay_warp_ne {now wid k : Nat} {g : Group} {w : Warp} (hk : k ≠ wid) (h : g.warp k = some w) :
    (g.replay now wid).warp k = some w.tested := by
  have hsame : (g.setWarp wid Warp.freed).warp k = g.warp k := find_updWhere_ne Warp.wid wid k Warp.freed (fun _ => rfl) hk g.warps
  rw [Group.replay_warp, hsame, h]
  rfl

/-! ## The warps of a record, one after the other -/

/-- One warp of a record replays. -/
def State.replayWarp (s : State) (p : Nat × Nat) : State := s.setGroup p.1 (Group.replay s.bw p.2)

theorem State.unpark_eq (s : State) (f : FaultRec) : s.unpark f = f.warps.foldl State.replayWarp s := by
  have hstep : ∀ (s : State) (p : Nat × Nat), (s.setWarp p.1 p.2 Warp.freed).wakeGroup p.1 = s.replayWarp p := fun s p =>
    State.setGroup_setGroup s p.1 (fun g => g.setWarp p.2 Warp.freed) (fun g => g.wake s.bw) fun _ => rfl
  exact congrArg (fun r => f.warps.foldl r s) (funext fun s => funext (hstep s))

theorem State.unpark_frame (s : State) (f : FaultRec) : s.unpark f = { s with groups := (s.unpark f).groups } := by
  have hfold : ∀ (ps : List (Nat × Nat)) (s : State), ps.foldl State.replayWarp s = { s with groups := (ps.foldl State.replayWarp s).groups } := by
    intro ps
    induction ps with
    | nil => exact fun _ => rfl
    | cons p ps ih => exact fun s => ih (s.replayWarp p)
  rw [State.unpark_eq]
  exact hfold f.warps s

/-- Warp `wid` of group `gid` is one that a replay makes `v`. -/
def Replayable (v : Warp) (gid wid : Nat) (s : State) : Prop :=
  ∃ g w, s.group gid = some g ∧ g.warp wid = some w ∧ w.replayed = v

/-- Warp `wid` of group `gid` is `v`, and the group is not WAITING. -/
def Awake (v : Warp) (gid wid : Nat) (s : State) : Prop :=
  ∃ g, s.group gid = some g ∧ g.warp wid = some v ∧ g.st ≠ .waiting

section
variable {s : State} {v : Warp} {gid wid : Nat}

theorem State.replayWarp_group_self {g : Group} (k : Nat) (h : s.group gid = some g) : (s.replayWarp (gid, k)).group gid = some (g.replay s.bw k) :=
  (State.group_setGroup_self s gid (Group.replay s.bw k) (Group.replay_gid s.bw k)).trans (congrArg (Option.map _) h)

theorem State.replayWarp_group_ne {p : Nat × Nat} (h : gid ≠ p.1) : (s.replayWarp p).group gid = s.group gid :=
  State.group_setGroup_ne s p.1 gid (Group.replay s.bw p.2) (Group.replay_gid s.bw p.2) h

theorem Replayable.wakes (h : Replayable v gid wid s) : Awake v gid wid (s.replayWarp (gid, wid)) := by
  obtain ⟨g, w, hg, hw, rfl⟩ := h
  exact ⟨_, State.replayWarp_group_self wid hg, Group.replay_warp_self hw, Group.replay_st s.bw wid g⟩

theorem Awake.replayable (hv : v.replayed = v) (h : Awake v gid wid s) : Replayable v gid wid s := by
  obtain ⟨g, hg, hw, -⟩ := h
  exact ⟨g, v, hg, hw, hv⟩

/-- Another warp's replay leaves a warp replayable. -/
theorem Replayable.replay_ne (h : Replayable v gid wid s) {p : Nat × Nat} (hp : (gid, wid) ≠ p) : Replayable v gid wid (s.replayWarp p) := by
  obtain ⟨g, w, hg, hw, rfl⟩ := h
  obtain ⟨k, j⟩ := p
  by_cases hk : gid = k
  · subst hk
    have hj : wid ≠ j := fun hj => hp (congrArg _ hj)
    exact ⟨_, w.tested, State.replayWarp_group_self j hg, Group.replay_warp_ne hj hw, w.replayed_tested⟩
  · exact ⟨g, w, (State.replayWarp_group_ne hk).trans hg, hw, rfl⟩

/-- A warp that has replayed stays as it is when any warp replays. -/
theorem Awake.replay (hv : v.replayed = v) (h : Awake v gid wid s) (p : Nat × Nat) : Awake v gid wid (s.replayWarp p) := by
  by_cases hp : (gid, wid) = p
  · exact hp ▸ (h.replayable hv).wakes
  · obtain ⟨g, hg, hw, hst⟩ := h
    obtain ⟨k, j⟩ := p
    by_cases hk : gid = k
    · subst hk
      have hj : wid ≠ j := fun hj => hp (congrArg _ hj)
      have htested : v.tested = v := by rw [← hv, Warp.tested_replayed]
      exact ⟨_, State.replayWarp_group_self j hg, (Group.replay_warp_ne hj hw).trans (congrArg some htested), Group.replay_st s.bw j g⟩
    · exact ⟨g, (State.replayWarp_group_ne hk).trans hg, hw, hst⟩

theorem Awake.replays (hv : v.replayed = v) (h : Awake v gid wid s) (ps : List (Nat × Nat)) : Awake v gid wid (ps.foldl State.replayWarp s) := by
  induction ps generalizing s with
  | nil => exact h
  | cons p ps ih => exact ih (h.replay hv p)

theorem Replayable.replays (hv : v.replayed = v) (h : Replayable v gid wid s) {ps : List (Nat × Nat)} (hp : (gid, wid) ∈ ps) :
    Awake v gid wid (ps.foldl State.replayWarp s) := by
  induction ps generalizing s with
  | nil => exact absurd hp List.not_mem_nil
  | cons p ps ih =>
    by_cases heq : (gid, wid) = p
    · exact heq ▸ h.wakes.replays hv ps
    · exact ih (h.replay_ne heq) ((List.mem_cons.mp hp).resolve_left heq)

/-- Every warp of an answered record replays, and its group does not wait (R125). -/
theorem State.unpark_awake {f : FaultRec} {g : Group} {w : Warp} (hp : (gid, wid) ∈ f.warps) (hg : s.group gid = some g) (hw : g.warp wid = some w) :
    Awake w.replayed gid wid (s.unpark f) := by
  rw [State.unpark_eq]
  exact Replayable.replays w.replayed_replayed ⟨g, w, hg, hw, rfl⟩ hp

end

/-! ## The records that stand -/

/-- A record enters the queue of its die, or none waits (R287). -/
theorem State.nextFault_cases (s : State) (die : Nat) : s.nextFault die = s ∨
    ∃ e ∈ s.faults, e.state = 0 ∧ s.nextFault die = { s with faults := updWhere (fun q => q.id == e.id) (fun q => { q with queued := true }) s.faults } := by
  unfold State.nextFault
  split
  · exact .inl rfl
  · next e he =>
    have hstate := List.find?_some he
    simp only [Bool.and_eq_true, beq_iff_eq] at hstate
    exact .inr ⟨e, List.mem_of_find?_eq_some he, hstate.2, rfl⟩

theorem State.nextFault_frame (s : State) (die : Nat) : s.nextFault die = { s with faults := (s.nextFault die).faults } := by
  rcases s.nextFault_cases die with h | ⟨e, -, -, h⟩ <;> rw [h]

/-- A record that stands stays, but for its place in the queue. -/
theorem State.nextFault_keeps {s : State} {q : FaultRec} (die : Nat) (hq : q ∈ s.faults) : ∃ b, { q with queued := b } ∈ (s.nextFault die).faults := by
  rcases s.nextFault_cases die with h | ⟨e, -, -, h⟩ <;> rw [h]
  · exact ⟨q.queued, hq⟩
  · have hmem := List.mem_map_of_mem (f := fun q : FaultRec => if q.id == e.id then { q with queued := true } else q) hq
    by_cases hid : (q.id == e.id) = true
    · rw [if_pos hid] at hmem
      exact ⟨true, hmem⟩
    · rw [if_neg hid] at hmem
      exact ⟨q.queued, hmem⟩

/-- Where every record of a number has been answered, they stand as they stood. -/
theorem State.nextFault_answered {s : State} {q : FaultRec} {die id : Nat} (hdone : ∀ e ∈ s.faults, e.id = id → e.state ≠ 0)
    (hq : q ∈ (s.nextFault die).faults) (hid : q.id = id) : q ∈ s.faults := by
  rcases s.nextFault_cases die with h | ⟨e, he, hstate, h⟩ <;> rw [h] at hq
  · exact hq
  · obtain ⟨r, hr, rfl⟩ := List.mem_map.mp hq
    by_cases hre : (r.id == e.id) = true
    · rw [if_pos hre] at hid
      exact absurd hstate (hdone e he ((beq_iff_eq.mp hre).symm.trans hid))
    · rwa [if_neg hre]

/-! ## RESOLVE and DENY -/

/-- The first record of a die and a number that stands in the queue and is not answered. -/
def State.faultOf (s : State) (die record : Nat) : Option FaultRec :=
  s.faults.find? (fun q => q.die == die && q.id == record && q.queued && q.state == 0)

/-- An answer leaves the records `fs`, of which one enters the queue, and the warps of record `f` replay. -/
def State.answered (s : State) (die : Nat) (f : FaultRec) (fs : List FaultRec) : State := (({ s with faults := fs } : State).nextFault die).unpark f

/-- The records without those of number `id` (RESOLVE). -/
def resolvedFaults (id : Nat) (fs : List FaultRec) : List FaultRec := fs.filter (fun q => q.id != id)
/-- The records with those of number `id` denied (DENY). -/
def deniedFaults (id : Nat) (fs : List FaultRec) : List FaultRec := updWhere (fun q => q.id == id) (fun q => { q with state := 2, queued := false }) fs

section
variable {s : State} {die record : Nat} {f : FaultRec}

theorem State.faultOf_mem (h : s.faultOf die record = some f) : f ∈ s.faults ∧ f.id = record := by
  have hf := List.find?_some h
  simp only [Bool.and_eq_true, beq_iff_eq] at hf
  exact ⟨List.mem_of_find?_eq_some h, hf.1.1.2⟩

theorem State.answered_frame (fs : List FaultRec) :
    s.answered die f fs = { s with faults := (s.answered die f fs).faults, groups := (s.answered die f fs).groups } := by
  unfold State.answered
  rw [State.unpark_frame, State.nextFault_frame]

theorem State.answered_faults (fs : List FaultRec) : (s.answered die f fs).faults = (({ s with faults := fs } : State).nextFault die).faults := by
  unfold State.answered
  rw [State.unpark_frame]

theorem State.answered_awake {gid wid : Nat} {g : Group} {w : Warp} (fs : List FaultRec) (hp : (gid, wid) ∈ f.warps)
    (hg : s.group gid = some g) (hw : g.warp wid = some w) : Awake w.replayed gid wid (s.answered die f fs) := by
  refine State.unpark_awake hp ?_ hw
  rw [State.nextFault_frame]
  exact hg

/-- No access of another node waits for the answer. -/
theorem State.retryRemotes_answered (fs : List FaultRec) (h : s.remotes = []) : (s.answered die f fs).retryRemotes = s.answered die f fs := by
  have hnone : (s.answered die f fs).remotes = [] := by
    rw [State.answered_frame]
    exact h
  rw [State.retryRemotes, hnone]
  rfl

theorem exec_resolve_found (h : s.faultOf die record = some f) (hrem : s.remotes = []) :
    exec (.resolve die record) s = .next (s.answered die f (resolvedFaults record s.faults)) := by
  rw [← State.retryRemotes_answered _ hrem]
  change execResolve die record s = _
  rw [State.faultOf] at h
  rw [execResolve, h, ← (State.faultOf_mem h).2]
  rfl

theorem exec_deny_found (h : s.faultOf die record = some f) (hrem : s.remotes = []) :
    exec (.deny die record) s = .next (s.answered die f (deniedFaults record s.faults)) := by
  rw [← State.retryRemotes_answered _ hrem]
  change execDeny die record s = _
  rw [State.faultOf] at h
  rw [execDeny, h, ← (State.faultOf_mem h).2]
  rfl

theorem mem_resolvedFaults {id : Nat} {q : FaultRec} {fs : List FaultRec} : q ∈ resolvedFaults id fs ↔ q ∈ fs ∧ q.id ≠ id := by
  simp [resolvedFaults]

theorem mem_deniedFaults_of_ne {id : Nat} {q : FaultRec} {fs : List FaultRec} (hq : q ∈ fs) (hid : q.id ≠ id) : q ∈ deniedFaults id fs :=
  List.mem_map.mpr ⟨q, hq, if_neg (by simpa using hid)⟩

theorem mem_deniedFaults_of_eq {id : Nat} {q : FaultRec} {fs : List FaultRec} (hq : q ∈ fs) (hid : q.id = id) :
    { q with state := 2, queued := false } ∈ deniedFaults id fs :=
  List.mem_map.mpr ⟨q, hq, if_pos (by simpa using hid)⟩

theorem deniedFaults_denied {id : Nat} {q : FaultRec} {fs : List FaultRec} (hq : q ∈ deniedFaults id fs) (hid : q.id = id) :
    q.state = 2 ∧ q.queued = false := by
  obtain ⟨r, -, rfl⟩ := List.mem_map.mp hq
  by_cases hr : (r.id == id) = true
  · rw [if_pos hr]
    exact ⟨rfl, rfl⟩
  · rw [if_neg hr] at hid
    exact absurd (beq_iff_eq.mpr hid) hr

theorem resolvedFaults_gone {q : FaultRec} (hq : q ∈ (s.answered die f (resolvedFaults record s.faults)).faults) : q.id ≠ record := by
  intro hid
  rw [State.answered_faults] at hq
  have hnone : ∀ e ∈ resolvedFaults record s.faults, e.id = record → e.state ≠ 0 := fun e he heq => absurd heq (mem_resolvedFaults.mp he).2
  exact (mem_resolvedFaults.mp (State.nextFault_answered hnone hq hid)).2 hid

theorem deniedFaults_stand (h : s.faultOf die record = some f) : ∃ q ∈ (s.answered die f (deniedFaults record s.faults)).faults, q.id = record := by
  obtain ⟨hmem, hid⟩ := State.faultOf_mem h
  obtain ⟨b, hb⟩ := State.nextFault_keeps (s := { s with faults := deniedFaults record s.faults }) die (mem_deniedFaults_of_eq hmem hid)
  rw [State.answered_faults]
  exact ⟨_, hb, hid⟩

theorem deniedFaults_done {q : FaultRec} (hq : q ∈ (s.answered die f (deniedFaults record s.faults)).faults) (hid : q.id = record) :
    q.state = 2 ∧ q.queued = false := by
  rw [State.answered_faults] at hq
  have hdone : ∀ e ∈ deniedFaults record s.faults, e.id = record → e.state ≠ 0 := fun e he heq => by simp [(deniedFaults_denied he heq).1]
  exact deniedFaults_denied (State.nextFault_answered hdone hq hid) hid

/-- An answer is a replay of the record's warps, where none of them waits on anything that a wake has it test again. -/
theorem State.answered_replays {fs : List FaultRec}
    (htested : ∀ p ∈ f.warps, ∀ g w, s.group p.1 = some g → g.warp p.2 = some w → w.tested = w)
    (hothers : ∀ q ∈ s.faults, q.id ≠ f.id → q ∈ fs) : Replays s (s.answered die f fs) f where
  state := State.answered_frame fs
  warps := by
    intro p hp g w hg hw
    obtain ⟨h, hh, hwarp, hst⟩ := State.answered_awake (die := die) fs hp hg hw
    rw [Warp.replayed_of_tested (htested p hp g w hg hw)] at hwarp
    exact ⟨h, hh, hwarp, hst⟩
  others := by
    rintro q hid ⟨b, hq⟩
    rw [State.answered_faults]
    obtain ⟨c, hc⟩ := State.nextFault_keeps (s := { s with faults := fs }) die (hothers { q with queued := b } hq hid)
    exact ⟨c, hc⟩

/-- What O43 says, of the records that hold no warp in a wait that a wake ends: XRD, PLACEW, and the waits of `Wait.other`
(`Tests.hyps_answer` gives such a record). -/
theorem faultsAnswered_of_tested (h : s.faultOf die record = some f) (hrem : s.remotes = [])
    (htested : ∀ p ∈ f.warps, ∀ g w, s.group p.1 = some g → g.warp p.2 = some w → w.tested = w) :
    (∃ t, exec (.resolve die record) s = .next t ∧ Replays s t f ∧ ∀ q ∈ t.faults, q.id ≠ record) ∧
      ∃ t, exec (.deny die record) s = .next t ∧ Replays s t f ∧ (∃ q ∈ t.faults, q.id = record) ∧
        ∀ q ∈ t.faults, q.id = record → q.state = 2 ∧ q.queued = false := by
  have hid := (State.faultOf_mem h).2
  refine ⟨⟨_, exec_resolve_found h hrem, State.answered_replays htested fun q hq hne => ?_, fun q => resolvedFaults_gone⟩,
    ⟨_, exec_deny_found h hrem, State.answered_replays htested fun q hq hne => ?_, deniedFaults_stand h, fun q => deniedFaults_done⟩⟩
  · exact mem_resolvedFaults.mpr ⟨hq, hid ▸ hne⟩
  · exact mem_deniedFaults_of_ne hq (hid ▸ hne)

end

/-! ## A record that holds a waiting warp -/

/-- The last instruction of a clause: TLBINV of page 0 of address space 0, in the package. -/
def lastTlbinv : Instr := .tlbinv { x := 0x104, y := 0x105, m := 8 }
/-- Its entry: the next header stands at 0x1000, whose page no table maps. -/
def lastEntry : Entry := { prio := 40, pc := 0xFF8, mask := 1, h := 0xFF0, cl := some { eng := 3, cnt := 0, yld := false } }
/-- The warp of a software handler (R138): its fence is over, and the entries are to be dropped (R289). -/
def dropWarp : Warp := { wid := 0, entries := [lastEntry], pass := 1 }
def softHandler : Handler :=
  { priv := false, tam := 1, tfm := 1, tcause := 0, tpc := 0, tprio := 0, taddr := 0, tinfo := 0, rpc := 0, frozen := [], intr := none }
def dropGroup : Group := { noGroup with warps := [dropWarp], handlers := [softHandler] }
/-- A page of 1 GiB at address 0, of code. -/
def dropPage : TlbEntry :=
  { second := false, who := 0, asid := 0, vpn := 0, order := 18,
    leaf := { pfn := 0, w := false, x := true, xf := true, coh := 0, lc := 0, fmt := 0, bg := 0, ten := 0, node := 0 } }
/-- The package after reset, where a fault service serves context 0, with that group, that page in its core's TLB, and the next header. -/
def dropState : State :=
  { State.reset with groups := [dropGroup], issuer := some { gid := 0, wid := 0 }, tlb := [dropPage],
                     mem := Memory.store [] 0x1000 (leBytes 8 0xF047800000000000) }

/-- The warp after two issues of its TLBINV. The first drops the entries and has it test for the accesses in flight each time it issues; the second finds none, but
cannot fetch the next header, which holds the warp in place, as in a handler (R139), and in its wait still. -/
def heldWarp : Warp := { dropWarp with pass := 2, snap := [0, 0, 2 ^ 18], wait := .other, held := true }
/-- The record of that fetch. -/
def headerFault : FaultRec := { id := 0, die := 0, va := 0x1000, asid := 0, ctx := 0, level := 4, kind := 4, warps := [(0, 0)] }

/-- The state that an instruction leaves. -/
def State.after (s : State) (i : Instr) : State := match exec i s with | .next t => t | _ => s

/-- The state after both issues. -/
def heldState : State := (dropState.after lastTlbinv).after lastTlbinv

theorem exec_lastTlbinv_drops : exec lastTlbinv dropState = .next (dropState.after lastTlbinv) := rfl

theorem exec_lastTlbinv_held : exec lastTlbinv (dropState.after lastTlbinv) = .next heldState := rfl

theorem heldState_faultOf : heldState.faultOf 0 0 = some headerFault ∧ heldState.remotes = [] := by decide +kernel

theorem heldState_warp : ∃ g, heldState.group 0 = some g ∧ g.warp 0 = some heldWarp :=
  Option.bind_eq_some_iff.mp (show (heldState.group 0).bind (fun g => g.warp 0) = some heldWarp by decide +kernel)

/-- The answer changes more of the warp than its hold: its wait is over too. -/
theorem heldWarp_replayed_wait : heldWarp.replayed.wait ≠ heldWarp.freed.wait := by decide

/-- Refutes O43: of a warp of the record, the statement has the answer change the hold alone. The answer also wakes the warp's group, though, and a wake ends the waits
that are tested at each issue (R129). `lastTlbinv`, issued twice from `dropState`, leaves the record of a warp in such a wait (`exec_lastTlbinv_drops`,
`exec_lastTlbinv_held`). Of the records whose warps are in no such wait the statement holds (`faultsAnswered_of_tested`). -/
theorem not_faultAnswersComplete : ¬ Obligations.FaultAnswersComplete := by
  unfold Obligations.FaultAnswersComplete
  intro hall
  obtain ⟨hfault, hrem⟩ := heldState_faultOf
  obtain ⟨g, hg, hw⟩ := heldState_warp
  obtain ⟨⟨t, hexec, hreplays, -⟩, -⟩ := hall 0 0 heldState headerFault hfault hrem
  obtain rfl : heldState.answered 0 headerFault (resolvedFaults 0 heldState.faults) = t := by
    injection (exec_resolve_found hfault hrem).symm.trans hexec
  have hp : (0, 0) ∈ headerFault.warps := List.mem_singleton.mpr rfl
  obtain ⟨h, hh, hfreed, -⟩ := hreplays.warps (0, 0) hp g heldWarp hg hw
  obtain ⟨k, hk, hreplayed, -⟩ := State.answered_awake (die := 0) (resolvedFaults 0 heldState.faults) hp hg hw
  obtain rfl : h = k := Option.some.inj (hh.symm.trans hk)
  exact heldWarp_replayed_wait (congrArg Warp.wait (Option.some.inj (hreplayed.symm.trans hfreed)))

end Sys2Proof.Machine
end

section
/-! O19 fails where a repeat steps the destination of PSTI out of the V registers. -/

namespace Sys2Proof.Machine
open Sys2Proof.Rules

/-- PSTI of P0 into V255. -/
def steppedPsti : Instr := .psti { d := 255 }
/-- A pending result of the register past V255, the place to which a repeat steps D. -/
def pastResult : Pending := { rid := 0, left := 1, lanes := 3, dst := [.v 256] }
/-- The warp in repeat 1 (`steppedWarp`) with that result pending. -/
def pastWarp : Warp := { steppedWarp with pend := [pastResult] }
def pastGroup : Group := { noGroup with warps := [pastWarp] }
def pastState : State := { State.reset with groups := [pastGroup], issuer := some { gid := 0, wid := 0 } }
/-- The position of `steppedPsti` there: its D has stepped to S0, the field after V255. -/
def pastIssue : Issue where
  s := pastState
  g := pastGroup
  w := pastWarp
  e := steppedEntry
  cl := { eng := 0, cnt := 1, yld := false }
  n := info steppedPsti
  a := args steppedPsti
  act := 3
  full := false
  k := 1
  rmask := 1
  last := false
  more := false

theorem pastState_issues : Issues pastState steppedPsti pastIssue 0 where
  pos := rfl
  held := by decide +kernel
  dcw := by decide +kernel
  due := by decide +kernel
  counter := by decide +kernel
  collector := fun _ => by decide +kernel
  role := by decide +kernel
  header := rfl

/-- S0, which the word names, is free. -/
theorem pastIssue_free : Free pastIssue (pastIssue.dests 1) := ⟨by decide +kernel, .inl (by decide +kernel)⟩

/-- The model promises V256 beside S0, and so raises LAWAR (R74): nothing joins the Crook's queue. -/
theorem steppedPsti_traps : ∃ t, exec steppedPsti pastState = .next t ∧ t.nextId = pastState.nextId :=
  ⟨takeTrap pastIssue { stage := 2, code := cLAWAR, tfm := 3, tinfo := 256 }, rfl, by decide +kernel⟩

/-- Refutes O19: `steppedPsti` finds its destination free, once the repeat has stepped its D from V255 to S0, but the model's PSTI promises the V register of the
stepped number too, for which a result is pending, and traps. REP refuses such a repeat (R78), but `Issues` admits any RPC. -/
theorem not_permutationsIssue : ¬ Obligations.PermutationsIssue := by
  unfold Obligations.PermutationsIssue CrookIssues
  rintro ⟨⟨-, -, -, -, -, hpsti, -⟩, -, -⟩
  have hroom : CrookRoom pastIssue := by unfold CrookRoom; decide +kernel
  obtain ⟨t, o, p, hexec, hcrook, -⟩ := hpsti _ pastState pastIssue 0 (by decide +kernel) pastState_issues hroom pastIssue_free
  obtain ⟨u, hu, hid⟩ := steppedPsti_traps
  obtain rfl : u = t := by injection hu.symm.trans hexec
  have hnext : u.nextId = pastState.nextId + 1 := by rw [hcrook.state]
  omega

end Sys2Proof.Machine
end

section
/-! O21 fails where a PIDN stands right behind an instruction that writes no P register. -/

namespace Sys2Proof.Machine
open Sys2Proof.Rules

/-- A PSTI in the Crook, its time over. -/
def endedPsti : CrookOp := { rid := 0, gid := 0, wid := 0, team := 0, kind := .psti, started := true }
/-- A PIDN of P0 behind it, of another NLOG than the register has after reset. -/
def waitingPidn : CrookOp := { rid := 1, gid := 0, wid := 0, team := 0, kind := .pidn, val := { nlog := 3 } }
/-- A machine of one team, on whose core 0 the two stand in the Crook's queue. -/
def pidnBehindPsti : State :=
  { State.reset with teams := [noTeam], cores := [(0, { crook := [endedPsti, waitingPidn] })] }

theorem pidnBehindPsti_ends : ∃ t, exec (.crookComplete 0) pidnBehindPsti = .next t ∧ t.preg 0 0 = { nlog := 3 } :=
  ⟨_, rfl, by decide +kernel⟩

/-- Refutes O21: where an instruction that writes no P register ends, every P register is to stand, but the PIDNs that follow it in the queue apply with it (R175).
At `pidnBehindPsti` a PSTI ends and the PIDN behind it writes P0. PIDN joins the queue only behind a write of its register, but `CrookEnds` admits any queue. -/
theorem not_crookSteps : ¬ Obligations.CrookSteps := by
  unfold Obligations.CrookSteps
  rintro ⟨-, hends⟩
  obtain ⟨t, hexec, -, hstand, -⟩ := hends 0 pidnBehindPsti endedPsti [waitingPidn] rfl rfl (by decide +kernel)
  obtain ⟨u, hu, hpreg⟩ := pidnBehindPsti_ends
  obtain rfl : u = t := by injection hu.symm.trans hexec
  have hsame : pidnBehindPsti.preg 0 0 = { nlog := 6 } := by decide +kernel
  have hboth := (hpreg.symm.trans (hstand rfl 0 0)).trans hsame
  exact absurd hboth (by decide)

end Sys2Proof.Machine
end

section
/-! O6 fails where a repeat steps the destination of an integer SCAN out of the V registers. -/

namespace Sys2Proof.Machine
open Sys2Proof.Rules

/-- SCAN, the sums of V10, into V255. -/
def steppedScan : Instr := .scan { d := 255, x := 10 }
/-- A group of two lanes in repeat 1 (`steppedWarp`), with a negative number in V10. -/
def negativeGroup : Group := { noGroup with v := [(10, .uni 0x80000000)], warps := [steppedWarp] }
def negativeState : State := { State.reset with groups := [negativeGroup], issuer := some { gid := 0, wid := 0 } }
/-- The position of `steppedScan` there: its D has stepped to S0, the field after V255. -/
def negativeIssue : Issue where
  s := negativeState
  g := negativeGroup
  w := steppedWarp
  e := steppedEntry
  cl := { eng := 0, cnt := 1, yld := false }
  n := info steppedScan
  a := args steppedScan
  act := 3
  full := false
  k := 1
  rmask := 1
  last := false
  more := false

theorem negativeState_issues : Issues negativeState steppedScan negativeIssue 0 where
  pos := rfl
  held := by decide +kernel
  dcw := by decide +kernel
  due := by decide +kernel
  counter := by decide +kernel
  collector := fun _ => by decide +kernel
  role := by decide +kernel
  header := rfl

theorem negativeIssue_free : Free negativeIssue (negativeIssue.dests 1) := ⟨by decide +kernel, .inl (by decide +kernel)⟩

theorem negativeIssue_readable : Readable [negativeIssue.opX] := by
  intro p hp
  rw [List.mem_singleton.mp hp]
  decide +kernel

/-- Lane 0's value of the SCAN is the negative number of lane 0. -/
theorem negativeIssue_lane : redOver negativeIssue
    ((Mask.lanes negativeIssue.act).filter (fun j => if negativeIssue.mb 5 then decide (j < 0) else decide (j ≤ 0))) = 0x80000000 := by
  decide +kernel

/-- The model promises S0 the number extended by zeros. -/
theorem steppedScan_promises : ∃ t, exec steppedScan negativeState = .next t ∧ ∀ h w, t.group 0 = some h → h.warp 0 = some w →
    ∀ p ∈ w.pend, (p.on negativeGroup).sreg 0 = 0x80000000 := by
  refine ⟨commitOut negativeIssue 0 (oScan negativeIssue), rfl, fun h w hh hw p hp => ?_⟩
  have hall : (((commitOut negativeIssue 0 (oScan negativeIssue)).group 0).bind (fun h => h.warp 0)).all
      (fun w => w.pend.all (fun p => (p.on negativeGroup).sreg 0 == 0x80000000)) = true := by decide +kernel
  rw [hh, Option.bind_some, hw] at hall
  exact beq_iff_eq.mp (List.all_eq_true.mp hall p hp)

/-- Refutes O6: an integer sum in an S register is to be extended by its sign (R145), and `steppedScan` has its D stepped from V255 to S0 by the repeat, but the model
writes no SCAN into an S register but extended by zeros. REP refuses such a repeat (R78), and a SCAN's D is a V register (R151), but `Issues` admits any RPC. -/
theorem not_integerReductionsComplete : ¬ Obligations.IntegerReductionsComplete := by
  unfold Obligations.IntegerReductionsComplete
  rintro ⟨-, hscan⟩
  have hnarrow : redN negativeIssue = 32 := by decide +kernel
  have hsum : redOp negativeIssue = 0 := by decide +kernel
  obtain ⟨t, p, g, hexec, hprom, hres, hon⟩ := hscan _ negativeState negativeIssue 0 (by decide +kernel) negativeState_issues (by decide +kernel)
    negativeIssue_readable negativeIssue_free
  obtain ⟨u, hu, hzero⟩ := steppedScan_promises
  obtain rfl : u = t := by injection hu.symm.trans hexec
  obtain ⟨h, w, hh, -, hw, hp⟩ := hprom.group
  have hmodel : g.sreg 0 = 0x80000000 := by
    have hs : (p.on negativeIssue.g).sreg 0 = g.sreg 0 := by rw [hon]; rfl
    exact hs.symm.trans (hzero h w hh hw p hp)
  rw [RedResult, if_neg (by omega), if_pos (by omega)] at hres
  have hspec := hres.sreg 0
  rw [if_pos (by decide +kernel), hmodel] at hspec
  beta_reduce at hspec
  rw [negativeIssue_lane] at hspec
  exact absurd hspec (by decide)

end Sys2Proof.Machine
end

section
/-! PAPPLY (R177): the lane that a permutation sends to each lane, and a uniform result where every active lane has an active source. -/

namespace Sys2Proof.Machine
open Sys2Proof.Rules

/-! ## A shape of the active lanes -/

/-- Only the active lanes of a result matter, and lane 0 where the result goes to an S register. -/
theorem Result32.congr_lanes {x : Issue} {g : Group} {ext : Ext} {f f' : Nat → Word} {c z n v : Nat → Bool} {fl : Word}
    (h : Result32 x g ext f c z n v fl) (h0 : isS x.fd = true → f 0 = f' 0) (hact : ∀ l, Mask.has x.act l = true → f l = f' l) :
    Result32 x g ext f' c z n v fl := by
  refine ⟨h.rest, fun r => ?_, fun r l hw hl => ?_, h.cc⟩
  · rw [h.sreg r]
    split
    · next hk => rw [h0 hk.1]
    · rfl
  · rw [h.vreg r l hw hl]
    split
    · next hk => exact hact l hk.2.2
    · rfl

/-- A shape counts for a V register that is written with a full mask. -/
theorem put32_of_no_shape {x : Issue} (h : isS x.fd = true ∨ x.act = 0 ∨ x.full = false) (ext : Ext) (sh : Option VReg) (f : Nat → Word) :
    x.put32 ext sh f = x.put32 ext none f := by
  unfold Issue.put32
  rcases h with h | h | h <;> simp [h]

/-- A 32-bit result without condition codes whose shape has the values of the active lanes (R41, R88). -/
theorem put32_result_of_active {x : Issue} (hwcc : x.a.wcc = false) (ext : Ext) (sh : Option VReg) (f : Nat → Word)
    (hsh : ∀ r, sh = some r → ∀ l, Mask.has x.act l = true → r.lane l = f l)
    (hfull : x.full = true → ∀ l, l < x.g.width → l < 64 → Mask.has x.act l = true) :
    Result32 x ((x.put32 ext sh f).foldl Group.applyW x.g) ext f noCode noCode noCode noCode 0 := by
  have hplain := put32_result_of_noCC hwcc ext none f (by rintro r ⟨⟩) hfull
  cases sh with
  | none => exact hplain
  | some r =>
    by_cases hno : isS x.fd = true ∨ x.act = 0 ∨ x.full = false
    · rwa [put32_of_no_shape hno]
    · obtain ⟨hS, -, hf⟩ := (by simpa using hno : isS x.fd = false ∧ x.act ≠ 0 ∧ x.full = true)
      have hsame : x.put32 ext (some r) f = x.put32 ext (some r) r.lane := by
        unfold Issue.put32
        simp [hS, hf]
      rw [hsame]
      exact (put32_result_of_noCC hwcc ext (some r) r.lane (by rintro _ ⟨⟩ l; rfl) hfull).congr_lanes (fun h => absurd (hS.symm.trans h) Bool.false_ne_true)
        (hsh r rfl)

/-! ## The lane that π sends to a lane -/

/-- The place of a value among the values of `f` is the least argument that has it. -/
theorem idxOf_map_range (f : Nat → Nat) (n j : Nat) :
    ((List.range n).map f).idxOf j = ((List.range n).find? (fun i => f i == j)).getD n := by
  have hidx : ((List.range n).map f).idxOf j = (List.range n).findIdx (fun i => f i == j) := List.findIdx_map ..
  rw [hidx]
  cases hfind : (List.range n).find? (fun i => f i == j) with
  | none =>
    rw [List.findIdx_eq_length_of_false fun i hi => by simpa using List.find?_eq_none.mp hfind i hi, List.length_range]
    rfl
  | some i =>
    obtain ⟨hi, hlt, hbelow⟩ := List.find?_range_eq_some.mp hfind
    have hlen : i < (List.range n).length := by simpa using hlt
    exact (List.findIdx_eq hlen).mpr ⟨by simpa using hi, fun k hk => by simpa using hbelow k hk⟩

/-- The lane that the settings send to lane `j` (R167, R177). -/
theorem invAt_perm (p : PReg) (j : Nat) : invAt p.perm j =
    if j < 2 ^ p.nlog then ((List.range (2 ^ p.nlog)).find? (fun i => p.at_ i == j)).getD (2 ^ p.nlog) else j := by
  have hlen : p.perm.length = 2 ^ p.nlog := by simp [PReg.perm]
  have hperm : p.perm = (List.range (2 ^ p.nlog)).map p.at_ :=
    List.map_congr_left fun i hi => (if_pos (List.mem_range.mp hi)).symm
  rw [invAt, hlen, hperm, idxOf_map_range]

/-! ## The obligation -/

/-- The shape of PAPPLY's result: UNI for a uniform x, where every active lane has an active source (R143, R177). -/
def papplyShape (x : Issue) : Option VReg :=
  if x.opX.lo.isUni && (Mask.lanes x.act).all (fun j => Mask.has x.act (invAt (readP x (zOf x)).perm j)) then some (.uni (x.opX.at32 0)) else none

/-- PAPPLY is a late outcome of its row, once the register that it reads holds at most 64 elements and no PIDN of it is due. -/
theorem oPapply_eq {x : Issue} {a : RArgs} (ha : x.a = .r a) (hok : (papplyRow x).ok = true) :
    oPapply x = lateOut x 1 [x.opX] { writes := x.put32 .z (papplyShape x) (papplyRow x).val } := by
  have hz : zOf x = x.a.z.toNat := by rw [zOf, ha]; rfl
  obtain ⟨hsize, hdue⟩ : (readP x x.a.z.toNat).nlog ≤ 6 ∧ pidnDue x x.a.z.toNat = false := by simpa [papplyRow] using hok
  rw [← hz] at hsize hdue
  have hval : (papplyRow x).val = fun j => if Mask.has x.act (invAt (readP x (zOf x)).perm j) then x.opX.at32 (invAt (readP x (zOf x)).perm j)
      else (x.g.vreg x.fd.toNat).lane j := by
    funext j
    rw [invAt_perm, hz]
    rfl
  rw [hval]
  unfold oPapply papplyShape
  simp only [hdue, if_neg (not_lt.mpr hsize), Bool.false_eq_true, if_false]

/-- Where PAPPLY's result is UNI, every active lane takes the one value of x. -/
theorem papplyShape_lane {x : Issue} {r : VReg} (hz : zOf x = x.a.z.toNat) (h : papplyShape x = some r) {l : Nat} (hl : Mask.has x.act l = true) :
    r.lane l = (papplyRow x).val l := by
  unfold papplyShape at h
  split at h
  · next hshape =>
    cases h
    obtain ⟨huni, hall⟩ := Bool.and_eq_true_iff.mp hshape
    have hsrc := List.all_eq_true.mp hall l (Mask.mem_lanes.mpr hl)
    rw [invAt_perm, hz] at hsrc
    have hsame : ∀ k, x.opX.at32 k = x.opX.at32 0 := by
      intro k
      unfold Opr.at32
      cases hlo : x.opX.lo with
      | uni b => rfl
      | aff b t => simp [hlo, VReg.isUni] at huni
      | gen ls => simp [hlo, VReg.isUni] at huni
    exact ((if_pos hsrc).trans (hsame _)).symm
  · cases h

/-- Settles O20: PAPPLY's outcome is its row, in a shape that has the values of the active lanes, and the pipeline promises it. -/
theorem permutationApplies : Obligations.PermutationApplies := by
  unfold Obligations.PermutationApplies
  intro a s x prio k hwf h hk hok hr hfree _
  obtain rfl : papplyRow x = k := Option.some.inj hk
  have ha : x.a = .r a := State.position_args h.pos
  have hwcc : x.a.wcc = false := by rw [State.position_args h.pos]; exact wcc_eq_false hwf rfl rfl
  have hz : zOf x = x.a.z.toNat := by rw [zOf, ha]; rfl
  have hout := oPapply_eq ha hok
  obtain ⟨t, p, hrun, hprom, hwrites, hflags⟩ := runIssue_lateOut h 1 [x.opX] _ (fun _ => 0) false hout hr hfree (put32_dst x _ _ _)
    (fpxCauses_of_noTrap (by rw [hout]; exact noTrap_zero x))
  have hres := put32_result_of_active hwcc .z (papplyShape x) (papplyRow x).val (fun r hr l hl => papplyShape_lane hz hr hl) (position_full h.pos)
  rw [← hwrites] at hres
  exact ⟨t, p, hrun, hprom, hflags, hres⟩

end Sys2Proof.Machine
end

section
/-! Instructions that wait at their place (R129, R156, R161, R256): what a held outcome makes of the machine, and the fields of their words. -/

namespace Sys2Proof.Machine
open Sys2Proof.Rules

/-! ## M of an R-format word -/

section
variable {x : Issue} {a : RArgs} (ha : x.a = .r a)
include ha

theorem Issue.m_eq_m5 : x.m = a.m5 := by rw [Issue.m, ha]

theorem Issue.m_toNat_mod : x.m.toNat = a.m.toNat % 64 := by
  rw [Issue.m_eq_m5 ha, RArgs.m5, BitVec.extractLsb'_toNat]
  rfl

/-- The number of a barrier, M[3:0] (R156). -/
theorem Issue.m_low_eq : x.m.toNat % 16 = a.m.toNat % 16 := by
  rw [Issue.m_toNat_mod ha]
  omega

theorem Issue.mb_eq_getLsbD {b : Nat} (hb : b < 6) : x.mb b = a.m.getLsbD b := by
  rw [Issue.mb, Issue.m_eq_m5 ha, RArgs.m5, BitVec.getLsbD_extractLsb']
  simp [hb]

/-- Without a rounding mode M is its low six bits (R61). -/
theorem Issue.m_toNat_eq (hrmo : a.rmo = 0#3) : x.m.toNat = a.m.toNat := by
  rw [Issue.m_toNat_mod ha]
  have hhigh : a.m.toNat / 64 % 8 = 0 := by
    have := congrArg BitVec.toNat hrmo
    rwa [RArgs.rmo, BitVec.extractLsb'_toNat, Nat.shiftRight_eq_div_pow] at this
  have := a.m.isLt
  omega
end

/-- A word whose entry has no rounding mode names none (R61, R145). -/
theorem rmo_eq_zero {i : Instr} {a : RArgs} (hwf : WellFormed i) (ha : args i = .r a) (hn : (info i).rnd = false) : a.rmo = 0#3 := by
  have hwf : i.wf = true := hwf
  simp only [Instr.wf, ha, wfR, hn, Bool.false_and, Bool.or_false, Bool.and_eq_true, beq_iff_eq] at hwf
  obtain ⟨-, ⟨⟨⟨-, hrmo⟩, -⟩, -⟩⟩ := hwf
  exact hrmo

/-! ## Outcomes that do nothing, and that hold their warp -/

theorem free_nil (x : Issue) : Free x [] := ⟨by simp, .inl rfl⟩

section
variable {s : State} {i : Instr} {x : Issue} {prio : BitVec 8} {f : Issue → Out}

/-- An instruction without an effect goes on. -/
theorem runIssue_nothing (h : Issues s i x prio) (hf : f x = {}) : ∃ t, runIssue s i f = .next t ∧ Commits x prio s t x.g :=
  runIssue_setsGroup h hf (free_nil x) (fun g => g) (fun _ => rfl) (fun _ => rfl) fun s => (State.setGroup_id s _).symm

/-- An instruction that reads its sources and does nothing else goes on. -/
theorem runIssue_readsOnly (h : Issues s i x prio) {srcs : List Opr} (hf : f x = Out.ofSrcs x srcs {}) (hr : Readable srcs) :
    ∃ t, runIssue s i f = .next t ∧ Commits x prio (x.read srcs s) t (read x srcs) :=
  runIssue_writesOnly h hf hr (free_nil x) (by simp) (by simp)

/-- The warp that waits, from instant `now` on where it did not wait before. -/
def Warp.waitsAt (wt : Wait) (now : Nat) (w : Warp) : Warp := { w.waitOn wt now with pass := 0, arrived := false, released := false }

/-- An instruction that is held at its place leaves the machine, but for the WOB of its sources and its warp's wait. -/
theorem runIssue_holdAt (h : Issues s i x prio) {srcs : List Opr} {wt : Wait} (hf : f x = Out.ofSrcs x srcs (holdAt x wt)) (hr : Readable srcs) :
    ∃ t, runIssue s i f = .next t ∧ Waits x srcs wt (x.read srcs s) t := by
  have ho := hf.trans (Out.ofSrcs_readable hr (holdAt x wt) rfl rfl rfl)
  have hclean : Clean x (f x) := by
    rw [ho]
    exact ⟨rfl, rfl, rfl, lawar_nil (free_nil x) (by simp [holdAt]), regBudget_nil (free_nil x) (by simp [holdAt]), fpx_none x _ rfl⟩
  have hfsr : (f x).fsr x = wobFlag srcs := by
    rw [ho, ← fsrGain_zero x srcs]
    rfl
  have hcommit : commitOut x prio (f x) = ((x.read srcs s).setGroup x.g.gid (fun g => g.commit x.act (wobFlag srcs) [])).setWarp x.g.gid x.w.wid
      (Warp.waitsAt wt (x.read srcs s).bw) := by
    rw [← hfsr, ← State.position_s h.pos, ho]
    rfl
  have hgroup : ((x.read srcs s).setGroup x.g.gid (fun g => g.commit x.act (wobFlag srcs) [])).group x.g.gid =
      some (x.g.commit x.act (wobFlag srcs) []) := by
    rw [State.group_setGroup_self _ _ _ (by simp), Issue.read, readVas_group, State.position_group h.pos]
    rfl
  refine ⟨_, runIssue_commit h hclean, ?_⟩
  rw [hcommit, State.setWarp_eq]
  refine ⟨rfl, fun k hk => ?_, ?_⟩
  · exact (State.group_setGroup_ne (f := fun g => g.setWarp x.w.wid _) _ _ _ (fun _ => rfl) hk).trans (State.group_setGroup_ne _ _ _ _ (by simp) hk)
  · refine ⟨(x.g.commit x.act (wobFlag srcs) []).setWarp x.w.wid (Warp.waitsAt wt (x.read srcs s).bw), x.w.waitsAt wt (x.read srcs s).bw, ?_, ?_, ?_, rfl, rfl, rfl, rfl⟩
    · exact (State.group_setGroup_self (f := fun g => g.setWarp x.w.wid _) _ _ (fun _ => rfl)).trans (by rw [hgroup]; rfl)
    · rw [commit_eq_with_commits]
      rfl
    · exact (find_updWhere_self Warp.wid x.w.wid (Warp.waitsAt wt _) (fun _ => rfl) _).trans
        (congrArg (Option.map _) ((congrArg (List.find? _) (Group.commit_warps ..)).trans (State.position_warp h.pos)))

/-- An instruction that holds its warp back and cuts no window leaves the machine. -/
theorem runIssue_holds (h : Issues s i x prio) (hold : (f x).hold = true) (hcut : ∀ p, (f x).cut p = false) : runIssue s i f = .next s := by
  rw [runIssue_hold h hold, State.position_s h.pos]
  have hsame : (fun w : Warp => { w with pend := w.pend.map (fun q => if (f x).cut q then { q with left := 0, rep := false } else q) }) = fun w => w := by
    funext w
    simp [hcut]
  rw [cutWindows, hsame, State.setWarp_eq]
  simp [Group.setWarp, updWhere, State.setGroup]

/-- A field read that waits for nothing cuts no window (R37, R71). -/
theorem readField_cut {size : Nat} {fld : BitVec 9} (h : (readField x size fld).wait = false) : (readField x size fld).cut = 0 := by
  have hk (n : Nat) : (readK x n size).cut = 0 := by
    unfold readK
    extract_lets w
    split_ifs
    · rfl
    · rfl
    · rfl
  unfold readField at h ⊢
  split_ifs at h ⊢ with hV hsize hS hK hspec hlane hill hwait
  · rfl
  · rfl
  · rfl
  · exact hk _
  · rfl
  · rfl
  · exact absurd (hwait.symm.trans h) Bool.noConfusion
  · rfl
  · rfl
end

end Sys2Proof.Machine
end

section
/-! What an arrival waits for (R158, R162, R257, R335): the model's tests, as the rules say them. -/

namespace Sys2Proof.Machine
open Sys2Proof.Rules

/-- The instructions that write a P register (R171). -/
theorem CrookOp.writesP_iff {o : CrookOp} : o.writesP = true ↔ o.kind ∈ [.pldi, .plds, .pcomp, .pinv, .prand, .pidn] := by
  unfold CrookOp.writesP
  cases o.kind <;> decide

theorem permBusy_iff {s : State} {g : Group} {upto : Nat} : permBusy s g upto = true ↔ PermWaits s g upto := by
  unfold permBusy PermWaits
  simp only [List.any_eq_true, Bool.and_eq_true, beq_iff_eq, decide_eq_true_eq, CrookOp.writesP_iff]
  exact exists_congr fun o => and_congr_right fun _ => ⟨fun ⟨⟨hkind, hgid⟩, hrid⟩ => ⟨hgid, hrid, hkind⟩, fun ⟨hgid, hrid, hkind⟩ => ⟨⟨hkind, hgid⟩, hrid⟩⟩

/-- With `only`, the scratchpad of that team counts, and without it every one. -/
theorem scratchBusy_iff {s : State} {g : Group} {upto : Nat} {only : Option Nat} :
    scratchBusy s g upto only = true ↔ ScratchWaits s g upto (fun n => ∀ t, only = some t → n = t) := by
  unfold scratchBusy ScratchWaits
  simp only [List.any_eq_true, Bool.and_eq_true, beq_iff_eq, decide_eq_true_eq, Bool.not_eq_true', and_assoc]
  refine exists_congr fun r => and_congr_right fun _ => and_congr_right fun _ => and_congr_right fun _ => and_congr_right fun _ =>
    exists_congr fun p => and_congr_right fun _ => and_congr_right fun _ => ?_
  cases only with
  | none => simp
  | some t => simp

theorem scratchBusy_any {s : State} {g : Group} {upto : Nat} : scratchBusy s g upto none = true ↔ ScratchWaits s g upto (fun _ => True) := by
  simp [scratchBusy_iff]

theorem scratchBusy_team {s : State} {g : Group} {upto tid : Nat} : scratchBusy s g upto (some tid) = true ↔ ScratchWaits s g upto (· = tid) := by
  simp [scratchBusy_iff]

/-- A ring arrival waits for scratchpad accesses and writes to P registers (R162, R335). -/
theorem ringBusy_iff {s : State} {g : Group} {upto : Nat} : ringBusy s g upto = true ↔ RingWaits s g upto := by
  rw [ringBusy, Bool.or_eq_true, permBusy_iff, scratchBusy_any, RingWaits]

theorem ringBusy_eq_false {s : State} {g : Group} {upto : Nat} (h : ¬ RingWaits s g upto) : ringBusy s g upto = false :=
  Bool.eq_false_iff.mpr fun hbusy => h (ringBusy_iff.mp hbusy)

/-- An arrival at a BAR waits for its team's scratchpad and writes to P registers (R158, R335). -/
theorem barBusy_bar_iff {s : State} {g : Group} {b n : Nat} {f : Bool} : barBusy s g (.bar b n f) = true ↔ BarWaits s g := by
  rw [BarWaits, ← permBusy_iff, ← scratchBusy_team, ← Bool.or_eq_true]
  rfl

/-- An arrival at a CBAR waits for any scratchpad (R257). -/
theorem barBusy_cbar_iff {s : State} {g : Group} {b n : Nat} {f : Bool} : barBusy s g (.cbar b n f) = true ↔ ScratchWaits s g s.nextId (fun _ => True) :=
  scratchBusy_any

end Sys2Proof.Machine
end

section
/-! Team and cluster barriers (O15): BAR and CBAR wait (R156, R256), their arrivals are counted (R157), and releases wake their warps. -/

namespace Sys2Proof.Machine
open Sys2Proof.Rules

/-! ## BAR and CBAR -/

section
variable {s : State} {i : Instr} {x : Issue} {prio : BitVec 8}

/-- Where BAR may issue, its warp waits at its barrier (R156). -/
theorem oBar_eq {a : RArgs} (ha : x.a = .r a) (hrel : x.w.released = false) (huni : UniOk x x.opX) (hn : uni32 x.opX ≤ x.tm.ngrp) :
    oBar x = Out.ofSrcs x [x.opX] (holdAt x (.bar (a.m.toNat % 16) (uni32 x.opX) (a.m.getLsbD 4))) := by
  have hcount : ¬ x.tm.ngrp < (x.opX.at32 0).toNat := Nat.not_lt.mpr hn
  rw [← Issue.m_low_eq ha, ← Issue.mb_eq_getLsbD ha (show 4 < 6 by decide)]
  simp only [oBar, hrel, needUni_nil huni, hcount, Bool.false_eq_true, if_false, decide_false, List.append_nil]
  rfl

/-- Where CBAR may issue, its warp waits at its barrier (R256). -/
theorem oCbar_eq {a : RArgs} (ha : x.a = .r a) (hrel : x.w.released = false) (huni : UniOk x x.opX) (hlow : 1 ≤ uni32 x.opX) (hhigh : uni32 x.opX ≤ 4096) :
    oCbar x = Out.ofSrcs x [x.opX] (holdAt x (.cbar (a.m.toNat % 16) (uni32 x.opX) (a.m.getLsbD 4))) := by
  have hfew : ¬ (x.opX.at32 0).toNat < 1 := Nat.not_lt.mpr hlow
  have hmany : ¬ 4096 < (x.opX.at32 0).toNat := Nat.not_lt.mpr hhigh
  rw [← Issue.m_low_eq ha, ← Issue.mb_eq_getLsbD ha (show 4 < 6 by decide)]
  simp only [oCbar, hrel, needUni_nil huni, hfew, hmany, Bool.false_eq_true, if_false, decide_false, Bool.or_false, List.append_nil]
  rfl
end

/-- The first part of O15 (R156). -/
theorem bars (a : RArgs) : Bars a := by
  intro s x prio hwf h
  have ha : x.a = .r a := State.position_args h.pos
  exact ⟨fun hrel => runIssue_nothing h (if_pos hrel), fun hrel hr huni hn => runIssue_holdAt h (oBar_eq ha hrel huni hn) hr⟩

/-- The second part of O15 (R256). -/
theorem cbars (a : RArgs) : Cbars a := by
  intro s x prio hwf h
  have ha : x.a = .r a := State.position_args h.pos
  exact ⟨fun hrel => runIssue_nothing h (if_pos hrel), fun hrel hr huni hlow hhigh => runIssue_holdAt h (oCbar_eq ha hrel huni hlow hhigh) hr⟩

/-! ## Warps that gather -/

section
variable {s : State} {gid : Nat} {g : Group} {w : Warp} {pc : DWord} {wt : Wait} {p : Wait → Prop}

/-- Where the warps have gathered, the first stands at one entry, and every lane stands at its PC. -/
theorem Gathered.entry (h : Gathered s g w pc wt p) : ∃ ws e, g.warps = w :: ws ∧ w.entries = [e] ∧ e.pc = pc := by
  obtain ⟨hfirst, -⟩ := h.head
  obtain ⟨ws, hws⟩ := List.head?_eq_some_iff.mp hfirst
  obtain ⟨-, ⟨e, he, hpc, -⟩, -⟩ := h.all w (hws ▸ List.mem_cons_self)
  exact ⟨ws, e, hws, he, hpc⟩

/-- Each warp stands, not parked, at one entry of that PC. -/
theorem Gathered.stands {q : Warp} (h : Gathered s g w pc wt p) (hq : q ∈ g.warps) :
    (!q.parked && q.entries.length == 1 && (q.first.map (fun e => e.pc)) == some pc) = true ∧ p q.wait := by
  obtain ⟨hpark, ⟨e, he, hpc, -⟩, hwait⟩ := h.all q hq
  exact ⟨by simp [hpark, he, Warp.first, hpc], hwait⟩

section
variable {b n : Nat} {f : Bool} {e : Entry} (he : w.entries = [e]) (hpc : e.pc = pc)
include he hpc

theorem Gathered.gather_bar (h : Gathered s g w pc (.bar b n f) (fun v => ∃ m, v = .bar b m f)) : gather g = some (w, e, .bar b n f) := by
  obtain ⟨hfirst, hwait⟩ := h.head
  obtain ⟨ws, hws⟩ := List.head?_eq_some_iff.mp hfirst
  unfold gather
  rw [hws]
  simp only [he, hwait]
  refine if_pos (List.all_eq_true.mpr fun q hq => ?_)
  obtain ⟨hstands, m, hm⟩ := Gathered.stands h (hws ▸ hq)
  rw [hpc, hstands, hm]
  simp

theorem Gathered.gather_cbar (h : Gathered s g w pc (.cbar b n f) (fun v => ∃ m, v = .cbar b m f)) : gather g = some (w, e, .cbar b n f) := by
  obtain ⟨hfirst, hwait⟩ := h.head
  obtain ⟨ws, hws⟩ := List.head?_eq_some_iff.mp hfirst
  unfold gather
  rw [hws]
  simp only [he, hwait]
  refine if_pos (List.all_eq_true.mpr fun q hq => ?_)
  obtain ⟨hstands, m, hm⟩ := Gathered.stands h (hws ▸ hq)
  rw [hpc, hstands, hm]
  simp
end

/-- Of a gathered group only what its wait waits for holds the arrival back. -/
theorem Gathered.arrivesNow (h : Gathered s g w pc wt p) : arrivesNow s g w wt = !barBusy s g wt := by
  obtain ⟨hopen, hnew, hfence, hteam⟩ := h.open_
  rw [Machine.arrivesNow, hopen, hnew, hfence, hteam]
  rfl

/-! ## The one warp -/

/-- The warp that a group's warps become at their barrier (R156): that of `w`, with every lane at entry `e`. -/
def Group.gathered (g : Group) (w : Warp) (e : Entry) (wt : Wait) : Warp :=
  { mergeWarps g.warps w.wid e with wait := wt, pass := w.pass, waitAt := some (g.warps.foldl (fun m q => max m (q.waitAt.getD 0)) 0) }

/-- A group whose warps are the one `q`. -/
def Group.asWarp (g : Group) (q : Warp) : Group := { g with warps := [q] }

/-- The machine in which the warps of group `gid` are the one `q`. -/
def State.gatherTo (s : State) (gid : Nat) (q : Warp) : State := s.setGroup gid (fun g => g.asWarp q)

theorem State.gatherTo_group (q : Warp) (hg : s.group gid = some g) : (s.gatherTo gid q).group gid = some (g.asWarp q) :=
  (State.group_setGroup_self (f := fun g => g.asWarp q) s gid fun _ => rfl).trans (congrArg (Option.map _) hg)

/-- What becomes of the one warp. -/
theorem State.gatherTo_setWarp (q : Warp) (f : Warp → Warp) (hg : s.group gid = some g) :
    ((s.gatherTo gid q).setWarp gid q.wid f).group gid = some (g.asWarp (f q)) := by
  rw [State.setWarp_eq]
  refine (State.group_setGroup_self (f := fun g => g.setWarp q.wid f) _ gid fun g => Group.setWarp_gid g q.wid f).trans ?_
  rw [State.gatherTo_group q hg]
  simp [Group.asWarp, Group.setWarp, updWhere]

/-- The one warp holds every lane of the warps that gathered. -/
theorem Gathered.merged {h : Group} {q : Warp} {e : Entry} (hgat : Gathered s g w pc wt p) (hpc : e.pc = pc) (hwarps : h.warps = [q]) (hwid : q.wid = w.wid)
    (hentries : q.entries = (mergeWarps g.warps w.wid e).entries) : Merged g h w q pc := by
  refine ⟨hwarps, hwid, ?_⟩
  rintro l ⟨r, hr, d, hd, hl⟩
  obtain ⟨-, ⟨c, hc, -, -⟩, -⟩ := hgat.all r hr
  obtain rfl : d = c := List.mem_singleton.mp (hc ▸ hd)
  have hlane : Mask.has (g.warps.foldl firstMask 0) l = true := has_foldl_firstMask hr (by rw [Warp.first, hc]; rfl) hl 0
  obtain ⟨a, ha, hal, hapc, -⟩ := stands_sortEntries (e := { e with mask := g.warps.foldl firstMask 0 }) hlane (g.warps.flatMap (fun w => w.entries.drop 1))
  exact ⟨a, by rw [hentries, mergeWarps_entries]; exact ha, hapc.trans hpc, hal⟩

/-! ## BARRIER_ARRIVAL -/

/-- An arrival that must wait. -/
theorem exec_barrierArrival_waits {e : Entry} (hg : s.group gid = some g) (hgather : gather g = some (w, e, wt)) (hnow : Machine.arrivesNow s g w wt = false) :
    exec (.barrierArrival gid) s = .next s := by
  change execBarrierArrival gid s = _
  simp only [execBarrierArrival, hg, hgather, hnow, Bool.not_false, if_true]

/-- The lanes that stand at the barrier. -/
def Group.gatheredEntry (g : Group) (e : Entry) : Entry := { e with mask := g.warps.foldl (fun m q => m ||| q.lanes) 0 }

/-- An arrival without FENCE, or past its fence. -/
theorem fence_passed {f : Bool} (h : f = false ∨ w.pass = 2) : (f && w.pass != 2) = false := by
  rcases h with rfl | h
  · rfl
  · simp [h]

section
variable {e : Entry} {b n : Nat} {f : Bool} (hg : s.group gid = some g)
include hg

/-- With FENCE a fence of scope team begins first (R157, R225). -/
theorem exec_barrierArrival_fences (hgather : gather g = some (w, e, .bar b n true)) (hnow : Machine.arrivesNow s g w (.bar b n true) = true) (hpass : w.pass ≠ 2) :
    exec (.barrierArrival gid) s = .next ((s.gatherTo gid (g.gathered w e (.bar b n true))).setWarp gid w.wid
      (fun w => { w with pass := 1, fence := some { scope := 1, upto := s.nextId } })) := by
  change execBarrierArrival gid s = _
  simp only [execBarrierArrival, hg, hgather, hnow, Bool.not_true, Bool.false_eq_true, if_false]
  exact if_pos (by simpa using hpass)

theorem exec_barrierArrival_bar (hgather : gather g = some (w, e, .bar b n f)) (hnow : Machine.arrivesNow s g w (.bar b n f) = true) (hpass : f = false ∨ w.pass = 2) :
    exec (.barrierArrival gid) s = .next (arriveBar (s.gatherTo gid (g.gathered w e (.bar b n f))) (g.asWarp (g.gathered w e (.bar b n f)))
      (g.gathered w e (.bar b n f)) (g.gatheredEntry e) b n) := by
  have hgroup := State.gatherTo_group (g.gathered w e (.bar b n f)) hg
  have hready := fence_passed hpass
  simp only [State.gatherTo, Group.asWarp, Group.gathered] at hgroup
  change execBarrierArrival gid s = _
  simp only [execBarrierArrival, hg, hgather, hnow, Bool.not_true, Bool.false_eq_true, if_false, hready, hgroup]
  rfl

theorem exec_barrierArrival_cbar (hgather : gather g = some (w, e, .cbar b n f)) (hnow : Machine.arrivesNow s g w (.cbar b n f) = true) (hpass : f = false ∨ w.pass = 2) :
    exec (.barrierArrival gid) s = .next (arriveCbar (s.gatherTo gid (g.gathered w e (.cbar b n f))) (g.asWarp (g.gathered w e (.cbar b n f)))
      (g.gathered w e (.cbar b n f)) (g.gatheredEntry e) b n) := by
  have hgroup := State.gatherTo_group (g.gathered w e (.cbar b n f)) hg
  have hready := fence_passed hpass
  simp only [State.gatherTo, Group.asWarp, Group.gathered] at hgroup
  change execBarrierArrival gid s = _
  simp only [execBarrierArrival, hg, hgather, hnow, Bool.not_true, Bool.false_eq_true, if_false, hready, hgroup]
  rfl
end
end

/-! ## Arrivals that count -/

section
variable {s : State} {gid : Nat} {g : Group} {w : Warp} {e : Entry} {b n : Nat}

/-- A barrier after an arrival of group index `i` with count `n` (R157): the first one sets what it expects. -/
def Barrier.arrive (k : Barrier) (i n live : Nat) : Barrier :=
  if k.cnt = 0 then { k with all := n == 0, exp := if n = 0 then live else n, cnt := 1, arrived := k.arrived ||| (1#32 <<< i) }
  else { k with cnt := k.cnt + 1, arrived := k.arrived ||| (1#32 <<< i) }

theorem Barrier.arrive_spec (k : Barrier) (i n live : Nat) : (k.arrive i n live).cnt = k.cnt + 1 ∧ (k.arrive i n live).gen = k.gen ∧
    (k.arrive i n live).arrived = k.arrived ||| (1#32 <<< i) ∧
    (k.cnt = 0 → (k.arrive i n live).all = (n == 0) ∧ (k.arrive i n live).exp = if n = 0 then live else n) := by
  by_cases h : k.cnt = 0
  · rw [Barrier.arrive, if_pos h]
    exact ⟨by rw [h], rfl, rfl, fun _ => ⟨rfl, rfl⟩⟩
  · rw [Barrier.arrive, if_neg h]
    exact ⟨rfl, rfl, rfl, fun h0 => absurd h0 h⟩

/-- Barrier b of a team, set. -/
def State.setBarrier (s : State) (tid b : Nat) (v : Barrier) : State := s.setTeam tid (fun t => { t with barriers := Amap.set {} t.barriers b v })

theorem State.setBarrier_barOf (s : State) {tid : Nat} (b : Nat) (v : Barrier) (h : HasTeam s tid) (c : Nat) :
    barOf (s.setBarrier tid b v) tid c = if c = b then v else barOf s tid c := by
  have hteam := State.setTeam_team s tid (fun t => { t with barriers := Amap.set {} t.barriers b v }) (fun _ ht => ht) h tid
  rw [barOf, State.setBarrier, hteam, if_pos rfl]
  exact Amap.get_set ..

/-- An arrival whose count agrees with the first one's (R157). -/
theorem arriveBar_eq (h : (barOf s g.team b).cnt = 0 ∨ (if (barOf s g.team b).all then n = 0 else n = (barOf s g.team b).exp)) : arriveBar s g w e b n =
    (s.setBarrier g.team b ((barOf s g.team b).arrive g.index n (s.openGroups g.team))).setWarp g.gid w.wid (fun w => { w with arrived := true }) := by
  unfold arriveBar
  extract_lets k new
  have hk : k = barOf s g.team b := rfl
  have hnew : new = some (k.arrive g.index n (s.openGroups g.team)) := by
    unfold new Barrier.arrive
    by_cases h0 : k.cnt = 0
    · rw [if_pos h0, if_pos h0]
    · rw [if_neg h0, if_neg h0]
      refine if_pos ?_
      have hagrees := h.resolve_left (hk ▸ h0)
      rw [← hk] at hagrees
      split_ifs at hagrees ⊢
      · exact beq_iff_eq.mpr hagrees
      · exact beq_iff_eq.mpr hagrees
  rw [hnew, hk]
  rfl

/-- An arrival at a cluster barrier that no other count contradicts (R256). -/
theorem arriveCbar_eq (h : ((s.cluster (clusterOf g.core)).cbar g.ctx b).1.cnt = 0 ∨ ((s.cluster (clusterOf g.core)).cbar g.ctx b).1.exp = n) :
    arriveCbar s g w e b n =
    let old := (s.cluster (clusterOf g.core)).cbar g.ctx b
    let u := s.setWarp g.gid w.wid (fun w => { w with arrived := true })
    if n ≤ old.1.cnt + 1 then u.setCluster (clusterOf g.core) (fun c =>
        { c.setCbar g.ctx b ({ gen := (old.1.gen + 1) % 256 }, []) with relAt := c.relAt ++ (old.2 ++ [g.gid]).map (fun i => (i, c.fclk + 4)) })
    else u.setCluster (clusterOf g.core) (fun c => c.setCbar g.ctx b ({ old.1 with exp := n, cnt := old.1.cnt + 1 }, old.2 ++ [g.gid])) := by
  unfold arriveCbar
  extract_lets k c st cnt ids u
  exact if_neg fun hbad => h.elim hbad.1 hbad.2

@[simp] theorem Cluster.cbar_setCbar (c : Cluster) (ctx b : Nat) (v : Barrier × List Nat) : (c.setCbar ctx b v).cbar ctx b = v := by
  simp [Cluster.cbar, Cluster.setCbar]

/-- The groups of a team that have not ended, whatever becomes of one group's warps. -/
theorem State.gatherTo_openGroups (s : State) (gid : Nat) (q : Warp) (tid : Nat) :
    (s.gatherTo gid q).openGroups tid = ((s.groups.filter (fun q => q.team == tid)).filter (fun q => q.st != .ended)).length := by
  unfold State.openGroups State.groupsOf State.gatherTo State.setGroup updWhere
  rw [List.filter_map, List.filter_map, List.length_map, List.filter_filter, List.filter_filter]
  congr 2
  funext g
  simp only [Function.comp_apply]
  split
  · rfl
  · rfl

/-- A BAR arrival of a group that has gathered as warp `q`. -/
theorem arriveBar_gathered {q : Warp} (hg : s.group g.gid = some g) (hteam : HasTeam s g.team)
    (h : (barOf s g.team b).cnt = 0 ∨ (if (barOf s g.team b).all then n = 0 else n = (barOf s g.team b).exp)) :
    (arriveBar (s.gatherTo g.gid q) (g.asWarp q) q e b n).group g.gid = some (g.asWarp { q with arrived := true }) ∧
    barOf (arriveBar (s.gatherTo g.gid q) (g.asWarp q) q e b n) g.team b =
      (barOf s g.team b).arrive g.index n ((s.groups.filter (fun q => q.team == g.team)).filter (fun q => q.st != .ended)).length := by
  rw [arriveBar_eq (s := s.gatherTo g.gid q) (g := (g.asWarp q)) h]
  refine ⟨State.gatherTo_setWarp q (fun w => { w with arrived := true }) hg, ?_⟩
  rw [← State.gatherTo_openGroups s g.gid q]
  exact (State.setBarrier_barOf (s.gatherTo g.gid q) (tid := g.team) b _ hteam b).trans (if_pos rfl)

/-- A CBAR arrival of a group that has gathered as warp `q`. -/
theorem arriveCbar_gathered {q : Warp} (hg : s.group g.gid = some g) (hcluster : clusterOf g.core < s.clusters.length)
    (h : ((s.cluster (clusterOf g.core)).cbar g.ctx b).1.cnt = 0 ∨ ((s.cluster (clusterOf g.core)).cbar g.ctx b).1.exp = n) :
    let old := (s.cluster (clusterOf g.core)).cbar g.ctx b
    let t := arriveCbar (s.gatherTo g.gid q) (g.asWarp q) q e b n
    let new := (t.cluster (clusterOf g.core)).cbar g.ctx b
    t.group g.gid = some (g.asWarp { q with arrived := true }) ∧
    if old.1.cnt + 1 < n then new.1.cnt = old.1.cnt + 1 ∧ new.1.exp = n ∧ new.2 = old.2 ++ [g.gid]
    else new.1.cnt = 0 ∧ new.1.gen = (old.1.gen + 1) % 256 ∧
      ∀ k ∈ old.2 ++ [g.gid], (k, (s.cluster (clusterOf g.core)).fclk + 4) ∈ (t.cluster (clusterOf g.core)).relAt := by
  intro old t new
  have ht : t = _ := arriveCbar_eq (s := s.gatherTo g.gid q) (g := g.asWarp q) h
  have hgroup := State.gatherTo_setWarp q (fun w => { w with arrived := true }) hg
  have hset (f : Cluster → Cluster) : (((s.gatherTo g.gid q).setWarp g.gid q.wid (fun w => { w with arrived := true })).setCluster (clusterOf g.core) f).cluster
      (clusterOf g.core) = f (s.cluster (clusterOf g.core)) := (State.setCluster_cluster ..).trans (if_pos ⟨rfl, hcluster⟩)
  by_cases hlast : n ≤ old.1.cnt + 1
  · replace ht := ht.trans (if_pos hlast)
    have hnew := (congrArg (fun t : State => t.cluster (clusterOf g.core)) ht).trans (hset _)
    have hval : new = ({ gen := (old.1.gen + 1) % 256 }, []) := (congrArg (fun c : Cluster => c.cbar g.ctx b) hnew).trans (Cluster.cbar_setCbar ..)
    refine ⟨ht ▸ hgroup, ?_⟩
    rw [if_neg (Nat.not_lt.mpr hlast), hval]
    refine ⟨rfl, rfl, fun k hk => ?_⟩
    rw [show (t.cluster (clusterOf g.core)).relAt = _ from congrArg Cluster.relAt hnew]
    exact List.mem_append_right _ (List.mem_map_of_mem hk)
  · replace ht := ht.trans (if_neg hlast)
    have hnew := (congrArg (fun t : State => t.cluster (clusterOf g.core)) ht).trans (hset _)
    have hval : new = ({ old.1 with exp := n, cnt := old.1.cnt + 1 }, old.2 ++ [g.gid]) :=
      (congrArg (fun c : Cluster => c.cbar g.ctx b) hnew).trans (Cluster.cbar_setCbar ..)
    refine ⟨ht ▸ hgroup, ?_⟩
    rw [if_pos (Nat.lt_of_not_le hlast), hval]
    exact ⟨rfl, rfl, rfl⟩
end

/-- The third part of O15 (R156, R157, R158, R256, R257, R335). -/
theorem arrives (gid : Nat) : Arrives gid := by
  intro s g w pc b n f hg hgid
  subst hgid
  refine ⟨fun h hbusy => ?_, fun h hfree => ?_, fun h hbusy => ?_, fun h hfree hpass hcluster => ?_⟩
  · obtain ⟨ws, e, -, he, hpc⟩ := Gathered.entry h
    exact exec_barrierArrival_waits hg (Gathered.gather_bar he hpc h) (by rw [Gathered.arrivesNow h, barBusy_bar_iff.mpr hbusy]; rfl)
  · obtain ⟨ws, e, -, he, hpc⟩ := Gathered.entry h
    have hnow : arrivesNow s g w (.bar b n f) = true := by
      rw [Gathered.arrivesNow h, Bool.eq_false_iff.mpr fun hbusy => hfree (barBusy_bar_iff.mp hbusy)]
      rfl
    refine ⟨fun hf hpass => ?_, fun hpass hteam hagrees => ?_⟩
    · subst hf
      exact ⟨_, _, _, exec_barrierArrival_fences hg (Gathered.gather_bar he hpc h) hnow hpass, State.gatherTo_setWarp (g.gathered w e (.bar b n true)) _ hg,
        Gathered.merged h hpc rfl rfl rfl, rfl, rfl, rfl⟩
    · obtain ⟨hgroup, hbar⟩ := arriveBar_gathered (q := g.gathered w e (.bar b n f)) (e := g.gatheredEntry e) hg hteam hagrees
      refine ⟨_, _, _, exec_barrierArrival_bar hg (Gathered.gather_bar he hpc h) hnow hpass, hgroup, Gathered.merged h hpc rfl rfl rfl, rfl, ?_⟩
      rw [hbar]
      exact Barrier.arrive_spec ..
  · obtain ⟨ws, e, -, he, hpc⟩ := Gathered.entry h
    exact exec_barrierArrival_waits hg (Gathered.gather_cbar he hpc h) (by rw [Gathered.arrivesNow h, barBusy_cbar_iff.mpr hbusy]; rfl)
  · obtain ⟨ws, e, -, he, hpc⟩ := Gathered.entry h
    have hnow : arrivesNow s g w (.cbar b n f) = true := by
      rw [Gathered.arrivesNow h, Bool.eq_false_iff.mpr fun hbusy => hfree (barBusy_cbar_iff.mp hbusy)]
      rfl
    intro old hagrees
    obtain ⟨hgroup, hcounts⟩ := arriveCbar_gathered (q := g.gathered w e (.cbar b n f)) (e := g.gatheredEntry e) hg hcluster hagrees
    exact ⟨_, _, _, exec_barrierArrival_cbar hg (Gathered.gather_cbar he hpc h) hnow hpass, hgroup, Gathered.merged h hpc rfl rfl rfl, rfl, hcounts⟩

/-! ## Releases -/

/-- A warp is in the machine, and is as `p` says. -/
def HoldsWarp (p : Warp → Prop) (t : State) (gid wid : Nat) : Prop := ∃ h q, t.group gid = some h ∧ h.warp wid = some q ∧ p q

/-- The warp after its release: it tests what it waits for no more (R129). -/
def Warp.free (w : Warp) : Warp := { w with wait := .none, released := true }

/-- What a release of a warp leaves of a group. -/
def Group.releases (g : Group) (wid now : Nat) : Group := (g.setWarp wid Warp.free).wake now

theorem Group.releases_gid (g : Group) (wid now : Nat) : (g.releases wid now).gid = g.gid := g.setWarp_gid wid Warp.free

theorem State.release_eq (s : State) (gid wid : Nat) : s.release gid wid = s.setGroup gid (fun g => g.releases wid s.bw) :=
  State.setGroup_setGroup s gid _ _ fun g => g.setWarp_gid wid _

/-- What becomes of a warp in a group where warp `wid` is released. -/
def Warp.releasedBy (wid : Nat) (w : Warp) : Warp := Warp.tested (if w.wid = wid then w.free else w)

theorem Group.releases_warp (g : Group) (wid now k : Nat) : (g.releases wid now).warp k = (g.warp k).map (Warp.releasedBy wid) := by
  have hwid (w : Warp) : (Warp.releasedBy wid w).wid = w.wid := by
    rw [Warp.releasedBy, Warp.tested_frame]
    split
    · rfl
    · rfl
  have hwarps : (g.releases wid now).warps = g.warps.map (Warp.releasedBy wid) := by
    rw [Group.releases, Group.wake_warps, Group.setWarp, updWhere, List.map_map]
    simp only [Function.comp_def, beq_iff_eq]
    rfl
  rw [Group.warp, hwarps]
  exact find?_map_of_key Warp.wid k (Warp.releasedBy wid) hwid g.warps

section
variable {p : Warp → Prop} {t : State} {gid wid : Nat}

/-- A release keeps what it cannot change of the warps. -/
theorem HoldsWarp.release (hp : ∀ k w, p w → p (Warp.releasedBy k w)) (h : HoldsWarp p t gid wid) (i k : Nat) : HoldsWarp p (t.release i k) gid wid := by
  obtain ⟨g, w, hg, hw, hpw⟩ := h
  rw [State.release_eq]
  by_cases hi : gid = i
  · subst hi
    exact ⟨_, _, (State.group_setGroup_self t gid _ fun g => g.releases_gid k t.bw).trans (congrArg (Option.map _) hg),
      (g.releases_warp k t.bw wid).trans (congrArg (Option.map _) hw), hp k w hpw⟩
  · exact ⟨g, w, (State.group_setGroup_ne t i gid _ (fun g => g.releases_gid k t.bw) hi).trans hg, hw, hpw⟩

/-- The warp that is released. -/
theorem HoldsWarp.released (h : HoldsWarp (fun _ => True) t gid wid) : Released (t.release gid wid) gid wid := by
  obtain ⟨g, w, hg, hw, -⟩ := h
  have hfree : Warp.releasedBy wid w = w.free := by
    rw [Warp.releasedBy, if_pos (Group.find_wid hw)]
    rfl
  rw [State.release_eq]
  exact ⟨_, _, (State.group_setGroup_self t gid _ fun g => g.releases_gid wid t.bw).trans (congrArg (Option.map _) hg),
    (g.releases_warp wid t.bw wid).trans (congrArg (Option.map _) hw), by rw [hfree]; rfl, by rw [hfree]; rfl⟩

/-- A warp that has been released stays so. -/
theorem released_release (h : Released t gid wid) (i k : Nat) : Released (t.release i k) gid wid := by
  refine HoldsWarp.release (p := fun q => q.wait = .none ∧ q.released = true) (fun k w => ?_) h i k
  rintro ⟨hwait, hrel⟩
  unfold Warp.releasedBy
  split
  · exact ⟨rfl, rfl⟩
  · rw [Warp.tested, hwait]
    exact ⟨hwait, hrel⟩

/-- Releases of warps one after the other: each keeps every warp, and what is released. -/
structure Releases (s t : State) : Prop where
  frame : t = { s with groups := t.groups }
  warps : ∀ gid wid, HoldsWarp (fun _ => True) s gid wid → HoldsWarp (fun _ => True) t gid wid
  released : ∀ gid wid, Released s gid wid → Released t gid wid

theorem Releases.refl (s : State) : Releases s s := ⟨rfl, fun _ _ h => h, fun _ _ h => h⟩

theorem Releases.trans {s t u : State} (a : Releases s t) (b : Releases t u) : Releases s u :=
  ⟨by rw [b.frame, a.frame], fun gid wid h => b.warps gid wid (a.warps gid wid h), fun gid wid h => b.released gid wid (a.released gid wid h)⟩

theorem releases_release (s : State) (i k : Nat) : Releases s (s.release i k) :=
  ⟨(State.release_woken s i k).frame, fun _ _ h => HoldsWarp.release (fun _ _ _ => trivial) h i k, fun _ _ h => released_release h i k⟩

/-- One of several releases releases its warp, and the others keep it so. -/
theorem Releases.foldl {α : Type} {f : State → α → State} (hf : ∀ s a, Releases s (f s a)) (l : List α) (s : State) : Releases s (l.foldl f s) :=
  List.foldlRecOn (motive := Releases s) l f (Releases.refl s) fun _ ht a _ => ht.trans (hf _ a)

theorem released_foldl {α : Type} {f : State → α → State} (hf : ∀ s a, Releases s (f s a)) {l : List α} {a : α} (ha : a ∈ l)
    (hrel : ∀ s, HoldsWarp (fun _ => True) s gid wid → Released (f s a) gid wid) (s : State) (h : HoldsWarp (fun _ => True) s gid wid) :
    Released (l.foldl f s) gid wid := by
  induction l generalizing s with
  | nil => exact absurd ha List.not_mem_nil
  | cons c r ih =>
    rw [List.foldl_cons]
    rcases List.mem_cons.mp ha with rfl | ha
    · exact (Releases.foldl hf r _).released gid wid (hrel s h)
    · exact ih ha _ ((hf s c).warps gid wid h)
end

/-! ## BARRIER_RELEASE and CBAR_RELEASE -/

/-- The release of a warp that has arrived at barrier `b` of its team. -/
def State.releaseAt (b gid : Nat) (s : State) (w : Warp) : State :=
  match w.wait with
  | .bar c _ _ => if c = b ∧ w.arrived then s.release gid w.wid else s
  | _ => s

theorem State.releaseAt_releases (b gid : Nat) (s : State) (w : Warp) : Releases s (s.releaseAt b gid w) := by
  unfold State.releaseAt
  split
  · split
    · exact releases_release s gid w.wid
    · exact Releases.refl s
  · exact Releases.refl s

theorem State.releaseAt_arrived {b gid n : Nat} {f : Bool} {w : Warp} (s : State) (hwait : w.wait = .bar b n f) (harr : w.arrived = true) :
    s.releaseAt b gid w = s.release gid w.wid := by
  rw [State.releaseAt, hwait]
  exact if_pos ⟨rfl, harr⟩

theorem exec_barrierRelease_waits {s : State} {team b : Nat} (h : (barOf s team b).full = false) : exec (.barrierRelease team b) s = .next s := by
  change execBarrierRelease team b s = _
  exact if_pos (by rw [show (Amap.get {} (s.team team).barriers b).full = false from h]; rfl)

theorem exec_barrierRelease_full {s : State} {team b : Nat} (h : (barOf s team b).full = true) : exec (.barrierRelease team b) s =
    .next (((s.groupsOf team).filter (fun g => (barOf s team b).arrived.getLsbD g.index)).foldl (fun s g => g.warps.foldl (State.releaseAt b g.gid) s)
      (s.setBarrier team b { gen := ((barOf s team b).gen + 1) % 256 })) := by
  change execBarrierRelease team b s = _
  exact if_neg (by rw [show (Amap.get {} (s.team team).barriers b).full = true from h]; decide)

/-- The fourth part of O15 (R157). -/
theorem barReleases (team b : Nat) : BarReleases team b := by
  intro s
  refine ⟨exec_barrierRelease_waits, fun hteam hfull => ⟨_, exec_barrierRelease_full hfull, ?_⟩⟩
  have hgroup (s : State) (g : Group) : Releases s (g.warps.foldl (State.releaseAt b g.gid) s) := Releases.foldl (State.releaseAt_releases b g.gid) g.warps s
  have hteams := congrArg State.teams (Releases.foldl hgroup ((s.groupsOf team).filter (fun g => (barOf s team b).arrived.getLsbD g.index))
    (s.setBarrier team b { gen := ((barOf s team b).gen + 1) % 256 })).frame
  have hbar (c : Nat) := State.setBarrier_barOf s b { gen := ((barOf s team b).gen + 1) % 256 } hteam c
  refine ⟨?_, fun c hc => ?_, fun gid wid g w n f hg hgid hof hmem hw hwid hwait harr => ?_⟩
  · rw [barOf, State.team, hteams]
    exact (hbar b).trans (if_pos rfl)
  · rw [barOf, State.team, hteams]
    exact (hbar c).trans (if_neg hc)
  · subst hgid hwid
    have hin : g ∈ (s.groupsOf team).filter (fun g => (barOf s team b).arrived.getLsbD g.index) :=
      List.mem_filter.mpr ⟨List.mem_filter.mpr ⟨List.mem_of_find?_eq_some hg, beq_iff_eq.mpr hof⟩, hmem⟩
    refine released_foldl hgroup hin (fun s h => ?_) _ ⟨g, w, hg, hw, trivial⟩
    refine released_foldl (State.releaseAt_releases b g.gid) (List.mem_of_find?_eq_some hw) (fun s h => ?_) s h
    rw [State.releaseAt_arrived s hwait harr]
    exact h.released

theorem exec_cbarRelease (s : State) (cluster ctx b : Nat) : exec (.cbarRelease cluster ctx b) s =
    .next ((s.groups.filter (fun g => g.ctx == ctx && cbarDue (s.cluster cluster) g (fun n => n == b))).foldl
      (fun s g => g.warps.foldl (fun s w => s.release g.gid w.wid) s)
      (s.setCluster cluster (fun c => { c with relAt := c.relAt.filter (fun p =>
        !(s.groups.filter (fun g => g.ctx == ctx && cbarDue (s.cluster cluster) g (fun n => n == b))).any (fun g => g.gid == p.1)) }))) := rfl

/-- A group whose release has come, with a warp that has arrived (R256). -/
theorem cbarDue_arrived {k : Cluster} {g : Group} {w : Warp} {at_ b n : Nat} {f : Bool} (hdue : (g.gid, at_) ∈ k.relAt) (hpast : at_ ≤ k.fclk) (hw : w ∈ g.warps)
    (hwait : w.wait = .cbar b n f) (harr : w.arrived = true) : cbarDue k g (fun n => n == b) = true := by
  rw [cbarDue, Bool.and_eq_true, List.any_eq_true, List.any_eq_true]
  exact ⟨⟨_, hdue, by simpa using hpast⟩, w, hw, by simp [hwait, harr]⟩

/-- The fifth part of O15 (R256). -/
theorem cbarReleases (cluster ctx b : Nat) : CbarReleases cluster ctx b := by
  intro s hcluster
  refine ⟨_, exec_cbarRelease s cluster ctx b, fun gid wid g w at_ n f hg hgid hctx hdue hpast hw hwid hmem hwait harr => ?_⟩
  subst hgid hwid
  have hrelease (g : Group) (s : State) (w : Warp) : Releases s (s.release g.gid w.wid) := releases_release s g.gid w.wid
  have hgroup (s : State) (g : Group) : Releases s (g.warps.foldl (fun s w => s.release g.gid w.wid) s) := Releases.foldl (hrelease g) g.warps s
  have hin : g ∈ s.groups.filter (fun g => g.ctx == ctx && cbarDue (s.cluster cluster) g (fun n => n == b)) :=
    List.mem_filter.mpr ⟨List.mem_of_find?_eq_some hg, by rw [cbarDue_arrived hdue hpast hmem hwait harr, hctx]; simp⟩
  constructor
  · exact released_foldl hgroup hin (fun s h => released_foldl (hrelease g) hmem (fun s h => h.released) s h) _ ⟨g, w, hg, hw, trivial⟩
  · intro hleft
    rw [State.cluster, congrArg State.clusters (Releases.foldl hgroup _ _).frame] at hleft
    change _ ∈ (State.cluster (s.setCluster cluster _) cluster).relAt at hleft
    rw [State.setCluster_cluster, if_pos ⟨rfl, hcluster⟩] at hleft
    have hno := (List.mem_filter.mp hleft).2
    rw [Bool.not_eq_true', List.any_eq_false] at hno
    exact hno g hin (beq_self_eq_true _)

/-- Settles O15: BAR and CBAR wait at their barriers (R156, R256), arrivals gather and count (R157, R158, R257, R335), and releases wake every warp
that has arrived. -/
theorem barriersComplete : Obligations.BarriersComplete := by
  unfold Obligations.BarriersComplete
  exact ⟨bars, cbars, arrives, barReleases, cbarReleases⟩

end Sys2Proof.Machine
end

section
/-! Stage rings (O16): arrivals at once and deferred (R160, R162, R335), and the wait for a phase (R161). -/

namespace Sys2Proof.Machine
open Sys2Proof.Rules

/-! ## Effects on teams -/

/-- An effect that changes teams only. -/
def TeamsOnly (eff : State → State) : Prop := ∀ s, eff s = { s with teams := (eff s).teams }

/-- An outcome that goes on to the next instruction commits its writes and flags, takes its effect, and advances the warp (R54). -/
theorem commitOut_advances (x : Issue) (prio : BitVec 8) {o : Out} (hd : o.dly = false) (hs : o.stay = false) (hc : o.ctl = none) (hgone : o.gone = false)
    (hpost : o.post = fun s => s) : ∃ ps, commitOut x prio o = advance x (o.eff (((readVas x.g.core x.g.ctx o.vas x.s).applyWs x.g.gid x.g.team o.writes).setGroup
      x.g.gid (fun g => g.commit x.act (o.fsr x) o.amax))) prio ps := by
  unfold commitOut
  simp only [hd, hs, hc, hgone, hpost, Bool.false_eq_true, if_false, false_and]
  exact ⟨_, rfl⟩

/-- An instruction that reads its sources and then changes teams. -/
theorem runIssue_teams {s : State} {i : Instr} {x : Issue} {prio : BitVec 8} {f : Issue → Out} (h : Issues s i x prio) {srcs : List Opr} {eff : State → State}
    (hf : f x = Out.ofSrcs x srcs { eff := eff }) (hr : Readable srcs) (heff : TeamsOnly eff) :
    ∃ t g, runIssue s i f = .next t ∧ t.group x.g.gid = some g ∧ SchedOnly (read x srcs) g ∧ Advanced x prio t ∧
      t.teams = (eff ((x.read srcs s).setGroup x.g.gid fun g => g.commit x.act (wobFlag srcs) [])).teams := by
  have ho := hf.trans (Out.ofSrcs_readable hr { eff := eff } rfl rfl rfl)
  have hclean : Clean x (f x) := by
    rw [ho]
    exact ⟨rfl, rfl, rfl, lawar_nil (free_nil x) (by simp), regBudget_nil (free_nil x) (by simp), fpx_none x _ rfl⟩
  have hfsr : (f x).fsr x = wobFlag srcs := by
    rw [ho, ← fsrGain_zero x srcs]
    rfl
  obtain ⟨u, hu⟩ : ∃ u, u = (x.read srcs s).setGroup x.g.gid fun g => g.commit x.act (wobFlag srcs) [] := ⟨_, rfl⟩
  obtain ⟨ps, hcommit⟩ : ∃ ps, commitOut x prio (f x) = advance x (eff u) prio ps := by
    obtain ⟨ps, hps⟩ := commitOut_advances x prio (o := f x) (by rw [ho]) (by rw [ho]) (by rw [ho]) (by rw [ho]) (by rw [ho])
    refine ⟨ps, hps.trans ?_⟩
    rw [hu, ← hfsr, ← State.position_s h.pos, ho]
    rfl
  have hgroup : (x.read srcs s).group x.g.gid = some x.g := (readVas_group ..).trans (State.position_group h.pos)
  have hcommitted : (eff u).group x.g.gid = some (x.g.commit x.act (wobFlag srcs) []) := by
    rw [heff u]
    refine Eq.trans ?_ ((State.group_setGroup_self (x.read srcs s) x.g.gid (fun g => g.commit x.act (wobFlag srcs) []) (by simp)).trans (congrArg _ hgroup))
    rw [hu]
    rfl
  have honly := OnlyGroup.advance (OnlyGroup.refl hcommitted) prio ps
  obtain ⟨hstate, -, g, hg, hsched⟩ := honly
  obtain ⟨k, v, hk, hv, hon⟩ := advance_warp hcommitted ((congrArg (List.find? _) (Group.commit_warps ..)).trans (State.position_warp h.pos)) prio ps
  refine ⟨_, g, (runIssue_commit h hclean).trans (congrArg _ hcommit), hg, (Group.commit_sched ..).trans hsched, advanced_of_wentOn hk hv rfl hon, ?_⟩
  rw [hstate, hu]

/-! ## An arrival on a stage -/

/-- An arrival of 1 to E completes at most one phase (R160). -/
theorem flips_arrival {e p c : Nat} (ph : Bool) (hp : 1 ≤ p) (hc : 1 ≤ c ∧ c ≤ e) :
    flips e (c + 1) ((p : Int) - c) ph = if c < p then (((p - c : Nat) : Int), ph) else (((p + e - c : Nat) : Int), !ph) := by
  obtain ⟨hlow, hhigh⟩ := hc
  by_cases h : c < p
  · rw [if_pos h, flips, if_neg (by omega)]
    congr 1
    omega
  · obtain ⟨n, rfl⟩ := Nat.exists_eq_add_of_le' hlow
    rw [if_neg h, flips, if_pos (by omega), flips, if_neg (by omega)]
    congr 1
    omega

theorem ringOk_iff {t : Team} {r k : Nat} : ringOk t r k = true ↔ ∃ q, t.ring r = some q ∧ k < q.stages.length := by
  unfold ringOk
  cases t.ring r with
  | none => simp
  | some q => simp

/-- A ring whose stage k has this phase and this PEND. -/
def Ring.setStage (q : Ring) (k : Nat) (ph : Bool) (p : Nat) : Ring := { q with stages := modAt (fun a => { a with phase := ph, pend := p }) k q.stages }

/-- A team whose ring r has this stage. -/
def Team.setStage (t : Team) (r k : Nat) (ph : Bool) (p : Nat) : Team :=
  { t with rings := t.rings.map (fun a => if a.1 = r then (r, a.2.setStage k ph p) else a) }

theorem Team.ring_setStage (t : Team) (r k : Nat) (ph : Bool) (p j : Nat) :
    (t.setStage r k ph p).ring j = if j = r then (t.ring r).map (fun q => q.setStage k ph p) else t.ring j := by
  have hfind := find?_map_of_key (Prod.fst : Nat × Ring → Nat) j (fun a => if a.1 = r then (r, a.2.setStage k ph p) else a)
    (fun a => by split <;> simp_all) t.rings
  rw [Team.ring, Team.setStage, hfind, Option.map_map]
  cases hrings : t.rings.find? (fun a => a.1 == j) with
  | none =>
    split
    · next hj => rw [Team.ring, ← hj, hrings]; rfl
    · rw [Team.ring, hrings]; rfl
  | some a =>
    have ha : a.1 = j := beq_iff_eq.mp (List.find?_some (p := fun a : Nat × Ring => a.1 == j) hrings)
    split
    · next hj => rw [Team.ring, ← hj, hrings]; simp [ha, hj]
    · next hj => rw [Team.ring, hrings]; simp [ha, hj]

/-- Stages are the teams'. -/
theorem stageOf_congr {s t : State} (h : s.teams = t.teams) (tid r k : Nat) : stageOf s tid r k = stageOf t tid r k := by
  rw [stageOf, stageOf, State.team, State.team, h]

/-- What `ringArrive` does to a ring that the team has (R160). -/
theorem State.ringArrive_eq {s : State} {tid r : Nat} {q : Ring} (hq : (s.team tid).ring r = some q) (k c : Nat) : s.ringArrive tid r k c =
    s.setTeam tid (fun t => t.setStage r k (flips q.e (c + 1) (((q.stages.getD k {}).pend : Int) - c) (q.stages.getD k {}).phase).2
      (flips q.e (c + 1) (((q.stages.getD k {}).pend : Int) - c) (q.stages.getD k {}).phase).1.toNat) := by
  rw [State.ringArrive, hq]
  rfl

theorem stageOf_setStage {s : State} {tid r k : Nat} {q : Ring} (hteam : HasTeam s tid) (hq : (s.team tid).ring r = some q) (hk : k < q.stages.length) (ph : Bool)
    (p i j : Nat) : stageOf (s.setTeam tid (fun t => t.setStage r k ph p)) tid i j =
      if i = r ∧ j = k then { stageOf s tid r k with phase := ph, pend := p } else stageOf s tid i j := by
  have hset := State.setTeam_team s tid (fun t => t.setStage r k ph p) (fun _ ht => ht) hteam tid
  rw [stageOf, hset, if_pos rfl, Team.ring_setStage]
  by_cases hi : i = r
  · subst hi
    rw [if_pos rfl, stageOf, hq]
    refine (getD_modAt _ k j q.stages {}).trans ?_
    by_cases hj : j = k
    · rw [if_pos ⟨hj, hk⟩, if_pos ⟨rfl, hj⟩]
    · rw [if_neg (fun h => hj h.1), if_neg (fun h => hj h.2), stageOf, hq]
  · rw [if_neg hi, if_neg (fun h => hi h.1)]
    rfl

theorem State.ringArrive_teams (tid r k c : Nat) : TeamsOnly (fun s => s.ringArrive tid r k c) := by
  intro s
  unfold State.ringArrive
  dsimp only
  split
  · rfl
  · rfl

/-- Of the machine an arrival reads only its teams. -/
theorem State.ringArrive_congr {s u : State} (h : u.teams = s.teams) (tid r k c : Nat) : (u.ringArrive tid r k c).teams = (s.ringArrive tid r k c).teams := by
  have hteam : u.team tid = s.team tid := by rw [State.team, State.team, h]
  cases hq : (s.team tid).ring r with
  | none =>
    rw [State.ringArrive, State.ringArrive, hteam, hq]
    exact h
  | some q =>
    rw [State.ringArrive_eq hq, State.ringArrive_eq (hteam ▸ hq), State.setTeam, State.setTeam, h]

/-- An arrival that may be made moves its stage, and no other. -/
theorem State.ringArrive_moves {s : State} {tid r k c : Nat} (h : MayArrive s tid r k c) : RingMoved s (s.ringArrive tid r k c) tid r k c := by
  obtain ⟨hteam, hok, hpend, hc⟩ := h
  obtain ⟨q, hq, hk⟩ := ringOk_iff.mp hok
  have hstage : stageOf s tid r k = q.stages.getD k {} := by rw [stageOf, hq]
  have he : ringE s tid r = q.e := by rw [ringE, hq]
  rw [hstage] at hpend
  rw [he] at hc
  rw [State.ringArrive_eq hq, flips_arrival _ hpend hc]
  refine ⟨?_, fun i j hij => ?_⟩
  · rw [stageOf_setStage hteam hq hk, if_pos ⟨rfl, rfl⟩, he, hstage]
    split
    · rfl
    · rfl
  · rw [stageOf_setStage hteam hq hk]
    exact if_neg fun h => hij.elim (fun hne => hne h.1) fun hne => hne h.2

/-- The same of a machine with the teams that the arrival leaves. -/
theorem ringMoved_of_teams {s t u : State} {tid r k c : Nat} (h : MayArrive s tid r k c) (ht : t.teams = (u.ringArrive tid r k c).teams) (hu : u.teams = s.teams) :
    RingMoved s t tid r k c := by
  obtain ⟨hmoved, hrest⟩ := State.ringArrive_moves h
  have hteams := ht.trans (State.ringArrive_congr hu tid r k c)
  exact ⟨(stageOf_congr hteams ..).trans hmoved, fun i j hij => (stageOf_congr hteams ..).trans (hrest i j hij)⟩

/-! ## ARRIVE -/

section
variable {s : State} {x : Issue} {a : RArgs}

/-- The arrival that ARRIVE defers. -/
def arrivalOf (a : RArgs) (c upto : Nat) : Arrival := { ring := a.m.toNat / 8, stage := a.m.toNat % 8, c := c, dc := a.z.toNat, upto := upto }

/-- What ARRIVE does to the machine (R160). -/
def arriveEff (x : Issue) (a : RArgs) (s : State) : State :=
  if a.z.toNat = 6 then s.ringArrive x.g.team (a.m.toNat / 8) (a.m.toNat % 8) (uni32 x.opX)
  else s.setGroup x.g.gid (fun g => { g with deferred := g.deferred ++ [arrivalOf a (uni32 x.opX) x.s.nextId] })

/-- An ARRIVE in range (R160): it holds its warp while the deferred ones are full, or, without a counter, something before it waits. -/
theorem oArrive_eq {q : Ring} (ha : x.a = .r a) (hm : x.m.toNat = a.m.toNat) (hact : x.act ≠ 0) (hr : Readable [x.opX]) (huni : x.opX.uni = true)
    (hq : x.tm.ring (a.m.toNat / 8) = some q) (hk : a.m.toNat % 8 < q.stages.length) (hc : 1 ≤ uni32 x.opX ∧ uni32 x.opX ≤ q.e) :
    oArrive x = Out.ofSrcs x [x.opX] { hold := (a.z.toNat != 6 && decide (4 ≤ x.g.deferred.length)) || (a.z.toNat == 6 && ringBusy x.s x.g x.s.nextId),
                                       eff := arriveEff x a } := by
  obtain ⟨hcauses, -, -, -⟩ := hr x.opX (List.mem_singleton.mpr rfl)
  have hring : ringOk x.tm (a.m.toNat / 8) (a.m.toNat % 8) = true := ringOk_iff.mpr ⟨q, hq, hk⟩
  have hsome : ((x.opX.at32 0).toNat == 0) = false := beq_eq_false_iff_ne.mpr (Nat.ne_of_gt hc.1)
  have hfit : ¬ q.e < (x.opX.at32 0).toNat := Nat.not_lt.mpr hc.2
  unfold oArrive
  simp only [if_neg hact, hm, ha, hring, hq, hsome, hfit, needUni_nil (.inl huni), hcauses, huni, decide_false, Bool.not_true, Bool.or_self, Bool.false_eq_true,
    if_false, List.append_nil, Bool.not_false, Bool.and_true, List.isEmpty_nil]
  rfl
end

theorem Issue.opX_cut {x : Issue} (h : x.opX.wait = false) : x.opX.cut = 0 := by
  unfold Issue.opX at h ⊢
  split_ifs at h ⊢
  · exact readField_cut h
  · rfl

/-- The first part of O16 (R160, R162, R335). -/
theorem ringArrives (a : RArgs) : RingArrives a := by
  intro s x prio hwf h
  have ha : x.a = .r a := State.position_args h.pos
  have hm : x.m.toNat = a.m.toNat := Issue.m_toNat_eq ha (rmo_eq_zero hwf rfl rfl)
  have hs : x.s = s := State.position_s h.pos
  refine ⟨fun hact => runIssue_nothing h (if_pos hact), fun hact hr huni hmay => ?_⟩
  have htm : x.tm = s.team x.g.team := by rw [Issue.tm, hs]
  obtain ⟨q, hq, hk⟩ := ringOk_iff.mp hmay.ring
  have hc : 1 ≤ uni32 x.opX ∧ uni32 x.opX ≤ q.e := by
    have hcount := hmay.count
    rwa [ringE, hq] at hcount
  have hout := oArrive_eq ha hm hact hr huni (htm ▸ hq) hk hc
  rw [hs] at hout
  refine ⟨fun hz hwaits => ?_, fun hz hfree => ?_, fun hz hroom => ?_⟩
  · have hbusy : ((a.z.toNat != 6 && decide (4 ≤ x.g.deferred.length)) || (a.z.toNat == 6 && ringBusy s x.g s.nextId)) = true := by
      rw [hz, ringBusy_iff.mpr hwaits]
      rfl
    obtain ⟨-, hwait, -, hfailed⟩ := hr x.opX (List.mem_singleton.mpr rfl)
    refine runIssue_holds h (by rw [hout, hbusy]; simp [Out.ofSrcs, hfailed]) fun p => ?_
    rw [hout]
    simp [Out.ofSrcs, Issue.opX_cut hwait, specPend]
  · have hidle : ((a.z.toNat != 6 && decide (4 ≤ x.g.deferred.length)) || (a.z.toNat == 6 && ringBusy s x.g s.nextId)) = false := by
      rw [hz, ringBusy_eq_false hfree]
      rfl
    have heff : arriveEff x a = fun s => s.ringArrive x.g.team (a.m.toNat / 8) (a.m.toNat % 8) (uni32 x.opX) := by
      funext s
      exact if_pos (by rw [hz]; rfl)
    rw [hidle, heff] at hout
    obtain ⟨t, g, hrun, hg, hsched, hgoes, hteams⟩ := runIssue_teams h hout hr (fun _ => State.ringArrive_teams ..)
    exact ⟨t, g, hrun, hg, hsched, hgoes, ringMoved_of_teams hmay hteams (readVas_teams ..)⟩
  · have hidle : ((a.z.toNat != 6 && decide (4 ≤ x.g.deferred.length)) || (a.z.toNat == 6 && ringBusy s x.g s.nextId)) = false := by
      rw [show (a.z.toNat == 6) = false from beq_eq_false_iff_ne.mpr fun h6 => hz (BitVec.eq_of_toNat_eq h6), decide_eq_false (Nat.not_le.mpr hroom)]
      simp
    have heff : arriveEff x a = fun s => s.setGroup x.g.gid (fun g => { g with deferred := g.deferred ++ [arrivalOf a (uni32 x.opX) x.s.nextId] }) := by
      funext s
      exact if_neg fun h6 => hz (BitVec.eq_of_toNat_eq h6)
    rw [hidle, heff, hs] at hout
    obtain ⟨t, hrun, hcommits⟩ := runIssue_effect h (ws := []) hout hr (free_nil x) (by simp) (by simp)
      (fun g => { g with deferred := g.deferred ++ [arrivalOf a (uni32 x.opX) s.nextId] }) (fun _ => rfl) (fun _ => rfl) (fun _ => rfl)
    refine ⟨t, hrun, Commits.of_sched hcommits ?_⟩
    rw [commit_eq_with_commits]
    rfl

/-! ## ARRIVAL_APPLY and WAITPH -/

/-- The second part of O16 (R160, R162, R335). -/
theorem arrivalApplies (gid : Nat) : ArrivalApplies gid := by
  intro s g d r hg hgid hdef hmay
  have hexec : exec (.arrivalApply gid) s = if appliesNow s g d then
      .next ((s.setGroup gid (fun g => { g with deferred := r })).ringArrive g.team d.ring d.stage d.c) else .next s := by
    change execArrivalApply gid s = _
    simp only [execArrivalApply, hg, hdef]
  refine ⟨fun hlate => ?_, fun hzero hfree => ?_⟩
  · have hnot : appliesNow s g d = false := by
      rw [appliesNow, Bool.and_eq_false_iff]
      exact hlate.imp beq_eq_false_iff_ne.mpr fun hwaits => by rw [ringBusy_iff.mpr hwaits]; rfl
    rw [hexec, hnot]
    rfl
  · have hnow : appliesNow s g d = true := by
      rw [appliesNow, hzero, ringBusy_eq_false hfree]
      rfl
    rw [hexec, hnow]
    refine ⟨_, { g with deferred := r }, rfl, ?_, rfl, ringMoved_of_teams hmay rfl rfl⟩
    have hteams := State.ringArrive_teams g.team d.ring d.stage d.c (s.setGroup gid (fun g => { g with deferred := r }))
    refine (congrArg (fun t : State => t.group gid) hteams).trans ?_
    exact (State.group_setGroup_self (f := fun g => { g with deferred := r }) s gid (fun _ => rfl)).trans (congrArg (Option.map _) hg)

/-- WAITPH in range, of a warp that no phase has released yet (R161). -/
theorem oWaitph_eq {x : Issue} {a : RArgs} (hm : x.m.toNat = a.m.toNat) (hrel : x.w.released = false) (hact : x.act ≠ 0) (huni : x.opX.uni = true)
    (hring : ringOk x.tm (a.m.toNat / 8) (a.m.toNat % 8) = true) :
    oWaitph x = if (stageOf x.s x.g.team (a.m.toNat / 8) (a.m.toNat % 8)).was = (x.opX.at32 0).getLsbD 0 then Out.ofSrcs x [x.opX] {}
      else Out.ofSrcs x [x.opX] (holdAt x (.waitph (a.m.toNat / 8) (a.m.toNat % 8) ((x.opX.at32 0).getLsbD 0))) := by
  obtain ⟨q, hq, hk⟩ := ringOk_iff.mp hring
  have hstage : stageOf x.s x.g.team (a.m.toNat / 8) (a.m.toNat % 8) = q.stages.getD (a.m.toNat % 8) {} := by
    rw [stageOf, show (x.s.team x.g.team).ring (a.m.toNat / 8) = some q from hq]
  have hgo : (x.w.released || x.act == 0) = false := by
    rw [hrel, beq_eq_false_iff_ne.mpr hact]
    rfl
  rw [hstage]
  simp only [oWaitph, hgo, hm, hq, hring, needUni_nil (.inl huni), Bool.false_eq_true, if_false, if_true, List.append_nil, beq_iff_eq]
  rfl

/-- The third part of O16 (R161). -/
theorem phaseWaits (a : RArgs) : PhaseWaits a := by
  intro s x prio hwf h
  have ha : x.a = .r a := State.position_args h.pos
  have hm : x.m.toNat = a.m.toNat := Issue.m_toNat_eq ha (rmo_eq_zero hwf rfl rfl)
  refine ⟨fun hgo => runIssue_nothing h (if_pos ?_), fun hrel hact hr huni hring => ?_⟩
  · rw [Bool.or_eq_true, beq_iff_eq]
    exact hgo
  · have hout := oWaitph_eq hm hrel hact huni hring
    rw [State.position_s h.pos] at hout
    split
    · next hphase => exact runIssue_readsOnly h (hout.trans (if_pos hphase)) hr
    · next hphase => exact runIssue_holdAt h (hout.trans (if_neg hphase)) hr

/-- Settles O16: arrivals move their stage when nothing before them waits (R160, R162, R335), at once or when their counter reads zero, and WAITPH waits
for the phase it names (R161). -/
theorem ringsComplete : Obligations.RingsComplete := by
  unfold Obligations.RingsComplete
  exact ⟨ringArrives, arrivalApplies, phaseWaits⟩

end Sys2Proof.Machine
end

section
/-! Instructions whose effect reaches beyond their group (R54): what a readable outcome makes of the machine with the effect, where the warp
goes on and where it stays. -/

namespace Sys2Proof.Machine
open Sys2Proof.Rules

/-- The machine once an instruction's operands are read and their WOB is noted. -/
def Issue.noted (x : Issue) (srcs : List Opr) (s : State) : State :=
  (x.read srcs s).setGroup x.g.gid fun g => g.commit x.act (wobFlag srcs) []

section
variable {s : State} {i : Instr} {x : Issue} {prio : BitVec 8} {f : Issue → Out}

theorem Issue.noted_group (h : Issues s i x prio) (srcs : List Opr) :
    (x.noted srcs s).group x.g.gid = some (x.g.commit x.act (wobFlag srcs) []) := by
  rw [Issue.noted, State.group_setGroup_self _ _ _ (by simp), Issue.read, readVas_group, State.position_group h.pos]
  rfl

theorem Issue.noted_group_ne {k : Nat} (hk : k ≠ x.g.gid) (srcs : List Opr) : (x.noted srcs s).group k = s.group k := by
  rw [Issue.noted, State.group_setGroup_ne _ _ _ _ (by simp) hk, Issue.read, readVas_group]

/-- A readable outcome without writes takes its effect, and then its warp stays or goes on. -/
theorem runIssue_eff (h : Issues s i x prio) {srcs : List Opr} {eff : State → State} {stay : Bool}
    (hf : f x = Out.ofSrcs x srcs { eff := eff, stay := stay }) (hr : Readable srcs) :
    ∃ ps, runIssue s i f = .next (if stay then eff (x.noted srcs s) else advance x (eff (x.noted srcs s)) prio ps) := by
  have ho := hf.trans (Out.ofSrcs_readable hr { eff := eff, stay := stay } rfl rfl rfl)
  have hclean : Clean x (f x) := by
    rw [ho]
    exact ⟨rfl, rfl, rfl, lawar_nil (free_nil x) (by simp), regBudget_nil (free_nil x) (by simp), fpx_none x _ rfl⟩
  have hfsr : (f x).fsr x = wobFlag srcs := by
    rw [ho, ← fsrGain_zero x srcs]
    rfl
  have hnoted : x.noted srcs s = ((readVas x.g.core x.g.ctx (f x).vas x.s).applyWs x.g.gid x.g.team (f x).writes).setGroup x.g.gid
      (fun g => g.commit x.act ((f x).fsr x) (f x).amax) := by
    rw [Issue.noted, ← hfsr, State.position_s h.pos, ho]
    rfl
  have heff : (f x).eff = eff := by rw [ho]
  have hstay : (f x).stay = stay := by rw [ho]
  have hcommit : ∃ ps, commitOut x prio (f x) = if stay then eff (x.noted srcs s) else advance x (eff (x.noted srcs s)) prio ps := by
    cases stay with
    | true =>
      refine ⟨[], ?_⟩
      rw [hnoted, ← heff, ho]
      rfl
    | false =>
      obtain ⟨ps, hps⟩ := commitOut_advances x prio (o := f x) (by rw [ho]) hstay (by rw [ho]) (by rw [ho]) (by rw [ho])
      exact ⟨ps, by rw [hps, heff, ← hnoted]; rfl⟩
  obtain ⟨ps, hps⟩ := hcommit
  exact ⟨ps, by rw [runIssue_commit h hclean, hps]⟩

/-- An instruction that changes its group by `e` and then, by `side`, what is no group: the warp goes on. -/
theorem runIssue_side (h : Issues s i x prio) {srcs : List Opr} {eff : State → State} (hf : f x = Out.ofSrcs x srcs { eff := eff })
    (hr : Readable srcs) (e : Group → Group) (side : State → State) (hgid : ∀ g, (e g).gid = g.gid) (hwarps : ∀ g, (e g).warps = g.warps)
    (heff : ∀ gs, eff ((x.read srcs s).regrouped gs) = side (((x.read srcs s).regrouped gs).setGroup x.g.gid e))
    (hside : ∀ u, (side u).groups = u.groups) :
    ∃ t gs, runIssue s i f = .next t ∧ Commits x prio ((side ((x.read srcs s).regrouped gs)).regrouped (x.read srcs s).groups) t
      (e (x.g.commit x.act (wobFlag srcs) [])) := by
  obtain ⟨ps, hrun⟩ := runIssue_eff h (stay := false) hf hr
  obtain ⟨v, hv⟩ : ∃ v, v = side ((x.noted srcs s).setGroup x.g.gid e) := ⟨_, rfl⟩
  have heff : eff (x.noted srcs s) = v := (heff _).trans hv.symm
  have hgroups : v.groups = ((x.noted srcs s).setGroup x.g.gid e).groups := by rw [hv, hside]
  have hown : v.group x.g.gid = some (e (x.g.commit x.act (wobFlag srcs) [])) := by
    rw [State.group, hgroups]
    exact (State.group_setGroup_self _ _ e hgid).trans (congrArg _ (Issue.noted_group h srcs))
  have hothers : ∀ k, k ≠ x.g.gid → v.group k = (x.read srcs s).group k := by
    intro k hk
    rw [State.group, hgroups]
    exact (State.group_setGroup_ne _ _ _ e hgid hk).trans (State.group_setGroup_ne _ _ _ _ (by simp) hk)
  have hwarp : (e (x.g.commit x.act (wobFlag srcs) [])).warp x.w.wid = some x.w := by
    rw [Group.warp, hwarps, Group.commit_warps]
    exact State.position_warp h.pos
  obtain ⟨hstate, hsame, hgroup⟩ := OnlyGroup.advance (OnlyGroup.refl hown) prio ps
  obtain ⟨k, w, hk, hw, hon⟩ := advance_warp hown hwarp prio ps
  refine ⟨advance x v prio ps, ((x.noted srcs s).setGroup x.g.gid e).groups, by rw [hrun, heff]; rfl,
    ⟨?_, fun j hj => (hsame j hj).trans (hothers j hj), hgroup⟩, advanced_of_wentOn hk hw rfl hon⟩
  refine hstate.trans ?_
  rw [hv]
  rfl
end

end Sys2Proof.Machine
end

section
/-! The queue of the matrix engine (R198, R203, R204), the tiles of a team, and the checks of a record (R190). -/

namespace Sys2Proof.Machine
open Sys2Proof.Rules

/-! ## The queue -/

/-- Nothing leaves a queue whose head stands. -/
theorem drainMq_of_stands {s : State} {core : Nat} (h : QueueStands s core) (n : Nat) : drainMq core n s = s := by
  cases n with
  | zero => rfl
  | succ n =>
    cases hmq : (s.core core).mq with
    | nil => rw [drainMq, hmq]
    | cons q r =>
      rw [drainMq, hmq]
      rcases h q r hmq with hk | hk | hk <;> simp only [hk]

theorem State.drain_of_stands {s : State} {core : Nat} (h : QueueStands s core) : s.drain core = s := drainMq_of_stands h _

/-- The core with one more command. -/
def Core.queue (q : MCmd) (c : Core) : Core := { c with mq := c.mq ++ [q] }

theorem State.core_setCore_self (s : State) (c : Nat) (f : Core → Core) : (s.setCore c f).core c = f (s.core c) := by
  rw [State.core_setCore, if_pos rfl]

theorem State.core_setCore_ne (s : State) {c k : Nat} (h : k ≠ c) (f : Core → Core) : (s.setCore c f).core k = s.core k := by
  rw [State.core_setCore, if_neg h]

theorem Amap.erase_erase {α : Type} (m : Amap α) (a : Nat) : (m.erase a).erase a = m.erase a := by
  simp [Amap.erase, List.filter_filter]

theorem Amap.erase_insert {α : Type} (m : Amap α) (a : Nat) (v : α) : (m.insert a v).erase a = m.erase a := by
  induction m with
  | nil => simp [Amap.insert, Amap.erase]
  | cons p r ih =>
    obtain ⟨k, w⟩ := p
    rw [Amap.insert]
    split
    · exact Amap.erase_cons_self ((k, w) :: r) a v
    · by_cases hk : k = a
      · rw [hk, Amap.erase_cons_self, Amap.erase_cons_self, ih]
      · rw [Amap.erase_cons_ne _ _ hk, Amap.erase_cons_ne _ _ hk, ih]

theorem Amap.set_set {α : Type} [DecidableEq α] (d : α) (m : Amap α) (a : Nat) (v w : α) : Amap.set d (Amap.set d m a v) a w = Amap.set d m a w := by
  have herase : (Amap.set d m a v).erase a = m.erase a := by
    unfold Amap.set
    split
    · exact Amap.erase_erase m a
    · rw [Amap.erase_insert, Amap.erase_erase]
  show (if w = d then (Amap.set d m a v).erase a else ((Amap.set d m a v).erase a).insert a w) = _
  rw [herase]
  rfl

/-- Two changes of one core, one after the other. -/
theorem State.setCore_setCore (s : State) (c : Nat) (f g : Core → Core) : (s.setCore c f).setCore c g = s.setCore c (fun k => g (f k)) := by
  have hcore : (s.setCore c f).core c = f (s.core c) := State.core_setCore_self s c f
  unfold State.setCore at hcore ⊢
  rw [hcore]
  simp only [Amap.set_set]

/-- A command joins a queue whose head stands, and an empty one where it stands itself. -/
theorem State.enqueue_of_stands {s : State} {core : Nat} {q : MCmd} (h : QueueStands s core)
    (hq : (s.core core).mq = [] → q.kind = .mma ∨ q.kind = .ald ∨ q.kind = .ast) : s.enqueue core q = s.setCore core (Core.queue q) := by
  refine State.drain_of_stands fun p r hmq => ?_
  have hmq : (s.core core).mq ++ [q] = p :: r := (congrArg Core.mq (State.core_setCore_self s core (Core.queue q))).symm.trans hmq
  cases hold : (s.core core).mq with
  | nil =>
    obtain ⟨rfl, -⟩ : q = p ∧ [] = r := by simpa [hold] using hmq
    exact hq hold
  | cons p' r' =>
    obtain ⟨rfl, -⟩ : p' = p ∧ r' ++ [q] = r := by simpa [hold] using hmq
    exact h p' r' hold

/-- Of a command that joins an empty queue, the engine does at once what it asks. -/
theorem State.enqueue_of_empty {s : State} {core : Nat} {q : MCmd} (h : (s.core core).mq = []) :
    s.enqueue core q = drainMq core 1 (s.setCore core (Core.queue q)) ∧ ((s.setCore core (Core.queue q)).core core).mq = [q] := by
  have hmq : ((s.setCore core (Core.queue q)).core core).mq = [q] := by
    rw [State.core_setCore_self, Core.queue, h]
    rfl
  refine ⟨?_, hmq⟩
  show drainMq core ((s.setCore core (Core.queue q)).core core).mq.length _ = _
  rw [hmq]
  rfl

/-- The core whose queue is empty. -/
def Core.emptied (c : Core) : Core := { c with mq := [] }

theorem State.enqueue_aclr {s : State} {core : Nat} {q : MCmd} (h : (s.core core).mq = []) (hk : q.kind = .aclr) :
    s.enqueue core q = (s.setCore core Core.emptied).setTile q.team q.tile (fun _ => Tile.clear q.int32) := by
  obtain ⟨hdrain, hmq⟩ := State.enqueue_of_empty (q := q) h
  rw [hdrain, drainMq, hmq]
  simp only [hk, State.setCore_setCore]
  rfl

/-- The counters of a team with those of a mask cleared (R203). -/
def clearedMx (mask : Nat) (mx : DWord) : DWord :=
  (List.range 4).foldl (fun (m : DWord) k => if mask.testBit k then m &&& ~~~(0xFFFF#64 <<< (16 * k)) else m) mx

theorem State.enqueue_mxclr {s : State} {core : Nat} {q : MCmd} (h : (s.core core).mq = []) (hk : q.kind = .mxclr) :
    s.enqueue core q = (s.setCore core Core.emptied).setTeam q.team (fun t => { t with mx := clearedMx q.mask t.mx }) := by
  obtain ⟨hdrain, hmq⟩ := State.enqueue_of_empty (q := q) h
  rw [hdrain, drainMq, hmq]
  simp only [hk, State.setCore_setCore]
  rfl

/-! ## Tiles and counters -/

/-- A team with one of its tiles changed. -/
def Team.setTile (t : Team) (n : Nat) (f : Tile → Tile) : Team := { t with tiles := Amap.set {} t.tiles n (f (t.tile n)) }

theorem Team.setTile_tile (t : Team) (n : Nat) (f : Tile → Tile) (k : Nat) : (t.setTile n f).tile k = if k = n then f (t.tile n) else t.tile k :=
  Amap.get_set ..

theorem State.setTile_eq (s : State) (tid n : Nat) (f : Tile → Tile) : s.setTile tid n f = s.setTeam tid (fun t => t.setTile n f) := rfl

theorem State.team_setTeam_self {s : State} {tid : Nat} (h : HasTeam s tid) {f : Team → Team} (hf : ∀ t, (f t).tid = t.tid) :
    (s.setTeam tid f).team tid = f (s.team tid) := by
  rw [State.setTeam_team s tid f (fun t ht => (hf t).trans ht) h, if_pos rfl]

/-- A tile is changed in its team, and no other. -/
theorem State.setTile_tile {s : State} {tid : Nat} (h : HasTeam s tid) (n : Nat) (f : Tile → Tile) (k : Nat) :
    ((s.setTile tid n f).team tid).tile k = if k = n then f ((s.team tid).tile n) else (s.team tid).tile k := by
  rw [State.setTile_eq, State.team_setTeam_self h (f := fun t => t.setTile n f) (fun _ => rfl), Team.setTile_tile]

/-- A field of sixteen bits is cleared, and no other. -/
theorem field_and_not (m : DWord) {j k : Nat} (hk : k < 4) :
    (m &&& ~~~(0xFFFF#64 <<< (16 * j))).extractLsb' (16 * k) 16 = if j = k then 0 else m.extractLsb' (16 * k) 16 := by
  have hones (p : Nat) : (0xFFFF#64).getLsbD p = decide (p < 16) := by
    rw [BitVec.getLsbD_ofNat, show 0xFFFF = 2 ^ 16 - 1 from rfl, Nat.testBit_two_pow_sub_one]
    by_cases hp : p < 16
    · simp [hp, show p < 64 by omega]
    · simp [hp]
  refine BitVec.eq_of_getLsbD_eq fun b hb => ?_
  have hp : 16 * k + b < 64 := by omega
  rw [BitVec.getLsbD_extractLsb', BitVec.getLsbD_and, BitVec.getLsbD_not, BitVec.getLsbD_shiftLeft, hones]
  by_cases hjk : j = k
  · simp [hjk, hb, hp]
  · have hout : 16 * k + b < 16 * j ∨ ¬ 16 * k + b - 16 * j < 16 := by omega
    rcases hout with hout | hout <;> simp [hjk, hb, hp, hout]

/-- Each counter that the mask names is zero, and the others stand (R203). -/
theorem clearedMx_field (mask : Nat) (mx : DWord) {k : Nat} (hk : k < 4) :
    (clearedMx mask mx).extractLsb' (16 * k) 16 = if mask.testBit k then 0 else mx.extractLsb' (16 * k) 16 := by
  have hone (m : DWord) (j : Nat) : (if mask.testBit j then m &&& ~~~(0xFFFF#64 <<< (16 * j)) else m).extractLsb' (16 * k) 16 =
      if j = k ∧ mask.testBit j then 0 else m.extractLsb' (16 * k) 16 := by
    by_cases hj : mask.testBit j = true
    · simp only [hj, if_true, and_true, field_and_not m hk]
    · simp [hj]
  have hfold (l : List Nat) (m : DWord) : (l.foldl (fun (m : DWord) j => if mask.testBit j then m &&& ~~~(0xFFFF#64 <<< (16 * j)) else m) m).extractLsb'
      (16 * k) 16 = if k ∈ l ∧ mask.testBit k then 0 else m.extractLsb' (16 * k) 16 := by
    induction l generalizing m with
    | nil => simp
    | cons j r ih =>
      rw [List.foldl_cons, ih, hone]
      by_cases hj : j = k
      · subst hj; by_cases hb : mask.testBit j = true <;> simp [hb]
      · simp [hj, Ne.symm hj]
  rw [clearedMx, hfold]
  simp [List.mem_range.mpr hk]

/-! ## Records -/

/-- A record that its use admits raises nothing. -/
theorem recCheck_of_ok {s : State} {g : Group} {addr : Nat} {bs : List Byte} {krow write : Bool} {bad : TRec → Bool}
    (h : RecOk s g addr bs krow write) (hbad : bad (trecOf addr (leNat bs)) = false) :
    recCheck s (agentOf g) addr bad = { bytes := some bs } := by
  have hmis : ((((trecOf addr (leNat bs)).space == 0 || (trecOf addr (leNat bs)).space == 1) &&
      ((trecOf addr (leNat bs)).base % 16 != 0 || (trecOf addr (leNat bs)).rstride % 16 != 0)) = true) = False := by
    refine eq_false fun hm => ?_
    obtain ⟨hspace, hodd⟩ : ((trecOf addr (leNat bs)).space = 0 ∨ (trecOf addr (leNat bs)).space = 1) ∧
      (¬ (trecOf addr (leNat bs)).base % 16 = 0 ∨ ¬ (trecOf addr (leNat bs)).rstride % 16 = 0) := by simpa using hm
    obtain ⟨hbase, hstride⟩ := h.base (by omega)
    exact hodd.elim (· hbase) (· hstride)
  unfold recCheck
  simp only [h.aligned, h.bytes, h.good, hbad, hmis, if_true, if_false, Bool.or_self, Bool.false_eq_true, List.append_nil]

end Sys2Proof.Machine
end

section
/-! Tile instructions (O23): what joins the engine's queue (R197 to R200, R203), and what AMOV and MXRD promise (R201, R203). -/

namespace Sys2Proof.Machine
open Sys2Proof.Rules

/-! ## A counter that rises -/

/-- The group with counter `n` raised, where there is one (R71). -/
def Group.countUp (n : Nat) (g : Group) : Group := if n < 6 then g.addDc n else g

theorem Group.countUp_frame (n : Nat) (g : Group) : g.countUp n = { g with dc := (g.countUp n).dc } := by
  unfold Group.countUp
  split
  · rfl
  · rfl

theorem Group.countUp_six (g : Group) : g.countUp 6 = g := if_neg (lt_irrefl 6)
theorem Group.countUp_gid (n : Nat) (g : Group) : (g.countUp n).gid = g.gid := by rw [Group.countUp_frame]
theorem Group.countUp_warps (n : Nat) (g : Group) : (g.countUp n).warps = g.warps := by rw [Group.countUp_frame]

theorem State.setGroup_countUp (s : State) (gid n : Nat) :
    s.setGroup gid (Group.countUp n) = if n < 6 then s.setGroup gid (fun g => g.addDc n) else s := by
  by_cases hn : n < 6
  · rw [if_pos hn, show Group.countUp n = fun g => g.addDc n from funext fun g => if_pos hn]
  · rw [if_neg hn, show Group.countUp n = fun g => g from funext fun g => if_neg hn, State.setGroup_id]

theorem modAt_eq_map {α : Type} (f : α → α) (k : Nat) (l : List α) (d : α) :
    modAt f k l = (List.range l.length).map (fun j => if j = k then f (l.getD j d) else l.getD j d) := by
  induction l generalizing k with
  | nil => simp [modAt]
  | cons a r ih =>
    rw [List.length_cons, List.range_succ_eq_map]
    cases k with
    | zero =>
      have hr : r = (List.range r.length).map (fun j => r.getD j d) :=
        List.ext_getElem (by simp) fun j h _ => by simp [h]
      simpa [modAt, Function.comp_def] using hr
    | succ k => simpa [modAt, Function.comp_def] using ih k

/-- The counter that a word's DC field names rises. -/
theorem countUp_eq_dcUp (x : Issue) (g : Group) : g.countUp x.a.dc = dcUp x g := by
  unfold Group.countUp dcUp Group.addDc
  by_cases hdc : x.a.dc < 6
  · rw [if_pos hdc, modAt_eq_map _ _ _ 0]
    congr 1
    refine List.map_congr_left fun k _ => ?_
    have hk : (k = x.a.dc ∧ k < 6) ↔ k = x.a.dc := ⟨And.left, fun h => ⟨h, h ▸ hdc⟩⟩
    simp only [hk, Group.dcv]
    split <;> rfl
  · have hno : ∀ k, ¬ (k = x.a.dc ∧ k < 6) := fun k h => hdc (h.1 ▸ h.2)
    have hsame : g.dc = (List.range g.dc.length).map (fun k => g.dcv k + if k = x.a.dc ∧ k < 6 then 1 else 0) :=
      List.ext_getElem (by simp) fun j h _ => by simp [hno, Group.dcv, h]
    rw [if_neg hdc, ← hsame]

/-- Noting the flags of sources does not tell a group with its counter raised apart (R36). -/
theorem countUp_commit_sched (n : Nat) (m : Mask) (fl : Word) (g : Group) : SchedOnly ((g.orFsr fl).countUp n) ((g.commit m fl []).countUp n) := by
  rw [commit_eq_with_commits, Group.countUp, Group.countUp]
  split
  · rfl
  · rfl

/-! ## Instructions that queue a command -/

section
variable {s : State} {i : Instr} {x : Issue} {prio : BitVec 8} {f : Issue → Out}

/-- An instruction that raises a counter of its group, numbers a command and changes its core. -/
theorem runIssue_core (h : Issues s i x prio) {srcs : List Opr} {eff : State → State} (hf : f x = Out.ofSrcs x srcs { eff := eff })
    (hr : Readable srcs) (n : Nat) (k : Core → Core)
    (heff : ∀ gs, eff ((x.read srcs s).regrouped gs) =
      { ((x.read srcs s).regrouped gs).setGroup x.g.gid (Group.countUp n) with nextId := s.nextId + 1 }.setCore x.g.core k) :
    ∃ t, runIssue s i f = .next t ∧ Commits x prio { x.read srcs s with cores := t.cores, nextId := s.nextId + 1 } t ((read x srcs).countUp n) ∧
      t.core x.g.core = k (s.core x.g.core) := by
  obtain ⟨t, gs, hrun, hcommits⟩ := runIssue_side h hf hr (Group.countUp n) (fun u => { u with nextId := s.nextId + 1 }.setCore x.g.core k)
    (Group.countUp_gid n) (Group.countUp_warps n) heff (fun _ => rfl)
  have hcommits := hcommits.of_sched (countUp_commit_sched n x.act (wobFlag srcs) x.g)
  have hcores : t.cores = ((x.read srcs s).setCore x.g.core k).cores := (congrArg State.cores hcommits.only.state).trans rfl
  refine ⟨t, hrun, ?_, ?_⟩
  · rw [hcores]
    exact hcommits
  · rw [State.core, hcores, ← Issue.read_core x srcs s]
    exact State.core_setCore_self ..

/-- Without sources or a counter, an instruction that changes its core and a team. -/
theorem runIssue_coreTeam (h : Issues s i x prio) {eff : State → State} (hf : f x = { eff := eff }) (k : Core → Core) (tid : Nat) (tf : Team → Team)
    (heff : ∀ gs, eff (s.regrouped gs) = ({ s.regrouped gs with nextId := s.nextId + 1 }.setCore x.g.core k).setTeam tid tf) :
    ∃ t, runIssue s i f = .next t ∧ Commits x prio { s with cores := t.cores, teams := t.teams, nextId := s.nextId + 1 } t x.g ∧
      t.core x.g.core = k (s.core x.g.core) ∧ t.teams = (s.setTeam tid tf).teams := by
  obtain ⟨t, gs, hrun, hcommits⟩ := runIssue_side h (srcs := []) hf (by simp [Readable]) (fun g => g)
    (fun u => ({ u with nextId := s.nextId + 1 }.setCore x.g.core k).setTeam tid tf) (fun _ => rfl) (fun _ => rfl)
    (fun gs => by rw [State.setGroup_id]; exact heff gs) (fun _ => rfl)
  have hcommits := hcommits.of_sched (g := x.g) (by rw [show wobFlag [] = 0 from rfl, Group.commit_nothing]; rfl)
  have hcores : t.cores = (s.setCore x.g.core k).cores := (congrArg State.cores hcommits.only.state).trans rfl
  have hteams : t.teams = (s.setTeam tid tf).teams := (congrArg State.teams hcommits.only.state).trans rfl
  refine ⟨t, hrun, ?_, ?_, hteams⟩
  · rw [hcores, hteams]
    exact hcommits
  · rw [State.core, hcores]
    exact State.core_setCore_self ..
end

/-! ## ACLR and MXCLR -/

/-- The commands of ACLR (R198) and MXCLR (R203). -/
def aclrCmd (x : Issue) (a : RArgs) (id : Nat) : MCmd :=
  { id := id, team := x.g.team, gid := x.g.gid, kind := .aclr, tile := a.m.toNat % 16, int32 := a.m.getLsbD 4 }
def mxclrCmd (x : Issue) (a : RArgs) (id : Nat) : MCmd :=
  { id := id, team := x.g.team, gid := x.g.gid, kind := .mxclr, tile := 16, mask := a.m.toNat % 16 }

/-- Numbering a command and queueing it. -/
def State.queueNext (s : State) (core : Nat) (cmd : Nat → MCmd) : State := { s with nextId := s.nextId + 1 }.enqueue core (cmd s.nextId)

section
variable {s : State} {x : Issue} {a : RArgs}

theorem oAclr_eq (ha : x.a = .r a) (hn : a.m.toNat % 16 < x.tm.nt) :
    oAclr x = { eff := fun u => u.queueNext x.g.core (aclrCmd x a) } := by
  unfold oAclr
  simp only [Issue.m_low_eq ha, Issue.mb_eq_getLsbD ha (show 4 < 6 by decide), if_neg (not_le.mpr hn)]
  rfl

theorem oMxclr_eq (ha : x.a = .r a) (hact : x.act ≠ 0) : oMxclr x = { eff := fun u => u.queueNext x.g.core (mxclrCmd x a) } := by
  unfold oMxclr
  simp only [if_neg hact, Issue.m_low_eq ha]
  rfl
end

section
variable {s : State} {i : Instr} {x : Issue} {prio : BitVec 8} {f : Issue → Out}

/-- A command joins a queue that is not empty. -/
theorem runIssue_queues (h : Issues s i x prio) {cmd : Nat → MCmd} (hf : f x = { eff := fun u => u.queueNext x.g.core cmd })
    (hmq : (s.core x.g.core).mq ≠ []) (hstands : QueueStands s x.g.core) :
    ∃ t, runIssue s i f = .next t ∧ Commits x prio { s with cores := t.cores, nextId := s.nextId + 1 } t x.g ∧
      (t.core x.g.core).mq = (s.core x.g.core).mq ++ [cmd s.nextId] := by
  obtain ⟨t, hrun, hcommits, hcore⟩ := runIssue_core h (srcs := []) hf (by simp [Readable]) 6 (Core.queue (cmd s.nextId)) (fun gs => by
    rw [show Group.countUp 6 = fun g => g from funext Group.countUp_six, State.setGroup_id]
    exact State.enqueue_of_stands (s := { s.regrouped gs with nextId := s.nextId + 1 }) (core := x.g.core) hstands fun hno => absurd hno hmq)
  have hgroup : (read x []).countUp 6 = x.g := (Group.countUp_six _).trans (Group.orFsr_zero x.g)
  rw [hgroup] at hcommits
  exact ⟨t, hrun, hcommits, congrArg Core.mq hcore⟩

/-- Where the queue is empty, a command that acts at once changes its team. -/
theorem runIssue_actsAtOnce (h : Issues s i x prio) {cmd : Nat → MCmd} (hf : f x = { eff := fun u => u.queueNext x.g.core cmd }) (tf : Team → Team)
    (hacts : ∀ u : State, (u.core x.g.core).mq = [] → u.enqueue x.g.core (cmd s.nextId) = (u.setCore x.g.core Core.emptied).setTeam x.g.team tf)
    (hmq : (s.core x.g.core).mq = []) :
    ∃ t, runIssue s i f = .next t ∧ Commits x prio { s with cores := t.cores, teams := t.teams, nextId := s.nextId + 1 } t x.g ∧
      (t.core x.g.core).mq = [] ∧ t.teams = (s.setTeam x.g.team tf).teams := by
  obtain ⟨t, hrun, hcommits, hcore, hteams⟩ := runIssue_coreTeam h hf Core.emptied x.g.team tf
    (fun gs => hacts { s.regrouped gs with nextId := s.nextId + 1 } hmq)
  exact ⟨t, hrun, hcommits, congrArg Core.mq hcore, hteams⟩
end

theorem team_of_teams {s t : State} (h : t.teams = s.teams) (tid : Nat) : t.team tid = s.team tid := congrArg (findD noTeam (fun t => t.tid == tid)) h

/-- The first part of O23: ACLR and MXCLR (R198, R203). -/
theorem clears : Clears := by
  refine ⟨fun a s x prio hwf h hn hteam => ⟨fun hmq => ?_, fun hmq hstands => ?_⟩, fun a s x prio hwf h hteam => ⟨fun hact => ?_, fun hact hmq => ?_,
    fun hact hmq hstands => ?_⟩⟩
  · have ha : x.a = .r a := State.position_args h.pos
    obtain ⟨t, hrun, hcommits, hq, hteams⟩ := runIssue_actsAtOnce h (oAclr_eq ha hn) (fun t => t.setTile (a.m.toNat % 16) (fun _ => Tile.clear (a.m.getLsbD 4)))
      (fun u hu => State.enqueue_aclr hu rfl) hmq
    have htile (n : Nat) : (t.team x.g.team).tile n = _ :=
      (congrArg (fun tm : Team => tm.tile n) (team_of_teams hteams _)).trans (State.setTile_tile hteam (a.m.toNat % 16) (fun _ => Tile.clear (a.m.getLsbD 4)) n)
    exact ⟨t, hrun, hcommits, hq, (htile _).trans (if_pos rfl), fun n hne => (htile n).trans (if_neg hne)⟩
  · have ha : x.a = .r a := State.position_args h.pos
    exact runIssue_queues h (oAclr_eq ha hn) hmq hstands
  · exact runIssue_nothing h (if_pos hact)
  · have ha : x.a = .r a := State.position_args h.pos
    obtain ⟨t, hrun, hcommits, -, hteams⟩ := runIssue_actsAtOnce h (oMxclr_eq ha hact) (fun t => { t with mx := clearedMx (a.m.toNat % 16) t.mx })
      (fun u hu => State.enqueue_mxclr hu rfl) hmq
    have hmx : (t.team x.g.team).mx = clearedMx (a.m.toNat % 16) (s.team x.g.team).mx :=
      (congrArg Team.mx (team_of_teams hteams _)).trans (congrArg Team.mx (State.team_setTeam_self hteam
        (f := fun t => { t with mx := clearedMx (a.m.toNat % 16) t.mx }) fun _ => rfl))
    refine ⟨t, hrun, hcommits, fun k hk => ?_⟩
    have hbit : (a.m.toNat % 16).testBit k = a.m.getLsbD k := by
      rw [show 16 = 2 ^ 4 from rfl, Nat.testBit_mod_two_pow, decide_eq_true hk]
      rfl
    rw [hmx, clearedMx_field _ _ hk, hbit]
  · have ha : x.a = .r a := State.position_args h.pos
    exact runIssue_queues h (oMxclr_eq ha hact) hmq hstands

/-! ## ALD, AST and TFETCH -/

section
variable {s : State} {x : Issue} {a : EArgs}

theorem deferred_of_tileOk {g : Group} {n : Nat} (h : TileOk s g n) (m : Mask) : deferred s g.core g.team n m = [] := if_pos h.2

/-- With an admissible tile and record, a tile instruction raises its counter and goes on to its command (R190). -/
theorem sideOut_of_ok (ha : x.a = .e a) {srcs : List Opr} {tile : Option Nat} {bad : TRec → Bool} {write : Bool} {go : List Byte → State → State}
    {bs : List Byte} (htile : ∀ n, tile = some n → TileOk x.s x.g n) (hrec : RecOk x.s x.g (x.opX.at64 0).toNat bs true write)
    (hbad : bad (trecOf (x.opX.at64 0).toNat (leNat bs)) = false) :
    sideOut x srcs tile bad write go = Out.ofSrcs x srcs
      { eff := fun u => go (leBytes 8 (x.opX.at64 0).toNat ++ bs) (u.setGroup x.g.gid (Group.countUp x.a.dc)) } := by
  have hwindows : windowsOk x.s x.tm (trecOf (x.opX.at64 0).toNat (leNat bs)) true write = [] := hrec.windows
  have hdc : (eArgs x).dc.toNat = x.a.dc := by rw [eArgs, ha]; rfl
  have hrecord : recCheck x.s (agentOf x.g) (x.opX.at64 0).toNat bad = { bytes := some bs } := recCheck_of_ok hrec hbad
  unfold sideOut
  simp only [hrecord, RecChk.val, Option.getD_some, Option.isSome_some, hrec.good, Bool.not_false, Bool.and_self, if_true, hwindows, List.append_nil, toCauses,
    List.map_nil, hdc, State.setGroup_countUp]
  cases tile with
  | none => rfl
  | some n =>
    have hok := htile n rfl
    have hnt : n < x.tm.nt := hok.1
    simp only [if_pos hnt, if_neg (not_le.mpr hnt), deferred_of_tileOk hok, ne_eq, not_true_eq_false, if_false]

/-- A record is kept with its address before it. -/
theorem recOf_append (addr : Nat) (bs : List Byte) : recOf (leBytes 8 addr ++ bs) = trecOf (leNat (leBytes 8 addr)) (leNat bs) := by
  have hlen : (leBytes 8 addr).length = 8 := leBytes_length 8 addr
  rw [recOf, List.take_left' hlen, List.drop_left' hlen]

theorem trecOf_addr (addr v : Nat) : trecOf addr v = { trecOf 0 v with addr := addr } := rfl

theorem sideCmd_eq (ha : x.a = .e a) {u : State} (hid : u.nextId = x.s.nextId) (kind : MKind) (bs : List Byte) (b : Bool) :
    { sideCmd x kind (leBytes 8 (x.opX.at64 0).toNat ++ bs) u with int32 := b } = sideOf x a kind bs b := by
  have hargs : eArgs x = a := by rw [eArgs, ha]
  unfold sideCmd sideOf
  simp only [hargs, hid, BitVec.extractLsb'_toNat, Nat.shiftRight_eq_div_pow]
end

section
variable {s : State} {i : Instr} {x : Issue} {prio : BitVec 8} {f : Issue → Out} {a : EArgs}

/-- A tile instruction whose command joins the queue. -/
theorem runIssue_sideQueues (h : Issues s i x prio) {srcs : List Opr} {go : State → State} {cmd : MCmd}
    (hf : f x = Out.ofSrcs x srcs { eff := fun u => go (u.setGroup x.g.gid (Group.countUp x.a.dc)) }) (hr : Readable srcs)
    (hgo : ∀ u : State, u.nextId = x.s.nextId → go u = { u with nextId := u.nextId + 1 }.enqueue x.g.core cmd)
    (hkind : cmd.kind = .mma ∨ cmd.kind = .ald ∨ cmd.kind = .ast) (hstands : QueueStands s x.g.core) :
    ∃ t, runIssue s i f = .next t ∧ Commits x prio { x.read srcs s with cores := t.cores, nextId := s.nextId + 1 } t (dcUp x (read x srcs)) ∧
      (t.core x.g.core).mq = (s.core x.g.core).mq ++ [cmd] := by
  have hid : (x.read srcs s).nextId = s.nextId := readVas_nextId ..
  have hqueue : QueueStands (x.read srcs s) x.g.core := fun q r hq => hstands q r (by rwa [Issue.read_core] at hq)
  obtain ⟨t, hrun, hcommits, hcore⟩ := runIssue_core h hf hr x.a.dc (Core.queue cmd) (fun gs => by
    have hnext : (((x.read srcs s).regrouped gs).setGroup x.g.gid (Group.countUp x.a.dc)).nextId = x.s.nextId :=
      hid.trans (congrArg State.nextId (State.position_s h.pos).symm)
    rw [hgo _ hnext, ← hid]
    exact State.enqueue_of_stands (core := x.g.core) hqueue fun _ => hkind)
  rw [countUp_eq_dcUp] at hcommits
  exact ⟨t, hrun, hcommits, congrArg Core.mq hcore⟩
end


/-- An ALD's command, and an AST's, joins the queue of machine `v`. -/
def queueAld (x : Issue) (bs : List Byte) (b : Bool) (v : State) : State :=
  { v with nextId := v.nextId + 1 }.enqueue x.g.core { sideCmd x .ald bs v with int32 := b }
def queueAst (x : Issue) (a : EArgs) (bs : List Byte) (b : Bool) (v : State) : State :=
  { v with nextId := v.nextId + 1 }.enqueue x.g.core { sideCmd x .ast bs v with int32 := b, sat := a.mode.getLsbD 8, scale := x.opY.at32 0 }

/-- The command that TFETCH gives its queue (R197). -/
def fetchCmd (x : Issue) (a : EArgs) (bs : List Byte) (id : Nat) : CopyCmd :=
  { id := id, gid := x.g.gid, kind := 10 + a.mode.toNat, recAddr := x.opX.at64 0, dc := a.dc.toNat, record := bs, queue := 17, by_ := x.e.mask }
def queueFetch (x : Issue) (a : EArgs) (bs : List Byte) (v : State) : State :=
  { v with nextId := v.nextId + 1 }.setCore x.g.core (fun c => { c with tfetch := c.tfetch ++ [fetchCmd x a bs v.nextId] })

section
variable {x : Issue} {a : EArgs} {bs : List Byte} (ha : x.a = .e a)
include ha

/-- The command of an ALD joins its queue where the record is admissible (R190, R199). -/
theorem oAld_eq (htile : TileOk x.s x.g (a.z.toNat % 16)) (hrec : RecOk x.s x.g (x.opX.at64 0).toNat bs true false)
    (hperm : (trecOf 0 (leNat bs)).perm = false) (hfmt : (trecOf 0 (leNat bs)).fmt ≠ 5) :
    oAld x = Out.ofSrcs x [x.opX]
      { eff := fun u => queueAld x (leBytes 8 (x.opX.at64 0).toNat ++ bs) (isInt (trecOf 0 (leNat bs)).fmt) (u.setGroup x.g.gid (Group.countUp x.a.dc)) } := by
  have hargs : eArgs x = a := by rw [eArgs, ha]
  have hrecof : (recOf (leBytes 8 (x.opX.at64 0).toNat ++ bs)).fmt = (trecOf 0 (leNat bs)).fmt := by rw [recOf_append, trecOf_addr]
  have hbad : ((trecOf (x.opX.at64 0).toNat (leNat bs)).perm || (trecOf (x.opX.at64 0).toNat (leNat bs)).fmt == 5) = false := by
    rw [trecOf_addr, hperm, Bool.false_or, beq_eq_false_iff_ne]
    exact hfmt
  have hout := sideOut_of_ok (srcs := [x.opX]) (tile := some (a.z.toNat % 16)) (bad := fun r => r.perm || r.fmt == 5)
    (go := fun bs => queueAld x bs (isInt (recOf bs).fmt)) ha (by rintro _ ⟨⟩; exact htile) hrec hbad
  rw [hrecof] at hout
  rw [oAld, hargs]
  exact hout

/-- The same of an AST, whose tile's type admits its format (R190, R200). -/
theorem oAst_eq (htile : TileOk x.s x.g (a.z.toNat % 16)) (hrec : RecOk x.s x.g (x.opX.at64 0).toNat bs true true) {r : TRec}
    (hr : r = trecOf (x.opX.at64 0).toNat (leNat bs)) (hperm : r.perm = false) (hfmt : r.fmt ≠ 5) (hstride : r.rowBytes ≤ r.rstride)
    (hblock : isBfp r.fmt = true → r.cols % r.block = 0) (htype : isInt r.fmt = tileType x.s x.g.core x.g.team (a.z.toNat % 16))
    (hscale : isInt r.fmt = true → x.opY.at32 0 = 0x3F800000#32) :
    oAst x = Out.ofSrcs x [x.opX, x.opY]
      { eff := fun u => queueAst x a (leBytes 8 (x.opX.at64 0).toNat ++ bs) (isInt r.fmt) (u.setGroup x.g.gid (Group.countUp x.a.dc)) } := by
  have hargs : eArgs x = a := by rw [eArgs, ha]
  have hbad : (r.perm || r.fmt == 5 || decide (r.rstride < r.rowBytes) || (isBfp r.fmt && r.cols % r.block != 0)
      || (if isInt r.fmt then !isInt r.fmt || x.opY.at32 0 != 0x3F800000#32 else isInt r.fmt)) = false := by
    have hblocks : (isBfp r.fmt && r.cols % r.block != 0) = false := by
      rw [Bool.and_eq_false_imp]
      exact fun h => by simpa using hblock h
    have hscaled : (if isInt r.fmt then !isInt r.fmt || x.opY.at32 0 != 0x3F800000#32 else isInt r.fmt) = false := by
      split
      · next h => simp [h, hscale h]
      · next h => simpa using h
    simp [hperm, hfmt, hstride, hblocks, hscaled]
  subst hr
  have hout := sideOut_of_ok (srcs := [x.opX, x.opY]) (tile := some (a.z.toNat % 16)) (write := true)
    (bad := fun r' => r'.perm || r'.fmt == 5 || decide (r'.rstride < r'.rowBytes) || (isBfp r'.fmt && r'.cols % r'.block != 0)
      || (if isInt (trecOf (x.opX.at64 0).toNat (leNat bs)).fmt then !isInt r'.fmt || x.opY.at32 0 != 0x3F800000#32 else isInt r'.fmt))
    (go := fun bs' => queueAst x a bs' (isInt (trecOf (x.opX.at64 0).toNat (leNat bs)).fmt))
    ha (by rintro _ ⟨⟩; exact htile) hrec hbad
  rw [oAst, hargs, ← htype]
  exact hout

theorem oTfetch_eq (hrec : RecOk x.s x.g (x.opX.at64 0).toNat bs true false) (hspace : (trecOf 0 (leNat bs)).space = 0) :
    oTfetch x = Out.ofSrcs x [x.opX]
      { eff := fun u => queueFetch x a (leBytes 8 (x.opX.at64 0).toNat ++ bs) (u.setGroup x.g.gid (Group.countUp x.a.dc)) } := by
  have hargs : eArgs x = a := by rw [eArgs, ha]
  have hout := sideOut_of_ok (srcs := [x.opX]) (tile := none) (bad := fun r => r.space != 0) (go := queueFetch x a) ha (by rintro _ ⟨⟩) hrec
      (by rw [bne_eq_false_iff_eq, trecOf_addr]; exact hspace)
  rw [oTfetch, hargs]
  exact hout
end

/-- The second part of O23: ALD, AST and TFETCH (R197, R199, R200). -/
theorem sides : Sides := by
  refine ⟨fun a s x prio bs hwf h hr htile hrec hperm hfmt hstands => ?_, fun a s x prio bs hwf h hr htile hrec => ?_,
    fun a s x prio bs hwf h hr hrec hspace => ?_⟩
  · have ha : x.a = .e a := State.position_args h.pos
    have hs := State.position_s h.pos
    exact runIssue_sideQueues h (oAld_eq ha (hs.symm ▸ htile) (hs.symm ▸ hrec) hperm hfmt) hr (fun u hu => by rw [queueAld, sideCmd_eq ha hu])
      (.inr (.inl rfl)) hstands
  · intro r hperm hfmt hstride hblock htype hscale hstands
    have ha : x.a = .e a := State.position_args h.pos
    have hs := State.position_s h.pos
    refine runIssue_sideQueues h (cmd := { sideOf x a .ast bs (isInt r.fmt) with sat := a.mode.getLsbD 8, scale := x.opY.at32 0 })
      (oAst_eq ha (hs.symm ▸ htile) (hs.symm ▸ hrec) rfl hperm hfmt hstride hblock (hs.symm ▸ htype) hscale) hr (fun u hu => ?_) (.inr (.inr rfl)) hstands
    rw [queueAst, ← sideCmd_eq ha hu]
  · have ha : x.a = .e a := State.position_args h.pos
    have hs := State.position_s h.pos
    have hid : (x.read [x.opX] s).nextId = s.nextId := readVas_nextId ..
    obtain ⟨t, hrun, hcommits, hcore⟩ := runIssue_core h (oTfetch_eq ha (hs.symm ▸ hrec) hspace) hr x.a.dc
      (fun c => { c with tfetch := c.tfetch ++ [fetchCmd x a (leBytes 8 (x.opX.at64 0).toNat ++ bs) s.nextId] }) (fun gs => by rw [← hid]; rfl)
    rw [countUp_eq_dcUp] at hcommits
    exact ⟨t, fetchCmd x a (leBytes 8 (x.opX.at64 0).toNat ++ bs) s.nextId, hrun, hcommits, congrArg Core.tfetch hcore, rfl, rfl, rfl, rfl, rfl, rfl, rfl⟩

/-! ## AMOV and MXRD -/

section
variable {x : Issue}

/-- AMOV promises its row of a tile that nothing has still to write, and that holds no fault (R184, R201). -/
theorem oAmov_lateRow (hwcc : x.a.wcc = false) (hok : (amovRow x).ok = true) : LateRow x (oAmov x) (amovRow x) := by
  simp only [amovRow, Bool.and_eq_true, Bool.not_eq_true'] at hok
  obtain ⟨⟨⟨⟨⟨huni, hn⟩, hr⟩, hshare⟩, hfault⟩, hbusy⟩ := hok
  have huni : needUni x x.opX = [] := needUni_nil (by simpa using huni)
  have hn : decide (x.tm.nt ≤ x.m.toNat % 16) = false := decide_eq_false (not_le.mpr (of_decide_eq_true hn))
  have hr : decide (64 ≤ (x.opX.at32 0).toNat) = false := decide_eq_false (not_le.mpr (of_decide_eq_true hr))
  have hshare : (gangCnt (gangAtIssue x) != 0 && !x.mb 4 && (x.opX.at32 0).toNat % gangCnt (gangAtIssue x) != gangPos (gangAtIssue x)) = false := by
    simp only [Bool.or_eq_true, uni32] at hshare
    rcases hshare with (h | h) | h
    · simp only [bne, h, Bool.not_true, Bool.false_and]
    · simp only [h, Bool.not_true, Bool.and_false, Bool.false_and]
    · simp only [bne, h, Bool.not_true, Bool.and_false]
  have hfault : (x.tm.tile (x.m.toNat % 16)).fcause = 0 := beq_iff_eq.mp hfault
  refine lateRow_of_noCode (sh := none) hwcc ?_ (by rintro _ ⟨⟩)
  unfold oAmov
  simp only [huni, hn, hr, hshare, hfault, Bool.or_self, Bool.false_and, if_true, List.nil_append, Bool.false_eq_true, if_false]
  split
  · next h => exact Bool.noConfusion ((Bool.and_eq_true_iff.mp h).2.symm.trans hbusy)
  · rfl

/-- The row's words of a tile's TYPE, BUSY and FCAUSE are the model's (R180). -/
theorem tileStat_eq (s : State) (core tid n : Nat) : tileStat s core tid n = (if ((s.team tid).tile n).int32 then 1 else 0) +
    (if (s.core core).mq.any (fun q => q.team == tid && q.tile == n && (q.kind == .mma || q.kind == .aclr || q.kind == .ald)) then 2 else 0) +
    256 * ((s.team tid).tile n).fcause := by
  have hbit (b : Bool) : b.toNat = if b then 1 else 0 := by cases b <;> rfl
  have htwo (b : Bool) : 2 * b.toNat = if b then 2 else 0 := by cases b <;> rfl
  rw [tileStat, htwo, hbit]
  rfl

/-- MXRD promises the status of a tile, or the counters of a team whose operations have ended (R180, R203). -/
theorem oMxrd_lateRow (hwcc : x.a.wcc = false) (hok : (mxrdRow x).ok = true) : LateRow64 x (oMxrd x) (mxrdRow x) := by
  refine lateRow64_of_noCode (uni := true) hwcc ?_ fun _ _ => rfl
  by_cases hm : x.mb 0 = true
  · have hn : ¬ x.tm.nt ≤ x.m.toNat / 2 % 16 := by simpa [mxrdRow, hm] using hok
    have hval : (mxrdRow x).val = fun _ => BitVec.ofNat 64 (tileStat x.s x.g.core x.g.team (x.m.toNat / 2 % 16)) := by
      rw [tileStat_eq]
      simp only [mxrdRow, hm, if_true]
      rfl
    rw [hval]
    unfold oMxrd
    simp only [hm, hn, decide_false, Bool.and_false, Bool.not_true, Bool.false_and, Bool.false_eq_true, if_false, if_true]
    rfl
  · have hm : x.mb 0 = false := Bool.eq_false_iff.mpr hm
    have hbusy : (x.s.core x.g.core).mq.any (fun q => q.team == x.g.team && q.kind != .marker && decide (q.id < waitLimit x)) = false := by
      simpa only [mxrdRow, hm, Bool.false_eq_true, if_false, Bool.not_eq_true'] using hok
    have hval : (mxrdRow x).val = fun _ => x.tm.mx := by simp only [mxrdRow, hm, Bool.false_eq_true, if_false]
    rw [hval]
    unfold oMxrd
    simp only [hm, hbusy, Bool.false_and, Bool.and_false, Bool.false_eq_true, if_false]
    rfl
end

/-- Settles O23: each tile instruction issues with what it queues (R197 to R200, R203) or promises (R201, R203). -/
theorem tilesIssue : Obligations.TilesIssue := by
  unfold Obligations.TilesIssue
  refine ⟨clears, sides, fun a s x prio k hwf h hk hok hr hfree htrap => ?_, fun a s x prio k hwf h hk hok hr hfree htrap => ?_⟩
  · obtain rfl : amovRow x = k := Option.some.inj hk
    have hwcc : x.a.wcc = false := by rw [State.position_args h.pos]; exact wcc_eq_false hwf rfl rfl
    exact runIssue_lateRow h (oAmov_lateRow hwcc hok) hr hfree htrap
  · obtain rfl : mxrdRow x = k := Option.some.inj hk
    have hwcc : x.a.wcc = false := by rw [State.position_args h.pos]; exact wcc_eq_false hwf rfl rfl
    exact runIssue_lateRow64 h (oMxrd_lateRow hwcc hok) hr hfree htrap

end Sys2Proof.Machine
end

section
/-! The release of an MMA (R182, R190, R259): the engine's queue and power, the counters of the gang's groups, and the checks of its records. -/

namespace Sys2Proof.Machine
open Sys2Proof.Rules

/-! ## What a release changes of the engine -/

/-- A queued command but for what it has asked of the limiter (R259). -/
def MCmd.unasked (q : MCmd) : MCmd := { q with reqAt := 0, granted := false, grantAt := 0, pinned := false }

/-- The engine of a core and its cluster's limiter have changed, and of the queue only what its commands asked of the limiter. -/
structure EngineOnly (core : Nat) (s t : State) : Prop where
  state : t = { s with cores := t.cores, clusters := t.clusters }
  others : ∀ k, k ≠ core → t.core k = s.core k
  queue : (t.core core).mq.map MCmd.unasked = (s.core core).mq.map MCmd.unasked

section
variable {core : Nat} {s t u : State}

theorem EngineOnly.refl (core : Nat) (s : State) : EngineOnly core s s := ⟨rfl, fun _ _ => rfl, rfl⟩

theorem EngineOnly.trans (h : EngineOnly core s t) (h' : EngineOnly core t u) : EngineOnly core s u :=
  ⟨h'.state.trans (h.state.symm ▸ rfl), fun k hk => (h'.others k hk).trans (h.others k hk), h'.queue.trans h.queue⟩

theorem EngineOnly.setCore {f : Core → Core} (hf : ∀ c, (f c).mq.map MCmd.unasked = c.mq.map MCmd.unasked) : EngineOnly core s (s.setCore core f) :=
  ⟨rfl, fun _ hk => State.core_setCore_ne s hk f, by rw [State.core_setCore_self]; exact hf _⟩

theorem EngineOnly.setCluster (c : Nat) (f : Cluster → Cluster) : EngineOnly core s (s.setCluster c f) := ⟨rfl, fun _ _ => rfl, rfl⟩

/-- Commands of a queue change in what they ask of the limiter. -/
theorem unasked_updWhere (p : MCmd → Bool) {f : MCmd → MCmd} (hf : ∀ q, (f q).unasked = q.unasked) (l : List MCmd) :
    (updWhere p f l).map MCmd.unasked = l.map MCmd.unasked := by
  rw [updWhere, List.map_map]
  refine List.map_congr_left fun q _ => ?_
  rw [Function.comp_apply]
  split
  · exact hf q
  · rfl

theorem State.wakeLimiter_engine (s : State) (cluster : Nat) : EngineOnly core s (s.wakeLimiter cluster) := by
  unfold State.wakeLimiter
  dsimp only
  split
  · exact EngineOnly.setCluster _ _
  · exact EngineOnly.refl core s

theorem State.grant_engine (s : State) (t at_ id : Nat) : EngineOnly core s (s.grant t (at_, core, some id)) := by
  unfold State.grant
  refine EngineOnly.setCore fun c => ?_
  dsimp only
  exact unasked_updWhere _ (by intro q; rfl) c.mq

theorem State.startRequest_engine (s : State) (core id : Nat) : EngineOnly core s (s.startRequest core id) := by
  unfold State.startRequest
  dsimp only
  split
  · exact (State.grant_engine s _ _ id).trans (EngineOnly.setCluster _ _)
  · refine EngineOnly.setCore fun c => ?_
    dsimp only
    exact unasked_updWhere _ (by intro q; rfl) c.mq

theorem State.pinOp_engine (s : State) (core : Nat) (q : MCmd) : EngineOnly core s (s.pinOp core q) := by
  unfold State.pinOp
  split
  · exact EngineOnly.setCore fun _ => rfl
  · exact EngineOnly.refl core s
end

/-- A released MMA joins the queue and asks for its start (R182, R259). -/
def State.queueMma (core : Nat) (q : MCmd) (s : State) : State :=
  let s := { s with nextId := q.id + 1 }.setCore core (Core.queue { q with was := some s.operandsNow })
  ((s.wakeLimiter (clusterOf core)).startRequest core q.id).pinOp core q

theorem State.queueMma_engine (core : Nat) (q : MCmd) (s : State) :
    EngineOnly core ({ s with nextId := q.id + 1 }.setCore core (Core.queue { q with was := some s.operandsNow })) (s.queueMma core q) :=
  ((State.wakeLimiter_engine _ _).trans (State.startRequest_engine _ core q.id)).trans (State.pinOp_engine _ core q)

/-- A release raises its counters and queues its command (R182). -/
theorem State.releaseMma_eq (s : State) (core : Nat) (q : MCmd) (ms : List (Nat × Nat)) :
    s.releaseMma core q ms = (ms.foldl (fun s p => s.setGroup p.1 (Group.countUp p.2)) s).queueMma core { q with members := ms } := by
  simp only [State.setGroup_countUp]
  rfl

/-- The queue ends with the released command. -/
theorem State.queueMma_queue (core : Nat) (q : MCmd) (s : State) :
    ∃ r c, ((s.queueMma core q).core core).mq = r ++ [c] ∧ r.length = (s.core core).mq.length ∧ c.unasked = { q with was := some s.operandsNow }.unasked := by
  have hqueue := (State.queueMma_engine core q s).queue
  rw [State.core_setCore_self, Core.queue, List.map_append, List.map_eq_append_iff] at hqueue
  obtain ⟨r, l, hmq, hr, hl⟩ := hqueue
  obtain ⟨c, rfl, hc⟩ := List.map_eq_singleton_iff.mp hl
  exact ⟨r, c, hmq, (List.length_map _).symm.trans ((congrArg List.length hr).trans (List.length_map _)), hc⟩

theorem State.queueMma_state (core : Nat) (q : MCmd) (s : State) :
    s.queueMma core q = { s with cores := (s.queueMma core q).cores, clusters := (s.queueMma core q).clusters, nextId := q.id + 1 } :=
  (State.queueMma_engine core q s).state

theorem State.queueMma_groups (core : Nat) (q : MCmd) (s : State) : (s.queueMma core q).groups = s.groups :=
  (congrArg State.groups (State.queueMma_state core q s)).trans rfl

theorem State.queueMma_core (core : Nat) (q : MCmd) (s : State) {k : Nat} (hk : k ≠ core) : (s.queueMma core q).core k = s.core k :=
  ((State.queueMma_engine core q s).others k hk).trans (State.core_setCore_ne _ hk _)

/-- Of a machine with other groups, all but its groups is left. -/
theorem OnlyGroup.regrouped {s t : State} {gid : Nat} {gs : List Group} {g : Group} (h : OnlyGroup gid (s.regrouped gs) t g) :
    t = s.regrouped t.groups := h.state

/-- But for groups, a machine whose engine has queued a command has released it. -/
theorem released1_of_queueMma {s t : State} {core : Nat} {q : MCmd} {gs : List Group} (hid : q.id = s.nextId)
    (ht : t = ((s.regrouped gs).queueMma core q).regrouped t.groups) :
    ∃ c, Released1 s t core c ∧ c.unasked = { q with was := some s.operandsNow }.unasked := by
  have hcores : t.cores = ((s.regrouped gs).queueMma core q).cores := (congrArg State.cores ht).trans rfl
  have hclusters : t.clusters = ((s.regrouped gs).queueMma core q).clusters := (congrArg State.clusters ht).trans rfl
  have hcore (k : Nat) : t.core k = ((s.regrouped gs).queueMma core q).core k := by
    rw [State.core, hcores]
    rfl
  obtain ⟨r, c, hmq, hlen, hc⟩ := State.queueMma_queue core q (s.regrouped gs)
  refine ⟨c, ⟨?_, r, (hcore core).symm ▸ hmq, hlen, fun k hk => (hcore k).trans (State.queueMma_core core q _ hk)⟩, hc⟩
  rw [State.queueMma_state, ← hcores, ← hclusters, hid] at ht
  exact ht

/-! ## The checks of a release -/

/-- The command of an MMA `h` whose records read `ba` and `bb` (R188 to R190). -/
def mmaCmdOf (s : State) (g : Group) (h : HurdleSt) (ba bb : List Byte) (ms : List (Nat × Nat)) : MCmd :=
  { id := s.nextId, team := g.team, gid := g.gid, kind := .mma, tile := h.z % 16, mode := h.mode % 16, m := 16 * 2 ^ field h.mode 4 2,
    n := 16 * 2 ^ field h.mode 6 2, k := (h.z / 16 + 1) * 32, acc := h.mode.testBit 8, int32 := modeInt (h.mode % 16),
    recA := leBytes 8 h.xv.toNat ++ ba, recB := leBytes 8 h.yv.toNat ++ bb, pA := s.preg g.team (trecOf 0 (leNat ba)).preg,
    pB := s.preg g.team (trecOf 0 (leNat bb)).preg, members := ms }

section
variable {s : State} {g : Group} {h : HurdleSt} {ba bb : List Byte}

theorem State.releaseMma_cmd (v : State) (core : Nat) (ms : List (Nat × Nat)) : v.releaseMma core (mmaCmdOf s g h ba bb []) ms =
    (ms.foldl (fun s p => s.setGroup p.1 (Group.countUp p.2)) v).queueMma core (mmaCmdOf s g h ba bb ms) := State.releaseMma_eq ..

/-- Admissible records of fitting formats, of which no check of R190 says otherwise. -/
theorem mmaCheck_of_ok (hok : MmaOk s g h ba bb) (m : Mask) : mmaCheck s g h m = ([], none, mmaCmdOf s g h ba bb []) := by
  obtain ⟨htile, hA, hB, ⟨hfA, hfB⟩, hblock, hacc⟩ := hok
  have hrecA := recCheck_of_ok (bad := fun _ => false) hA rfl
  have hrecB := recCheck_of_ok (bad := fun _ => false) hB rfl
  have hnt : h.z % 16 < (s.team g.team).nt := htile.1
  have hwA : windowsOk s (s.team g.team) (trecOf h.xv.toNat (leNat ba)) (!(trecOf h.xv.toNat (leNat ba)).trans) false = [] := hA.windows
  have hwB : windowsOk s (s.team g.team) (trecOf h.yv.toNat (leNat bb)) (trecOf h.yv.toNat (leNat bb)).trans false = [] := hB.windows
  have hbad : ((!modeFmt (h.mode % 16) (trecOf h.xv.toNat (leNat ba)).fmt || (h.mode % 16 == 4 && (h.z / 16 + 1) * 32 % blockSize (trecOf h.xv.toNat (leNat ba)).bsz != 0))
      || (!modeFmt (h.mode % 16) (trecOf h.yv.toNat (leNat bb)).fmt || (h.mode % 16 == 4 && (h.z / 16 + 1) * 32 % blockSize (trecOf h.yv.toNat (leNat bb)).bsz != 0))
      || (h.mode % 16 == 4 && (trecOf h.xv.toNat (leNat ba)).bsz != (trecOf h.yv.toNat (leNat bb)).bsz)
      || (h.mode.testBit 8 && tileType s g.core g.team (h.z % 16) != modeInt (h.mode % 16))) = false := by
    rw [trecOf_addr h.xv.toNat, trecOf_addr h.yv.toNat, hfA, hfB]
    by_cases hm : h.mode % 16 = 4
    · obtain ⟨hbsz, hk⟩ := hblock hm
      have hk' := hk
      rw [hbsz] at hk'
      cases hb : h.mode.testBit 8 with
      | true => simp [hbsz, hk', hacc hb]
      | false => simp [hbsz, hk']
    · cases hb : h.mode.testBit 8 with
      | true => simp [hm, hacc hb]
      | false => simp [hm]
  unfold mmaCheck
  simp only [hrecA, hrecB, RecChk.val, Option.getD_some, Option.isSome_some, hA.good, hB.good, hwA, hwB, if_pos hnt, decide_eq_false (not_le.mpr hnt),
    deferred_of_tileOk htile, Bool.true_and, hbad, Bool.not_false, if_true, Bool.false_eq_true, if_false, List.append_nil, ne_eq, not_true_eq_false,
    toCauses, List.map_nil]
  rfl

/-- The released command is that of its MMA. -/
theorem mmaCmd_of_unasked {c : MCmd} {ms : List (Nat × Nat)} {v : State} (hmem : v.mem = s.mem) (hteams : v.teams = s.teams)
    (hc : c.unasked = { mmaCmdOf s g h ba bb ms with was := some v.operandsNow }.unasked) : MmaCmd s g h ba bb ms c := by
  have hwas : c.was = some v.operandsNow := (congrArg MCmd.was hc).trans rfl
  rw [State.operandsNow, hmem, hteams] at hwas
  exact ⟨⟨congrArg MCmd.id hc, congrArg MCmd.team hc, congrArg MCmd.gid hc, congrArg MCmd.kind hc, congrArg MCmd.members hc⟩,
    ⟨congrArg MCmd.tile hc, congrArg MCmd.mode hc, congrArg MCmd.acc hc, congrArg MCmd.int32 hc⟩,
    ⟨congrArg MCmd.m hc, congrArg MCmd.n hc, congrArg MCmd.k hc⟩, ⟨congrArg MCmd.recA hc, congrArg MCmd.recB hc⟩,
    ⟨congrArg MCmd.pA hc, congrArg MCmd.pB hc⟩, ⟨congrArg MCmd.started hc, congrArg MCmd.done hc, congrArg MCmd.fault hc⟩, hwas⟩
end

end Sys2Proof.Machine
end

section
/-! GANG, MMA and the Hurdle (O22). -/

namespace Sys2Proof.Machine
open Sys2Proof.Rules

/-! ## GANG -/

/-- The groups that a gang's mask names (R181). -/
def gangBits (v : Nat) : List Nat := (List.range 16).filter (fun i => v.testBit i)

theorem mem_gangBits {v i : Nat} : i ∈ gangBits v ↔ i < 16 ∧ v.testBit i = true := by simp [gangBits]

/-- The bits below an index, counted in the mask or in the index. -/
theorem length_gangBits_below (v index : Nat) : ((gangBits v).filter (fun i => decide (i < index))).length =
    ((List.range index).filter (fun i => i < 16 ∧ v.testBit i)).length := by
  refine List.Perm.length_eq ((List.perm_ext_iff_of_nodup ((List.nodup_range.filter _).filter _) (List.nodup_range.filter _)).mpr fun i => ?_)
  rw [List.mem_filter, ← gangBits, mem_gangBits, List.mem_filter, List.mem_range, decide_eq_true_eq, decide_eq_true_eq]
  exact and_comm

theorem gangWord_eq (index v : Nat) : gangWord index v = BitVec.ofNat 32 (if v = 0 then 0 else
    v + (gangBits v).length * 2 ^ 16 + ((gangBits v).filter (fun i => decide (i < index))).length * 2 ^ 20) := by
  rw [length_gangBits_below, gangWord]
  split
  · rfl
  · rw [Nat.mul_comm (2 ^ 16), Nat.mul_comm (2 ^ 20)]
    rfl

/-- The group's gang register is set. -/
def Group.ganged (r : Word) (g : Group) : Group := { g with gangreg := r }

/-- GANG refuses a mask (R181). -/
def gangRefused (x : Issue) (v : Nat) : Bool :=
  decide (2 ^ 16 ≤ v) || (v != 0 && (!(gangBits v).contains x.g.index || decide ((gangBits v).length < 2) || decide (6 < (gangBits v).length)
    || (gangBits v).any (fun i => decide (x.tm.ngrp ≤ i)
      || !(match (x.s.groupsOf x.g.team).find? (fun g => g.index == i) with | some g => g.role == 1 | none => false))))

section
variable {x : Issue} (h : (gangAct x).ok)
include h

/-- No mask of MATRIX groups that names its own is refused. -/
theorem gangRefused_of_ok : gangRefused x (uni64 x.opX) = false := by
  obtain ⟨-, -, hlt, hmask⟩ := h
  rw [gangRefused, decide_eq_false (not_le.mpr hlt), Bool.false_or, Bool.and_eq_false_imp]
  intro hne
  obtain ⟨hindex, hown, htwo, hsix, hgroups⟩ := hmask (bne_iff_ne.mp hne)
  have hcontains : (gangBits (uni64 x.opX)).contains x.g.index = true := List.contains_iff_mem.mpr (mem_gangBits.mpr ⟨hindex, hown⟩)
  have hroles : (gangBits (uni64 x.opX)).any (fun i => decide (x.tm.ngrp ≤ i)
      || !(match (x.s.groupsOf x.g.team).find? (fun g => g.index == i) with | some g => g.role == 1 | none => false)) = false := by
    refine List.any_eq_false.mpr fun i hi => ?_
    obtain ⟨hn, g, hg, hrole⟩ := hgroups i (mem_gangBits.mp hi).2
    rw [decide_eq_false (not_le.mpr hn), hg]
    simp [hrole]
  rw [hcontains, hroles, gangBits, decide_eq_false (not_lt.mpr htwo), decide_eq_false (not_lt.mpr hsix)]
  rfl

/-- A mask that is not refused sets the gang. -/
theorem oGang_eq : oGang x = Out.ofSrcs x [x.opX] { eff := fun u => u.setGroup x.g.gid (Group.ganged (gangWord x.g.index (uni64 x.opX))) } := by
  have hrefused := gangRefused_of_ok h
  obtain ⟨huni, hhurdle, hlt, -⟩ := h
  have hval : (x.opX.at64 0).toNat = uni64 x.opX := rfl
  have hmod : uni64 x.opX % 2 ^ 16 = uni64 x.opX := Nat.mod_eq_of_lt hlt
  have hno : ¬ (gangRefused x (uni64 x.opX) && x.opX.uni) = true := by
    rw [hrefused]
    exact Bool.false_ne_true
  rw [gangWord_eq, gangBits]
  unfold oGang
  simp only [hval, hmod, needUni_nil huni, hhurdle, List.isEmpty_nil, Bool.not_true, Bool.and_false, List.nil_append]
  exact congrArg (fun cs => Out.ofSrcs x [x.opX] { causes := cs, eff := _ }) (if_neg hno)
end

/-- The first part of O22: GANG (R181). -/
theorem gangs (a : RArgs) : Acts (.gang a) gangAct := by
  intro s x prio hwf h hok hr
  have hs := State.position_s h.pos
  obtain ⟨t, hrun, hcommits⟩ := runIssue_effect h (ws := []) (oGang_eq hok) hr (free_nil x) (by simp) (by simp)
    (Group.ganged (gangWord x.g.index (uni64 x.opX))) (fun _ => rfl) (fun _ => rfl) (fun _ => rfl)
  refine ⟨t, hrun, ?_⟩
  rw [← hs] at hcommits
  refine hcommits.of_sched ?_
  rw [List.foldl_nil, commit_eq_with_commits]
  rfl

/-! ## MMA -/

/-- The warp waits at the Hurdle (R182). -/
def Warp.hurdled (now : Nat) (w : Warp) : Warp := { w.waitOn .hurdle now with released := false }
/-- The group whose MMA stands at the Hurdle. -/
def Group.hurdled (h : HurdleSt) (now : Nat) (g : Group) : Group := { g with hurdle := [h] }.setWarp h.wid (Warp.hurdled now)

section
variable {s : State} {x : Issue} {prio : BitVec 8} {a : EArgs}

theorem hurdleOf_eq (ha : x.a = .e a) : hurdleOf x =
    { wid := x.w.wid, gangreg := x.g.gangreg, mode := a.mode.toNat, z := a.z.toNat, xv := x.opX.at64 0, yv := x.opY.at64 0, q := a.q.toNat, dc := a.dc.toNat,
      mask := x.e.mask, order := x.s.nextId, at_ := (x.s.cluster (clusterOf x.g.core)).fclk } := by
  have hargs : eArgs x = a := by rw [eArgs, ha]
  unfold hurdleOf
  rw [hargs]

/-- A gang's MMA arrives at the Hurdle. -/
theorem oMma_arrives (hrel : x.w.released = false) (hno : x.g.hurdle = []) (hgang : gangCnt x.g.gangreg ≠ 0) :
    oMma x = Out.ofSrcs x [x.opX, x.opY] { stay := true, eff := fun u => u.setGroup x.g.gid (Group.hurdled (hurdleOf x) u.bw) } := by
  have heff (u : State) : u.setGroup x.g.gid (Group.hurdled (hurdleOf x) u.bw) =
      (u.setGroup x.g.gid (fun g => { g with hurdle := [hurdleOf x] })).setWarp x.g.gid x.w.wid (Warp.hurdled u.bw) :=
    (State.setGroup_setGroup u x.g.gid (fun g => { g with hurdle := [hurdleOf x] }) (fun g => g.setWarp x.w.wid (Warp.hurdled u.bw)) fun _ => rfl).symm
  simp only [heff]
  unfold oMma
  simp only [hrel, hno, List.isEmpty_nil, Bool.not_true, Bool.false_eq_true, if_false]
  rw [if_pos hgang]
  rfl

/-- A solo group's MMA that may be released raises its counter and joins the queue. -/
theorem oMma_releases (ha : x.a = .e a) (hrel : x.w.released = false) (hno : x.g.hurdle = []) (hsolo : gangCnt x.g.gangreg = 0) {ba bb : List Byte}
    (hok : MmaOk x.s x.g (hurdleOf x) ba bb) : oMma x = Out.ofSrcs x [x.opX, x.opY]
      { eff := fun u => (u.setGroup x.g.gid (Group.countUp x.a.dc)).queueMma x.g.core (mmaCmdOf x.s x.g (hurdleOf x) ba bb [(x.g.gid, a.dc.toNat)]) } := by
  have hargs : eArgs x = a := by rw [eArgs, ha]
  have hdc : x.a.dc = a.dc.toNat := by rw [ha]; rfl
  unfold oMma
  simp only [hrel, hno, List.isEmpty_nil, Bool.not_true, Bool.false_eq_true, if_false, mmaCheck_of_ok hok, hargs, hdc, State.releaseMma_cmd, List.foldl_cons,
    List.foldl_nil]
  rw [if_neg (fun h => h hsolo)]
end

/-- The second part of O22: MMA (R182, R188). -/
theorem mmas (a : EArgs) : Mmas a := by
  intro s x prio hwf h
  obtain rfl : x.s = s := State.position_s h.pos
  have ha : x.a = .e a := State.position_args h.pos
  dsimp only
  rw [← hurdleOf_eq ha]
  refine ⟨fun hrel => runIssue_nothing h (if_pos hrel), fun hrel hno hr hgang => ?_, fun hrel hno hr hsolo ba bb hok => ?_⟩
  · obtain ⟨ps, hrun⟩ := runIssue_eff h (oMma_arrives hrel hno hgang) hr
    have hwarp : (x.g.commit x.act (wobFlag [x.opX, x.opY]) []).warp x.w.wid = some x.w := by
      rw [Group.warp, Group.commit_warps]
      exact State.position_warp h.pos
    obtain ⟨hstate, hothers, hgroup⟩ := State.setGroup_changes (Issue.noted_group h [x.opX, x.opY])
      (Group.hurdled (hurdleOf x) (x.noted [x.opX, x.opY] x.s).bw) (fun _ => rfl)
    refine ⟨_, _, _, hrun, hstate, fun j hj => (hothers j hj).trans (Issue.noted_group_ne hj _), hgroup, ?_,
      (find_updWhere_self Warp.wid x.w.wid (Warp.hurdled _) (fun _ => rfl) _).trans (congrArg _ hwarp), rfl, rfl⟩
    rw [commit_eq_with_commits]
    rfl
  · obtain ⟨t, gs, hrun, hcommits⟩ := runIssue_side h (oMma_releases ha hrel hno hsolo hok) hr (Group.countUp x.a.dc)
      (State.queueMma x.g.core (mmaCmdOf x.s x.g (hurdleOf x) ba bb [(x.g.gid, a.dc.toNat)])) (Group.countUp_gid _) (Group.countUp_warps _) (fun _ => rfl)
      (State.queueMma_groups _ _)
    obtain ⟨hsame, hgoes⟩ := hcommits.of_sched (countUp_commit_sched x.a.dc x.act (wobFlag [x.opX, x.opY]) x.g)
    have hid : (x.read [x.opX, x.opY] x.s).nextId = x.s.nextId := readVas_nextId ..
    obtain ⟨c, hreleased, hc⟩ := released1_of_queueMma hid.symm hsame.regrouped
    obtain ⟨k, hk, hsched⟩ := hsame.group
    rw [countUp_eq_dcUp] at hsched
    exact ⟨t, k, c, hrun, hreleased, mmaCmd_of_unasked (readVas_mem ..) (readVas_teams ..) hc, hgoes,
      fun j hj => (hsame.others j hj).trans (readVas_group ..), hk, hsched⟩

end Sys2Proof.Machine
end

section
/-! The Hurdle (O22): the groups of a gang, whose changes name different groups. -/

namespace Sys2Proof.Machine
open Sys2Proof.Rules

/-! ## Changes of several groups -/

/-- Changes of groups under different numbers: each group has had its own change, and the others none. -/
theorem State.foldl_setGroup {α : Type} {f : State → α → State} {key : α → Nat} {F : α → Group → Group} (hgid : ∀ a g, (F a g).gid = g.gid) (now : Nat)
    (l : List α) (hf : ∀ a ∈ l, ∀ u : State, u.bw = now → f u a = u.setGroup (key a) (F a)) (hnodup : (l.map key).Nodup) (s : State) (hs : s.bw = now) :
    l.foldl f s = s.regrouped (l.foldl f s).groups ∧ (∀ a ∈ l, (l.foldl f s).group (key a) = (s.group (key a)).map (F a)) ∧
      ∀ k, k ∉ l.map key → (l.foldl f s).group k = s.group k := by
  induction l generalizing s with
  | nil => exact ⟨rfl, by simp, fun _ _ => rfl⟩
  | cons a r ih =>
    obtain ⟨hnew, hnodup⟩ := List.nodup_cons.mp hnodup
    have hone : f s a = s.setGroup (key a) (F a) := hf a List.mem_cons_self s hs
    obtain ⟨hstate, hgroups, hothers⟩ := ih (fun b hb => hf b (List.mem_cons_of_mem a hb)) hnodup (f s a) (by rw [hone]; exact hs)
    rw [List.foldl_cons]
    have hself : (f s a).group (key a) = (s.group (key a)).map (F a) := by
      rw [hone]
      exact State.group_setGroup_self s _ _ (hgid a)
    have hne (k : Nat) (hk : k ≠ key a) : (f s a).group k = s.group k := by
      rw [hone]
      exact State.group_setGroup_ne s _ k _ (hgid a) hk
    refine ⟨?_, fun b hb => ?_, fun k hk => ?_⟩
    · rw [hstate, hone]
      rfl
    · rcases List.mem_cons.mp hb with rfl | hb
      · exact (hothers _ hnew).trans hself
      · have hkey : key b ≠ key a := fun h => hnew (h ▸ List.mem_map_of_mem hb)
        exact (hgroups b hb).trans (congrArg _ (hne _ hkey))
    · obtain ⟨hka, hkr⟩ : k ≠ key a ∧ k ∉ r.map key := by simpa using hk
      exact (hothers k hkr).trans (hne k hka)

/-! ## What becomes of a gang's group -/

/-- The MMA at a group's Hurdle, by its warp and its counter. -/
def Group.hurdleWarp (g : Group) : Nat := match g.hurdle with | h :: _ => h.wid | [] => 0
def Group.hurdleDc (g : Group) : Nat := match g.hurdle with | h :: _ => h.dc | [] => 6

/-- The Hurdle of a group empties, and its warp goes on (R182). -/
def Group.leaves (wid now : Nat) (g : Group) : Group := { g with hurdle := [] }.releases wid now

/-- A counter below 63 that there is rises by one (R71, R137). -/
theorem Group.countUp_dcv {g : Group} {n : Nat} (h : n < 6 → n < g.dc.length) (k : Nat) :
    (g.countUp n).dcv k = g.dcv k + if k = n ∧ k < 6 then 1 else 0 := by
  unfold Group.countUp
  by_cases hn : n < 6
  · rw [if_pos hn]
    refine (getD_modAt (· + 1) n k g.dc 0).trans ?_
    by_cases hk : k = n
    · subst hk
      rw [if_pos ⟨rfl, h hn⟩, if_pos ⟨rfl, hn⟩]
      rfl
    · rw [if_neg fun hh => hk hh.1, if_neg fun hh => hk hh.1]
      rfl
  · rw [if_neg hn, if_neg fun hh : k = n ∧ k < 6 => hn (hh.1 ▸ hh.2)]
    rfl

/-- The items in which a group's MMA differs from another (R183). -/
def Group.differs (lh : HurdleSt) (g : Group) : List Nat := match g.hurdle with
  | [] => []
  | k :: _ => (List.range 6).filter (fun i => k.items.getD i 0 != lh.items.getD i 0)

theorem Group.differs_of_items {g : Group} {k lh : HurdleSt} {l : List HurdleSt} (hk : g.hurdle = k :: l) (h : k.items = lh.items) : g.differs lh = [] := by
  unfold Group.differs
  rw [hk]
  simp [h]

section
variable {s : State} {g low : Group} {h hl : HurdleSt} {r rl : List HurdleSt}

/-- The order in which the Hurdle takes a gang's groups. -/
def gangSorted (s : State) (g : Group) (h : HurdleSt) : List Group := (gangGroups s g h).mergeSort (fun a b => decide (a.index ≤ b.index))

theorem gangSorted_perm (s : State) (g : Group) (h : HurdleSt) : (gangSorted s g h).Perm (gangGroups s g h) := List.mergeSort_perm ..
theorem mem_gangSorted {q : Group} : q ∈ gangSorted s g h ↔ q ∈ gangGroups s g h := (gangSorted_perm s g h).mem_iff

/-- The lowest group of the gang comes first. -/
theorem gangSorted_head (hlow : low ∈ gangGroups s g h) (hleast : ∀ q ∈ gangGroups s g h, q.index < low.index → False)
    (honly : ∀ q ∈ gangGroups s g h, q.index = low.index → q = low) : ∃ l, gangSorted s g h = low :: l := by
  have hsorted : (gangSorted s g h).Pairwise (fun a b => decide (a.index ≤ b.index) = true) :=
    List.pairwise_mergeSort (fun a b c hab hbc => by simp only [decide_eq_true_eq] at *; omega)
      (fun a b => by simp only [Bool.or_eq_true, decide_eq_true_eq]; omega) _
  have hmem := mem_gangSorted.mpr hlow
  cases hgs : gangSorted s g h with
  | nil => exact absurd (hgs ▸ hmem) List.not_mem_nil
  | cons a l =>
    rw [hgs] at hsorted hmem
    have ha : a ∈ gangGroups s g h := mem_gangSorted.mp (hgs ▸ List.mem_cons_self)
    have hle : a.index ≤ low.index := by
      rcases List.mem_cons.mp hmem with rfl | hin
      · exact le_refl _
      · exact of_decide_eq_true ((List.pairwise_cons.mp hsorted).1 _ hin)
    have heq : a = low := honly a ha (le_antisymm hle (not_lt.mp fun hlt => hleast a ha hlt))
    exact ⟨l, by rw [heq]⟩

/-- Where every group of the gang stands at the Hurdle, they may go. -/
theorem gangOf_ready (hst : (s.team g.team).st = .resident ∨ (s.team g.team).st = .draining) (hat : ∀ q ∈ gangGroups s g h, AtHurdle s q hl) :
    gangOf s g h = (gangSorted s g h, true) := by
  have hstate : ((s.team g.team).st == .resident || (s.team g.team).st == .draining) = true := by
    rcases hst with hst | hst <;> rw [hst] <;> rfl
  have hall : (gangSorted s g h).all (fun q => match q.hurdle with
      | [] => false
      | h :: _ => decide (h.at_ < (s.cluster (clusterOf q.core)).fclk) && !(decide (h.dc < 6) && q.dcFull h.dc)) = true := by
    refine List.all_eq_true.mpr fun q hq => ?_
    obtain ⟨-, k, l, hk, -, hold, hdc, -⟩ := hat q (mem_gangSorted.mp hq)
    rw [hk]
    simp only [hold, decide_true, Bool.true_and, Bool.not_eq_true', Bool.and_eq_false_imp, decide_eq_true_eq]
    exact fun h => (hdc h).1
  have hready := (Bool.and_eq_true_iff.mpr ⟨hstate, hall⟩)
  exact Prod.ext rfl hready

/-- A gang that stands with equal items, whose lowest group's MMA may be released, is released (R183, R190). -/
theorem hurdlePlan_go {ba bb : List Byte} (hg : g.hurdle = h :: r) (hst : (s.team g.team).st = .resident ∨ (s.team g.team).st = .draining)
    (hat : ∀ q ∈ gangGroups s g h, AtHurdle s q hl) {l : List Group} (hsorted : gangSorted s g h = low :: l) (hlow : low.hurdle = hl :: rl)
    (hok : MmaOk s low hl ba bb) : hurdlePlan s g = .go (gangSorted s g h) low.core (mmaCmdOf s low hl ba bb []) := by
  have hsame : ¬ (!((low :: l).filter (fun q => !(q.differs hl).isEmpty)).isEmpty) = true := by
    rw [← hsorted, List.filter_eq_nil_iff.mpr fun q hq => ?_]
    · exact Bool.false_ne_true
    · obtain ⟨-, k, l, hk, hitems, -⟩ := hat q (mem_gangSorted.mp hq)
      rw [Group.differs_of_items hk hitems]
      exact Bool.false_ne_true
  unfold hurdlePlan
  rw [hg]
  simp only [gangOf_ready hst hat, hsorted, hlow, mmaCheck_of_ok hok]
  refine (if_neg hsame).trans ?_
  rfl

/-- The counters that a release of the gang raises (R182). -/
def gangMembers (s : State) (g : Group) (h : HurdleSt) : List (Nat × Nat) := (gangSorted s g h).map (fun q => (q.gid, q.hurdleDc))

theorem mem_gangMembers (hat : ∀ q ∈ gangGroups s g h, AtHurdle s q hl) (p : Nat × Nat) :
    p ∈ gangMembers s g h ↔ ∃ q ∈ gangGroups s g h, ∃ k l, q.hurdle = k :: l ∧ p = (q.gid, k.dc) := by
  have hdc (q : Group) {k : HurdleSt} {l : List HurdleSt} (hk : q.hurdle = k :: l) : q.hurdleDc = k.dc := by rw [Group.hurdleDc, hk]
  rw [gangMembers, List.mem_map]
  refine ⟨fun ⟨q, hq, hp⟩ => ?_, fun ⟨q, hq, k, l, hk, hp⟩ => ⟨q, mem_gangSorted.mpr hq, by rw [hdc q hk, hp]⟩⟩
  have hq := mem_gangSorted.mp hq
  obtain ⟨-, k, l, hk, -⟩ := hat q hq
  exact ⟨q, hq, k, l, hk, by rw [← hp, hdc q hk]⟩

/-- Each group leaves the Hurdle after a release. -/
def State.leaveHurdle (s : State) (g : Group) : State := match g.hurdle with
  | h :: _ => (s.setGroup g.gid (fun g => { g with hurdle := [] })).release g.gid h.wid
  | [] => s

theorem State.leaveHurdle_eq (s : State) {q : Group} {k : HurdleSt} {l : List HurdleSt} (hk : q.hurdle = k :: l) :
    s.leaveHurdle q = s.setGroup q.gid (Group.leaves q.hurdleWarp s.bw) := by
  have hwarp : q.hurdleWarp = k.wid := by rw [Group.hurdleWarp, hk]
  unfold State.leaveHurdle
  rw [hk, hwarp]
  exact (State.release_eq ..).trans (State.setGroup_setGroup s q.gid (fun g => { g with hurdle := [] }) (fun g => g.releases k.wid s.bw) fun _ => rfl)

theorem execHurdleRelease_go {gid core : Nat} {gs : List Group} {q : MCmd} (hg : s.group gid = some g) (hplan : hurdlePlan s g = .go gs core q) :
    exec (.hurdleRelease gid) s = .next (gs.foldl State.leaveHurdle (s.releaseMma core q (gs.map (fun g => (g.gid, g.hurdleDc))))) := by
  show execHurdleRelease gid s = _
  unfold execHurdleRelease
  rw [hg]
  simp only [hplan]
  rfl
end

/-- The groups of a gang whose counters have risen and whose warps go on. -/
theorem leaves_spec {t : State} {q : Group} {k : HurdleSt} {l : List HurdleSt} {w : Warp} {now : Nat} (hk : q.hurdle = k :: l) (hw : q.warp k.wid = some w)
    (hdc : k.dc < 6 → k.dc < q.dc.length) (ht : t.group q.gid = some ((q.countUp q.hurdleDc).leaves q.hurdleWarp now)) :
    Released t q.gid k.wid ∧ ∃ m, t.group q.gid = some m ∧ m.hurdle = [] ∧ m.v = q.v ∧ m.s = q.s ∧
      ∀ n, m.dcv n = q.dcv n + if n = k.dc ∧ n < 6 then 1 else 0 := by
  have hwid : q.hurdleWarp = k.wid := by rw [Group.hurdleWarp, hk]
  have hcounter : q.hurdleDc = k.dc := by rw [Group.hurdleDc, hk]
  rw [hwid, hcounter] at ht
  have hvec : (q.countUp k.dc).v = q.v := by rw [Group.countUp_frame]
  have hscalar : (q.countUp k.dc).s = q.s := by rw [Group.countUp_frame]
  have hwarp : (q.countUp k.dc).warp k.wid = some w := by
    rw [Group.warp, Group.countUp_warps]
    exact hw
  have hfree : ((q.countUp k.dc).leaves k.wid now).warp k.wid = some (Warp.releasedBy k.wid w) :=
    (Group.releases_warp { q.countUp k.dc with hurdle := [] } k.wid now k.wid).trans (congrArg _ hwarp)
  have hreleased : Warp.releasedBy k.wid w = w.free := by
    rw [Warp.releasedBy, if_pos (Group.find_wid hw)]
    rfl
  rw [hreleased] at hfree
  exact ⟨⟨_, _, ht, hfree, rfl, rfl⟩, _, ht, rfl, hvec, hscalar, Group.countUp_dcv hdc⟩

/-- The third part of O22: HURDLE_RELEASE (R182, R183). -/
theorem hurdleReleases (gid : Nat) : HurdleReleases gid := by
  intro s g low h hl r rl ba bb hg hhurdle hst hat hnodup hlow hlowHurdle hleast honly hok
  obtain ⟨l, hsorted⟩ := gangSorted_head hlow hleast honly
  have hrun := execHurdleRelease_go hg (hurdlePlan_go hhurdle hst hat hsorted hlowHurdle hok)
  rw [← gangMembers, State.releaseMma_cmd] at hrun
  have hnodup : ((gangSorted s g h).map (·.gid)).Nodup := ((gangSorted_perm s g h).map _).nodup_iff.mpr hnodup
  obtain ⟨v, hv⟩ : ∃ v, v = (gangMembers s g h).foldl (fun s p => s.setGroup p.1 (Group.countUp p.2)) s := ⟨_, rfl⟩
  obtain ⟨hvstate, hvgroups, -⟩ := State.foldl_setGroup (key := Prod.fst) (F := fun p : Nat × Nat => Group.countUp p.2) (fun p => Group.countUp_gid p.2) s.bw
    (gangMembers s g h) (f := fun s p => s.setGroup p.1 (Group.countUp p.2)) (fun _ _ _ _ => rfl)
    (by rw [gangMembers, List.map_map]; exact hnodup) s rfl
  rw [← hv] at hvstate hvgroups hrun
  clear hv
  obtain ⟨gs, rfl⟩ : ∃ gs, v = s.regrouped gs := ⟨_, hvstate⟩
  obtain ⟨c, hc⟩ : ∃ c, c = mmaCmdOf s low hl ba bb (gangMembers s g h) := ⟨_, rfl⟩
  rw [← hc] at hrun
  obtain ⟨htstate, htgroups, -⟩ := State.foldl_setGroup (key := Group.gid) (F := fun q => Group.leaves q.hurdleWarp s.bw)
    (fun q k => Group.releases_gid { k with hurdle := [] } _ _) s.bw (gangSorted s g h) (f := State.leaveHurdle)
    (fun q hq u hu => by
      obtain ⟨-, k, l, hk, -⟩ := hat q (mem_gangSorted.mp hq)
      rw [← hu]
      exact State.leaveHurdle_eq u hk) hnodup ((s.regrouped gs).queueMma low.core c) (by
        rw [State.queueMma_state]
        rfl)
  obtain ⟨d, hreleased, hd⟩ := released1_of_queueMma (by rw [hc]; rfl) htstate
  rw [hc] at hd
  refine ⟨_, d, gangMembers s g h, hrun, hreleased, mmaCmd_of_unasked rfl rfl hd, mem_gangMembers hat, fun q hq k l' hk => ?_⟩
  obtain ⟨hown, k', l'', hk', -, -, hdc, w, hw⟩ := hat q hq
  obtain ⟨rfl, rfl⟩ : k' = k ∧ l'' = l' := List.cons.inj (hk'.symm.trans hk)
  have hraised : (s.regrouped gs).group q.gid = some (q.countUp q.hurdleDc) :=
    (hvgroups (q.gid, q.hurdleDc) (List.mem_map_of_mem (mem_gangSorted.mpr hq))).trans (congrArg _ hown)
  have hqueued : ((s.regrouped gs).queueMma low.core c).group q.gid = some (q.countUp q.hurdleDc) := by
    rw [State.group, State.queueMma_groups]
    exact hraised
  exact leaves_spec hk hw (fun hlt => (hdc hlt).2) ((htgroups q (mem_gangSorted.mpr hq)).trans (congrArg _ hqueued))

/-- Settles O22: GANG (R181), MMA at its issue (R182, R188) and at the Hurdle (R182, R183, R190). -/
theorem matrixIssues : Obligations.MatrixIssues := by
  unfold Obligations.MatrixIssues
  exact ⟨gangs, mmas, hurdleReleases⟩

end Sys2Proof.Machine
end

section
/-! The end of a queued operation (R192): its counters fall, it leaves the queue, and its tile holds its region. -/

namespace Sys2Proof.Machine
open Sys2Proof.Rules

/-! ## Counters that fall -/

/-- The group with counter `n` lowered, where there is one, and woken (R71, R129). -/
def Group.countDown (n now : Nat) (g : Group) : Group := if n < 6 then (g.subDc n).wake now else g

theorem Group.countDown_frame (n now : Nat) (g : Group) : g.countDown n now =
    { g with dc := (g.countDown n now).dc, warps := (g.countDown n now).warps, st := (g.countDown n now).st, since := (g.countDown n now).since } := by
  unfold Group.countDown
  split
  · rfl
  · rfl

theorem Group.countDown_gid (n now : Nat) (g : Group) : (g.countDown n now).gid = g.gid := by rw [Group.countDown_frame]
theorem Group.countDown_v (n now : Nat) (g : Group) : (g.countDown n now).v = g.v := by rw [Group.countDown_frame]
theorem Group.countDown_s (n now : Nat) (g : Group) : (g.countDown n now).s = g.s := by rw [Group.countDown_frame]

theorem Group.countDown_dcv (n now : Nat) (g : Group) (k : Nat) : (g.countDown n now).dcv k = g.dcv k - if k = n ∧ k < 6 then 1 else 0 := by
  unfold Group.countDown
  by_cases hn : n < 6
  · rw [if_pos hn]
    refine (Group.dcv_subDc g n k).trans ?_
    by_cases hk : k = n
    · rw [if_pos hk, if_pos ⟨hk, hk ▸ hn⟩]
    · rw [if_neg hk, if_neg fun hh => hk hh.1]
  · rw [if_neg hn, if_neg fun hh : k = n ∧ k < 6 => hn (hh.1 ▸ hh.2)]
    rfl

theorem State.setGroup_countDown (s : State) (gid n now : Nat) :
    s.setGroup gid (Group.countDown n now) = if n < 6 then s.setGroup gid (fun g => (g.subDc n).wake now) else s := by
  by_cases hn : n < 6
  · rw [if_pos hn, show Group.countDown n now = fun g => (g.subDc n).wake now from funext fun g => if_pos hn]
  · rw [if_neg hn, show Group.countDown n now = fun g => g from funext fun g => if_neg hn, State.setGroup_id]

/-- The counter of one of an operation's groups falls (R192). -/
def State.lower (s : State) (p : Nat × Nat) : State := s.setGroup p.1 (Group.countDown p.2 s.bw)

theorem State.foldl_lower (l : List (Nat × Nat)) (s : State) : l.foldl State.lower s = s.regrouped (l.foldl State.lower s).groups := by
  induction l generalizing s with
  | nil => rfl
  | cons p r ih => exact ih (s.lower p)

/-! ## Leaving the queue -/

/-- The core without the command of this number. -/
def Core.dequeue (id : Nat) (c : Core) : Core := { c with mq := c.mq.filter (fun p => p.id != id) }

/-- An operation with whose end nothing comes to the head that acts at once. -/
theorem State.finishOp_eq {u : State} {core : Nat} {q : MCmd}
    (h : ∀ p ∈ (u.core core).mq.filter (fun p => p.id != q.id), p.kind = .mma ∨ p.kind = .ald ∨ p.kind = .ast) :
    u.finishOp core q = (q.members.foldl State.lower u).setCore core (Core.dequeue q.id) := by
  have hfold : q.members.foldl (fun (s : State) p => if p.2 < 6 then s.setGroup p.1 (fun g => (g.subDc p.2).wake s.bw) else s) u =
      q.members.foldl State.lower u :=
    congrArg (fun f => q.members.foldl f u) (funext fun s => funext fun p => (State.setGroup_countDown s p.1 p.2 s.bw).symm)
  have hcore : (q.members.foldl State.lower u).core core = u.core core := by
    rw [State.foldl_lower]
    rfl
  unfold State.finishOp
  rw [hfold]
  refine State.drain_of_stands fun p r hmq => h p ?_
  have hq := (congrArg Core.mq (State.core_setCore_self (q.members.foldl State.lower u) core (Core.dequeue q.id))).symm.trans hmq
  rw [hcore] at hq
  exact (show (u.core core).mq.filter (fun p => p.id != q.id) = p :: r from hq) ▸ List.mem_cons_self

section
variable {s u : State} {core : Nat} {kind : MKind} {q : MCmd} {g : Group}

theorem stands_of_atHead (h : Rules.AtHead s core kind q g) : QueueStands s core := by
  intro p r hmq
  obtain ⟨r', hmq', -⟩ := h.queue
  obtain ⟨rfl, -⟩ := List.cons.inj (hmq.symm.trans hmq')
  rw [h.kind.1]
  exact h.kind.2

theorem drain_of_atHead (h : Rules.AtHead s core kind q g) : s.drain core = s := State.drain_of_stands (stands_of_atHead h)

theorem headOp_of_atHead (h : Rules.AtHead s core kind q g) : headOp s core kind = some (q, g) := by
  obtain ⟨r, hmq, -⟩ := h.queue
  unfold headOp
  simp only [hmq, h.group]
  exact if_pos h.kind.1

/-- Of the queue without its head, which the head's number tells from the others. -/
theorem rest_of_atHead (h : Rules.AtHead s core kind q g) : (s.core core).mq.filter (fun p => p.id != q.id) = (s.core core).mq.drop 1 ∧
    ∀ p ∈ (s.core core).mq.filter (fun p => p.id != q.id), p.kind = .mma ∨ p.kind = .ald ∨ p.kind = .ast := by
  obtain ⟨r, hmq, hr⟩ := h.queue
  have hfilter : (s.core core).mq.filter (fun p => p.id != q.id) = r := by
    rw [hmq, List.filter_cons_of_neg (by simp)]
    exact List.filter_eq_self.mpr fun p hp => bne_iff_ne.mpr (hr p hp).1
  rw [hfilter, hmq]
  exact ⟨rfl, fun p hp => (hr p hp).2⟩

/-- The operation at the head leaves a machine whose queue and groups stand as they were. -/
theorem finished_of_atHead (h : Rules.AtHead s core kind q g) (hgroups : u.groups = s.groups) (hothers : ∀ k, k ≠ core → u.core k = s.core k)
    (hmq : (u.core core).mq = (s.core core).mq) : Finished s (u.finishOp core q) core q ∧ (u.finishOp core q).mem = u.mem ∧
      (u.finishOp core q).teams = u.teams ∧ ((u.finishOp core q).core core).pins = (u.core core).pins := by
  obtain ⟨hrest, hstand⟩ := rest_of_atHead h
  have heq := State.finishOp_eq (hmq.symm ▸ hstand)
  have hfold := State.foldl_lower q.members u
  have hcore : (u.finishOp core q).core core = (u.core core).dequeue q.id := by
    rw [heq, State.core_setCore_self, hfold]
    rfl
  refine ⟨⟨?_, fun k hk => ?_, fun hnodup p hp k hk => ?_⟩, by rw [heq, hfold]; rfl, by rw [heq, hfold]; rfl, (congrArg Core.pins hcore).trans rfl⟩
  · rw [hcore, Core.dequeue, hmq]
    exact hrest
  · rw [heq, State.core_setCore_ne _ hk, hfold]
    exact hothers k hk
  · obtain ⟨-, hgroup, -⟩ := State.foldl_setGroup (f := State.lower) (key := Prod.fst) (F := fun p : Nat × Nat => Group.countDown p.2 u.bw)
      (fun p => Group.countDown_gid p.2 u.bw) u.bw q.members (fun p _ v hv => by rw [State.lower, hv]) hnodup u rfl
    refine ⟨k.countDown p.2 u.bw, ?_, Group.countDown_dcv p.2 u.bw k⟩
    rw [heq]
    refine (hgroup p hp).trans ?_
    rw [State.group, hgroups]
    exact congrArg _ hk
end

/-! ## The region of a tile -/

/-- What a list of writes leaves at an element that they give one value. -/
theorem get_foldl_set (l : List (Nat × Word)) (m : Amap Word) (k : Nat) (v : Word) (hl : ∀ p ∈ l, p.1 = k → p.2 = v) :
    Amap.get 0 (l.foldl (fun (m : Amap Word) p => Amap.set 0 m p.1 p.2) m) k = if k ∈ l.map (·.1) then v else Amap.get 0 m k := by
  induction l generalizing m with
  | nil => simp
  | cons p r ih =>
    rw [List.foldl_cons, ih _ fun p' hp' => hl p' (List.mem_cons_of_mem p hp'), Amap.get_set]
    by_cases hp : p.1 = k
    · simp [hp, hl p List.mem_cons_self hp]
    · simp [Ne.symm hp]

/-- A tile receives its region, and nothing beyond it. -/
theorem Tile.put_at {t : Tile} {l : List (Nat × Word)} {m n : Nat} {val : Nat → Nat → Word} (hn : n ≤ 64)
    (hl : ∀ p, p ∈ l ↔ ∃ i j, i < m ∧ j < n ∧ p = (64 * i + j, val i j)) (b : Bool) (i j : Nat) (hj : j < 64) :
    (t.put l b).at_ i j = if i < m ∧ j < n then val i j else t.at_ i j := by
  have hplace {i' j' : Nat} (hj' : j' < n) (h : 64 * i' + j' = 64 * i + j) : i' = i ∧ j' = j := by omega
  have hmem : 64 * i + j ∈ l.map (·.1) ↔ i < m ∧ j < n := by
    rw [List.mem_map]
    refine ⟨fun ⟨p, hp, hk⟩ => ?_, fun ⟨hi, hj⟩ => ⟨_, (hl _).mpr ⟨i, j, hi, hj, rfl⟩, rfl⟩⟩
    obtain ⟨i', j', hi', hj', rfl⟩ := (hl p).mp hp
    obtain ⟨rfl, rfl⟩ := hplace hj' hk
    exact ⟨hi', hj'⟩
  refine (get_foldl_set l t.el (64 * i + j) (val i j) fun p hp hk => ?_).trans ?_
  · obtain ⟨i', j', -, hj', rfl⟩ := (hl p).mp hp
    obtain ⟨rfl, rfl⟩ := hplace hj' hk
    rfl
  · simp only [hmem]
    rfl

/-- Reads that succeed are collected. -/
theorem collect_of_ok {α : Type} {f : Nat → Except EErr α} {v : Nat → α} (l : List Nat) (h : ∀ i ∈ l, f i = .ok (v i)) : collect f l = .ok (l.map v) := by
  induction l with
  | nil => rfl
  | cons i r ih =>
    rw [collect, h i List.mem_cons_self, ih fun j hj => h j (List.mem_cons_of_mem i hj)]
    rfl

/-! ## What reading costs, and the engine's fall -/

section
variable {s t : State}

theorem ReadsOnly.cores (h : ReadsOnly s t) : t.cores = s.cores := by rw [h]
theorem ReadsOnly.groups (h : ReadsOnly s t) : t.groups = s.groups := by rw [h]
theorem ReadsOnly.teams (h : ReadsOnly s t) : t.teams = s.teams := by rw [h]
theorem ReadsOnly.mem (h : ReadsOnly s t) : t.mem = s.mem := by rw [h]

theorem State.countOp_reads (s : State) (a : Agent) (q : MCmd) : ReadsOnly s (s.countOp a q) := by
  unfold State.countOp State.readLines
  exact (ReadsOnly.foldl _ (fun s l => State.touchLine_reads s l a.ctx 0 .load true) _ s).trans (State.countReads_reads _ _)

/-- The falling steps of an engine change nothing of its queue and its pins (R260). -/
theorem State.fall_spec (s : State) (core : Nat) : s.fall core = { s with cores := (s.fall core).cores } ∧
    (∀ k, k ≠ core → (s.fall core).core k = s.core k) ∧ ((s.fall core).core core).mq = (s.core core).mq ∧
    ((s.fall core).core core).pins = (s.core core).pins := by
  unfold State.fall
  dsimp only
  split
  · exact ⟨rfl, fun k hk => State.core_setCore_ne s hk _, by rw [State.core_setCore_self], by rw [State.core_setCore_self]⟩
  · exact ⟨rfl, fun _ _ => rfl, rfl, rfl⟩
end

end Sys2Proof.Machine
end

section
/-! MMA_COMPLETE, ALD_COMPLETE and TILE_DEFERRED_FAULT (O24): a region computed (R191, R203) or loaded (R199), or a fault kept on the tile (R196). -/

namespace Sys2Proof.Machine
open Sys2Proof.Rules

theorem hasTeam_setTeam {s : State} {tid : Nat} (h : HasTeam s tid) {f : Team → Team} (hf : ∀ t, (f t).tid = t.tid) : HasTeam (s.setTeam tid f) tid := by
  obtain ⟨t, ht, rfl⟩ := h
  exact ⟨f t, List.mem_map.mpr ⟨t, ht, if_pos (beq_self_eq_true _)⟩, hf t⟩

theorem hasTeam_of_teams {s t : State} (h : t.teams = s.teams) {tid : Nat} (hs : HasTeam s tid) : HasTeam t tid := by
  rw [HasTeam, h]
  exact hs

/-! ## The result of an MMA -/

/-- The elements of a region of m × n, each with its events, in the order in which the engine computes them. -/
def regionItems (m n : Nat) (elem : Nat → Nat → Nat × MxCnt) : List ((Nat × Word) × MxCnt) :=
  (List.range m).flatMap (fun i => (List.range n).map (fun j => ((64 * i + j, BitVec.ofNat 32 (elem i j).1), (elem i j).2)))

theorem mem_regionItems {m n : Nat} {elem : Nat → Nat → Nat × MxCnt} (p : Nat × Word) : p ∈ ((regionItems m n elem).map (·.1)).reverse ↔
    ∃ i j, i < m ∧ j < n ∧ p = (64 * i + j, BitVec.ofNat 32 (elem i j).1) := by
  simp only [regionItems, List.mem_reverse, List.map_flatMap, List.map_map, List.mem_flatMap, List.mem_map, List.mem_range, Function.comp_apply]
  refine ⟨fun ⟨i, hi, j, hj, hp⟩ => ⟨i, j, hi, hj, hp.symm⟩, fun ⟨i, j, hi, hj, hp⟩ => ⟨i, hi, j, hj, hp.symm⟩⟩

theorem regionItems_events (m n : Nat) (elem : Nat → Nat → Nat × MxCnt) :
    (regionItems m n elem).map (·.2) = (List.range m).flatMap (fun i => (List.range n).map (fun j => (elem i j).2)) := by
  simp only [regionItems, List.map_flatMap, List.map_map, Function.comp_def]

/-- Items that are gathered one by one, with their events added up. -/
theorem foldl_items (l : List ((Nat × Word) × MxCnt)) (acc : List (Nat × Word) × MxCnt) :
    l.foldl (fun acc p => (p.1 :: acc.1, acc.2.add p.2)) acc = ((l.map (·.1)).reverse ++ acc.1, (l.map (·.2)).foldl MxCnt.add acc.2) := by
  induction l generalizing acc with
  | nil => rfl
  | cons p r ih => simp [ih]

/-- The region's elements, computed one after the other. -/
theorem foldl_region (m n : Nat) (elem : Nat → Nat → Nat × MxCnt) :
    (List.range m).foldl (fun acc i => (List.range n).foldl (fun (acc : List (Nat × Word) × MxCnt) j =>
      ((64 * i + j, BitVec.ofNat 32 (elem i j).1) :: acc.1, acc.2.add (elem i j).2)) acc) ([], {}) =
      (((regionItems m n elem).map (·.1)).reverse, ((regionItems m n elem).map (·.2)).foldl MxCnt.add {}) := by
  have hitems := foldl_items (regionItems m n elem) ([], {})
  rw [List.append_nil] at hitems
  refine Eq.trans ?_ hitems
  simp only [regionItems, List.foldl_flatMap, List.foldl_map]

/-- The result of an MMA whose operands are read (R191). -/
theorem mmaResult_of_ok {s : State} {a : Agent} {q : MCmd} {as bs : List (List Fv)} (hA : operand s a (recOf q.recA) q.pA false q.m q.k = .ok as)
    (hB : operand s a (recOf q.recB) q.pB true q.n q.k = .ok bs) {elem : Nat → Nat → Nat × MxCnt} (helem : ∀ i j, elem i j =
      mmaElem q.mode (recOf q.recA).block q.k (if q.acc then (((s.team q.team).tile q.tile).at_ i j).toNat else 0) (as.getD i []) (bs.getD j [])) :
    mmaResult s a q = .ok (((regionItems q.m q.n elem).map (·.1)).reverse, ((regionItems q.m q.n elem).map (·.2)).foldl MxCnt.add {}) := by
  unfold mmaResult
  simp only [hA, hB, ← helem]
  exact congrArg Except.ok (foldl_region q.m q.n elem)

section
variable {s : State} {core : Nat} {q : MCmd} {g : Group}

/-- A team with other exception counters. -/
def Team.withMx (v : DWord) (t : Team) : Team := { t with mx := v }
/-- A team with the events of an MMA counted (R203). -/
def Team.countMx (c : MxCnt) (t : Team) : Team := t.withMx (c.into t.mx)

theorem Team.withMx_mx (v : DWord) (t : Team) : (t.withMx v).mx = v := rfl
theorem Team.withMx_tile (v : DWord) (t : Team) (n : Nat) : (t.withMx v).tile n = t.tile n := rfl
theorem Team.withMx_tid (v : DWord) (t : Team) : (t.withMx v).tid = t.tid := rfl
theorem Team.countMx_tid (c : MxCnt) (t : Team) : (t.countMx c).tid = t.tid := Team.withMx_tid (c.into t.mx) t
theorem Team.countMx_mx (c : MxCnt) (t : Team) : (t.countMx c).mx = c.into t.mx := Team.withMx_mx (c.into t.mx) t
theorem Team.countMx_tile (c : MxCnt) (t : Team) (n : Nat) : (t.countMx c).tile n = t.tile n := Team.withMx_tile (c.into t.mx) t n
theorem Team.setTile_mx (t : Team) (n : Nat) (f : Tile → Tile) : (t.setTile n f).mx = t.mx := rfl

/-- An MMA's events are counted, and its pins let go, before it leaves the queue (R193, R203). -/
def State.letGo (s : State) (core : Nat) (q : MCmd) (c : MxCnt) : State :=
  ((s.setTeam q.team (Team.countMx c)).setCore core (fun c => c.unpin q)).fall core

theorem State.letGo_spec (s : State) (core : Nat) (q : MCmd) (c : MxCnt) :
    (s.letGo core q c).groups = s.groups ∧ (s.letGo core q c).mem = s.mem ∧ (s.letGo core q c).teams = (s.setTeam q.team (Team.countMx c)).teams ∧
      (∀ k, k ≠ core → (s.letGo core q c).core k = s.core k) ∧ ((s.letGo core q c).core core).mq = (s.core core).mq ∧
      ∀ p ∈ ((s.letGo core q c).core core).pins, p.op ≠ some q.id := by
  obtain ⟨hstate, hothers, hmq, hpins⟩ := State.fall_spec ((s.setTeam q.team (Team.countMx c)).setCore core (fun c => c.unpin q)) core
  rw [← State.letGo] at hstate hothers hmq hpins
  rw [State.core_setCore_self] at hmq hpins
  refine ⟨(congrArg State.groups hstate).trans rfl, (congrArg State.mem hstate).trans rfl, (congrArg State.teams hstate).trans rfl,
    fun k hk => (hothers k hk).trans (State.core_setCore_ne _ hk _), hmq, fun p hp => ?_⟩
  rw [hpins, Core.unpin] at hp
  exact bne_iff_ne.mp (List.mem_filter.mp hp).2

/-- A tile holds what an operation has written, and what it has read is counted (R288, R345). -/
def State.written (s : State) (q : MCmd) (g : Group) (f : Tile → Tile) : State := (s.setTile q.team q.tile f).countOp (agentOf g) q

theorem State.written_reads (s : State) (q : MCmd) (g : Group) (f : Tile → Tile) : ReadsOnly (s.setTile q.team q.tile f) (s.written q g f) :=
  State.countOp_reads ..

theorem State.written_core (s : State) (q : MCmd) (g : Group) (f : Tile → Tile) (k : Nat) : (s.written q g f).core k = s.core k := by
  rw [State.core, (State.written_reads s q g f).cores]
  rfl

theorem State.written_team (h : HasTeam s q.team) (f : Tile → Tile) :
    HasTeam (s.written q g f) q.team ∧ (s.written q g f).team q.team = (s.team q.team).setTile q.tile f :=
  ⟨hasTeam_of_teams (State.written_reads s q g f).teams (hasTeam_setTeam (f := fun t => t.setTile q.tile f) h fun _ => rfl),
    (team_of_teams (State.written_reads s q g f).teams q.team).trans (State.team_setTeam_self (f := fun t => t.setTile q.tile f) h fun _ => rfl)⟩

/-- The machine when an MMA with result `r` has left its region, its events and its pins (R191, R193, R203). -/
def State.mmaDone (s : State) (core : Nat) (q : MCmd) (g : Group) (r : List (Nat × Word) × MxCnt) : State :=
  (s.written q g (fun t => t.put r.1 q.int32)).letGo core q r.2

theorem execMmaComplete_of_ok (h : Rules.AtHead s core .mma q g) (hstarted : q.started = true)
    (hdue : q.occEnd + 20 ≤ (s.cluster (clusterOf core)).lclk) {r : List (Nat × Word) × MxCnt}
    (hr : mmaResult s { agentOf g with id := q.id, was := q.was } q = .ok r) :
    exec (.mmaComplete core) s = .next ((s.mmaDone core q g r).finishOp core q) := by
  show execMmaComplete core s = _
  unfold execMmaComplete
  simp only [drain_of_atHead h, headOp_of_atHead h, hstarted, decide_eq_false (not_lt.mpr hdue), Bool.not_true, Bool.or_self, Bool.false_eq_true, if_false,
    h.fault, hr]
  rfl

/-- What an MMA leaves before its end. -/
theorem State.mmaDone_spec (hteam : HasTeam s q.team) (r : List (Nat × Word) × MxCnt) :
    (s.mmaDone core q g r).groups = s.groups ∧ (s.mmaDone core q g r).mem = s.mem ∧ (∀ k, k ≠ core → (s.mmaDone core q g r).core k = s.core k) ∧
      ((s.mmaDone core q g r).core core).mq = (s.core core).mq ∧ (∀ p ∈ ((s.mmaDone core q g r).core core).pins, p.op ≠ some q.id) ∧
      ((s.mmaDone core q g r).team q.team).mx = r.2.into (s.team q.team).mx ∧ ∀ n, ((s.mmaDone core q g r).team q.team).tile n =
        if n = q.tile then ((s.team q.team).tile q.tile).put r.1 q.int32 else (s.team q.team).tile n := by
  obtain ⟨hgroups, hmem, hteams, hothers, hmq, hpins⟩ := State.letGo_spec (s.written q g (fun t => t.put r.1 q.int32)) core q r.2
  rw [← State.mmaDone] at hgroups hmem hteams hothers hmq hpins
  obtain ⟨hhas, hwritten⟩ := State.written_team (g := g) hteam (fun t => t.put r.1 q.int32)
  have hreads := State.written_reads s q g (fun t => t.put r.1 q.int32)
  have hown : (s.mmaDone core q g r).team q.team = Team.countMx r.2 ((s.team q.team).setTile q.tile (fun t => t.put r.1 q.int32)) := by
    rw [team_of_teams hteams, State.team_setTeam_self hhas (f := Team.countMx r.2) (Team.countMx_tid r.2), hwritten]
  refine ⟨hgroups.trans hreads.groups, hmem.trans hreads.mem, fun k hk => (hothers k hk).trans (State.written_core ..),
    hmq.trans (congrArg Core.mq (State.written_core ..)), hpins,
    by rw [hown, Team.countMx_mx, Team.setTile_mx], fun n => ?_⟩
  rw [hown, Team.countMx_tile, Team.setTile_tile]
end

/-- The second part of O24: MMA_COMPLETE (R191 to R193, R203). -/
theorem mmaEnds (core : Nat) : MmaEnds core := by
  intro s q g as bs h hstarted hdue hA hB hm hn old elem
  have hr := mmaResult_of_ok hA hB (elem := elem) fun _ _ => rfl
  obtain ⟨r, hreq⟩ : ∃ r, r = (((regionItems q.m q.n elem).map (·.1)).reverse, ((regionItems q.m q.n elem).map (·.2)).foldl MxCnt.add {}) := ⟨_, rfl⟩
  rw [← hreq] at hr
  obtain ⟨hgroups, hmem, hothers, hmq, hpins, hmx, htile⟩ := State.mmaDone_spec (core := core) (g := g) h.team r
  obtain ⟨hfinished, hmem', hteams', hpins'⟩ := finished_of_atHead h hgroups hothers hmq
  have hteam := team_of_teams hteams' q.team
  refine ⟨_, execMmaComplete_of_ok h hstarted hdue hr, hfinished, hmem'.trans hmem, fun p hp => hpins p (hpins' ▸ hp), fun i j hj => ?_, ?_, ?_, fun n hne => ?_⟩
  · rw [hteam, htile, if_pos rfl]
    exact Tile.put_at (val := fun i j => BitVec.ofNat 32 (elem i j).1) hn (fun p => by rw [hreq]; exact mem_regionItems p) q.int32 i j hj
  · rw [hteam, hmx, ← regionItems_events, hreq]
  · rw [hteam, htile, if_pos rfl]
    rfl
  · rw [hteam, htile, if_neg hne]

/-! ## ALD -/

/-- The elements that an ALD loads, where all its reads succeed (R199). -/
theorem aldResult_of_ok {s : State} {a : Agent} {q : MCmd} {f : Nat → Nat → Nat × Nat} (h : ∀ i j, i < q.m → j < q.n →
      (recOf q.recA).stored s a true (if (recOf q.recA).trans then j else i) (if (recOf q.recA).trans then i else j) = .ok (f i j)) :
    aldResult s a q = .ok ((List.range q.m).map (fun i => (List.range q.n).map (fun j =>
      (64 * i + j, BitVec.ofNat 32 (aldBits (recOf q.recA).fmt (recOf q.recA).space (f i j).1 (f i j).2))))).flatten := by
  unfold aldResult
  dsimp only
  rw [collect_of_ok _ fun i hi => collect_of_ok _ fun j hj => ?_]
  rw [h i j (List.mem_range.mp hi) (List.mem_range.mp hj)]

theorem mem_region {m n : Nat} {val : Nat → Nat → Word} (p : Nat × Word) :
    p ∈ ((List.range m).map (fun i => (List.range n).map (fun j => (64 * i + j, val i j)))).flatten ↔
      ∃ i j, i < m ∧ j < n ∧ p = (64 * i + j, val i j) := by
  simp only [List.mem_flatten, List.mem_map, List.mem_range]
  constructor
  · rintro ⟨_, ⟨i, hi, rfl⟩, hp⟩
    obtain ⟨j, hj, rfl⟩ := List.mem_map.mp hp
    exact ⟨i, j, hi, List.mem_range.mp hj, rfl⟩
  · rintro ⟨i, j, hi, hj, rfl⟩
    exact ⟨_, ⟨i, hi, rfl⟩, List.mem_map.mpr ⟨j, List.mem_range.mpr hj, rfl⟩⟩

/-- The tile that an ALD has loaded holds no fault (R196, R199). -/
def Tile.loaded (l : List (Nat × Word)) (b : Bool) (t : Tile) : Tile := { t.put l b with fcause := 0, faddr := 0 }

theorem execAldComplete_of_ok {s : State} {core : Nat} {q : MCmd} {g : Group} (h : Rules.AtHead s core .ald q g) {l : List (Nat × Word)}
    (hl : aldResult s { agentOf g with id := q.id } q = .ok l) :
    exec (.aldComplete core) s = .next ((s.written q g (Tile.loaded l q.int32)).finishOp core q) := by
  show execAldComplete core s = _
  unfold execAldComplete
  simp only [drain_of_atHead h, headOp_of_atHead h, h.fault, hl]
  rfl

/-- The fourth part of O24: ALD_COMPLETE (R199). -/
theorem aldEnds (core : Nat) : AldEnds core := by
  intro s q g f h hm hn r hf
  have hl := aldResult_of_ok hf
  obtain ⟨l, hleq⟩ : ∃ l, l = ((List.range q.m).map (fun i => (List.range q.n).map (fun j =>
    (64 * i + j, (BitVec.ofNat 32 (aldBits r.fmt r.space (f i j).1 (f i j).2) : Word))))).flatten := ⟨_, rfl⟩
  rw [← hleq] at hl
  have hreads := State.written_reads s q g (Tile.loaded l q.int32)
  obtain ⟨-, hwritten⟩ := State.written_team (g := g) h.team (Tile.loaded l q.int32)
  obtain ⟨hfinished, hmem, hteams, -⟩ := finished_of_atHead h hreads.groups (fun k _ => State.written_core ..)
    (congrArg Core.mq (State.written_core s q g (Tile.loaded l q.int32) core))
  have htile (n : Nat) : (((s.written q g (Tile.loaded l q.int32)).finishOp core q).team q.team).tile n =
      if n = q.tile then ((s.team q.team).tile q.tile).loaded l q.int32 else (s.team q.team).tile n := by
    rw [team_of_teams hteams, hwritten]
    exact Team.setTile_tile ..
  refine ⟨_, execAldComplete_of_ok h hl, hfinished, hmem.trans hreads.mem, fun i j hj => ?_, ?_, ?_, fun n hne => ?_⟩
  · rw [htile, if_pos rfl]
    exact Tile.put_at (val := fun i j => BitVec.ofNat 32 (aldBits r.fmt r.space (f i j).1 (f i j).2)) hn (fun p => by rw [hleq]; exact mem_region p) q.int32 i j hj
  · rw [htile, if_pos rfl]
    rfl
  · rw [htile, if_pos rfl]
    rfl
  · rw [htile, if_neg hne]

/-! ## A fault on the way -/

/-- The tile on which a fault is kept (R196). -/
def Tile.faulted (code va : Nat) (t : Tile) : Tile := { t with fcause := code, faddr := BitVec.ofNat 64 va }

/-- The command whose fault is kept: its occupancy ends at LCLK `e`. -/
def MCmd.faulted (code va e : Nat) (q : MCmd) : MCmd := { q with fault := some (code, BitVec.ofNat 64 va), occEnd := e }
/-- The core whose operation `q` a fault has ended. -/
def Core.faultOp (q : MCmd) (code va e : Nat) (c : Core) : Core :=
  { c with engEnd := if q.started && c.engEnd == q.occEnd then e else c.engEnd, mq := updWhere (fun p => p.id == q.id) (MCmd.faulted code va e) c.mq }

section
variable {s : State} {core : Nat} {kind : MKind} {q : MCmd} {g : Group}

/-- A fault that is not recoverable is marked on the tile and on its operation. -/
theorem opFault_eq (s : State) (core : Nat) (q : MCmd) (a : Agent) (code va info : Nat) : s.opFault core q a (.stop code va info) =
    ((s.dropDenied none (s.ctx a.ctx).asid va).setTile q.team q.tile (Tile.faulted code va)).setCore core
      (Core.faultOp q code va (if q.started then min q.occEnd (s.cluster (clusterOf core)).lclk else q.occEnd)) := rfl

/-- What a fault that is not recoverable leaves of the operation at the head, and of its tile (R196). -/
theorem opFault_stop (h : Rules.AtHead s core kind q g) (code va info : Nat) (a : Agent) :
    (s.opFault core q a (.stop code va info)).mem = s.mem ∧ (s.opFault core q a (.stop code va info)).groups = s.groups ∧
      (∀ n, ((s.opFault core q a (.stop code va info)).team q.team).tile n =
        if n = q.tile then ((s.team q.team).tile q.tile).faulted code va else (s.team q.team).tile n) ∧
      ∃ p r, ((s.opFault core q a (.stop code va info)).core core).mq = p :: r ∧ p.id = q.id ∧ p.fault = some (code, BitVec.ofNat 64 va) ∧
        (q.started = true → p.occEnd ≤ (s.cluster (clusterOf core)).lclk) := by
  obtain ⟨r, hmq, -⟩ := h.queue
  have hteam : HasTeam (s.dropDenied none (s.ctx a.ctx).asid va) q.team := h.team
  obtain ⟨e, he⟩ : ∃ e, e = if q.started then min q.occEnd (s.cluster (clusterOf core)).lclk else q.occEnd := ⟨_, rfl⟩
  have hqueue : updWhere (fun p => p.id == q.id) (MCmd.faulted code va e) (s.core core).mq =
      q.faulted code va e :: updWhere (fun p => p.id == q.id) (MCmd.faulted code va e) r := by
    rw [hmq, updWhere, List.map_cons, if_pos (beq_self_eq_true _)]
    rfl
  rw [opFault_eq, ← he]
  refine ⟨rfl, rfl, State.setTile_tile hteam q.tile (Tile.faulted code va), q.faulted code va e, _,
    (congrArg Core.mq (State.core_setCore_self _ core _)).trans hqueue, rfl, rfl, fun hstarted => ?_⟩
  show e ≤ _
  rw [he, if_pos hstarted]
  exact min_le_right _ _

theorem execTileDeferredFault_mma (h : Rules.AtHead s core .mma q g) (hstarted : q.started = true) {e : EErr}
    (he : mmaResult s { agentOf g with id := q.id, was := q.was } q = .error e) :
    exec (.tileDeferredFault core) s = .next (s.opFault core q (agentOf g) e) := by
  show execTileDeferredFault core s = _
  unfold execTileDeferredFault
  simp only [drain_of_atHead h, headOp_of_atHead h, hstarted, h.fault, he]
  rfl

theorem execTileDeferredFault_ald (h : Rules.AtHead s core .ald q g) {e : EErr} (he : aldResult s { agentOf g with id := q.id } q = .error e) :
    exec (.tileDeferredFault core) s = .next (s.opFault core q (agentOf g) e) := by
  have hmma : headOp s core .mma = none := by
    obtain ⟨r, hmq, -⟩ := h.queue
    unfold headOp
    simp only [hmq, h.group, h.kind.1]
    rfl
  show execTileDeferredFault core s = _
  unfold execTileDeferredFault
  simp only [drain_of_atHead h, hmma, headOp_of_atHead h, h.fault, he]
  rfl
end

/-- The fifth part of O24: TILE_DEFERRED_FAULT (R196). -/
theorem tileFaults (core : Nat) : TileFaults core := by
  intro s q g code va info hcase
  obtain ⟨kind, h, hrun⟩ : ∃ kind, Rules.AtHead s core kind q g ∧
      exec (.tileDeferredFault core) s = .next (s.opFault core q (agentOf g) (.stop code va info)) := by
    rcases hcase with ⟨h, hstarted, he⟩ | ⟨h, he⟩
    · exact ⟨_, h, execTileDeferredFault_mma h hstarted he⟩
    · exact ⟨_, h, execTileDeferredFault_ald h he⟩
  obtain ⟨hmem, hgroups, htile, hqueue⟩ := opFault_stop h code va info (agentOf g)
  exact ⟨_, hrun, hmem, hgroups, (htile _).trans (if_pos rfl), fun n hne => (htile n).trans (if_neg hne), hqueue⟩

end Sys2Proof.Machine
end

section
/-! Pins (R193, R197): MMA_OCCUPANCY_START (R192, R259, R269) and TFETCH_COMPLETE (O24). -/

namespace Sys2Proof.Machine
open Sys2Proof.Rules

/-! ## Translation does not see the cores -/

section
variable (s : State) (c : Nat) (f : Core → Core)

theorem tlbFind_setCore (core asid vpn : Nat) : tlbFind (s.setCore c f) core asid vpn = tlbFind s core asid vpn := rfl
theorem walkStart_setCore (die asid vpn root : Nat) : walkStart (s.setCore c f) die asid vpn root = walkStart s die asid vpn root := rfl
theorem pteAt_setCore (tab vpn k : Nat) : pteAt (s.setCore c f) tab vpn k = pteAt s tab vpn k := rfl
theorem pteBad_setCore (e k vpn : Nat) : pteBad (s.setCore c f) e k vpn = pteBad s e k vpn := rfl
theorem State.ctx_setCore (k : Nat) : (s.setCore c f).ctx k = s.ctx k := rfl
theorem State.nodeId_setCore : (s.setCore c f).nodeId = s.nodeId := rfl
theorem recoverable_setCore (ctx : Nat) (priv : Bool) (va : Nat) : recoverable (s.setCore c f) ctx priv va = recoverable s ctx priv va := rfl

theorem walk_setCore (vpn k tab : Nat) : walk (s.setCore c f) vpn k tab = walk s vpn k tab := by
  induction k generalizing tab with
  | zero =>
    simp only [walk, pteAt_setCore, pteBad_setCore]
    rfl
  | succ k ih => simp only [walk, pteAt_setCore, pteBad_setCore, ih]

theorem tenantTr_setCore (p ta : Nat) : tenantTr (s.setCore c f) p ta = tenantTr s p ta := by
  simp only [tenantTr, walk_setCore]
  rfl

theorem translate_setCore (core ctx va : Nat) : translate (s.setCore c f) core ctx va = translate s core ctx va := by
  simp only [translate, walk_setCore, State.ctx_setCore, tlbFind_setCore, walkStart_setCore]

theorem accessTr_setCore (core ctx : Nat) (k : AccK) (va : Nat) : accessTr (s.setCore c f) core ctx k va = accessTr s core ctx k va := by
  simp only [accessTr, translate_setCore, State.ctx_setCore, State.nodeId_setCore, tenantTr_setCore]

theorem eTr_setCore (a : Agent) (k : AccK) (va : Nat) : eTr (s.setCore c f) a k va = eTr s a k va := by
  simp only [eTr, accessTr_setCore, recoverable_setCore]
  rfl

/-- The lines of a command are those of its records, whatever its core holds. -/
theorem lines_setCore (q : MCmd) (a : Agent) : q.lines (s.setCore c f) a = q.lines s a := by
  simp only [MCmd.lines, spanLines, eTr_setCore]
end

/-! ## Pinning lines -/

/-- One line is pinned by `core`, where its die homes it and the budget holds (R193). -/
def pinOne (core addr team : Nat) (op : Option Nat) (r : List Pin × Nat) (l? : Option Nat) : List Pin × Nat := match l? with
  | none => r
  | some l =>
    if homeDie (l * 128) ≠ dieOf core ∨ r.1.any (fun p => p.line == l && p.op == op) then r
    else if r.1.any (fun p => p.line == l) then (r.1 ++ [{ line := l, recAt := addr, team := team, op := op }], r.2)
    else if r.2 = 0 then r
    else (r.1 ++ [{ line := l, recAt := addr, team := team, op := op }], r.2 - 1)

/-- How many lines the pins hold. -/
def pinCount (ps : List Pin) : Nat := ((ps.map (fun p => p.line)).dedup).length

theorem pinCount_append (ps : List Pin) (p : Pin) : pinCount (ps ++ [p]) = pinCount ps + if ps.any (fun q => q.line == p.line) then 0 else 1 := by
  have hcard (ps : List Pin) : pinCount ps = (ps.map (fun p => p.line)).toFinset.card := (List.card_toFinset _).symm
  have hmem : p.line ∈ (ps.map (fun p => p.line)).toFinset ↔ ps.any (fun q => q.line == p.line) = true := by
    simp only [List.mem_toFinset, List.mem_map, List.any_eq_true, beq_iff_eq]
  rw [hcard, hcard, List.map_append, List.toFinset_append, Finset.union_comm]
  show (insert p.line (ps.map (fun p => p.line)).toFinset).card = _
  by_cases hp : ps.any (fun q => q.line == p.line) = true
  · rw [Finset.insert_eq_of_mem (hmem.mpr hp), if_pos hp]
    rfl
  · rw [Finset.card_insert_of_notMem (mt hmem.mp hp), if_neg hp]

section
variable (core addr team : Nat) (op : Option Nat)

/-- A pin of this pinning, on one of the lines. -/
def PinOf (ls : List (Option Nat)) (p : Pin) : Prop :=
  some p.line ∈ ls ∧ homeDie (p.line * 128) = dieOf core ∧ p.recAt = addr ∧ p.team = team ∧ p.op = op

/-- Lines `ls` have been pinned, from pins and budget `r` to `r'`: only pins on them are added, the budget pays for each line that is new, and
where it suffices every line of this die is pinned. -/
structure Pinned (ls : List (Option Nat)) (r r' : List Pin × Nat) : Prop where
  grows : ∃ ps, r'.1 = r.1 ++ ps ∧ ∀ p ∈ ps, PinOf core addr team op ls p
  budget : pinCount r'.1 + r'.2 ≤ pinCount r.1 + r.2
  cost : r.2 ≤ r'.2 + ls.length
  full : ls.length ≤ r.2 → ∀ n, some n ∈ ls → homeDie (n * 128) = dieOf core → ∃ p ∈ r'.1, p.line = n

variable {core addr team op} {ls ls' : List (Option Nat)} {r r' r'' : List Pin × Nat}

/-- Nothing need be added. -/
theorem Pinned.same (h : ls.length ≤ r.2 → ∀ n, some n ∈ ls → homeDie (n * 128) = dieOf core → ∃ p ∈ r.1, p.line = n) : Pinned core addr team op ls r r :=
  ⟨⟨[], (List.append_nil _).symm, by simp⟩, le_refl _, Nat.le_add_right _ _, h⟩

theorem Pinned.append (h : Pinned core addr team op ls r r') (h' : Pinned core addr team op ls' r' r'') : Pinned core addr team op (ls ++ ls') r r'' := by
  obtain ⟨ps, hps, hof⟩ := h.grows
  obtain ⟨ps', hps', hof'⟩ := h'.grows
  have hcost := h.cost
  have hcost' := h'.cost
  refine ⟨⟨ps ++ ps', by rw [hps', hps, List.append_assoc], fun p hp => ?_⟩, h'.budget.trans h.budget, by rw [List.length_append]; omega,
    fun hlen n hn hhome => ?_⟩
  · rcases List.mem_append.mp hp with hp | hp
    · exact ⟨List.mem_append_left _ (hof p hp).1, (hof p hp).2⟩
    · exact ⟨List.mem_append_right _ (hof' p hp).1, (hof' p hp).2⟩
  · rw [List.length_append] at hlen
    rcases List.mem_append.mp hn with hn | hn
    · obtain ⟨p, hp, hline⟩ := h.full (by omega) n hn hhome
      exact ⟨p, by rw [hps']; exact List.mem_append_left _ hp, hline⟩
    · exact h'.full (by omega) n hn hhome

/-- A pin on the line is added; a new line costs the budget one. -/
theorem Pinned.one {l : Nat} {b : Nat} (hhome : homeDie (l * 128) = dieOf core) (hb : b + (if r.1.any (fun q => q.line == l) then 0 else 1) = r.2) :
    Pinned core addr team op [some l] r (r.1 ++ [{ line := l, recAt := addr, team := team, op := op }], b) := by
  refine ⟨⟨_, rfl, fun p hp => ?_⟩, ?_, ?_, fun _ n hn _ => ⟨_, List.mem_append_right _ (List.mem_singleton.mpr rfl), ?_⟩⟩
  · obtain rfl := List.mem_singleton.mp hp
    exact ⟨List.mem_singleton.mpr rfl, hhome, rfl, rfl, rfl⟩
  · rw [pinCount_append]
    dsimp only
    omega
  · rw [List.length_singleton]
    split at hb <;> dsimp only <;> omega
  · exact (Option.some.inj (List.mem_singleton.mp hn)).symm

theorem pinned_pinOne (r : List Pin × Nat) (l? : Option Nat) : Pinned core addr team op [l?] r (pinOne core addr team op r l?) := by
  unfold pinOne
  split
  · exact Pinned.same fun _ n hn => absurd (List.mem_singleton.mp hn) (by simp)
  · next l =>
    have hline {n : Nat} (hn : some n ∈ [some l]) : n = l := Option.some.inj (List.mem_singleton.mp hn)
    split
    · next hskip =>
      refine Pinned.same fun _ n hn hhome => ?_
      obtain rfl := hline hn
      obtain ⟨p, hp, hb⟩ := List.any_eq_true.mp (hskip.resolve_left fun hne => hne hhome)
      exact ⟨p, hp, beq_iff_eq.mp (Bool.and_eq_true_iff.mp hb).1⟩
    · next hskip =>
      have hhome : homeDie (l * 128) = dieOf core := not_not.mp fun hne => hskip (.inl hne)
      split
      · next hany => exact Pinned.one hhome (by rw [if_pos hany, Nat.add_zero])
      · next hany =>
        split
        · next hzero => exact Pinned.same fun hlen => absurd (hzero ▸ hlen) (by simp)
        · next hzero => exact Pinned.one hhome (by rw [if_neg hany]; omega)

theorem pinned_foldl (ls : List (Option Nat)) (r : List Pin × Nat) : Pinned core addr team op ls r (ls.foldl (pinOne core addr team op) r) := by
  induction ls generalizing r with
  | nil => exact Pinned.same fun _ n hn => absurd hn List.not_mem_nil
  | cons l? ls ih => exact (pinned_pinOne r l?).append (ih _)
end

/-- The core once lines are pinned (R193). -/
def Core.pinAll (core addr team : Nat) (op : Option Nat) (ls : List (Option Nat)) (c : Core) : Core :=
  { c with pins := (ls.foldl (pinOne core addr team op) (c.pins, 16384 - pinCount c.pins)).1 }

theorem State.pinLines_eq (s : State) (core addr team : Nat) (op : Option Nat) (ls : List (Option Nat)) :
    s.pinLines core addr team op ls = s.setCore core (Core.pinAll core addr team op ls) := rfl

/-- Pins made of a TFETCH on these lines become those of an operation (R193, R197). -/
def Core.takeUp (id : Nat) (ls : List (Option Nat)) (c : Core) : Core :=
  { c with pins := c.pins.map (fun p => if p.op.isNone && ls.contains (some p.line) then { p with op := some id } else p) }

theorem State.consume_eq {s : State} {core : Nat} {q : MCmd} {g : Group} (hg : s.group q.gid = some g) : s.consume core q =
    s.setCore core (fun c => (c.pinAll core 0 q.team (some q.id) (q.lines s (agentOf g))).takeUp q.id (q.lines s (agentOf g))) := by
  unfold State.consume State.pinOp
  simp only [hg, State.pinLines_eq]
  exact State.setCore_setCore ..

/-! ## The start of occupancy -/

section
variable {s : State} {core : Nat} {q : MCmd} {u v : List MCmd}

/-- The first MMA that has not started, granted and with no marker before it, is next (R259). -/
theorem nextStart_of_first (hmq : (s.core core).mq = u ++ q :: v) (hu : ∀ p ∈ u, p.kind ≠ .marker ∧ (p.kind = .mma → p.started = true) ∧ p.id ≠ q.id)
    (hkind : q.kind = .mma) (hstarted : q.started = false) (hgranted : q.granted = true) : nextStart s core = some q := by
  have hfind : (u ++ q :: v).find? (fun q => q.kind == .mma && !q.started) = some q := by
    rw [List.find?_append, List.find?_eq_none.mpr fun p hp => ?_, Option.none_or, List.find?_cons_of_pos (by rw [hkind, hstarted]; rfl)]
    intro hfirst
    obtain ⟨hk, hs⟩ := Bool.and_eq_true_iff.mp hfirst
    rw [(hu p hp).2.1 (beq_iff_eq.mp hk)] at hs
    exact Bool.noConfusion hs
  have hbefore : (u ++ q :: v).takeWhile (fun p => p.id != q.id) = u := by
    rw [List.takeWhile_append_of_pos fun p hp => bne_iff_ne.mpr (hu p hp).2.2, List.takeWhile_cons_of_neg (by simp), List.append_nil]
  have hmarker : u.any (fun p => p.kind == .marker) = false := List.any_eq_false.mpr fun p hp hk => (hu p hp).1 (beq_iff_eq.mp hk)
  unfold nextStart
  simp only [hmq, hfind, hbefore, hmarker, hgranted]
  rfl
end

/-- The pins of the core once an operation has taken up its lines: those of others stand, and none on its lines is left to a TFETCH. -/
theorem takeUp_pins (id core addr team : Nat) (ls : List (Option Nat)) (c : Core) :
    (∀ p ∈ c.pins, p.op ≠ none → p ∈ ((c.pinAll core addr team (some id) ls).takeUp id ls).pins) ∧
      ∀ p ∈ ((c.pinAll core addr team (some id) ls).takeUp id ls).pins, some p.line ∈ ls → p.op ≠ none := by
  obtain ⟨ps, hps, -⟩ := (pinned_foldl (core := core) (addr := addr) (team := team) (op := some id) ls (c.pins, 16384 - pinCount c.pins)).grows
  refine ⟨fun p hp hop => List.mem_map.mpr ⟨p, ?_, ?_⟩, fun p hp hline => ?_⟩
  · rw [Core.pinAll, hps]
    exact List.mem_append_left _ hp
  · rw [Option.isNone_eq_false_iff.mpr (Option.isSome_iff_ne_none.mpr hop)]
    rfl
  · obtain ⟨p', -, rfl⟩ := List.mem_map.mp hp
    by_cases htaken : (p'.op.isNone && ls.contains (some p'.line)) = true
    · rw [if_pos htaken]
      exact Option.some_ne_none id
    · rw [if_neg htaken] at hline ⊢
      intro hnone
      exact htaken (Bool.and_eq_true_iff.mpr ⟨by rw [hnone]; rfl, List.contains_iff_mem.mpr hline⟩)

/-- The first part of O24: MMA_OCCUPANCY_START (R192, R193, R197, R259, R269). -/
theorem occupancyStarts (core : Nat) : OccupancyStarts core := by
  intro s q u v g hstands hmq hu hkind hstarted hgranted hg
  have hnext := nextStart_of_first hmq hu hkind hstarted hgranted
  have hfirst : firstLclk s core q = firstOf s core q := rfl
  refine ⟨fun hearly => ?_, fun hdue => ?_⟩
  · show execMmaOccupancyStart core s = _
    unfold execMmaOccupancyStart
    simp only [State.drain_of_stands hstands, hnext, hfirst, if_pos hearly]
  · obtain ⟨e, he⟩ : ∃ e, e = firstOf s core q + occupancy q.mode (recOf q.recA).fmt q.m q.n q.k - 1 := ⟨_, rfl⟩
    have hmqs (c : Core) : updWhere (fun p => p.id == q.id) (fun p => { p with started := true, occEnd := e }) c.mq = (occupied c q.id e).mq :=
      List.map_congr_left fun p _ => by simp only [beq_iff_eq]
    have hoccupy : (fun c : Core => { c with eng := .live, engEnd := e, mq := updWhere (fun p => p.id == q.id) (fun p => { p with started := true, occEnd := e }) c.mq }) =
        fun c => occupied c q.id e := funext fun c => by rw [hmqs]; rfl
    have hrun : exec (.mmaOccupancyStart core) s = .next ((s.setCore core (fun c => occupied c q.id e)).consume core q) := by
      show execMmaOccupancyStart core s = _
      unfold execMmaOccupancyStart
      simp only [State.drain_of_stands hstands, hnext, hfirst, if_neg (not_lt.mpr hdue), ← he, hoccupy]
    rw [State.consume_eq (s := s.setCore core (fun c => occupied c q.id e)) (g := g) hg, lines_setCore, State.setCore_setCore] at hrun
    refine ⟨_, hrun, rfl, fun k hk => State.core_setCore_ne s hk _, ?_, ?_⟩
    · rw [State.core_setCore_self, ← he]
      rfl
    · rw [State.core_setCore_self]
      exact takeUp_pins q.id core 0 q.team (q.lines s (agentOf g)) (occupied (s.core core) q.id e)

/-! ## TFETCH -/

/-- What a TFETCH makes of the pins of its core: with kind 11 it lets its record's go, else it pins its lines (R197). -/
def Core.fetched (core : Nat) (q : CopyCmd) (g : Group) (ls : List (Option Nat)) (c : Core) : Core :=
  if q.kind = 11 then { c with pins := c.pins.filter (fun p => !(p.op.isNone && p.recAt == (recOf q.record).addr && p.team == g.team)) }
  else c.pinAll core (recOf q.record).addr g.team none ls

theorem execTfetchComplete_eq {s : State} {core : Nat} {q : CopyCmd} {r : List CopyCmd} {g : Group} (hq : (s.core core).tfetch = q :: r)
    (hmarker : q.marker = false) (hg : s.group q.gid = some g) : exec (.tfetchComplete core) s = .next ((s.setCore core (fun c =>
      Core.fetched core q g (spanLines s (agentOf g) ((recOf q.record).spans true)) { c with tfetch := r })).setGroup q.gid (Group.countDown q.dc s.bw)) := by
  show execTfetchComplete core s = _
  unfold execTfetchComplete
  rw [State.setGroup_countDown]
  simp only [hq, hmarker, hg, Core.fetched, State.pinLines_eq]
  by_cases hk : q.kind = 11
  · simp only [if_pos hk, State.setCore_setCore]
    rfl
  · simp only [if_neg hk, State.setCore_setCore]
    rfl

/-- The last part of O24: TFETCH_COMPLETE (R193, R197). -/
theorem tfetchEnds (core : Nat) : TfetchEnds core := by
  intro s q r g hq hmarker hg lines count
  have hrun := execTfetchComplete_eq hq hmarker hg
  have hcore : ((s.setCore core (fun c => Core.fetched core q g lines { c with tfetch := r })).setGroup q.gid (Group.countDown q.dc s.bw)).core core =
      Core.fetched core q g lines { s.core core with tfetch := r } :=
    State.core_setCore_self s core (fun c => Core.fetched core q g lines { c with tfetch := r })
  refine ⟨_, hrun, rfl, ?_⟩
  rw [hcore]
  refine ⟨?_, fun hk p => ?_, fun hk => ?_, g.countDown q.dc s.bw, ?_, Group.countDown_dcv q.dc s.bw g, g.countDown_v q.dc s.bw, g.countDown_s q.dc s.bw⟩
  · unfold Core.fetched
    split
    · rfl
    · rfl
  · have hkept : (!(p.op.isNone && p.recAt == (recOf q.record).addr && p.team == g.team)) = true ↔
        ¬ (p.op = none ∧ p.recAt = (recOf q.record).addr ∧ p.team = g.team) := by
      rw [Bool.not_eq_true', Bool.eq_false_iff, Ne, Bool.and_eq_true, Bool.and_eq_true, Option.isNone_iff_eq_none, beq_iff_eq, beq_iff_eq, and_assoc]
    rw [Core.fetched, if_pos hk, List.mem_filter, hkept]
  · obtain ⟨⟨ps, hps, hof⟩, hbudget, -, hfull⟩ := pinned_foldl (core := core) (addr := (recOf q.record).addr) (team := g.team) (op := none) lines
      ((s.core core).pins, 16384 - pinCount (s.core core).pins)
    have hfetched : (Core.fetched core q g lines { s.core core with tfetch := r }).pins =
      (lines.foldl (pinOne core (recOf q.record).addr g.team none) ((s.core core).pins, 16384 - pinCount (s.core core).pins)).1 :=
        congrArg Core.pins (if_neg hk)
    have hcount : count (Core.fetched core q g lines { s.core core with tfetch := r }) = pinCount _ := congrArg pinCount hfetched
    rw [hcount, hfetched]
    have hold : count (s.core core) = pinCount (s.core core).pins := rfl
    rw [hold]
    dsimp only at hps hbudget hfull
    refine ⟨fun p hp => hps ▸ List.mem_append_left _ hp, by omega, fun p hp hnew => ?_, fun hlen => hfull (by omega)⟩
    exact hof p ((List.mem_append.mp (hps ▸ hp)).resolve_left hnew)
  · refine (State.group_setGroup_self (s.setCore core _) q.gid _ (Group.countDown_gid q.dc s.bw)).trans ?_
    exact congrArg _ hg

end Sys2Proof.Machine
end

section
/-! AST_COMPLETE (O24): the stores of an AST leave the cores (R200, R204), and what it has written and counted joins the machine. -/

namespace Sys2Proof.Machine
open Sys2Proof.Rules

/-! ## The stores leave the cores -/

theorem foldl_cores {α : Type} {f : State → α → State} (hf : ∀ s a, (f s a).cores = s.cores) (l : List α) (s : State) : (l.foldl f s).cores = s.cores := by
  induction l generalizing s with
  | nil => rfl
  | cons a r ih => exact (ih (f s a)).trans (hf s a)

theorem State.setLine_cores (s : State) (n : Nat) (f : Line → Line) : (s.setLine n f).cores = s.cores := (State.setLine_reads s n f).cores

theorem State.makeClean_cores (s : State) (line : Nat) : (s.makeClean line).cores = s.cores := by
  unfold State.makeClean
  dsimp only
  split
  · rfl
  · split
    · rfl
    · split
      · rfl
      · rw [State.setLine_cores]
        exact (State.writeBack_reads ..).cores

theorem State.perform_cores (s : State) (core : Option Nat) (ctx line cls : Nat) (xf : Bool) (rid : Option (Nat × Nat)) (ws : List (Nat × List Byte)) :
    (s.perform core ctx line cls xf rid ws).1.cores = s.cores := by
  have hclean : (if (s.lineSt line).dirty || !(s.lineSt line).inL2 then s else s.makeClean line).cores = s.cores := by
    split
    · rfl
    · exact State.makeClean_cores s line
  have hwrite (u : State) : (clearPoison (ws.foldl (fun (q : State) (w : Nat × List Byte) => q.wrBytes w.1 w.2) u) (ws.map (fun w => (w.1, w.2.length)))).cores =
    u.cores := foldl_cores (f := fun (q : State) (w : Nat × List Byte) => q.wrBytes w.1 w.2) (fun _ _ => rfl) ws u
  unfold State.perform
  dsimp only
  rw [State.setLine_cores]
  cases core with
  | none => exact (hwrite _).trans hclean
  | some c => exact (foldl_cores (f := fun (q : State) (w : Nat × List Byte) => q.l1Patch c w.1 w.2) (fun _ _ => rfl) ws _).trans ((hwrite _).trans hclean)

theorem eStore_cores (w : Work) (a : Agent) (pa : Nat) (l : Leaf) (bs : List Byte) : (eStore w a pa l bs).s.cores = w.s.cores := by
  unfold eStore
  split
  · rfl
  · refine (foldl_cores (f := fun (q : State) v => q.invalidate v) (fun _ _ => rfl) _ _).trans ?_
    rw [State.perform_cores, (State.touchLine_reads ..).cores]
    rfl

theorem eWrite_cores {w w' : Work} {a : Agent} {space addr fmt bsz dir : Nat} {bs : List Byte} (h : eWrite w a space addr bs fmt bsz dir = .ok w') :
    w'.s.cores = w.s.cores := by
  unfold eWrite at h
  split at h
  · split at h
    · cases h
    · next pa l _ =>
      split at h
      · cases h
      · split at h
        · cases h
        · rw [← Except.ok.inj h]
          exact eStore_cores w a pa l bs
  · split at h
    · cases h
    · rw [← Except.ok.inj h]
      rfl

theorem writeElem_cores {w w' : Work} {a : Agent} {f space r x bsz dir raw : Nat} (h : writeElem w a f space r x bsz dir raw = .ok w') :
    w'.s.cores = w.s.cores := by
  unfold writeElem at h
  dsimp only at h
  split at h
  · exact eWrite_cores h
  · split at h
    · cases h
    · exact eWrite_cores h

theorem AstW.put_cores (k : AstW) (c : MxCnt) {f : Work → Except EErr Work} (hf : ∀ w w', f w = .ok w' → w'.s.cores = w.s.cores) :
    (k.put c f).w.s.cores = k.w.s.cores := by
  unfold AstW.put
  split
  · rfl
  · split
    · next w hw => exact hf k.w w hw
    · rfl

theorem foldl_astCores {α : Type} {f : AstW → α → AstW} (hf : ∀ k a, (f k a).w.s.cores = k.w.s.cores) (l : List α) (k : AstW) :
    (l.foldl f k).w.s.cores = k.w.s.cores := by
  induction l generalizing k with
  | nil => rfl
  | cons a r ih => exact (ih (f k a)).trans (hf k a)

theorem astRow_cores (q : MCmd) (r : TRec) (a : Agent) (row : Nat) (xs : List (Nat × Nat)) (k : AstW) : (astRow q r a row xs k).w.s.cores = k.w.s.cores := by
  unfold astRow
  dsimp only
  split
  · exact foldl_astCores (fun k p => AstW.put_cores k _ fun w w' h => writeElem_cores h) xs k
  · refine foldl_astCores (fun k b => ?_) _ k
    refine (AstW.put_cores _ _ fun w w' h => eWrite_cores h).trans ?_
    exact foldl_astCores (fun k p => AstW.put_cores k _ fun w w' h => writeElem_cores h) _ k

/-- The stores of an AST leave every core as it stands (R200). -/
theorem astRun_cores (s : State) (a : Agent) (q : MCmd) : (astRun s a q).w.s.cores = s.cores := by
  unfold astRun
  exact foldl_astCores (fun k row => astRow_cores ..) _ _

/-! ## What a group receives -/

theorem updAmax_frame (g : Group) (n : Nat) : g.updAmax n = { g with amax := (g.updAmax n).amax } := by
  unfold Group.updAmax
  split_ifs <;> rfl

theorem foldl_updAmax_frame (ns : List Nat) (g : Group) : ns.foldl Group.updAmax g = { g with amax := (ns.foldl Group.updAmax g).amax } := by
  induction ns generalizing g with
  | nil => rfl
  | cons n ns ih =>
    rw [List.foldl_cons, ih, updAmax_frame]

/-- The write time of a group plays no part in AMAX. -/
theorem updAmax_joinGw (g : Group) (t n : Nat) : (g.joinGw t).updAmax n = (g.updAmax n).joinGw t := by
  unfold Group.updAmax Group.joinGw
  dsimp only
  split_ifs <;> rfl

theorem foldl_updAmax_joinGw (ns : List Nat) (g : Group) (t : Nat) : ns.foldl Group.updAmax (g.joinGw t) = (ns.foldl Group.updAmax g).joinGw t := by
  induction ns generalizing g with
  | nil => rfl
  | cons n ns ih => rw [List.foldl_cons, List.foldl_cons, updAmax_joinGw, ih]

/-- Two groups alike in their registers, their AMAX and their write time. -/
structure SameRegs (g h : Group) : Prop where
  gw : h.gw = g.gw
  v : h.v = g.v
  s : h.s = g.s
  amax : h.amax = g.amax

/-- A group whose AST ends: its stores and its own end join GW, and the magnitudes AMAX (R200). -/
def Group.stores (by_ : Mask) (mags : List Nat) (gw now : Nat) (g : Group) : Group := (((g.joinGw gw).commit by_ 0 mags).joinGw now)

theorem Group.stores_regs (by_ : Mask) (mags : List Nat) (gw now : Nat) (g : Group) :
    (g.stores by_ mags gw now).gw = max (max g.gw gw) now ∧ (g.stores by_ mags gw now).v = g.v ∧ (g.stores by_ mags gw now).s = g.s ∧
      (g.stores by_ mags gw now).amax = (mags.foldl Group.updAmax g).amax := by
  have hcommit : ∃ cs, (g.joinGw gw).commit by_ 0 mags = { (mags.foldl Group.updAmax g).joinGw gw with commits := cs } := by
    unfold Group.commit
    rw [Group.orFsr_zero, foldl_updAmax_joinGw]
    split
    · exact ⟨_, rfl⟩
    · exact ⟨_, rfl⟩
  obtain ⟨cs, hcommit⟩ := hcommit
  rw [Group.stores, hcommit, foldl_updAmax_frame]
  exact ⟨rfl, rfl, rfl, rfl⟩

/-- Counters that fall change no register of a group. -/
theorem foldl_lower_regs (l : List (Nat × Nat)) {s : State} {gid : Nat} {g : Group} (hg : s.group gid = some g) :
    ∃ h, (l.foldl State.lower s).group gid = some h ∧ SameRegs g h := by
  induction l generalizing s g with
  | nil => exact ⟨g, hg, rfl, rfl, rfl, rfl⟩
  | cons p r ih =>
    by_cases hp : gid = p.1
    · have hself : (s.lower p).group gid = some (g.countDown p.2 s.bw) := by
        rw [hp] at hg ⊢
        exact (State.group_setGroup_self s p.1 _ (Group.countDown_gid p.2 s.bw)).trans (congrArg _ hg)
      obtain ⟨h, hh, hgw, hv, hs, hamax⟩ := ih hself
      have hframe := Group.countDown_frame p.2 s.bw g
      rw [hframe] at hgw hv hs hamax
      exact ⟨h, hh, hgw, hv, hs, hamax⟩
    · exact ih ((State.group_setGroup_ne s p.1 gid _ (Group.countDown_gid p.2 s.bw) hp).trans hg)

/-! ## The end of an AST -/

/-- The core whose queued MMAs read what an AST has written (R204). -/
def Core.patched (ws : List (Nat × Nat × List Byte)) (c : Core) : Core := { c with mq := c.mq.map (fun p => { p with was := p.was.map (patchWas ws) }) }

/-- The machine when an AST has stored its region, and its group has received what it is due (R200, R203, R204). -/
def AstW.ends (k : AstW) (core now : Nat) (q : MCmd) (mags : List Nat) : State :=
  (((k.w.s.setGroup q.gid (Group.stores q.by_ mags k.w.gw now)).setTeam q.team (Team.countMx k.cnt)).setCore core (Core.patched k.w.wrote))

theorem execAstComplete_of_ok {s : State} {core : Nat} {q : MCmd} {g : Group} (h : Rules.AtHead s core .ast q g)
    (hok : (astRun s { agentOf g with id := q.id } q).err = none) {mags : List Nat} (hmags : mags = if q.int32 then [] else
      (List.range q.m).flatMap (fun i => (List.range q.n).map (fun j => (((s.team q.team).tile q.tile).at_ i j).toNat))) :
    exec (.astComplete core) s = .next (((astRun s { agentOf g with id := q.id } q).ends core s.bw q mags).finishOp core q) := by
  have hgroup (k : AstW) : (k.w.s.astDone core q k).setGroup q.gid (fun g => (g.commit q.by_ 0 mags).joinGw s.bw) = k.ends core s.bw q mags :=
    congrArg (fun u : State => (u.setTeam q.team (Team.countMx k.cnt)).setCore core (Core.patched k.w.wrote))
      (State.setGroup_setGroup k.w.s q.gid (fun g => g.joinGw k.w.gw) (fun g => (g.commit q.by_ 0 mags).joinGw s.bw) fun _ => rfl)
  show execAstComplete core s = _
  unfold execAstComplete
  simp only [drain_of_atHead h, headOp_of_atHead h, h.fault, hok, ← hmags, hgroup]

/-- What an AST leaves when its operation has left the queue (R200, R203, R204). -/
theorem AstW.ends_spec (k : AstW) {core now : Nat} {q : MCmd} {mags : List Nat}
    (hstand : ∀ p ∈ (k.w.s.core core).mq.filter (fun p => p.id != q.id), p.kind = .mma ∨ p.kind = .ald ∨ p.kind = .ast) :
    ((k.ends core now q mags).finishOp core q).mem = k.w.s.mem ∧
      ((k.ends core now q mags).finishOp core q).teams = (k.w.s.setTeam q.team (Team.countMx k.cnt)).teams ∧
      (((k.ends core now q mags).finishOp core q).core core).mq =
        ((k.w.s.core core).mq.filter (fun p => p.id != q.id)).map (fun p => { p with was := p.was.map (patchWas k.w.wrote) }) ∧
      ∀ g, k.w.s.group q.gid = some g → ∃ h, ((k.ends core now q mags).finishOp core q).group q.gid = some h ∧
        SameRegs (g.stores q.by_ mags k.w.gw now) h := by
  have hcore : (k.ends core now q mags).core core = (k.w.s.core core).patched k.w.wrote := State.core_setCore_self _ core _
  have hfilter : ((k.ends core now q mags).core core).mq.filter (fun p => p.id != q.id) =
      ((k.w.s.core core).mq.filter (fun p => p.id != q.id)).map (fun p => { p with was := p.was.map (patchWas k.w.wrote) }) := by
    rw [hcore, Core.patched, List.filter_map]
    rfl
  have heq := State.finishOp_eq (u := k.ends core now q mags) (core := core) (q := q) (fun p hp => by
    rw [hfilter] at hp
    obtain ⟨p', hp', rfl⟩ := List.mem_map.mp hp
    exact hstand p' hp')
  have hfold := State.foldl_lower q.members (k.ends core now q mags)
  refine ⟨by rw [heq, hfold]; rfl, by rw [heq, hfold]; rfl, ?_, fun g hg => ?_⟩
  · rw [heq, State.core_setCore_self, hfold]
    exact hfilter
  · have hgroup : (k.ends core now q mags).group q.gid = some (g.stores q.by_ mags k.w.gw now) :=
      (State.group_setGroup_self k.w.s q.gid (Group.stores q.by_ mags k.w.gw now) fun g => Group.commit_gid ..).trans (congrArg _ hg)
    rw [heq]
    exact foldl_lower_regs q.members hgroup

/-- The sixth part of O24: AST_COMPLETE (R200, R202 to R204). -/
theorem astEnds (core : Nat) : AstEnds core := by
  intro s q g h hok r tile mags
  have hrun := execAstComplete_of_ok h hok (mags := mags) rfl
  have hcore : r.w.s.core core = s.core core := by rw [State.core, astRun_cores]; rfl
  obtain ⟨hmem, hteams, hmq, hgroup⟩ := AstW.ends_spec r (core := core) (now := s.bw) (q := q) (mags := mags) (by rw [hcore]; exact (rest_of_atHead h).2)
  refine ⟨_, hrun, hmem, hmq, fun hteam => ?_, fun k hk => ?_⟩
  · refine (congrArg Team.mx ((team_of_teams hteams q.team).trans (State.team_setTeam_self hteam (f := Team.countMx r.cnt) (Team.countMx_tid r.cnt)))).trans ?_
    exact Team.countMx_mx ..
  · obtain ⟨m, hm, hgw, hv, hs, hamax⟩ := hgroup k hk
    obtain ⟨hgw', hv', hs', hamax'⟩ := Group.stores_regs q.by_ mags r.w.gw s.bw k
    exact ⟨m, hm, hgw.trans hgw', hv.trans hv', hs.trans hs', hamax.trans hamax'⟩

/-- Settles O24: the steps of the matrix engine and of its tile fetches. -/
theorem matrixSteps : Obligations.MatrixSteps := by
  unfold Obligations.MatrixSteps
  exact fun core => ⟨occupancyStarts core, mmaEnds core, tileFaults core, aldEnds core, astEnds core, tfetchEnds core⟩

end Sys2Proof.Machine
end
